-- ==== Sys2Proof/Word.lean ====
section
/-! DEFINITION. The word and byte types of the module: a register is 32 bits wide, memory is addressed in bytes (R566). -/

namespace Sys2Proof

/-- A 32-bit word: a register, a descriptor word, a header word. -/
abbrev Word := BitVec 32

/-- The smallest addressable unit of memory. -/
abbrev Byte := BitVec 8

end Sys2Proof
end

