-- ==== Sys2Proof/Syntax.lean ====
section
/-! DEFINITION. The commands of the module: one constructor per row of the spec's table of operations and events, with
the values the command brings from outside (an address, a written word, a measured quantity, a received packet). -/

namespace Sys2Proof

/-- A logical core number (R23). -/
abbrev CoreId := Fin 1024
/-- A compute die CD0 to CD7. -/
abbrev DieId := Fin 8
/-- An HBM stack and its controller. -/
abbrev HbmId := Fin 32
/-- A fabric port FP0 to FP15. -/
abbrev FpId := Fin 16
/-- A site port SITE0 or SITE1. -/
abbrev SiteId := Fin 2
/-- A Saffron engine SAF0 to SAF4. -/
abbrev SafId := Fin 5
/-- A Clove transaction slot. -/
abbrev SlotId := Fin 16

/-- The two host ports. -/
inductive HostPort where
  | a | b
deriving DecidableEq, Repr

/-- The four requesters of a register access (R450). -/
inductive Requester where
  | portA | portB | firmware | fabric
deriving DecidableEq, Repr

/-- A register write: who writes, the BAR0 offset with its view bits (R452), the byte enables (R451), the word. -/
structure RegWr where
  rq : Requester
  addr : Nat
  be : BitVec 4
  val : Word
deriving DecidableEq, Repr

/-- A write of a register that the command names: who writes, the view (R452, R454), the byte enables, the word. -/
structure Put where
  rq : Requester
  view : Fin 4
  be : BitVec 4
  val : Word
deriving DecidableEq, Repr

/-- A register read: who reads and the BAR0 offset. -/
structure RegRd where
  rq : Requester
  addr : Nat
deriving DecidableEq, Repr

/-- A fabric packet: the four header words of R302 and the payload bytes. -/
structure Packet where
  w0 : Word
  w1 : Word
  w2 : Word
  w3 : Word
  payload : List Byte
deriving DecidableEq, Repr

/-- A packet that reached a target: its ingress port, the packet, and how many requests of its class its ingress queue
held before it (R313, R314). -/
structure Arrival where
  port : FpId
  pkt : Packet
  queued : Nat
deriving DecidableEq, Repr

/-- A register access as it crosses into its page's domain: of a host port or module firmware, or of a packet. -/
inductive RegAcc where
  | rd (r : RegRd)
  | wr (w : RegWr)
  | pkt (a : Arrival)
deriving DecidableEq, Repr

/-- The lanes that passed training at each rate, the bits of R300, and what the peer announced. -/
structure TrainResult where
  pass224 : BitVec 9
  pass112 : BitVec 9
  peerPort : Fin 16
  peerLid : BitVec 12
deriving DecidableEq, Repr

/-- A received flit (R297, R298): bytes 0 to 247 as its code corrected them, whether symbols were corrected, and the SEQ
from which the peer asks for a replay with it. Log entry 249: DESIGN CHOICE. -/
structure FlitRx where
  data : List Byte
  corrected : Bool
  replay : Option (Fin 4096)
deriving DecidableEq, Repr

/-- What the link reports to a host port (R437, R474). -/
structure HostLink where
  up : Bool
  width : Nat
  rate : Nat
deriving DecidableEq, Repr

/-- A member of a collective's group with its address record (R364): its module, core and rank, the global address of its
staging, its DEPTH, and the global address of DST. -/
structure Peer where
  lid : Nat
  core : Nat
  rank : Nat
  stage : Nat
  depth : Nat
  dst : Nat
deriving DecidableEq, Repr

/-- What a collective message says (R369). DESIGN CHOICE where R369 states no contents: START carries the record of every
included member, PRE the summaries with the FIXED bits of the member's slots, and GO the FIXED bits of the result. -/
inductive CollBody where
  | enter (sig : List Word) (p : Peer)
  | start (index : Nat) (peers : List Peer)
  | pre (sums : List Word) (fixed : List Bool)
  | go (fixed : List Bool)
  | chunk
  | free
  | report (status : Nat) (consumed : Bool)
  | stop
  /-- final status, bitmap, and the field and rank that a MISMATCH names -/
  | verdict (status bitmap field rank : Nat)
  | excluded
deriving DecidableEq, Repr

/-- A collective message: its sender and receiver as module and core, its group and sequence number, and what it says. -/
structure CollMsg where
  fromLid : Nat
  fromCore : Nat
  lid : Nat
  core : Nat
  group : Nat
  seq : Nat
  body : CollBody
deriving DecidableEq, Repr

/-- Where a delivered collective message comes from: a number in the list of messages between members of this module, or
the fabric, with the content that its packet carries. -/
inductive CollIn where
  | here (k : Nat)
  | net (a : Arrival) (m : CollMsg)
deriving DecidableEq, Repr

/-- The header of a Zwikai parcel (R411). -/
structure ParcelHdr where
  kind : Nat
  src : Nat
  dst : Nat
  route : Nat
  skind : Nat
  lid : Nat
  epoch : Nat
  core : Nat
  round : Nat
  group : Nat
  index : Nat
  k : Nat
  m : Nat
  plen : Nat
  sendTime : Nat
  ctr : Nat
  echo : Nat
deriving DecidableEq, Repr

/-- How a parcel arrives: as the bytes of a frame at a site port, or in class C2 packets from a gateway or a module (R389,
R410). -/
inductive ParcelIn where
  | frame (n : SiteId) (bytes : List Byte)
  | fabric (pkts : List Arrival)
deriving DecidableEq, Repr

/-- Byte ranges of a stream, START to END − 1; none is the whole stream (R395). -/
abbrev Ranges := Option (List (Nat × Nat))

/-- A contribution of a decision: its round and site, TAU, and its weight as an FP32 code (R404). -/
structure Contribution where
  round : Nat
  site : Nat
  tau : Nat
  weight : Nat
deriving DecidableEq, Repr

/-- A decision (R404); drops are a round and a site each. -/
structure Decision where
  round : Nat
  epoch : Nat
  members : Nat
  kind : Nat
  decider : Nat
  contribs : List Contribution
  drops : List (Nat × Nat)
  n : Nat
  observers : Nat
deriving DecidableEq, Repr

/-- What a CTRL parcel says beyond its header (R420). -/
inductive ZCtrl where
  /-- a group, and the 48-bit bitmap of the parcels missing from it -/
  | nak (group missing : Nat)
  | complete
  | missing (r : Ranges)
  | final (r : Ranges)
  | ping
  /-- round, for each of the rounds the bitmap of sites whose contribution the sender's site holds, and the largest jump -/
  | have_ (round : Nat) (held : List (Nat × Nat)) (jump : Nat)
  | decide_ (d : Decision)
  | dack (round : Nat)
  | commit (round : Nat)
  | beat (epoch members state round fork : Nat)
  | newEpoch (epoch members base : Nat)
  | ledger (fork round size : Nat)
  | join (site : Nat)
  | ready (site round : Nat)
deriving DecidableEq, Repr

/-- A CTRL parcel that arrives, and the message that its plaintext spells. -/
structure CtrlIn where
  carrier : ParcelIn
  body : ZCtrl
deriving DecidableEq, Repr

/-- What a module tells its convener, and what a convener tells the modules of its site (R388, R389). -/
inductive ConvBody where
  | sent (core round : Nat)
  | finalSent (core round : Nat)
  | holds (site round : Nat)
  | jump (us : Nat)
  | applied (round : Nat)
  | commit (d : Decision)
  /-- the epoch, and the members of the other side of a rejoin -/
  | epoch (epoch members enrolled state fork other : Nat)
  /-- the contribution of a void round became late (R429) -/
  | late (round : Nat)
deriving DecidableEq, Repr

/-- A convener message that arrives as a class C0 MSG packet. -/
structure ConvIn where
  pkt : Packet
  body : ConvBody
deriving DecidableEq, Repr

/-- What a compute die's self-tests show at BS09 (R539, R545): the die runs, its failing physical cores, and its failing
banks as physical core and bank. -/
structure DieTest where
  ok : Bool
  cores : List (Fin 136)
  banks : List (Fin 136 × Fin 8)
deriving DecidableEq, Repr

/-- The replay-protected block of the flash (R479). Log entries 170: DESIGN CHOICE, 231: DEDUCED. -/
structure Rpb where
  /-- 0 MANUFACTURE, 1 PROVISIONED, 2 DEPLOYED, 3 RETURNED -/
  lc : Nat
  fwSvn : Nat
  cfgSvn : Nat
  d2History : Nat
  /-- SHA-384 over the owner keys; 0 when there is no owner -/
  ownerHash : Nat
  /-- the monotonic write counter (R479) -/
  writes : Nat
deriving DecidableEq, Repr

/-- What a start meets outside the state (R539): a rail that fails with its mV, or a PLL; the step that runs past its
timeout (0: none), with the die it was at; whether the device secret, the identity and the key store are in order, and the
replay-protected block with its HMAC where the flash gives another than the module last wrote; the FIRMWARE images and the CONFIG record in flash; the self-test of each die, the training of each
stack, the self-test of each Saffron engine, the calibration of each fabric and site port (an absent entry passes); and
whether BS13 and BS14 succeed. -/
structure BootIn where
  rail : Option (Nat × Nat)
  pll : Option (Fin 15)
  hang : Nat
  hangDie : Nat
  secretOk : Bool
  block : Option (Rpb × List Byte)
  primary : List Byte
  secondary : List Byte
  config : List Byte
  identityOk : Bool
  keysOk : Bool
  dies : List DieTest
  hbms : List Bool
  saf : List Bool
  ports : List Bool
  sites : List Bool
  hostOk : Bool
  readyOk : Bool
deriving DecidableEq, Repr

/-- An error that HBM has taken: a symbol of the burst at a local offset (R271). -/
structure HbmHit where
  x : Nat
  sym : Fin 35
deriving DecidableEq, Repr

/-- An error that a scratchpad has taken: a bit of the code word at an offset of a physical core (R166). -/
structure SpHit where
  phys : Fin 1088
  x : Nat
  b : Fin 72
deriving DecidableEq, Repr

/-- How a save goes (R101): the first K-step that it leaves out, and whether its writes succeed. -/
structure SaveIn where
  ks : Nat
  ok : Bool
deriving DecidableEq, Repr

/-- A frame that arrives at a site port (R414). -/
structure FrameIn where
  site : SiteId
  bytes : List Byte
deriving DecidableEq, Repr

/-- A read of a word of a host port's configuration space (R439). -/
structure ConfigIn where
  port : HostPort
  word : Fin 1024
deriving DecidableEq, Repr

/-- The commands, one for each row of the table in its order. -/
inductive Instr where
  /-- R147: A write to COREn.DR_TAIL gives the sequencer new descriptors to fetch. -/
  | drTailWrite (n : CoreId) (p : Put)
  /-- R147: The sequencer fetches a descriptor exactly once, after DR_TAIL has passed its index and at most 16 descriptors ahead of issue. -/
  | descriptorFetch (n : CoreId)
  /-- R11: A descriptor with type code 0x0 or 0xC to 0xF issues; nothing is executed and it completes REFUSED with reason 0x01. -/
  | reservedType (n : CoreId)
  /-- R155: A header wait or SYNC wait has blocked the head of the ring for SQ_WAIT_TMO.US; the descriptor completes as TIMEOUT without consuming a count. -/
  | waitTimeout (n : CoreId)
  /-- R87: A MATMUL pass issues, is checked under R95 and starts computing D = A·B + C sweep by sweep. -/
  | matmul (n : CoreId)
  /-- R121: A max-exponent scan over A, B and C ends and the pass starts its attempt at the resulting anchor. -/
  | maxExponentScan (n : CoreId)
  /-- R77: The sequencer starts the next sweep once its start cycle is reached and the accumulator it needs has drained. -/
  | sweepStart (n : CoreId)
  /-- R75: After a sweep's last product the drain reads the accumulators, rounds them and writes the results to scratchpad. -/
  | sweepDrain (n : CoreId)
  /-- R124: At the first K-step boundary after an overflowing drain ends, injection stops, all values are discarded and the next attempt starts from sweep 0. -/
  | attemptRepeat (n : CoreId)
  /-- R93: The rounding pipeline writes the last result of the last sweep and the pass writes its completion record. -/
  | passComplete (n : CoreId)
  /-- R99: A power-manager pause request takes effect at the next K-step boundary, and operands hold their places. -/
  | issuePause (n : CoreId)
  /-- R99: The pause ends and injection resumes at the held k. -/
  | pauseEnd (n : CoreId)
  /-- R100: A write sets MX_CTRL.PREEMPT to 1; the engine saves the pass, or writes a VALID = 0 header when IDLE. -/
  | preemptRequest (n : CoreId) (rq : Requester) (v : Word)
  /-- R101: At the first K-step boundary after the request, injection stops at k_s and the accumulators and header are written to the save area. -/
  | preemptSave (n : CoreId) (v : SaveIn)
  /-- R106: The save header is written; STATE becomes SAVED and PREEMPTS rises. -/
  | saveComplete (n : CoreId)
  /-- R102: A write returns PREEMPT to 0; the engine reloads the save area, restarts the pass or returns to IDLE. -/
  | preemptRelease (n : CoreId) (rq : Requester) (v : Word)
  /-- R106: The reload ends and the engine injects k_s, or holds it when a pause is requested. -/
  | restoreComplete (n : CoreId)
  /-- R103: A residue or lane-parity fault restarts the pass from sweep 0, or completes it as CORRUPT at RESTART_MAX. -/
  | datapathFault (n : CoreId)
  /-- R104: An operand or C read fails ECC beyond correction and the pass completes as CORRUPT. -/
  | operandUe (n : CoreId) (x : Nat)
  /-- R139: A CHAIN descriptor issues and the engine starts sending, adding or converting RAW tiles by its position. -/
  | chain (n : CoreId)
  /-- R141: The engine takes incoming tile t when RCV_TOKEN holds a count, checks it, adds its own slot and sends or converts the sum. -/
  | chainTile (n : CoreId)
  /-- R176: A MOVE issues and copies ROWS rows of ROW_BYTES bytes, with scale bytes, split into parts. -/
  | move (n : CoreId)
  /-- R178: A MOVE that touches a register window issues as one 4-byte register request. -/
  | registerMove (n : CoreId)
  /-- R180: A SYNC consumes its waits together, sends its enabled signals as C0, and completes once they are acknowledged. -/
  | sync (n : CoreId)
  /-- R182: A FENCE holds issue until every earlier descriptor has a record, reports FAILS and may set HALT. -/
  | fence (n : CoreId)
  /-- R190: An FPRINT writes the CRC-64 fingerprint of each slice and a digest. -/
  | fprint (n : CoreId)
  /-- R185: The vector operation ADD computes s0 + s1 with one rounding. -/
  | add (n : CoreId)
  /-- R185: The vector operation SUB computes s0 − s1. -/
  | sub (n : CoreId)
  /-- R185: The vector operation MUL computes s0 × s1. -/
  | mul (n : CoreId)
  /-- R185: The vector operation FMA computes s0 × s1 + s2 with one rounding. -/
  | fma (n : CoreId)
  /-- R186: The vector operation MAX selects the larger source. -/
  | max (n : CoreId)
  /-- R186: The vector operation MIN selects the smaller source. -/
  | min (n : CoreId)
  /-- R185: The vector operation SCALE computes s0 × IMM0 + IMM1. -/
  | scale (n : CoreId)
  /-- R185: The vector operation CVT converts s0 to D_FMT. -/
  | cvt (n : CoreId)
  /-- R186: The vector operation ABS writes |s0|. -/
  | abs (n : CoreId)
  /-- R186: The vector operation NEG writes −s0. -/
  | neg (n : CoreId)
  /-- R186: The vector operation EXP2 computes 2^s0. -/
  | exp2 (n : CoreId)
  /-- R186: The vector operation LOG2 computes log2 of s0. -/
  | log2 (n : CoreId)
  /-- R186: The vector operation RCP computes 1 ÷ s0. -/
  | rcp (n : CoreId)
  /-- R186: The vector operation RSQRT computes 1 ÷ sqrt(s0). -/
  | rsqrt (n : CoreId)
  /-- R186: The vector operation SQRT computes sqrt(s0). -/
  | sqrt (n : CoreId)
  /-- R186: The vector operation TANH computes tanh(s0). -/
  | tanh (n : CoreId)
  /-- R186: The vector operation ERF computes erf(s0). -/
  | erf (n : CoreId)
  /-- R185: The vector operation ROWSUM adds each row exactly and rounds once. -/
  | rowsum (n : CoreId)
  /-- R186: The vector operation ROWMAX writes the maximum of each row. -/
  | rowmax (n : CoreId)
  /-- R185: The vector operation ROWSSQ writes each row's exact sum of squares, rounded once. -/
  | rowssq (n : CoreId)
  /-- R183: The vector operation ROWMUL multiplies each row by s1(r, 0). -/
  | rowmul (n : CoreId)
  /-- R183: The vector operation COLMUL multiplies each column by s1(0, c). -/
  | colmul (n : CoreId)
  /-- R392: The Zwikai operation ZENC quantises anchor-minus-local deltas into a Q4 or Q8 stream and updates ZRES. -/
  | zenc (n : CoreId)
  /-- R396: The Zwikai operation ZACC adds weighted dequantised blocks of a stream into RAW slots at one anchor. -/
  | zacc (n : CoreId)
  /-- R397: The Zwikai operation ZUNDO folds excluded or all sent blocks back into ZRES. -/
  | zundo (n : CoreId)
  /-- R398: The Zwikai operation ZMEAN divides RAW sums by N into FP32 tiles. -/
  | zmean (n : CoreId)
  /-- R399: The Zwikai operation ZFIELD copies a record field to FP32 tiles or back. -/
  | zfield (n : CoreId)
  /-- R187: A VECTOR or Zwikai operation writes its record ⌈elements ÷ rate⌉ + 24 ACLK cycles after its start. -/
  | vectorComplete (n : CoreId)
  /-- R245: The UPDATE OP RULE applies the optimiser rule to each slice's records from its RAW gradient slot. -/
  | rule (n : CoreId)
  /-- R239: The UPDATE OP SEED writes the scaled BF16 loss gradient. -/
  | seed (n : CoreId)
  /-- R214: The UPDATE OP DERIVE writes the working copy of version v from its master, or fails as VERSION_GONE. -/
  | derive (n : CoreId)
  /-- R226: The UPDATE OP FOLD adds, scales or drops a stale slot by the STEP_POL policy. -/
  | fold (n : CoreId)
  /-- R246: The UPDATE OP NORMS adds weight and update squares into a norm record. -/
  | norms (n : CoreId)
  /-- R247: The UPDATE OP NMERGE adds norm records into record 0. -/
  | nmerge (n : CoreId)
  /-- R256: The UPDATE OP AUDIT re-derives the working tile, compares it bit for bit and rewrites it on mismatch. -/
  | audit (n : CoreId)
  /-- R253: The UPDATE OP EVAL derives evaluation tiles from the EMA. -/
  | eval (n : CoreId)
  /-- R239: The UPDATE OP EXTRACT copies the master or EMA into FP32 tiles. -/
  | extract (n : CoreId)
  /-- R258: The UPDATE OP CMP compares replicas' fingerprints, picks sources and reports divergence. -/
  | cmp (n : CoreId)
  /-- R408: The UPDATE OP OUTER applies the outer rule to ZANCHOR and writes the new master. -/
  | outer (n : CoreId)
  /-- R241: An UPDATE writes its record after its last slice, or stops at a failing slice. -/
  | updateComplete (n : CoreId)
  /-- R359: The COLL operation BARRIER synchronises the group without data. -/
  | barrier (n : CoreId)
  /-- R370: The COLL operation ALLREDUCE reduces every member's input and returns the result to all. -/
  | allreduce (n : CoreId)
  /-- R370: The COLL operation REDUCE_SCATTER leaves segment i of the reduction at member i. -/
  | reduceScatter (n : CoreId)
  /-- R370: The COLL operation ALLGATHER gathers every member's segment to all. -/
  | allgather (n : CoreId)
  /-- R370: The COLL operation BROADCAST sends the root's input to every member. -/
  | broadcast (n : CoreId)
  /-- R370: The COLL operation ALLTOALL sends block j of member i to member j. -/
  | alltoall (n : CoreId)
  /-- R342: A TXN BEGIN binds a FREE slot to OPEN, sends JOIN for a HALL member and opens a step transaction when STEP is 1. -/
  | txnBegin (n : CoreId)
  /-- R338: A TXN ATTACH makes the core's later MOVEs and SYNC signals actions of the slot. -/
  | txnAttach (n : CoreId)
  /-- R338: A TXN DETACH ends the core's attachment. -/
  | txnDetach (n : CoreId)
  /-- R333: A TXN ACTION logs a REG, DOORBELL or SIGNAL action for commit. -/
  | txnAction (n : CoreId)
  /-- R343: A TXN COMMIT prepares the slot once attached descriptors complete and votes. -/
  | txnCommit (n : CoreId)
  /-- R342: A TXN ABORT gives the slot an abort cause and waits for the decision. -/
  | txnAbort (n : CoreId)
  /-- R402: A ZWK SEND hands a core's stream for a round to the Zwikai engine and completes at FINAL with the exclusion list. -/
  | zwkSend (n : CoreId)
  /-- R403: A ZWK COLLECT waits for the round to commit and writes the decision record and contributions. -/
  | zwkCollect (n : CoreId)
  /-- R405: A ZWK SNAP_SEND sends a whole snapshot stream to a peer site. -/
  | zwkSnapSend (n : CoreId)
  /-- R405: A ZWK SNAP_RECV writes the snapshot stream received from a peer site. -/
  | zwkSnapRecv (n : CoreId)
  /-- R406: A ZWK CATCHUP sends the catch-up stream of the rejoin round. -/
  | zwkCatchup (n : CoreId)
  /-- R193: A write of 1 to SQ_CTRL.CORE_RST aborts in-flight descriptors, clears tokens, anchor table and flags, and sets HALT. -/
  | coreRst (n : CoreId) (rq : Requester) (v : Word)
  /-- R160: A write to SQ_CTRL.HALT stops or resumes issue, and clearing it leaves P2. -/
  | haltWrite (n : CoreId) (p : Put)
  /-- R156: A register write replaces a token counter before same-cycle signals are added. -/
  | tokenWrite (n : CoreId) (t : Fin 64) (p : Put)
  /-- R119: A write of 1 to MX_ACFG.TAB_CLR empties the anchor table. -/
  | tabClr (n : CoreId) (rq : Requester) (v : Word)
  /-- R69: A W1C write to a die or global flag register clears the bits in every core of its scope. -/
  | flagClear (die : Option DieId) (k : Fin 3) (rq : Requester) (v : Word)
  /-- R457: A read of an RC field returns its value and clears it, keeping a same-cycle increment as 1. -/
  | readClear (r : RegRd)
  /-- R456: A read of a _LO register latches its _HI partner for the requester. -/
  | loRead (r : RegRd)
  /-- R454: A write, through the normal, SET, CLR or TGL view, to a register with no row of its own. -/
  | registerWrite (w : RegWr)
  /-- R465: A write to PG_EVT clears bits and resends the MSI-X vector when INT stays 1. -/
  | pgEvtWrite (page : Nat) (p : Put)
  /-- R464: A write to PG_EVT_INJ sets PG_EVT bits as the hardware events would. -/
  | pgEvtInj (page : Nat) (rq : Requester) (v : Word)
  /-- R464: Any write to PG_CNT_SEL selects the counted event and clears the count. -/
  | pgCntSel (page : Nat) (p : Put)
  /-- R459: A write to GCTL.UPD_STROBE marks the named update groups for apply. -/
  | updStrobe (rq : Requester) (v : Word)
  /-- R459: At its apply point a strobed block applies all written shadows together. -/
  | updateApply (p : HostPort)
  /-- R467: A read of a free GCTL.HSEMn acquires it for the reader. -/
  | hsemRead (k : Fin 16) (rq : Requester)
  /-- R467: A write of 0 by the owner, or by module firmware, frees the semaphore. -/
  | hsemWrite (k : Fin 16) (p : Put)
  /-- R463: An access to GCTL.IDX_DATA acts on the BAR0 offset in IDX_ADDR, which then rises by 4. -/
  | idxData (rq : Requester) (w : Option Word)
  /-- R469: A host write to MBXn.H2Fk stores the word, or is rejected when the word is full. -/
  | h2fWrite (p : HostPort) (k : Fin 16) (q : HostPort) (v : Word)
  /-- R469: Module firmware reads H2Fk and clears its full bit. -/
  | h2fRead (p : HostPort) (k : Fin 16)
  /-- R470: Module firmware writes F2Hk, setting full and F2H_WORD, or gets an error response when it is full. -/
  | f2hWrite (p : HostPort) (k : Fin 16) (v : Word)
  /-- R470: A host read of F2Hk returns the word and clears its full bit. -/
  | f2hRead (p : HostPort) (k : Fin 16) (q : HostPort)
  /-- R472: A SET write to a doorbell raises its bit and interrupts the receiver unless masked. -/
  | doorbellRing (p : HostPort) (toHost : Bool) (rq : Requester) (v : Word)
  /-- R305: A write of 1 to OGS.ROUTE_GEN.GO starts the dimension-ordered route fill. -/
  | routeGen (rq : Requester)
  /-- R305: After 4,096 KCLK cycles the new route entries replace the old and BUSY clears. -/
  | routeFillDone
  /-- R308: A write to OGS.RT_DATA sets one route entry and advances RT_IDX. -/
  | rtDataWrite (p : Put)
  /-- R311: A write to OGS.MOD_ID changes the module's logical identity from the next packet examined. -/
  | modIdWrite (p : Put)
  /-- R353: CLV.FORCE ABORT acts as a decision to abort on an OPEN or PREPARED slot. -/
  | forceAbort (n : SlotId) (rq : Requester)
  /-- R353: CLV.FORCE COMMIT acts as a decision to commit on a PREPARED slot. -/
  | forceCommit (n : SlotId) (rq : Requester)
  /-- R353: CLV.FORCE RELEASE returns an ENDED slot to FREE. -/
  | forceRelease (n : SlotId) (rq : Requester)
  /-- R502: A write of 1 to SEC.CTRL.D1 at D0 sets debug level D1. -/
  | d1Set (rq : Requester)
  /-- R502: A write of 0 to SEC.CTRL.D1 at D1 returns the level to D0. -/
  | d1Clear (rq : Requester)
  /-- R502: A write of 1 to SEC.CTRL.D2_EXIT ends D2, closes JTAG and returns to D0. -/
  | d2Exit (rq : Requester) (v : Word)
  /-- R485: A write of 1 to SEC.CTRL.ARB_COMMIT raises FW_SVN and CFG_SVN to the running values. -/
  | arbCommit (rq : Requester) (v : Word)
  /-- R483: The SEC operation VERIFY checks a signed object and applies it. -/
  | verify
  /-- R488: The SEC operation ATTEST writes a signed attestation envelope and the DEVICE certificate. -/
  | attest
  /-- R484: The SEC operation NONCE_NEW draws a fresh 32-byte nonce. -/
  | nonceNew
  /-- R492: A write to SEC.SLOT_ERASE erases one or all key slots. -/
  | slotErase (rq : Requester) (v : Word)
  /-- R499: A write to SEC.UNTR_REL frees an untrusted-table entry. -/
  | untrRel (rq : Requester) (v : Word)
  /-- R496: A write to SAFn.JR_TAIL submits Saffron jobs. -/
  | jrTailWrite (n : SafId) (p : Put)
  /-- R495: A Saffron ENCRYPT job takes the slot's CTR, builds its IV and encrypts. -/
  | encrypt (n : SafId)
  /-- R498: A Saffron DECRYPT job reserves an untrusted entry, writes the header and plaintext, and compares the tag. -/
  | decrypt (n : SafId)
  /-- R497: A Saffron job ends and writes its completion record with the CTR it used. -/
  | safJobComplete (n : SafId)
  /-- R500: The 1 s known-answer self-test of an idle engine runs, and a failure retires the engine for SAF4. -/
  | selfTest (n : SafId) (failed : Bool)
  /-- R493: The randomness health test fails and the engines stall. -/
  | rngFail
  /-- R493: A job stalled for 10 ms completes as TIMEOUT. -/
  | safStallTimeout (n : SafId)
  /-- R516: PWR.CTRL.REQ is written P0. -/
  | reqP0 (rq : Requester) (autoP2 : Bool)
  /-- R516: PWR.CTRL.REQ is written P2 and the module enters P2 once every core is HALTED. -/
  | reqP2 (rq : Requester) (autoP2 : Bool)
  /-- R517: PWR.CTRL.REQ is written P3 and P3 entry begins. -/
  | reqP3 (rq : Requester) (autoP2 : Bool)
  /-- R516: PWR.CTRL.REQ is written P4 and all rails go off. -/
  | reqP4 (rq : Requester) (autoP2 : Bool)
  /-- R548: CDM.SPARE_OP CORE moves a HALTED logical core onto a spare of its die. -/
  | spareCore (rq : Requester) (n : CoreId)
  /-- R549: CDM.SPARE_OP BANK copies a bank to the spare bank and remaps it. -/
  | spareBank (rq : Requester) (n : CoreId) (bank : Fin 8)
  /-- R549: CDM.SPARE_OP HBM_REBUILD runs a run-time map rebuild of a die. -/
  | spareHbmRebuild (rq : Requester) (d : DieId)
  /-- R554: A read of CDM.LOG_DATA returns the word LOG_IDX names and advances WORD and ENTRY. -/
  | logDataRead (rq : Requester)
  /-- R300: A write of 1 to FPn.LINK_CTRL.EN starts fabric port training. -/
  | portEnable (n : FpId) (rq : Requester) (rateCap : Bool)
  /-- R300: A write of 0 to EN takes the port DOWN and discards held flits. -/
  | portDisable (n : FpId) (rq : Requester) (rateCap : Bool)
  /-- R300: Training ends with width and rate chosen, or FAILED. -/
  | portTraining (n : FpId) (t : TrainResult)
  /-- R300: Training has not finished after 100 ms and the port is FAILED. -/
  | trainingTimeout (n : FpId)
  /-- R299: A lane loses lock or exceeds 64 corrected symbols in 1 ms, and the port enters RETRAIN. -/
  | laneFailure (n : FpId) (lane : Fin 9)
  /-- R300: A retrain succeeds, the port returns to ACTIVE and replays, or it fails to FAILED. -/
  | retrainDone (n : FpId) (t : TrainResult)
  /-- R300: A retrain is not done within 50 µs and the port is FAILED. -/
  | retrainTimeout (n : FpId)
  /-- R298: A received flit is corrected and CRC-checked; a failure discards it and requests replay. -/
  | flitReceive (n : FpId) (f : FlitRx)
  /-- R304: A transit packet is forwarded by the route table, or refused with 0x40 or 0x41. -/
  | packetForward (a : Arrival)
  /-- R324: A read request reaches its target and is answered by an RSP with data. -/
  | rd (a : Arrival)
  /-- R321: A write request is performed, or logged when transactional, and answered. -/
  | wr (a : Arrival)
  /-- R303: A token signal packet adds its count to the target's token counter. -/
  | sig (a : Arrival)
  /-- R320: A response arrives, matches its tracker entry and ends the request. -/
  | rsp (a : Arrival) (gen : Fin 16)
  /-- R314: A target with a full C2 queue answers NAK with its depth. -/
  | fabNak (a : Arrival) (gen : Fin 16)
  /-- R314: Every 2 µs the source sends a NAKed C2 request again. -/
  | c2Resend (tag : Fin 262144)
  /-- R315: A freed tracker entry is granted to the oldest waiting request of the class. -/
  | trackerAdmit (cls : Fin 4)
  /-- R320: No response has arrived REQ_TMO after admission and the request ends as TIMEOUT. -/
  | requestTimeout (tag : Fin 262144)
  /-- R316: A C2 delay reaches C2_TMO and the request ends as RETRY_LATER. -/
  | c2Timeout (k : Nat)
  /-- R349: A Clove JOIN message registers a member with the coordinator. -/
  | join (a : Arrival)
  /-- R346: A Clove VOTE reaches the coordinator, which may decide. -/
  | vote (a : Arrival)
  /-- R347: A Clove DECIDE reaches a member, which applies the outcome in its commit cycle. -/
  | decideMsg (a : Arrival)
  /-- R350: A Clove ACK tells the coordinator a member holds the decision. -/
  | ack (a : Arrival)
  /-- R351: A Clove QUERY asks the coordinator to resend its decision. -/
  | query (a : Arrival)
  /-- R346: VOTE_TMO elapses after the coordinator's own vote without all votes and the transaction aborts. -/
  | voteTimeout (n : SlotId)
  /-- R350: Every DEC_TMO the coordinator resends DECIDE to unacknowledged members, giving up after 16. -/
  | decideResend (n : SlotId)
  /-- R351: A member PREPARED for DEC_TMO sets IN_DOUBT and sends QUERY. -/
  | inDoubt (n : SlotId)
  /-- R348: The last logged entry is performed, the slot is unlocked and the COMMIT record is written. -/
  | applyDone (n : SlotId) (fails : List (Nat × Nat × Nat))
  /-- R364: A collective ENTER reaches the leader with signature and address record. -/
  | enter (x : CollIn)
  /-- R367: A START from the leader gives a member P, its index and its successor. -/
  | collStart (x : CollIn)
  /-- R373: A PRE tells the leader a member's chunk summaries are written. -/
  | pre (x : CollIn)
  /-- R373: A GO tells members that the agreed anchors are ready. -/
  | go (x : CollIn)
  /-- R379: A CHUNK message tells a receiver that a staging slot is filled; it checks, combines and forwards. -/
  | chunkMsg (x : CollIn)
  /-- R377: A FREE message tells a sender that a staging slot is released. -/
  | collFree (x : CollIn)
  /-- R382: A REPORT gives the leader a member's status and CONSUMED bit. -/
  | report (x : CollIn)
  /-- R382: A STOP tells a member to stop sending and report. -/
  | stop (x : CollIn)
  /-- R382: A VERDICT gives every member its final status and bitmap. -/
  | verdict (x : CollIn)
  /-- R368: An EXCLUDED answer tells a late member to copy its slots to the stale area and report. -/
  | excluded (x : CollIn)
  /-- R368: DEADLINE_US elapses after the leader's ENTER; entry closes and missing members are excluded. -/
  | entryDeadline (n : CoreId)
  /-- R364: ENTRY_TMO elapses without all ENTERs and no deadline; the leader sends STOP. -/
  | entryTimeout (n : CoreId)
  /-- R367: A member waits ENTRY_TMO for START and completes as TIMEOUT. -/
  | startTimeout (n : CoreId)
  /-- R379: A member waits more than CHUNK_TMO for a CHUNK and fails as TIMEOUT. -/
  | chunkTimeout (n : CoreId)
  /-- R382: CHUNK_TMO elapses after STOP and the leader sends VERDICT. -/
  | stopTimeout (n : CoreId)
  /-- R368: LATE_TMO elapses after entry closes and unserved excluded members count LATE_LOST. -/
  | lateTimeout (n : CoreId)
  /-- R413: A DATA parcel arrives, is replay-checked, decrypted and stored in its group. -/
  | dataParcel (p : ParcelIn)
  /-- R415: A PARITY parcel arrives and is stored in its group. -/
  | parityParcel (p : ParcelIn)
  /-- R414: A site-port frame not addressed to the port's MAC, IPv6, UDP port and checksum is discarded and counted. -/
  | frameDrop (f : FrameIn)
  /-- R417: A Zwikai NAK makes the sender resend the named parcels with new CTRs. -/
  | zwkNak (p : CtrlIn)
  /-- R418: A receiver's COMPLETE tells the sender it holds every group. -/
  | complete (p : CtrlIn)
  /-- R418: A receiver's MISSING reports byte ranges it does not hold. -/
  | missing (p : CtrlIn)
  /-- R418: The sender's FINAL carries the exclusion list of the stream. -/
  | finalMsg (p : CtrlIn)
  /-- R419: A CTRL PING arrives and yields an RTT sample that updates SRTT or marks REROUTED. -/
  | ping (p : CtrlIn)
  /-- R421: A convener's HAVE tells the decider which contributions its site holds. -/
  | haveMsg (p : CtrlIn)
  /-- R422: The decider's DECIDE carries the round's decision record to conveners. -/
  | zwkDecide (p : CtrlIn)
  /-- R423: A convener's DACK acknowledges a decision. -/
  | dack (p : CtrlIn)
  /-- R423: The decider's COMMIT makes members commit the round and complete COLLECTs. -/
  | zwkCommit (p : CtrlIn)
  /-- R420: A BEAT carries a convener's epoch, members, state and rounds. -/
  | beat (p : CtrlIn)
  /-- R427: A NEWEPOCH changes the epoch and members of a convener. -/
  | newepoch (p : CtrlIn)
  /-- R431: A LEDGER exchanges fork and committed rounds between deciders at rejoin. -/
  | ledger (p : CtrlIn)
  /-- R434: A JOIN from a new site asks to join through the donor convener. -/
  | zwkJoin (p : CtrlIn)
  /-- R434: A joiner's READY reports that it has applied every committed round. -/
  | ready (p : CtrlIn)
  /-- R417: A group still short of k parcels NAK_T after its first parcel sends or repeats NAK. -/
  | nakTimeout (site : Fin 16) (core : CoreId) (skind : Fin 4) (round group : Nat)
  /-- R418: At T0 + W ÷ 2 + E a receiver sends MISSING for groups it does not hold. -/
  | missingTime (site : Fin 16) (core : CoreId) (skind : Fin 4) (round : Nat)
  /-- R418: At T0 + 3W ÷ 4 + E the sender sends FINAL. -/
  | finalTime (n : CoreId)
  /-- R421: At T_r + W + E the convener sends HAVE again. -/
  | haveTime
  /-- R422: At its T_r + W + E the decider closes the round and forms the decision. -/
  | roundClose
  /-- R423: The decider repeats DECIDE every largest SRTT until every member sends DACK. -/
  | zwkDecideResend
  /-- R419: Every 100 ms each exchanging module and convener sends PING on each route. -/
  | pingTimer
  /-- R420: Every 100 ms a convener sends BEAT to every enrolled convener. -/
  | beatTimer
  /-- R428: No packet from a site for ISO_TMO makes it unreachable and a new epoch is formed. -/
  | unreachable (site : Fin 16)
  /-- R431: BEATs from an outside site for REJOIN_HOLD trigger the rejoin. -/
  | rejoinHold (site : Fin 16)
  /-- R427: ISO_TMO × 12 without the rejoin round committed returns the convener to ISOLATED. -/
  | rejoinTimeout
  /-- R434: A refused joiner repeats JOIN every ISO_TMO. -/
  | joinRetry
  /-- R405: A snapshot without COMPLETE after 10 × W completes as TIMEOUT. -/
  | snapTimeout (n : CoreId)
  /-- R440: A configuration request before the port is ready is answered with Configuration Request Retry Status. -/
  | configRetry (c : ConfigIn)
  /-- R443: A BAR2 read reaches module memory after earlier writes of the port. -/
  | bar2Read (p : HostPort) (o len : Nat)
  /-- R442: A BAR2 write is cut into requests and performed locally or over the fabric. -/
  | bar2Write (p : HostPort) (o : Nat) (data : List Byte) (be : List Bool)
  /-- R445: A poisoned TLP is dropped and logged in AER. -/
  | poisonedTlp (p : HostPort)
  /-- R449: A Function Level Reset resets the port's function and pages. -/
  | flr (p : HostPort)
  /-- R449: A filtered PERST_n assertion resets its port. -/
  | perstAssert (p : HostPort)
  /-- R516: A PERST_n release lets the port train, and in P3 starts P3 exit. -/
  | perstRelease (p : HostPort)
  /-- R462: An access not at its domain 8 µs after entering the crossing ends with an error response. -/
  | registerTimeout (x : RegAcc)
  /-- R286: The controller refreshes each bank at tREFI. -/
  | hbmRefresh (n : HbmId)
  /-- R275: A patrol scrub read of the next slot corrects or logs errors. -/
  | patrolScrub (n : HbmId) (hbm : List HbmHit) (sp : List SpHit)
  /-- R287: Every 1 ms the controller reads the stack temperature and acts on faults or HOT. -/
  | hbmTempRead (n : HbmId) (t : Int)
  /-- R277: The controller repairs a candidate row by soft post-package repair, or records NOSPARE. -/
  | softPpr (n : HbmId) (spare : Bool)
  /-- R282: A stack silent for 10 µs while ACTIVE makes its controller FAILED. -/
  | stackNoAnswer (n : HbmId)
  /-- R288: In P2 a pseudo-channel idle for SR_IDLE enters self-refresh. -/
  | pcSelfRefresh (n : HbmId) (pc : Fin 32)
  /-- R289: Controller training ends as ACTIVE or, after the third attempt, FAILED. -/
  | hbmTrainingDone (n : HbmId) (ok : Bool)
  /-- R283: A die's map rebuild retires pending pseudo-channels, recomputes C_n, zeroes the region and raises REBUILT. -/
  | mapRebuild (d : DieId)
  /-- R512: A 1 ms REFCLK count ends; two out-of-range windows switch the PLLs to the AON reference. -/
  | refclkWindow (hz : Nat)
  /-- R513: A PLL loses lock; the module logs it, drives FAULT_N low and enters P4. -/
  | pllUnlock (pll : Fin 15)
  /-- R522: Every 1 µs the power manager forms its averages and cuts D to D_open(L) when the 10 µs average exceeds L. -/
  | powerTick (peak avg mj : Nat)
  /-- R522: At each 10 µs tick D steps down or up by 1 from the 1 ms average. -/
  | dutyStep
  /-- R523: A filtered THROTTLE_REQ_N assertion cuts D to D_open(FLOOR) and sets THR. -/
  | throttleAssert
  /-- R523: THROTTLE_ACK rises at the first sample at or below FLOOR. -/
  | throttleAck
  /-- R523: Every 10 µs under throttle D is raised or cut by the 10 µs average. -/
  | throttleCheck
  /-- R523: A filtered release drops THROTTLE_ACK and starts the ramp. -/
  | throttleRelease
  /-- R523: Every 2 µs after release D rises by 1 until 64. -/
  | throttleRamp
  /-- R514: The throttle held beyond LONG_S sets THR_LONG and drives ALERT_N low. -/
  | thrLong
  /-- R524: Every 100 µs die temperatures are read and thermal duty, alerts or trip are applied. -/
  | dieTempRead (ts : List Int)
  /-- R525: The 48 V input, sampled every 10 µs, applies the 1,800 W limit or leads to P4. -/
  | voltageSample (mv i10 : Nat)
  /-- R514: A point-of-load rail out of range for 50 µs is logged and the module enters P4. -/
  | railFault (rail mv : Nat)
  /-- R514: PWR_OK falls and the module enters P4 within 20 µs. -/
  | pwrOkLow
  /-- R516: With AUTO_P2, cores HALTED for PWR.IDLE.US lead to P2. -/
  | idleTimeout
  /-- R517: Once slots are FREE, cores HALTED and Saffron idle, keys are erased, HBM self-refreshes and rails go off. -/
  | p3Entry
  /-- R517: P3 entry not complete within P3_TMO is refused and the module returns. -/
  | p3Timeout
  /-- R518: Rails and PLLs return and Cardamom runs the resume path. -/
  | p3Exit (b : BootIn)
  /-- R527: A PPS pulse is accepted and disciplines the count, or arms, acquires or locks the time unit. -/
  | ppsPulse (high : Nat)
  /-- R528: A PPS slot ends without an accepted pulse and counts a rejection, leading to HOLDOVER at three. -/
  | slotEnd
  /-- R528: No pulse by 1,000,500,000 ns in ACQUIRE returns the unit to FREE with ACQ_FAIL. -/
  | acquireTimeout
  /-- R536: MOD_RESET_N low for 1 µs resets the module and starts the STRAP phase. -/
  | modResetAssert
  /-- R535: Every 10 µs while MOD_RESET_N is low the Sumac straps are sampled. -/
  | strapSample (pins : BitVec 12) (b : BootIn)
  /-- R539: The release latches the straps and begins a full start through BS01 to BS14. -/
  | modResetRelease (b : BootIn)
  /-- R540: In load mode a host-supplied image and doorbell trigger the image check. -/
  | loadModeImage (b : BootIn)
  /-- R537: A boot step past its timeout, or an unserviced watchdog for 2 s, causes an internal module reset. -/
  | watchdog (b : BootIn)
  /-- R538: Every 500 ms HEARTBEAT toggles while Cardamom runs. -/
  | heartbeat
  /-- R544: Once per second coalesced EVENT counts are written to flash. -/
  | logCoalesceFlush
  /-- R552: The MCTP control message Set Endpoint ID is answered. -/
  | setEndpointId (inst : Fin 32) (op : Fin 4) (eid : Byte)
  /-- R552: The MCTP control message Get Endpoint ID is answered. -/
  | getEndpointId (inst : Fin 32)
  /-- R552: The MCTP control message Get MCTP Version Support is answered. -/
  | getMctpVersionSupport (inst : Fin 32) (type : Byte)
  /-- R552: The MCTP control message Get Message Type Support is answered. -/
  | getMessageTypeSupport (inst : Fin 32)
  /-- R552: The MCTP control message Get Vendor Defined Message Support is answered. -/
  | getVendorDefinedMsgSupport (inst : Fin 32) (sel : Byte)
  /-- R553: Telemetry CMD 0x01 returns the STATUS record. -/
  | mctpStatus (cmd : Byte)
  /-- R553: Telemetry CMD 0x02 returns the POWER record. -/
  | mctpPower
  /-- R553: Telemetry CMD 0x03 returns the THERMAL record. -/
  | mctpThermal
  /-- R553: Telemetry CMD 0x04 returns the HEALTH record. -/
  | mctpHealth
  /-- R553: Telemetry CMD 0x05 returns one log or journal entry. -/
  | mctpLog (index : BitVec 16) (sect : Byte)
  /-- R514: SMB_CLK held low above 25 ms resets the interface and drops the transaction. -/
  | smbusTimeout
  /-- R534: PWR_OK rises, AON starts and the STRAP phase begins, with strap sampling from 1 ms later. -/
  | pwrOkRise
  /-- R534: 100 µs after MOD_RESET_N release the Sumac pins leave the Transition phase and become RUN outputs, and THROTTLE_REQ_N sensing begins. -/
  | runPhase
  /-- R530: When the time count passes a whole multiple of 1,000,000,000 while LOCKED or HOLDOVER, PPS_ECHO goes high for 1,000 ns. -/
  | ppsEcho
  /-- R436: A site port's training completes and LINK_STAT.STATE becomes UP at the rate trained, setting SITEn.PG_EVT.LINK. -/
  | siteLinkUp (n : SiteId) (rate : Fin 4)
  /-- R436: A site port that is not UP 1 s after EN reads FAILED. -/
  | siteLinkFailed (n : SiteId)
  /-- R437: A PCIe port's link comes up, goes down or retrains to a narrower width when lanes fail, updating HPn.LINK_STAT and HPn.PG_EVT.LINK. -/
  | hostLinkChange (p : HostPort) (l : HostLink)
  /-- R421: A C0 MSG of KIND 0xA between an exchanging module and its convener arrives, reporting SENDs, held contributions or route jumps. -/
  | convenerMsg (m : ConvIn)
  /-- R506: A SEC operation (VERIFY, ATTEST or NONCE_NEW) ends after running; OP_STAT leaves BUSY with its status and SEC.PG_EVT.OP_DONE is set. -/
  | opDone
  /-- R547: A CDM.SPARE_OP ends; SPARE_STAT leaves BUSY with its status, held core accesses are released to the spare and CDM.PG_EVT.SPARE_DONE is set. -/
  | spareDone
  /-- R277: A soft post-package repair completes; held accesses to the bank are released, HBMn.PPR.SPPR increments and SPPR_DONE is set. -/
  | spprDone (n : HbmId)
  /-- R326: A MOVE or FPRINT whose accesses are all served locally finishes its last local request and completes with its status. -/
  | localMoveDone (n : CoreId) (k : Nat)
  /-- R493: The randomness generator passes its health test again and stalled Saffron engines leave STALLED and resume their jobs. -/
  | randomnessReturn
deriving DecidableEq, Repr

end Sys2Proof
end

