-- ==== Sys2Proof/Decode.lean ====
section
/-! DEFINITION. The words of the command table. Its rows give no bits: a command of the module is an event or an access and
has no encoding, so no word spells one. -/

namespace Sys2Proof

/-- The command that a word of nbits bits spells by the table: none, since no row of the table gives bits. -/
def decodeTableWord (_nbits _w : Nat) : Option Instr := none

end Sys2Proof
end

