-- ==== Sys2Proof/Machine/Bits.lean ====
section
/-! DEFINITION. Bit fields, little-endian byte order (R566), signed readings, the CRC-64 of R191, and tables that hold
only the entries that differ from a default. -/

namespace Sys2Proof.Machine

/-- Bits [hi:lo] of a number. -/
def nbits (n hi lo : Nat) : Nat := (n >>> lo) % 2 ^ (hi + 1 - lo)

/-- Bits [hi:lo] of a word, as a number. -/
def bits (w : Word) (hi lo : Nat) : Nat := nbits w.toNat hi lo

/-- Bit b of a word. -/
def bit (w : Word) (b : Nat) : Bool := w.toNat.testBit b

/-- The mask whose bits [hi:lo] are ones. -/
def maskBits (hi lo : Nat) : Word := BitVec.ofNat 32 ((2 ^ (hi + 1 - lo) - 1) <<< lo)

/-- The word with bits [hi:lo] replaced by the low bits of v. -/
def setBits (w : Word) (hi lo v : Nat) : Word :=
  (w &&& ~~~ maskBits hi lo) ||| (BitVec.ofNat 32 (v <<< lo) &&& maskBits hi lo)

/-- A Boolean as a bit. -/
def b2n (b : Bool) : Nat := if b then 1 else 0

/-- The two's-complement reading of the low w bits of n. -/
def sint (w n : Nat) : Int :=
  let m := n % 2 ^ w
  if m < 2 ^ (w - 1) then (m : Int) else (m : Int) - (2 ^ w : Nat)

/-- The low w bits of an integer, two's complement. -/
def ofSint (w : Nat) (i : Int) : Nat := (i % (2 ^ w : Nat)).toNat

/-- ceiling division -/
def cdiv (a b : Nat) : Nat := (a + b - 1) / b

/-- a saturating 16-bit count -/
def sat (w n : Nat) : Nat := min n (2 ^ w - 1)

/-- The number that a list of bytes spells, lowest byte first (R566). -/
def leNat : List Byte → Nat
  | [] => 0
  | b :: bs => b.toNat + 256 * leNat bs

/-- The n low bytes of v, lowest first (R566). -/
def leBytes : Nat → Nat → List Byte
  | 0, _ => []
  | n + 1, v => BitVec.ofNat 8 v :: leBytes n (v / 256)

/-- Big-endian reading, for the values a chapter states as big-endian. -/
def beNat (bs : List Byte) : Nat := leNat bs.reverse

/-- Big-endian bytes. -/
def beBytes (n v : Nat) : List Byte := (leBytes n v).reverse

/-- The words of a little-endian byte list: word w at byte offset 4w (R566). -/
def wordsOf : Nat → List Byte → List Word
  | 0, _ => []
  | n + 1, bs => BitVec.ofNat 32 (leNat (bs.take 4)) :: wordsOf n (bs.drop 4)

/-- The bytes of a word list (R566). -/
def bytesOfWords (ws : List Word) : List Byte := ws.flatMap fun w => leBytes 4 w.toNat

/-- Word i of a structure held as words; a word beyond the structure reads 0. -/
def wd (ws : List Word) (i : Nat) : Word := ws.getD i 0

/-- A 16-bit table index wrapped at 32 bits: the sum of a free-running 32-bit index. -/
def add32 (a b : Nat) : Nat := (a + b) % 2 ^ 32

/-- The difference of two free-running 32-bit indices. -/
def sub32 (a b : Nat) : Nat := (a + 2 ^ 32 - b % 2 ^ 32) % 2 ^ 32

/-- One bit step of the CRC-64 of R191. -/
def crc64Bit (c : Nat) : Nat :=
  let c2 := (c <<< 1) % 2 ^ 64
  if c.testBit 63 then c2 ^^^ 0x42F0E1EBA9EA3693 else c2

/-- One byte of the CRC-64 of R191, most significant bit first. -/
def crc64Byte (c : Nat) (b : Byte) : Nat :=
  (List.range 8).foldl (fun c _ => crc64Bit c) (c ^^^ (b.toNat <<< 56))

/-- The CRC-64 of R191: ECMA-182 polynomial, initial value 0, no reflection, no final XOR. -/
def crc64 (bs : List Byte) : Nat := bs.foldl crc64Byte 0

/-- A table of values by number that lists only the numbers whose value is not the default, in rising order. -/
abbrev Tab (β : Type) := List (Nat × β)

/-- The value at number k; an unlisted number holds the default d. -/
def Tab.get {β : Type} (d : β) (k : Nat) : Tab β → β
  | [] => d
  | (j, v) :: t => if j = k then v else Tab.get d k t

/-- The table with number k removed. -/
def Tab.erase {β : Type} (k : Nat) : Tab β → Tab β
  | [] => []
  | (j, v) :: t => if j = k then t else (j, v) :: Tab.erase k t

/-- The table with v entered at number k, in rising order. -/
def Tab.insert {β : Type} (k : Nat) (v : β) : Tab β → Tab β
  | [] => [(k, v)]
  | (j, w) :: t =>
    if k < j then (k, v) :: (j, w) :: t
    else if j = k then (k, v) :: t
    else (j, w) :: Tab.insert k v t

/-- The table whose number k holds v. Writing the default removes the entry, so that equal tables are equal data. -/
def Tab.set {β : Type} [DecidableEq β] (d : β) (k : Nat) (v : β) (t : Tab β) : Tab β :=
  if v = d then Tab.erase k t else Tab.insert k v t

/-- The numbers of a table rise strictly. -/
def Tab.rising {β : Type} : Tab β → Bool
  | [] => true
  | [_] => true
  | (j, _) :: (k, v) :: t => decide (j < k) && Tab.rising ((k, v) :: t)

/-- The first index of a list whose element satisfies p. -/
def findIdx {α : Type} (p : α → Bool) (l : List α) : Option Nat :=
  let i := l.findIdx p
  if i < l.length then some i else none

/-- The list without the first element that satisfies p. -/
def eraseFirst {α : Type} (p : α → Bool) : List α → List α
  | [] => []
  | a :: l => if p a then l else a :: eraseFirst p l

/-- The list with f applied to the first element that satisfies p. -/
def modFirst {α : Type} (p : α → Bool) (f : α → α) : List α → List α
  | [] => []
  | a :: l => if p a then f a :: l else a :: modFirst p f l

end Sys2Proof.Machine
end

