-- ==== Sys2Proof/Machine/Operands.lean ====
section
/-! DEFINITION. The fields of each descriptor type, as the chapters that own the types lay them out. -/

namespace Sys2Proof.Machine

/-! ### The common header (R151) -/

def hTag (w : List Word) : Nat := bits (wd w 0) 31 16
def hSigCond (w : List Word) : Bool := bit (wd w 0) 9
def hIrq (w : List Word) : Bool := bit (wd w 0) 8
def hType (w : List Word) : Nat := bits (wd w 0) 3 0
def hWaitEn (w : List Word) : Bool := bit (wd w 1) 31
def hWaitTok (w : List Word) : Nat := bits (wd w 1) 29 24
def hWaitCnt (w : List Word) : Nat := bits (wd w 1) 23 16
def hSigEn (w : List Word) : Bool := bit (wd w 1) 15
def hSigTok (w : List Word) : Nat := bits (wd w 1) 13 8
def hSigCnt (w : List Word) : Nat := bits (wd w 1) 7 0

/-- Type codes of R10. -/
def tMATMUL : Nat := 1
def tVECTOR : Nat := 2
def tMOVE : Nat := 3
def tCHAIN : Nat := 4
def tUPDATE : Nat := 5
def tCOLL : Nat := 6
def tSYNC : Nat := 7
def tTXN : Nat := 8
def tFENCE : Nat := 9
def tZWK : Nat := 10
def tFPRINT : Nat := 11

/-- Queue depths of R148, the running descriptor included. -/
def queueDepth : Nat → Nat
  | 1 => 2 | 4 => 2 | 2 => 4 | 5 => 4 | 3 => 8 | 6 => 4 | 8 => 4 | 10 => 4 | 11 => 2 | 7 => 1 | 9 => 1 | _ => 1

/-! ### MATMUL (R94) -/

structure MatmulD where
  m : Nat
  n : Nat
  k : Nat
  aFmt : Nat
  aT : Bool
  aAddr : Nat
  bFmt : Nat
  bT : Bool
  bAddr : Nat
  cFmt : Nat
  cEn : Bool
  cAddr : Nat
  dFmt : Nat
  pol : Nat
  rnd : Nat
  dAddr : Nat
  lda : Nat
  ldb : Nat
  ldc : Nat
  ldd : Nat
  split6 : Bool
  autoSwap : Bool
  shape : Nat
  hint : Int
  hintEn : Bool
  headroom : Nat
  tensor : Nat
  stream : Nat
  step : Nat
deriving DecidableEq, Repr

def matmulD (w : List Word) : MatmulD :=
  { m := bits (wd w 2) 15 0, n := bits (wd w 2) 31 16, k := (wd w 3).toNat,
    aFmt := bits (wd w 4) 31 28, aT := bit (wd w 4) 27, aAddr := bits (wd w 4) 23 0,
    bFmt := bits (wd w 5) 31 28, bT := bit (wd w 5) 27, bAddr := bits (wd w 5) 23 0,
    cFmt := bits (wd w 6) 31 28, cEn := bit (wd w 6) 27, cAddr := bits (wd w 6) 23 0,
    dFmt := bits (wd w 7) 31 28, pol := bits (wd w 7) 27 27, rnd := bits (wd w 7) 26 24, dAddr := bits (wd w 7) 23 0,
    ldb := bits (wd w 8) 31 16, lda := bits (wd w 8) 15 0, ldd := bits (wd w 9) 31 16, ldc := bits (wd w 9) 15 0,
    split6 := bit (wd w 10) 3, autoSwap := bit (wd w 10) 2, shape := bits (wd w 10) 1 0,
    hint := sint 16 (bits (wd w 11) 31 16), hintEn := bit (wd w 11) 15, headroom := bits (wd w 11) 5 0,
    tensor := bits (wd w 12) 31 8, stream := bits (wd w 12) 7 0, step := (wd w 13).toNat }

/-! ### CHAIN (R137) -/

structure ChainD where
  tiles : Nat
  len : Nat
  pos : Nat
  dFmt : Nat
  pol : Nat
  rnd : Nat
  dAddr : Nat
  carry : Nat
  src : Nat
  rcvTok : Nat
  rcv : Nat
  next : Nat
  nextTok : Nat
  chainId : Nat
  headroom : Nat
  ldd : Nat
  tcols : Nat
  step : Nat
  tensor : Nat
  stream : Nat
deriving DecidableEq, Repr

def chainD (w : List Word) : ChainD :=
  { tiles := bits (wd w 2) 31 16, len := bits (wd w 2) 15 8, pos := bits (wd w 2) 7 0,
    dFmt := bits (wd w 3) 31 28, pol := bits (wd w 3) 27 27, rnd := bits (wd w 3) 26 24, dAddr := bits (wd w 3) 23 0,
    carry := bits (wd w 4) 31 28, src := bits (wd w 4) 23 0,
    rcvTok := bits (wd w 5) 29 24, rcv := bits (wd w 5) 23 0,
    next := (wd w 6).toNat + 2 ^ 32 * bits (wd w 7) 23 0, nextTok := bits (wd w 7) 29 24,
    chainId := bits (wd w 8) 31 16, headroom := bits (wd w 8) 5 0,
    ldd := bits (wd w 9) 31 16, tcols := bits (wd w 9) 15 0,
    step := (wd w 10).toNat, tensor := bits (wd w 11) 31 8, stream := bits (wd w 11) 7 0 }

/-! ### VECTOR (R184) -/

structure VectorD where
  op : Nat
  s0Fmt : Nat
  s1Fmt : Nat
  s2Fmt : Nat
  dFmt : Nat
  pol : Nat
  rnd : Nat
  cols : Nat
  rows : Nat
  s0 : Nat
  s1 : Nat
  s2 : Nat
  d : Nat
  imm0 : Nat
  imm1 : Nat
  ldd : Nat
  lds : Nat
  step : Nat
  tensor : Nat
  stream : Nat
deriving DecidableEq, Repr

def vectorD (w : List Word) : VectorD :=
  { op := bits (wd w 2) 31 24, s0Fmt := bits (wd w 2) 23 20, s1Fmt := bits (wd w 2) 19 16, s2Fmt := bits (wd w 2) 15 12,
    dFmt := bits (wd w 2) 11 8, pol := bits (wd w 2) 7 7, rnd := bits (wd w 2) 6 4,
    cols := bits (wd w 3) 31 16, rows := bits (wd w 3) 15 0,
    s0 := bits (wd w 4) 23 0, s1 := bits (wd w 5) 23 0, s2 := bits (wd w 6) 23 0, d := bits (wd w 7) 23 0,
    imm0 := (wd w 8).toNat, imm1 := (wd w 9).toNat, ldd := bits (wd w 10) 31 16, lds := bits (wd w 10) 15 0,
    step := (wd w 11).toNat, tensor := bits (wd w 12) 31 8, stream := bits (wd w 12) 7 0 }

/-! ### MOVE (R175) and FPRINT (R189) -/

structure MoveD where
  src : Nat
  srcLocal : Bool
  cls : Nat
  dst : Nat
  dstLocal : Bool
  rowBytes : Nat
  scales : Bool
  rows : Nat
  srcStride : Nat
  dstStride : Nat
  scaleSrc : Nat
  scaleSrcLocal : Bool
  scaleDst : Nat
  scaleDstLocal : Bool
deriving DecidableEq, Repr

/-- A 56-bit address in a pair of words (R175). Log entry 74: DEDUCED. -/
def addr56 (w : List Word) (i : Nat) : Nat := (wd w i).toNat + 2 ^ 32 * bits (wd w (i + 1)) 23 0

def moveD (w : List Word) : MoveD :=
  { src := addr56 w 2, srcLocal := bit (wd w 3) 31, cls := bits (wd w 3) 30 29,
    dst := addr56 w 4, dstLocal := bit (wd w 5) 31, rowBytes := (wd w 6).toNat,
    scales := bit (wd w 7) 16, rows := bits (wd w 7) 15 0, srcStride := (wd w 8).toNat, dstStride := (wd w 9).toNat,
    scaleSrc := addr56 w 10, scaleSrcLocal := bit (wd w 11) 31, scaleDst := addr56 w 12, scaleDstLocal := bit (wd w 13) 31 }

structure FprintD where
  src : Nat
  srcLocal : Bool
  dst : Nat
  dstLocal : Bool
  slices : Nat
  recBytes : Nat
  fieldOff : Nat
  fieldBytes : Nat
  stride : Nat
deriving DecidableEq, Repr

def fprintD (w : List Word) : FprintD :=
  { src := addr56 w 2, srcLocal := bit (wd w 3) 31, dst := addr56 w 4, dstLocal := bit (wd w 5) 31,
    slices := bits (wd w 6) 31 16, recBytes := bits (wd w 6) 15 8, fieldOff := bits (wd w 6) 7 0,
    fieldBytes := bits (wd w 7) 7 0, stride := (wd w 8).toNat }

/-! ### SYNC (R179) -/

/-- An enabled wait of a SYNC: token and count. -/
def syncWaits (w : List Word) : List (Nat × Nat) :=
  let one := fun (x : Nat) => if x.testBit 15 then [(nbits x 13 8, nbits x 7 0)] else []
  let h := fun (v : Word) => one (bits v 15 0) ++ one (bits v 31 16)
  h (wd w 2) ++ h (wd w 3)

/-- A signal of a SYNC: whether it targets this module, the module, core, token and count. -/
structure SyncSig where
  toLocal : Bool
  module : Nat
  core : Nat
  token : Nat
  count : Nat
deriving DecidableEq, Repr

/-- The enabled signals of a SYNC. -/
def syncSigs (w : List Word) : List SyncSig :=
  let one := fun (a b : Word) =>
    if bit b 31 then [SyncSig.mk (bit b 30) (bits a 31 20) (bits a 19 10) (bits b 5 0) (bits a 7 0)] else []
  one (wd w 4) (wd w 5) ++ one (wd w 6) (wd w 7)

/-! ### TXN (R336) -/

structure TxnD where
  op : Nat
  slot : Nat
  hall : Bool
  step : Bool
  coord : Nat
  seq : Nat
  members : Nat
  kind : Nat
  toLocal : Bool
  module : Nat
  target : Word
  value : Word
deriving DecidableEq, Repr

def txnD (w : List Word) : TxnD :=
  { op := bits (wd w 2) 31 28, slot := bits (wd w 2) 27 24, hall := bit (wd w 2) 23, step := bit (wd w 2) 22,
    coord := bits (wd w 2) 11 0, seq := bits (wd w 3) 31 16, members := bits (wd w 3) 12 0,
    kind := bits (wd w 4) 31 30, toLocal := bit (wd w 4) 29, module := bits (wd w 4) 11 0,
    target := wd w 5, value := wd w 6 }

end Sys2Proof.Machine
end

