-- ==== Sys2Proof/Machine/Flags.lean ====
section
/-! DEFINITION. Number formats, exact values, the five rounding modes and the four numeric flags (R33 to R63). -/

namespace Sys2Proof.Machine

/-- Flag bits in the order of R64. -/
def flINX : Nat := 1
def flUNF : Nat := 2
def flOVF : Nat := 4
def flINV : Nat := 8

/-- A floating-point format (R34): exponent and significand widths, bias, largest finite code without its sign (R34),
canonical NaN (R37), and the code of +∞ where the format has one (R35). -/
structure Fmt where
  ebits : Nat
  mbits : Nat
  bias : Nat
  maxCode : Nat
  nan : Nat
  inf : Option Nat
deriving DecidableEq, Repr

def fmtE4M3 : Fmt := ⟨4, 3, 7, 0x7E, 0x7F, none⟩
def fmtE5M2 : Fmt := ⟨5, 2, 15, 0x7B, 0x7F, some 0x7C⟩
def fmtBF16 : Fmt := ⟨8, 7, 127, 0x7F7F, 0x7FC0, some 0x7F80⟩
def fmtFP16 : Fmt := ⟨5, 10, 15, 0x7BFF, 0x7E00, some 0x7C00⟩
def fmtFP32 : Fmt := ⟨8, 23, 127, 0x7F7FFFFF, 0x7FC00000, some 0x7F800000⟩

/-- The floating-point format of a format code; block-scaled codes name their element format (R33). -/
def fmtOf : Nat → Option Fmt
  | 0 => some fmtE4M3
  | 1 => some fmtE5M2
  | 2 => some fmtBF16
  | 3 => some fmtFP16
  | 4 => some fmtFP32
  | 5 => some fmtE4M3
  | 6 => some fmtE5M2
  | _ => none

/-- The block-scaled format codes (R33). -/
def isBlock (code : Nat) : Bool := code == 5 || code == 6

/-- Element size in bytes of a format code in the blocked layout (R168). -/
def fmtBytes : Nat → Nat
  | 0 => 1 | 1 => 1 | 2 => 2 | 3 => 2 | 4 => 4 | 5 => 1 | 6 => 1 | 7 => 8 | 8 => 16 | _ => 1

/-- The sign bit's weight. -/
def Fmt.signBit (f : Fmt) : Nat := 2 ^ (f.ebits + f.mbits)

/-- A decoded operand: NaN, an infinity, or ±m × 2^e; m = 0 is a zero and keeps its sign. -/
inductive Num where
  | nan
  | inf (neg : Bool)
  | fin (neg : Bool) (m : Nat) (e : Int)
deriving DecidableEq, Repr

/-- The value a code spells (R34 to R36). -/
def Fmt.decode (f : Fmt) (code : Nat) : Num :=
  let neg := code.testBit (f.ebits + f.mbits)
  let body := code % f.signBit
  let ex := body / 2 ^ f.mbits
  let fr := body % 2 ^ f.mbits
  if body > f.maxCode then (if some body = f.inf then .inf neg else .nan)
  else if ex = 0 then .fin neg fr (1 - (f.bias : Int) - f.mbits)
  else .fin neg (fr + 2 ^ f.mbits) ((ex : Int) - f.bias - f.mbits)

/-- A block scale byte applied to an element (R38). Log entry 40: DEDUCED. -/
def Num.scale (s : Nat) (x : Num) : Num :=
  if s = 0xFF then .nan else
  match x with
  | .fin n m e => .fin n m (e + (s : Int) - 127)
  | y => y

/-! ### Exact magnitudes -/

/-- The functions whose values are irrational outside their exact cases (R183). -/
inductive Fn where
  | exp2 | log2 | tanh | erf
deriving DecidableEq, Repr

/-- An exact non-negative magnitude: n/d × 2^e, its square root, or |f(±n/d × 2^e)| × 2^k. -/
inductive Mag where
  | rat (n d : Nat) (e : Int)
  | sqrt (n d : Nat) (e : Int)
  | fn (f : Fn) (neg : Bool) (n d : Nat) (e k : Int)
deriving DecidableEq, Repr

/-- Integer square root by bits, for numbers below 4^k. -/
def isqrtAux : Nat → Nat → Nat → Nat
  | 0, _, r => r
  | k + 1, n, r =>
    let t := r + 2 ^ k
    if t * t ≤ n then isqrtAux k n t else isqrtAux k n r

/-- ⌊√n⌋ -/
def isqrt (n : Nat) : Nat := isqrtAux (n.log2 / 2 + 1) n 0

/-- ⌊n/d × 2^k⌋ and whether it is exact. -/
def ratFloor (n d : Nat) (k : Int) : Nat × Bool :=
  if k ≥ 0 then
    let v := n <<< k.toNat
    (v / d, v % d == 0)
  else
    let w := d <<< (-k).toNat
    (n / w, n % w == 0)

/-! Interval values of the irrational functions, in units of 2^-p: a pair (lo, hi) of integers with the value between
them. Each series keeps a bound on its own truncation. -/

/-- Σ terms of the arctangent-like series Σ y^(2i+1)/(2i+1) (alt: with alternating signs), by fuel. -/
def atanSum (alt : Bool) (p : Nat) (y2 : Nat) : Nat → Nat → Nat → Int
  | 0, _, _ => 0
  | k + 1, i, t =>
    if t = 0 then 0 else
    let s : Int := (t / (2 * i + 1) : Nat)
    (if alt && i % 2 == 1 then -s else s) + atanSum alt p y2 k (i + 1) ((t * y2) >>> p)

/-- atanh(n/d) in units of 2^-p, below by at most k + 2 units. -/
def atanhFix (p n d : Nat) : Int := atanSum false p (((n * n) <<< p) / (d * d)) p 0 ((n <<< p) / d)

/-- ln 2 = 2 atanh(1/3) -/
def ln2Fix (p : Nat) : Int := 2 * atanhFix p 1 3

/-- π = 16 atan(1/5) − 4 atan(1/239) -/
def piFix (p : Nat) : Int :=
  16 * atanSum true p ((1 <<< p) / 25) p 0 ((1 <<< p) / 5)
    - 4 * atanSum true p ((1 <<< p) / 57121) p 0 ((1 <<< p) / 239)

/-- Σ r^i/i! by fuel, r in units of 2^-p. -/
def expSum (p r : Nat) : Nat → Nat → Nat → Nat
  | 0, _, _ => 0
  | k + 1, i, t => if t = 0 then 0 else t + expSum p r k (i + 1) (((t * r) >>> p) / (i + 1))

/-- exp of r in [0, 1) in units of 2^-p -/
def expFix (p r : Nat) : Nat := expSum p r (p + 4) 0 (1 <<< p)

/-- The guard units allowed for truncation at precision p. -/
def guardUnits (p : Nat) : Int := 64 * p + 64

/-- An interval for 2^(±n/d × 2^e) at precision p, scaled by a further 2^-s: (lo, hi, s). -/
def exp2Fix (p : Nat) (neg : Bool) (n d : Nat) (e : Int) : Int × Int × Int :=
  let (fl, _) := ratFloor n d (e + p)
  let x : Int := if neg then -(fl : Int) else fl
  let i := x / (2 ^ p : Nat)
  let f := (x % (2 ^ p : Nat)).toNat
  let v : Int := expFix p (((f : Int) * ln2Fix p).toNat >>> p)
  (v - guardUnits p, v + guardUnits p, i)

/-- An interval for log2(n/d × 2^e) at precision p. -/
def log2Fix (p : Nat) (n d : Nat) (e : Int) : Int × Int :=
  let k : Int := (n.log2 : Int) - d.log2
  -- m = n/d × 2^-k lies in (1/2, 2); ln m = 2 atanh((m-1)/(m+1))
  let a := if k ≥ 0 then n else n <<< (-k).toNat
  let b := if k ≥ 0 then d <<< k.toNat else d
  let l : Int := 2 * (if a ≥ b then atanhFix p (a - b) (a + b) else - atanhFix p (b - a) (a + b))
  let q : Int := (l * (2 ^ p : Nat)) / ln2Fix p
  let v := (k + e) * (2 ^ p : Nat) + q
  (v - guardUnits p, v + guardUnits p)

/-- An interval for tanh(n/d × 2^e) at precision p. -/
def tanhFix (p : Nat) (n d : Nat) (e : Int) : Int × Int :=
  let (x, _) := ratFloor n d (e + p)
  let one : Int := (2 ^ p : Nat)
  if x ≥ (p + 2) * 2 ^ p then (one - 1, one - 1)
  else
    -- tanh x = (1 - t)/(1 + t), t = exp(-2x) = 2^(-2x/ln 2)
    let y := (2 * (x : Int) * one) / ln2Fix p
    let i := (y / one).toNat
    let f := (y % one).toNat
    let ef : Int := expFix p (((f : Int) * ln2Fix p).toNat >>> p)
    let t := ((one * one) / ef) / (2 ^ i : Nat)
    let v := ((one - t) * one) / (one + t)
    (v - guardUnits p, v + guardUnits p)

/-- Σ 2^i x^(2i+1) / (2i+1)!! by fuel. -/
def erfSum (p x2 : Nat) : Nat → Nat → Nat → Nat
  | 0, _, _ => 0
  | k + 1, i, t => if t = 0 then 0 else t + erfSum p x2 k (i + 1) ((2 * ((t * x2) >>> p)) / (2 * i + 3))

/-- An interval for erf(n/d × 2^e) at precision p: 2/√π × exp(−x²) × Σ, formed at a precision w that leaves exp(−x²) its
p digits. -/
def erfFix (p : Nat) (n d : Nat) (e : Int) : Int × Int :=
  let (x0, _) := ratFloor n d (e + p)
  if x0 * x0 ≥ (p + 2) * 2 ^ (2 * p) then ((2 ^ p : Nat) - 1, (2 ^ p : Nat) - 1)
  else
    let w := p + 2 * ((x0 * x0) >>> (2 * p)) + 64
    let (x, _) := ratFloor n d (e + w)
    let one : Int := (2 ^ w : Nat)
    let x2 := (x * x) >>> w
    let s : Int := erfSum w x2 (4 * w + 16) 0 x
    let y := ((x2 : Int) * one) / ln2Fix w
    let i := (y / one).toNat
    let f := (y % one).toNat
    let ef : Int := expFix w (((f : Int) * ln2Fix w).toNat >>> w)
    let t := ((one * one) / ef) / (2 ^ i : Nat)
    let rpi : Int := isqrt ((piFix w).toNat * 2 ^ w)
    let v := ((2 * ((s * t) / one) * one) / rpi) / (2 ^ (w - p) : Nat)
    (v - guardUnits p, v + guardUnits p)

/-- An interval for |f(±x)| at precision p, in units of 2^(−p + s): (lo, hi, s). Log entry 42: DESIGN CHOICE. -/
def Fn.fix (f : Fn) (p : Nat) (neg : Bool) (n d : Nat) (e : Int) : Int × Int × Int :=
  match f with
  | .exp2 => exp2Fix p neg n d e
  | .log2 =>
    let (a, b) := log2Fix p n d e
    if a ≥ 0 then (a, b, 0) else if b ≤ 0 then (-b, -a, 0) else (0, max (-a) b, 0)
  | .tanh => let (a, b) := tanhFix p n d e; (a, b, 0)
  | .erf => let (a, b) := erfFix p n d e; (a, b, 0)

/-- ⌊v / 2^q⌋ of an irrational value: the first precision, from a rising list, at which both ends agree. Log entry 42:
DESIGN CHOICE. -/
def Fn.floorAt (f : Fn) (neg : Bool) (n d : Nat) (e q : Int) : List Nat → Nat
  | [] => 0
  | p :: ps =>
    let (lo, hi, s) := f.fix p neg n d e
    let k := s - p - q
    let a := (ratFloor lo.toNat 1 k).1
    let b := (ratFloor hi.toNat 1 k).1
    if a = b ∨ ps = [] then a else Fn.floorAt f neg n d e q ps

/-- ⌊v / 2^q⌋ and whether it is exact. -/
def Mag.floorAt (m : Mag) (q : Int) : Nat × Bool :=
  match m with
  | .rat n d e => ratFloor n d (e - q)
  | .sqrt n d e =>
    let (w, ex) := ratFloor n d (e - 2 * q)
    let r := isqrt w
    (r, ex && r * r == w)
  | .fn f neg n d e k => (f.floorAt neg n d e (q - k) [96, 192, 400, 800, 1600], false)

/-- Is the magnitude zero? -/
def Mag.isZero : Mag → Bool
  | .rat n _ _ => n == 0
  | .sqrt n _ _ => n == 0
  | .fn .. => false

/-- ⌊log2⌋ of a non-zero magnitude, searched down from a first estimate. -/
def Mag.ilog2Aux (m : Mag) : Nat → Int → Int
  | 0, k => k
  | f + 1, k => if (m.floorAt k).1 ≥ 1 then k else Mag.ilog2Aux m f (k - 1)

/-- ⌊log2 v⌋ of a non-zero magnitude. -/
def Mag.ilog2 (m : Mag) : Int :=
  match m with
  | .rat n d e => m.ilog2Aux 2 ((n.log2 : Int) - d.log2 + e)
  | .sqrt n d e => m.ilog2Aux 2 (((n.log2 : Int) - d.log2 + e + 1) / 2)
  | .fn .exp2 neg n d e k =>
    let (x, ex) := ratFloor n d e
    (if neg then (if ex then -(x : Int) else -(x : Int) - 1) else x) + k
  | .fn f neg n d e k =>
    -- leading bit of an approximation fine enough for every FP32 source
    let (_, hi, s) := f.fix 400 neg n d e
    m.ilog2Aux 2 ((hi.toNat.log2 : Int) + s - 400 + k)

/-- The magnitude times 2^k. -/
def Mag.shift (m : Mag) (k : Int) : Mag :=
  match m with
  | .rat n d e => .rat n d (e + k)
  | .sqrt n d e => .sqrt n d (e + 2 * k)
  | .fn f neg n d e j => .fn f neg n d e (j + k)

/-- An exact value before its rounding (R43). -/
inductive XVal where
  | nan
  | inf (neg : Bool)
  | val (neg : Bool) (m : Mag)
deriving DecidableEq, Repr

/-- An exact integer multiple of a power of two; zero is +0 (R45). -/
def XVal.ofInt (v : Int) (e : Int) : XVal := .val (decide (v < 0)) (.rat v.natAbs 1 e)

/-- An operand as an exact value; a zero keeps its sign (R45, operand conversion). Log entry 56: DEDUCED. -/
def Num.toX : Num → XVal
  | .nan => .nan
  | .inf n => .inf n
  | .fin n m e => .val n (.rat m 1 e)

/-- Does a magnitude with floor f at its rounding position round up? m2 is the floor one bit lower (RNE), d16 the floor
sixteen bits lower (SR, R52). -/
def roundsUp (rnd : Nat) (neg : Bool) (r16 : Nat) (m : Mag) (q : Int) : Bool :=
  let (f, exact) := m.floorAt q
  if exact then false else
  match rnd with
  | 0 =>
    let (h, hex) := m.floorAt (q - 1)
    h % 2 == 1 && (!hex || f % 2 == 1)
  | 2 => !neg
  | 3 => neg
  | 4 => decide ((m.floorAt (q - 16)).1 % 65536 + r16 ≥ 65536)
  | _ => false

/-- The rounded significand at position q. -/
def roundAt (rnd : Nat) (neg : Bool) (r16 : Nat) (m : Mag) (q : Int) : Nat :=
  (m.floorAt q).1 + b2n (roundsUp rnd neg r16 m q)

/-- What an overflow delivers (R47): to infinity or to maximum by mode and sign, then the target's policy. -/
def Fmt.overflow (f : Fmt) (rnd pol : Nat) (neg : Bool) : Nat :=
  let toInf : Bool := match rnd with
    | 1 => false
    | 2 => !neg
    | 3 => neg
    | _ => true
  let s := if neg then f.signBit else 0
  if !toInf then s + f.maxCode
  else match f.inf with
    | none => if pol = 0 then s + f.maxCode else f.nan
    | some i => if pol = 0 then s + i else s + f.maxCode

/-- The code and flags that a conversion delivers (R43 to R52). An infinite result raises the flags of its conversion: into
E4M3 those of R51, whatever operation formed it. Log entry 240: DEDUCED. -/
def Fmt.convert (f : Fmt) (rnd pol r16 : Nat) (v : XVal) : Nat × Nat :=
  match v with
  | .nan => (f.nan, 0)
  | .inf neg =>
    match f.inf with
    | some i => ((if neg then f.signBit else 0) + i, 0)
    | none => (((if pol = 0 then (if neg then f.signBit else 0) + f.maxCode else f.nan)), flOVF ||| flINX)
  | .val neg m =>
    let s := if neg then f.signBit else 0
    if m.isZero then (s, 0) else
    let el := m.ilog2
    let emin : Int := 1 - (f.bias : Int)
    let q := max el emin - f.mbits
    let r := roundAt rnd neg r16 m q
    let exact := (m.floorAt q).2
    let code := if r < 2 ^ f.mbits then r else ((q + f.mbits + f.bias).toNat <<< f.mbits) + (r - 2 ^ f.mbits)
    if code > f.maxCode then (f.overflow rnd pol neg, flOVF ||| flINX)
    else
      -- tininess is judged on the rounding with unbounded exponent range (R49)
      let tiny := decide (el < emin) && decide (((roundAt rnd neg r16 m (el - f.mbits)) : Int) <
        (2 : Int) ^ (f.mbits + (emin - el).toNat))
      (s + code, (if exact then 0 else flINX) ||| (if tiny && !exact then flUNF else 0))

/-- A result that is exactly zero is +0 (R45). -/
def XVal.posZero : XVal → XVal
  | .val n m => if m.isZero then .val false m else .val n m
  | v => v

/-- The mixing function of R53: the 16-bit value R of a key and an element index. -/
def srR (key index : Nat) : Nat :=
  let M := 2 ^ 64
  let x := key ^^^ ((index * 0x9E3779B97F4A7C15) % M)
  let x := ((x ^^^ (x >>> 30)) * 0xBF58476D1CE4E5B9) % M
  let x := ((x ^^^ (x >>> 27)) * 0x94D049BB133111EB) % M
  let x := x ^^^ (x >>> 31)
  (x >>> 48) % 65536

/-- The key of R53: step, tensor, stream. -/
def srKey (step tensor stream : Nat) : Nat :=
  ((step % 2 ^ 32) <<< 32) + ((tensor % 2 ^ 24) <<< 8) + stream % 256

/-! ### Exact arithmetic on operands -/

/-- A signed dyadic v × 2^e. -/
structure Dy where
  v : Int
  e : Int
deriving DecidableEq, Repr

def Dy.add (a b : Dy) : Dy :=
  let e := min a.e b.e
  ⟨a.v * (2 ^ (a.e - e).toNat : Nat) + b.v * (2 ^ (b.e - e).toNat : Nat), e⟩

def Dy.mul (a b : Dy) : Dy := ⟨a.v * b.v, a.e + b.e⟩

def Dy.neg (a : Dy) : Dy := ⟨-a.v, a.e⟩

def Dy.zero : Dy := ⟨0, 0⟩

/-- The dyadic of a finite operand. -/
def dyOf (neg : Bool) (m : Nat) (e : Int) : Dy := ⟨if neg then -(m : Int) else m, e⟩

/-- Is a ≤ b? -/
def Dy.le (a b : Dy) : Bool :=
  let e := min a.e b.e
  decide (a.v * (2 ^ (a.e - e).toNat : Nat) ≤ b.v * (2 ^ (b.e - e).toNat : Nat))

/-- The exact value of a dyadic. -/
def Dy.toX (a : Dy) : XVal := XVal.ofInt a.v a.e

/-- A special or dyadic value: the carrier of exact sums and products. -/
inductive EVal where
  | nan
  | inf (neg : Bool)
  | dy (d : Dy)
deriving DecidableEq, Repr

def Num.toE : Num → EVal
  | .nan => .nan
  | .inf n => .inf n
  | .fin n m e => .dy (dyOf n m e)

def EVal.toX : EVal → XVal
  | .nan => .nan
  | .inf n => .inf n
  | .dy d => d.toX

/-- Exact sum and whether it is the invalid ∞ − ∞ (R51, R186). -/
def EVal.add (a b : EVal) : EVal × Bool :=
  match a, b with
  | .nan, _ => (.nan, false)
  | _, .nan => (.nan, false)
  | .inf x, .inf y => if x = y then (.inf x, false) else (.nan, true)
  | .inf x, .dy _ => (.inf x, false)
  | .dy _, .inf y => (.inf y, false)
  | .dy x, .dy y => (.dy (x.add y), false)

/-- Exact product of operands and whether it is the invalid 0 × ∞ (R51, R186). -/
def EVal.mul (a b : EVal) : EVal × Bool :=
  match a, b with
  | .nan, _ => (.nan, false)
  | _, .nan => (.nan, false)
  | .inf x, .inf y => (.inf (x != y), false)
  | .inf x, .dy d => if d.v = 0 then (.nan, true) else (.inf (x != decide (d.v < 0)), false)
  | .dy d, .inf y => if d.v = 0 then (.nan, true) else (.inf (y != decide (d.v < 0)), false)
  | .dy x, .dy y => (.dy (x.mul y), false)

/-- Negation. -/
def EVal.neg : EVal → EVal
  | .nan => .nan
  | .inf n => .inf (!n)
  | .dy d => .dy d.neg

/-- v × 2^e rounded to a multiple of 2^a, ties to even (R112): the multiple, and whether the value changed. -/
def rneMult (v : Int) (e a : Int) : Int × Bool :=
  if e ≥ a then (v * (2 ^ (e - a).toNat : Nat), false)
  else
    let k := (a - e).toNat
    let q := v.natAbs / 2 ^ k
    let r := v.natAbs % 2 ^ k
    let up := decide (2 * r > 2 ^ k) || (decide (2 * r = 2 ^ k) && q % 2 == 1)
    let m : Nat := q + b2n up
    (if v < 0 then -(m : Int) else m, r != 0)

/-- Does an integer fit in 128 bits two's complement? -/
def fits128 (v : Int) : Bool := decide (-(2 : Int) ^ 127 ≤ v ∧ v < (2 : Int) ^ 127)

/-- The wrap of an exact total: how often 2^128 was passed (R109). -/
def wrapOf (v : Int) : Int := (v + (2 : Int) ^ 127) / (2 : Int) ^ 128

/-- RNE to a significand of s bits with no exponent bounds but a spacing of at least 2^qmin: the split of R56. -/
def rneSig (s : Nat) (qmin : Int) (d : Dy) : Dy :=
  if d.v = 0 then d else
  let q := max ((d.v.natAbs.log2 : Int) + d.e + 1 - s) qmin
  ⟨(rneMult d.v d.e q).1, q⟩

/-- The three BF16 parts of a finite FP32 operand (R56); bits below 2^-133 are lost. -/
def split3 (d : Dy) : List Dy :=
  let x0 := rneSig 8 (-133) d
  let r1 := d.add x0.neg
  let x1 := rneSig 8 (-133) r1
  let r2 := r1.add x1.neg
  [x0, x1, rneSig 8 (-133) r2]

/-- A PAIR result (R59 to R61): head, tail and flags. -/
def pairOf (pol : Nat) (v : XVal) : Nat × Nat × Nat :=
  let (h, fl) := fmtFP32.convert 0 pol 0 v
  match v with
  | .val neg (.rat n d e) =>
    if fl &&& flOVF ≠ 0 then (h, 0, flOVF ||| flINX)
    else match fmtFP32.decode h with
      | .fin hn hm he =>
        -- the tail's exact value v − h over the common denominator d
        let a : Dy := dyOf neg n e
        let b : Dy := ⟨(if hn then -(hm : Int) else hm) * d, he⟩
        let t := a.add b.neg
        let (tc, tf) := fmtFP32.convert 0 0 0 (.val (decide (t.v < 0)) (.rat t.v.natAbs d t.e))
        (h, tc, tf &&& (flINX ||| flUNF))
      | _ => (h, 0, fl)
  | _ => (h, 0, fl)

end Sys2Proof.Machine
end

