-- ==== Sys2Proof/Config.lean ====
section
/-! DEFINITION. The values the spec leaves open: opaque constants, so that nothing can be proved of any of them. A
function of Nat is drawn afresh at each use, from the counter State.freeCtr. -/

namespace Sys2Proof.Config

/-- CYCLES of a completion record (R158): a cycle count, which the model does not time. Log entry 6: DESIGN CHOICE. -/
opaque cycles : Nat → BitVec 32

/-- A byte of memory that the spec leaves open: D of an operation that ended CORRUPT, the bytes of a save header. -/
opaque freeByte : Nat → BitVec 8

/-- A 32-bit value that the spec leaves open. -/
opaque freeWord : Nat → BitVec 32

/-- The bank of a slot of a pseudo-channel: "that decode is not exposed" (R265). Log entry 12: DESIGN CHOICE. -/
opaque bankOf : Nat → Nat

/-- The row of a slot within its bank (R265, not exposed). Log entry 12: DESIGN CHOICE. -/
opaque rowOf : Nat → Nat

/-- The Colhafy root keys of the boot ROM (R476): an RSA-3072 modulus and a 48-byte SLH-DSA public key. Log entry 163:
DESIGN CHOICE. -/
opaque rootRsa : Nat
opaque rootSlh : List (BitVec 8)

/-- The 16-bit ROM identifier (R476). -/
opaque romId : BitVec 16

/-- The 256-bit device secret (R477). -/
opaque deviceSecret : BitVec 256

/-- The modulus of the RSA identity key of the device (R487). -/
opaque idRsaN : Nat

/-- The RSA identity private key as it stands in flash, and the exponent that it unseals to under a sealing key: the mode of
the sealing is not stated (R478, R487). -/
opaque sealedRsa : List (BitVec 8)
opaque unsealed : List (BitVec 8) → List (BitVec 8) → Nat

/-- PK.root of the SLH-DSA key pair of SK.seed, SK.prf and PK.seed (FIPS 205, R478, R487). Log entry 163: DESIGN CHOICE. -/
opaque slhRoot : List (BitVec 8) → List (BitVec 8)

/-- The DEVICE certificate as it stands in flash (R487): the bytes of its envelope. -/
opaque certificate : List (BitVec 8)

/-- SLH-DSA-SHA2-192s verification (FIPS 205): public key, message, signature. Log entry 163: DESIGN CHOICE. -/
opaque slhVerify : List (BitVec 8) → List (BitVec 8) → List (BitVec 8) → Bool

/-- A byte of a device signature over a message: the salt of PSS and the SLH-DSA private key are not known. The first
argument draws afresh. -/
opaque signByte : Nat → List (BitVec 8) → Nat → BitVec 8

/-- SP_SCALE_BASE.BASE of a core of another module, by module and core: a state that this module does not hold (R176).
Log entry 75: DESIGN CHOICE. -/
opaque remoteScaleBase : Nat → Nat → BitVec 12

/-- A status other than DONE, less one, that stands for a status code from outside that is none of the table (R12, R13). Log
entry 244: DESIGN CHOICE. -/
opaque otherStatus : Nat → Fin 16

/-- The CRC-32 of a flit, whose polynomial R297 does not give. Log entry 248: DESIGN CHOICE. -/
opaque crc32 : List (BitVec 8) → BitVec 32

/-- Check symbol 0 to 3 of a codeword of 124 data symbols of a flit, whose generator R297 does not give. Log entry 248:
DESIGN CHOICE. -/
opaque flitSymbol : List (BitVec 8) → Nat → BitVec 8

/-- The PCI vendor ID assigned to Colhafy (R439). -/
opaque vendorId : BitVec 16

/-- The words of configuration space, and the bits of them, that the spec does not give (R439). -/
opaque pcieWord : Nat → BitVec 32

end Sys2Proof.Config
end

