-- ==== Sys2Proof/Machine/RegMap.lean ====
section
/-! DEFINITION. The register tables of the spec as data: every page of R562, every register and field with its access
code (R4) and reset value, and the places of the fields by name. -/

namespace Sys2Proof.Machine

/-- The access codes of R4. -/
inductive Acc where
  | rw | rws | ro | w1c | wo | rc
deriving DecidableEq, Repr

/-- A field of a register table: bits [hi:lo], access code, reset value. -/
structure Field where
  name : String
  hi : Nat
  lo : Nat
  acc : Acc
  rst : Nat
deriving DecidableEq, Repr

/-- A register, or a run of n registers of one layout at the given stride. -/
structure Reg where
  name : String
  off : Nat
  n : Nat
  stride : Nat
  fields : List Field
deriving DecidableEq, Repr

/-- The kinds of register page (R562). -/
inductive Block where
  | gctl | hp | mbx | cdm | sec | time | pwr | clk | sumac | zwk | site | fp | ogs | clv | coll | saf | hbm | die | core | pcore
deriving DecidableEq, Repr

/-- The place of a field within its page. -/
structure FRef where
  off : Nat
  hi : Nat
  lo : Nat
deriving DecidableEq, Repr

/-- a field row -/
def fld (name : String) (hi lo : Nat) (acc : Acc) (rst : Nat) : Field := ⟨name, hi, lo, acc, rst⟩

/-- a register row -/
def rg (name : String) (off n stride : Nat) (fields : List Field) : Reg := ⟨name, off, n, stride, fields⟩

/-- The registers of the common page header page (R464). -/
def hdrRegs : List Reg := [
  rg "PG_ID" 0x000 1 4 [fld "BLOCK" 31 16 .ro 0x0, fld "INSTANCE" 15 0 .ro 0x0],
  rg "PG_VER" 0x004 1 4 [fld "MAJOR" 31 24 .ro 0x1, fld "MINOR" 23 16 .ro 0x0],
  rg "PG_CTRL" 0x008 1 4 [fld "ROUTE" 9 8 .rw 0x0, fld "VEC" 4 0 .rw 0x0],
  rg "PG_STAT" 0x00C 1 4 [fld "PEND_ANY" 3 3 .ro 0x0, fld "INT" 2 2 .ro 0x0, fld "DEGRADED" 1 1 .ro 0x0, fld "IN_SERVICE" 0 0 .ro 0x0],
  rg "PG_UGRP" 0x01C 1 4 [fld "GROUP" 3 0 .rw 0x0],
  rg "PG_PEND" 0x020 1 4 [fld "STROBED" 1 1 .ro 0x0, fld "WRITTEN" 0 0 .ro 0x0],
  rg "PG_ERRADDR" 0x024 1 4 [fld "VALID" 31 31 .w1c 0x0, fld "OFFSET" 13 2 .ro 0x0],
  rg "PG_ERRINFO" 0x028 1 4 [fld "SRC" 31 28 .ro 0x0, fld "KIND" 27 24 .ro 0x0, fld "WRITE" 0 0 .ro 0x0],
  rg "PG_CNT_SEL" 0x02C 1 4 [fld "SEL" 7 0 .rw 0x0],
  rg "PG_CNT_LO" 0x030 1 4 [fld "COUNT" 31 0 .ro 0x0],
  rg "PG_CNT_HI" 0x034 1 4 [fld "COUNT" 31 0 .ro 0x0],
  rg "PG_SPARE_MAP" 0x038 1 4 [fld "MAP" 31 0 .ro 0x0],
  rg "PG_SCRATCH" 0x03C 1 4 [fld "DATA" 31 0 .rw 0x0] ]

/-- The registers of the COREn page (R64, R107, R119, R145, R160, R174, R230, R261, R568). -/
def coreRegs : List Reg := [
  rg "PG_EVT" 0x010 1 4 [fld "DIVERGED" 1 1 .w1c 0x0, fld "CMPL" 0 0 .w1c 0x0],
  rg "SQ_CTRL" 0x040 1 4 [fld "CORE_RST" 1 1 .wo 0x0, fld "HALT" 0 0 .rw 0x1],
  rg "SQ_STAT" 0x044 1 4 [fld "INFLIGHT" 31 16 .ro 0x0, fld "TOK_SAT" 3 3 .w1c 0x0, fld "WAIT_TMO" 2 2 .w1c 0x0, fld "FETCH_ERR" 1 1 .w1c 0x0, fld "HALTED" 0 0 .ro 0x1],
  rg "DR_BASE_LO" 0x048 1 4 [fld "ADDR" 31 12 .rw 0x0],
  rg "DR_BASE_HI" 0x04C 1 4 [fld "SP" 31 31 .rw 0x0, fld "ADDR_HI" 11 0 .rw 0x0],
  rg "DR_SIZE" 0x050 1 4 [fld "LOG2" 4 0 .rw 0x4],
  rg "DR_HEAD" 0x054 1 4 [fld "INDEX" 31 0 .rw 0x0],
  rg "DR_TAIL" 0x058 1 4 [fld "INDEX" 31 0 .rw 0x0],
  rg "CR_BASE_LO" 0x05C 1 4 [fld "ADDR" 31 12 .rw 0x0],
  rg "CR_BASE_HI" 0x060 1 4 [fld "SP" 31 31 .rw 0x0, fld "ADDR_HI" 11 0 .rw 0x0],
  rg "CR_COUNT" 0x064 1 4 [fld "INDEX" 31 0 .ro 0x0],
  rg "SQ_WAIT_TMO" 0x068 1 4 [fld "US" 23 0 .rw 0xF4240],
  rg "MX_FLAGS" 0x100 1 4 [fld "INV" 3 3 .w1c 0x0, fld "OVF" 2 2 .w1c 0x0, fld "UNF" 1 1 .w1c 0x0, fld "INX" 0 0 .w1c 0x0],
  rg "VX_FLAGS" 0x104 1 4 [fld "INV" 3 3 .w1c 0x0, fld "OVF" 2 2 .w1c 0x0, fld "UNF" 1 1 .w1c 0x0, fld "INX" 0 0 .w1c 0x0],
  rg "NM_FLAGS" 0x108 1 4 [fld "INV" 3 3 .w1c 0x0, fld "OVF" 2 2 .w1c 0x0, fld "UNF" 1 1 .w1c 0x0, fld "INX" 0 0 .w1c 0x0],
  rg "MX_CTRL" 0x140 1 4 [fld "RESTART_MAX" 7 4 .rw 0x1, fld "PREEMPT" 0 0 .rw 0x0],
  rg "MX_STAT" 0x144 1 4 [fld "SAVE_ERR" 8 8 .ro 0x0, fld "SWAPPED" 7 7 .ro 0x0, fld "SHALLOW" 6 6 .ro 0x0, fld "STATE" 2 0 .ro 0x0],
  rg "MX_SAVE_BASE" 0x148 1 4 [fld "BASE" 23 12 .rw 0x0],
  rg "MX_EVENTS" 0x14C 1 4 [fld "PREEMPTS" 31 16 .rc 0x0, fld "RESTARTS" 15 0 .rc 0x0],
  rg "MX_PASS_LO" 0x150 1 4 [fld "COUNT" 31 0 .ro 0x0],
  rg "MX_PASS_HI" 0x154 1 4 [fld "COUNT" 31 0 .ro 0x0],
  rg "MX_ACFG" 0x158 1 4 [fld "TAB_CLR" 8 8 .wo 0x0, fld "REPEAT_MAX" 3 0 .rw 0x3],
  rg "MX_ANCHOR" 0x15C 1 4 [fld "S_OBS" 31 16 .ro 0x0, fld "A_FINAL" 15 0 .ro 0x0],
  rg "MX_REPEATS" 0x160 1 4 [fld "FALLBACKS" 31 16 .rc 0x0, fld "REPEATS" 15 0 .rc 0x0],
  rg "MX_FIRST_INV0" 0x164 1 4 [fld "VALID" 31 31 .w1c 0x0, fld "ARRAY" 27 26 .ro 0x0, fld "CORE" 25 16 .ro 0x0, fld "ROW" 15 0 .ro 0x0],
  rg "MX_FIRST_INV1" 0x168 1 4 [fld "COLUMN" 15 0 .ro 0x0],
  rg "MX_FIRST_INV_K" 0x16C 1 4 [fld "KIDX" 31 0 .ro 0x0],
  rg "MX_INV_COUNT" 0x170 1 4 [fld "COUNT" 31 0 .rc 0x0],
  rg "SP_ACCBUF" 0x180 1 4 [fld "BASE" 23 12 .rw 0x0, fld "UNITS" 11 0 .rw 0x0],
  rg "SP_SCALE_BASE" 0x184 1 4 [fld "BASE" 23 12 .rw 0x5D0],
  rg "SP_BANKMAP" 0x188 1 4 [fld "RETIRED" 3 0 .ro 0xF],
  rg "SP_ECC" 0x18C 1 4 [fld "UE" 31 16 .rc 0x0, fld "CE" 15 0 .rc 0x0],
  rg "NM_SKIPS" 0x190 1 4 [fld "STALE_DROPS" 31 16 .rc 0x0, fld "SLICE_SKIPS" 15 0 .rc 0x0],
  rg "NM_STAT" 0x194 1 4 [fld "REALIGNS" 31 16 .rc 0x0, fld "EMA_TORN" 15 0 .rc 0x0],
  rg "NM_AUDIT" 0x198 1 4 [fld "VALID" 31 31 .w1c 0x0, fld "TENSOR" 23 0 .ro 0x0],
  rg "NM_AUDIT_SLICE" 0x19C 1 4 [fld "SLICE" 31 0 .ro 0x0],
  rg "NM_AUDIT_CNT" 0x1A0 1 4 [fld "COUNT" 31 0 .rc 0x0],
  rg "NM_DIV" 0x1A4 1 4 [fld "VALID" 31 31 .w1c 0x0, fld "SOURCE" 29 24 .ro 0x0, fld "TENSOR" 23 0 .ro 0x0],
  rg "NM_DIV_SLICE" 0x1A8 1 4 [fld "SLICE" 31 0 .ro 0x0],
  rg "NM_DIV_CNT" 0x1AC 1 4 [fld "COUNT" 31 0 .rc 0x0],
  rg "NM_UPD_LO" 0x1B0 1 4 [fld "COUNT" 31 0 .ro 0x0],
  rg "NM_UPD_HI" 0x1B4 1 4 [fld "COUNT" 31 0 .ro 0x0],
  rg "TOK" 0x200 64 4 [fld "COUNT" 15 0 .rw 0x0] ]

/-- The registers of the GCTL page (R68, R229, R261, R466, R467, R475). -/
def gctlRegs : List Reg := [
  rg "UPD_STROBE" 0x040 1 4 [fld "GROUPS" 15 0 .wo 0x0],
  rg "UPD_PEND" 0x044 1 4 [fld "GROUPS" 15 0 .ro 0x0],
  rg "INT_SUM" 0x048 1 4 [fld "IODIE" 25 8 .ro 0x0, fld "DIE" 7 0 .ro 0x0],
  rg "HSEM" 0x080 16 4 [fld "OWNER" 1 0 .rw 0x0],
  rg "MX_FLAGS" 0x100 1 4 [fld "INV" 3 3 .w1c 0x0, fld "OVF" 2 2 .w1c 0x0, fld "UNF" 1 1 .w1c 0x0, fld "INX" 0 0 .w1c 0x0],
  rg "VX_FLAGS" 0x104 1 4 [fld "INV" 3 3 .w1c 0x0, fld "OVF" 2 2 .w1c 0x0, fld "UNF" 1 1 .w1c 0x0, fld "INX" 0 0 .w1c 0x0],
  rg "NM_FLAGS" 0x108 1 4 [fld "INV" 3 3 .w1c 0x0, fld "OVF" 2 2 .w1c 0x0, fld "UNF" 1 1 .w1c 0x0, fld "INX" 0 0 .w1c 0x0],
  rg "STEP_VER" 0x1C0 1 4 [fld "VER" 31 0 .rw 0x0],
  rg "STEP_STAT" 0x1C4 1 4 [fld "SKIPS" 31 16 .rc 0x0, fld "LAST" 9 8 .ro 0x0, fld "OPEN" 0 0 .ro 0x0],
  rg "LSCALE" 0x1C8 1 4 [fld "MAX" 23 16 .rw 0x18, fld "MIN" 15 8 .rw 0x0, fld "EXP" 7 0 .rw 0x10],
  rg "LS_GOOD" 0x1CC 1 4 [fld "INTERVAL" 31 16 .rw 0x7D0, fld "GOOD" 15 0 .ro 0x0],
  rg "STEP_POL" 0x1D0 1 4 [fld "STALE" 8 8 .rw 0x0, fld "SHIFT" 3 0 .rw 0x1],
  rg "EVAL_CFG" 0x1D4 1 4 [fld "MODE" 0 0 .rw 0x0],
  rg "IDX_ADDR" 0x3F8 1 4 [fld "OFFSET" 25 2 .rw 0x0],
  rg "IDX_DATA" 0x3FC 1 4 [fld "DATA" 31 0 .rw 0x0] ]

/-- The registers of the HPn page (R474). -/
def hpRegs : List Reg := [
  rg "PG_EVT" 0x010 1 4 [fld "PERST" 5 5 .w1c 0x0, fld "B2_FAIL" 4 4 .w1c 0x0, fld "REG_TMO" 3 3 .w1c 0x0, fld "MBX_REJ" 2 2 .w1c 0x0, fld "LINK" 1 1 .w1c 0x0],
  rg "LINK_STAT" 0x040 1 4 [fld "WIDTH" 20 16 .ro 0x0, fld "RATE" 11 8 .ro 0x0, fld "UP" 0 0 .ro 0x0],
  rg "B2_CFG" 0x044 1 4 [fld "CLASS" 5 4 .rws 0x1, fld "OGS_EN" 0 0 .rws 0x0],
  rg "B2_BASE_LO" 0x048 1 4 [fld "ADDR" 31 12 .rws 0x0],
  rg "B2_BASE_HI" 0x04C 1 4 [fld "ADDR_HI" 23 0 .rws 0x0],
  rg "ERR_CNT0" 0x050 1 4 [fld "MBX_REJ" 31 16 .rc 0x0, fld "REG_TMO" 15 0 .rc 0x0],
  rg "ERR_CNT1" 0x054 1 4 [fld "B2_FAIL" 31 16 .rc 0x0, fld "PERSTS" 15 0 .rc 0x0] ]

/-- The registers of the MBXn page (R473). -/
def mbxRegs : List Reg := [
  rg "PG_EVT" 0x010 1 4 [fld "F2H_WORD" 0 0 .w1c 0x0],
  rg "H2F" 0x040 16 4 [fld "WORD" 31 0 .rw 0x0],
  rg "F2H" 0x080 16 4 [fld "WORD" 31 0 .rw 0x0],
  rg "H2F_FULL" 0x0C0 1 4 [fld "FULL" 15 0 .ro 0x0],
  rg "F2H_FULL" 0x0C4 1 4 [fld "FULL" 15 0 .ro 0x0],
  rg "H2F_DB" 0x0C8 1 4 [fld "BITS" 31 0 .rw 0x0],
  rg "H2F_DB_MASK" 0x0CC 1 4 [fld "BITS" 31 0 .rw 0x0],
  rg "F2H_DB" 0x0D0 1 4 [fld "BITS" 31 0 .rw 0x0],
  rg "F2H_DB_MASK" 0x0D4 1 4 [fld "BITS" 31 0 .rw 0x0] ]

/-- The registers of the CDM page (R554). -/
def cdmRegs : List Reg := [
  rg "PG_EVT" 0x010 1 4 [fld "LOG_FULL" 5 5 .w1c 0x0, fld "SPARE_DONE" 4 4 .w1c 0x0, fld "PENDING" 3 3 .w1c 0x0, fld "DEGRADED" 2 2 .w1c 0x0, fld "BOOT_FAIL" 1 1 .w1c 0x0, fld "READY" 0 0 .w1c 0x0],
  rg "BOOT_STAT" 0x040 1 4 [fld "STEP" 31 24 .ro 0x0, fld "FAILS" 23 16 .ro 0x0, fld "REASON" 15 8 .ro 0x0, fld "SRC" 7 4 .ro 0x0, fld "READY" 3 3 .ro 0x0, fld "STRAP_FAULT" 2 2 .ro 0x0, fld "RESUME" 1 1 .ro 0x0, fld "LOAD_WAIT" 0 0 .ro 0x0],
  rg "BOOT_NUM" 0x044 1 4 [fld "COUNT" 31 0 .ro 0x0],
  rg "CORES0" 0x048 1 4 [fld "COUNT" 31 0 .ro 0x0],
  rg "CORES1" 0x04C 1 4 [fld "COUNT" 31 0 .ro 0x0],
  rg "DEG" 0x050 1 4 [fld "BITS" 7 0 .ro 0x0],
  rg "ALERT_SRC" 0x054 1 4 [fld "SRC" 8 0 .ro 0x0],
  rg "ALERT_MASK" 0x058 1 4 [fld "MASK" 8 0 .rw 0x0],
  rg "PENDING" 0x05C 1 4 [fld "CORES" 31 16 .ro 0x0, fld "BANKS" 15 0 .ro 0x0],
  rg "SPARE_OP" 0x060 1 4 [fld "OP" 31 28 .wo 0x0, fld "CORE" 25 16 .wo 0x0, fld "BANK" 14 12 .wo 0x0, fld "DIE" 2 0 .wo 0x0],
  rg "SPARE_STAT" 0x064 1 4 [fld "BUSY" 31 31 .ro 0x0, fld "STATUS" 23 16 .ro 0x0, fld "REASON" 15 8 .ro 0x0, fld "OP" 3 0 .ro 0x0],
  rg "WEAR_CFG" 0x068 1 4 [fld "CORE_FLT" 31 24 .rw 0x8, fld "BANK_CE" 23 8 .rw 0x400, fld "AUTO" 0 0 .rw 0x1],
  rg "LOG_HEAD" 0x06C 1 4 [fld "REPAIR" 31 16 .ro 0x0, fld "EVENT" 12 0 .ro 0x0],
  rg "LOG_IDX" 0x070 1 4 [fld "SECTION" 31 30 .rw 0x0, fld "WORD" 18 16 .rw 0x0, fld "ENTRY" 12 0 .rw 0x0],
  rg "LOG_DATA" 0x074 1 4 [fld "DATA" 31 0 .ro 0x0] ]

/-- The registers of the SEC page (R506). -/
def secRegs : List Reg := [
  rg "PG_EVT" 0x010 1 4 [fld "UNTRUSTED" 6 6 .w1c 0x0, fld "LC_CHANGE" 5 5 .w1c 0x0, fld "D2_ENTERED" 4 4 .w1c 0x0, fld "KEYS_ERASED" 3 3 .w1c 0x0, fld "EXHAUSTED" 2 2 .w1c 0x0, fld "RNG_FAIL" 1 1 .w1c 0x0, fld "OP_DONE" 0 0 .w1c 0x0],
  rg "LC" 0x040 1 4 [fld "D2_HISTORY" 31 24 .ro 0x0, fld "DBG" 9 8 .ro 0x0, fld "STATE" 1 0 .ro 0x0],
  rg "SVN_FW" 0x044 1 4 [fld "SVN" 31 0 .ro 0x0],
  rg "SVN_CFG" 0x048 1 4 [fld "SVN" 31 0 .ro 0x0],
  rg "POLICY" 0x04C 1 4 [fld "RETAIN_KEYS" 2 2 .ro 0x0, fld "ARB_AUTO" 1 1 .ro 0x0, fld "CFG_VALID" 0 0 .ro 0x0],
  rg "CTRL" 0x050 1 4 [fld "D2_EXIT" 3 3 .wo 0x0, fld "ARB_COMMIT" 2 2 .wo 0x0, fld "D1" 0 0 .rw 0x0],
  rg "OP_CTRL" 0x054 1 4 [fld "OP" 3 0 .wo 0x0],
  rg "OP_ADDR_LO" 0x058 1 4 [fld "ADDR" 31 0 .rw 0x0],
  rg "OP_ADDR_HI" 0x05C 1 4 [fld "ADDR_HI" 11 0 .rw 0x0],
  rg "OP_LEN" 0x060 1 4 [fld "BYTES" 31 0 .rw 0x0],
  rg "OP_STAT" 0x064 1 4 [fld "BUSY" 31 31 .ro 0x0, fld "STATUS" 23 16 .ro 0x0, fld "REASON" 15 8 .ro 0x0, fld "KIND" 7 0 .ro 0x0],
  rg "NONCE" 0x080 8 4 [fld "BYTES" 31 0 .ro 0x0],
  rg "DEV_ID" 0x0A0 12 4 [fld "BYTES" 31 0 .ro 0x0],
  rg "SAF_MAP" 0x0D0 1 4 [fld "L3" 11 9 .ro 0x3, fld "L2" 8 6 .ro 0x2, fld "L1" 5 3 .ro 0x1, fld "L0" 2 0 .ro 0x0],
  rg "SLOT_IDX" 0x0D4 1 4 [fld "SLOT" 5 0 .rw 0x0],
  rg "SLOT_STAT" 0x0D8 1 4 [fld "VALID" 31 31 .ro 0x0, fld "EXHAUSTED" 30 30 .ro 0x0, fld "USE" 29 28 .ro 0x0, fld "PEER" 27 24 .ro 0x0, fld "LOG2_LIMIT" 23 16 .ro 0x0, fld "EPOCH" 15 0 .ro 0x0],
  rg "SLOT_CTR_LO" 0x0DC 1 4 [fld "CTR" 31 0 .ro 0x0],
  rg "SLOT_CTR_HI" 0x0E0 1 4 [fld "CTR" 31 0 .ro 0x0],
  rg "SLOT_ERASE" 0x0E4 1 4 [fld "GO" 31 31 .wo 0x0, fld "ALL" 8 8 .wo 0x0, fld "INDEX" 5 0 .wo 0x0],
  rg "UNTR" 0x0E8 1 4 [fld "INUSE" 6 0 .ro 0x0],
  rg "UNTR_REL" 0x0EC 1 4 [fld "GO" 31 31 .wo 0x0, fld "ALL" 8 8 .wo 0x0, fld "INDEX" 5 0 .wo 0x0] ]

/-- The registers of the SAFn page (R507). -/
def safRegs : List Reg := [
  rg "PG_EVT" 0x010 1 4 [fld "SELFTEST_FAIL" 1 1 .w1c 0x0, fld "AUTH_FAIL" 0 0 .w1c 0x0],
  rg "JR_BASE_LO" 0x040 1 4 [fld "ADDR" 31 12 .rw 0x0],
  rg "JR_BASE_HI" 0x044 1 4 [fld "ADDR_HI" 11 0 .rw 0x0],
  rg "JR_SIZE" 0x048 1 4 [fld "LOG2" 4 0 .rw 0x4],
  rg "JR_HEAD" 0x04C 1 4 [fld "INDEX" 31 0 .ro 0x0],
  rg "JR_TAIL" 0x050 1 4 [fld "INDEX" 31 0 .rw 0x0],
  rg "STAT" 0x054 1 4 [fld "INFLIGHT" 31 16 .ro 0x0, fld "RETIRED" 2 2 .ro 0x0, fld "STALLED" 1 1 .ro 0x0, fld "IDLE" 0 0 .ro 0x1],
  rg "CTRL" 0x058 1 4 [fld "EN" 0 0 .rw 0x0],
  rg "CNT" 0x05C 1 4 [fld "AUTH_FAIL" 31 16 .rc 0x0, fld "REFUSED" 15 0 .rc 0x0],
  rg "BYTES_LO" 0x060 1 4 [fld "COUNT" 31 0 .ro 0x0],
  rg "BYTES_HI" 0x064 1 4 [fld "COUNT" 31 0 .ro 0x0] ]

/-- The registers of the TIME page (R533). -/
def timeRegs : List Reg := [
  rg "PG_EVT" 0x010 1 4 [fld "STEP" 4 4 .w1c 0x0, fld "ACQ_FAIL" 3 3 .w1c 0x0, fld "REJECT" 2 2 .w1c 0x0, fld "UNLOCK" 1 1 .w1c 0x0, fld "LOCK" 0 0 .w1c 0x0],
  rg "CTRL" 0x040 1 4 [fld "ARM" 0 0 .rw 0x0],
  rg "STAT" 0x044 1 4 [fld "REJ_RUN" 9 8 .ro 0x0, fld "STATE" 1 0 .ro 0x0],
  rg "NOW_LO" 0x048 1 4 [fld "COUNT" 31 0 .ro 0x0],
  rg "NOW_HI" 0x04C 1 4 [fld "COUNT" 31 0 .ro 0x0],
  rg "NEXT_LO" 0x050 1 4 [fld "COUNT" 31 0 .rw 0x0],
  rg "NEXT_HI" 0x054 1 4 [fld "COUNT" 31 0 .rw 0x0],
  rg "EDGE_LO" 0x058 1 4 [fld "COUNT" 31 0 .ro 0x0],
  rg "EDGE_HI" 0x05C 1 4 [fld "COUNT" 31 0 .ro 0x0],
  rg "ERR" 0x060 1 4 [fld "VALUE" 31 0 .ro 0x0],
  rg "TRIM" 0x064 1 4 [fld "VALUE" 31 0 .ro 0x0],
  rg "CNT" 0x068 1 4 [fld "ACCEPTED" 31 16 .rc 0x0, fld "REJECTED" 15 0 .rc 0x0] ]

/-- The registers of the PWR page (R532). -/
def pwrRegs : List Reg := [
  rg "PG_EVT" 0x010 1 4 [fld "V_RANGE" 8 8 .w1c 0x0, fld "THR_LONG" 7 7 .w1c 0x0, fld "SENSOR" 6 6 .w1c 0x0, fld "THERM_HARD" 5 5 .w1c 0x0, fld "THERM_SOFT" 4 4 .w1c 0x0, fld "P3_REFUSED" 3 3 .w1c 0x0, fld "THR" 2 2 .w1c 0x0, fld "LIMIT" 1 1 .w1c 0x0, fld "STATE" 0 0 .w1c 0x0],
  rg "CTRL" 0x040 1 4 [fld "AUTO_P2" 8 8 .rw 0x1, fld "REQ" 2 0 .rw 0x0],
  rg "STAT" 0x044 1 4 [fld "ACK" 13 13 .ro 0x0, fld "THR" 12 12 .ro 0x0, fld "CLASS" 9 8 .ro 0x0, fld "STATE" 2 0 .ro 0x0],
  rg "CAP" 0x048 1 4 [fld "WATTS" 11 0 .rw 0x0],
  rg "THR_CFG" 0x04C 1 4 [fld "LONG_S" 31 16 .rw 0x3C, fld "FLOOR" 11 0 .rw 0x708],
  rg "IDLE" 0x050 1 4 [fld "US" 23 0 .rw 0x3E8],
  rg "P3_TMO" 0x054 1 4 [fld "US" 23 0 .rw 0x186A0],
  rg "P1_STAT" 0x058 1 4 [fld "DUTY" 22 16 .ro 0x40, fld "LIMITER" 11 8 .ro 0x0, fld "THERM_DIES" 7 0 .ro 0x0],
  rg "IN_V" 0x05C 1 4 [fld "MV" 15 0 .ro 0x0],
  rg "IN_I" 0x060 1 4 [fld "I10MA" 15 0 .ro 0x0],
  rg "IN_P" 0x064 1 4 [fld "PEAK_W" 31 16 .ro 0x0, fld "AVG_W" 15 0 .ro 0x0],
  rg "TEMP0" 0x068 1 4 [fld "DIE" 31 0 .ro 0x0],
  rg "TEMP1" 0x06C 1 4 [fld "DIE" 31 0 .ro 0x0],
  rg "TEMP2" 0x070 1 4 [fld "FAULT" 16 8 .ro 0x0, fld "IODIE" 7 0 .ro 0x0],
  rg "ENERGY_LO" 0x074 1 4 [fld "MJ" 31 0 .ro 0x0],
  rg "ENERGY_HI" 0x078 1 4 [fld "MJ" 31 0 .ro 0x0],
  rg "AON_STAT" 0x080 1 4 [fld "P3_COUNT" 31 16 .ro 0x0, fld "REFUSE" 3 0 .ro 0x0] ]

/-- The registers of the CLK page (R531). -/
def clkRegs : List Reg := [
  rg "PG_EVT" 0x010 1 4 [fld "REF_SWITCH" 1 1 .w1c 0x0, fld "REFCLK_BAD" 0 0 .w1c 0x0],
  rg "STAT" 0x040 1 4 [fld "REF_SRC" 16 16 .ro 0x0, fld "LOCK" 14 0 .ro 0x0],
  rg "REF_HZ" 0x044 1 4 [fld "HZ" 31 0 .ro 0x0],
  rg "REF_BAD_CNT" 0x048 1 4 [fld "COUNT" 31 0 .rc 0x0] ]

/-- The registers of the SUMAC page (R564). -/
def sumacRegs : List Reg := [
  rg "PG_EVT" 0x010 1 4 [fld "PHASE" 1 1 .w1c 0x0, fld "STRAP_FAULT" 0 0 .w1c 0x0],
  rg "STRAPS" 0x040 1 4 [fld "FAULT" 12 12 .ro 0x0, fld "PINS" 11 0 .ro 0x0],
  rg "PIN_IN" 0x044 1 4 [fld "LEVEL" 11 0 .ro 0x0],
  rg "PHASE" 0x048 1 4 [fld "PHASE" 1 0 .ro 0x0] ]

/-- The registers of the ZWK page (R435). -/
def zwkRegs : List Reg := [
  rg "PG_EVT" 0x010 1 4 [fld "KEY_NEEDED" 6 6 .w1c 0x0, fld "DROPPED" 5 5 .w1c 0x0, fld "LATE" 4 4 .w1c 0x0, fld "UNTRUSTED" 3 3 .w1c 0x0, fld "REROUTE" 2 2 .w1c 0x0, fld "MEMBERSHIP" 1 1 .w1c 0x0, fld "COMMIT" 0 0 .w1c 0x0],
  rg "CFG" 0x040 1 4 [fld "SITE_ID" 31 28 .rw 0x0, fld "CONVENER" 27 16 .rw 0x0, fld "NGW" 15 12 .rw 0x0, fld "DONOR" 11 8 .rw 0x0, fld "JOIN" 3 3 .rw 0x0, fld "TABLE_EN" 2 2 .rw 0x0, fld "GATEWAY" 1 1 .rw 0x0, fld "EN" 0 0 .rw 0x0],
  rg "RS" 0x044 1 4 [fld "M" 20 16 .rw 0x4, fld "K" 5 0 .rw 0xC],
  rg "WIN" 0x048 1 4 [fld "S" 27 24 .rw 0x4, fld "W" 23 0 .rw 0xEA60],
  rg "TMO" 0x04C 1 4 [fld "ISO_TMO" 31 16 .rw 0x1388, fld "ROUTE_JUMP" 15 0 .rw 0x7D0],
  rg "EXCH" 0x050 1 4 [fld "REJOIN_HOLD" 31 16 .rw 0x2710, fld "COUNT" 12 0 .rw 0x0],
  rg "MEMB" 0x054 1 4 [fld "ENROLLED" 31 16 .rw 0x0, fld "MEMBERS" 15 0 .ro 0x0],
  rg "EPOCH" 0x058 1 4 [fld "EPOCH" 31 16 .ro 0x0, fld "DECIDER" 15 12 .ro 0x0, fld "STATE" 1 0 .ro 0x0],
  rg "ROUND" 0x05C 1 4 [fld "ROUND" 31 0 .ro 0xFFFFFFFF],
  rg "FORK" 0x060 1 4 [fld "ROUND" 31 0 .ro 0xFFFFFFFF],
  rg "RT_IDX" 0x064 1 4 [fld "SITE" 9 6 .rw 0x0, fld "ROUTE" 5 4 .rw 0x0, fld "WORD" 2 0 .rw 0x0],
  rg "RT_DATA" 0x068 1 4 [],
  rg "KEYS" 0x06C 1 4 [fld "NEXT_READY" 31 16 .ro 0x0, fld "KEY_STALE" 15 0 .ro 0x0],
  rg "CNT0" 0x070 1 4 [fld "RECOVERED" 31 16 .rc 0x0, fld "NAKS" 15 0 .rc 0x0],
  rg "CNT1" 0x074 1 4 [fld "LOST" 31 16 .rc 0x0, fld "UNTRUSTED" 15 0 .rc 0x0],
  rg "CNT2" 0x078 1 4 [fld "LATE" 31 16 .rc 0x0, fld "DROPPED" 15 0 .rc 0x0],
  rg "CNT3" 0x07C 1 4 [fld "REPLAYS" 31 16 .rc 0x0, fld "REROUTES" 15 0 .rc 0x0],
  rg "GW" 0x080 8 4 [fld "ODD" 27 16 .rw 0x0, fld "EVEN" 11 0 .rw 0x0],
  rg "STALE_W" 0x0A0 8 4 [fld "WEIGHT" 31 0 .rw 0x0],
  rg "ZQ_FLAGS" 0x100 1 4 [fld "INV" 3 3 .w1c 0x0, fld "OVF" 2 2 .w1c 0x0, fld "UNF" 1 1 .w1c 0x0, fld "INX" 0 0 .w1c 0x0] ]

/-- The registers of the SITEn page (R436). -/
def siteRegs : List Reg := [
  rg "PG_EVT" 0x010 1 4 [fld "LINK" 0 0 .w1c 0x0],
  rg "LINK_CTRL" 0x040 1 4 [fld "SPEED" 2 1 .rw 0x0, fld "EN" 0 0 .rw 0x0],
  rg "LINK_STAT" 0x044 1 4 [fld "STATE" 17 16 .ro 0x0, fld "RATE" 1 0 .ro 0x0],
  rg "MAC_LO" 0x048 1 4 [fld "ADDR" 31 0 .rw 0x0],
  rg "MAC_HI" 0x04C 1 4 [fld "ADDR" 15 0 .rw 0x0],
  rg "IP6" 0x050 4 4 [fld "ADDR" 31 0 .rw 0x0],
  rg "IPCFG" 0x060 1 4 [fld "UDP_PORT" 31 16 .rw 0x5A4B, fld "TCLASS" 15 8 .rw 0x0, fld "HOP_LIMIT" 7 0 .rw 0x40],
  rg "RX_DROP" 0x064 1 4 [fld "COUNT" 31 0 .rc 0x0],
  rg "TX_CNT" 0x068 1 4 [fld "COUNT" 31 0 .rc 0x0],
  rg "RX_CNT" 0x06C 1 4 [fld "COUNT" 31 0 .rc 0x0] ]

/-- The registers of the FPn page (R332). -/
def fpRegs : List Reg := [
  rg "PG_EVT" 0x010 1 4 [fld "STATE" 0 0 .w1c 0x0],
  rg "LINK_CTRL" 0x040 1 4 [fld "RATE_CAP" 1 1 .rw 0x0, fld "EN" 0 0 .rw 0x0],
  rg "LINK_STAT" 0x044 1 4 [fld "STATE" 18 16 .ro 0x0, fld "WIDTH" 11 8 .ro 0x0, fld "RATE" 1 0 .ro 0x0],
  rg "LANE_MAP" 0x048 1 4 [fld "ACTIVE" 24 16 .ro 0x0, fld "FAILED" 8 0 .ro 0x0],
  rg "PEER" 0x04C 1 4 [fld "VALID" 31 31 .ro 0x0, fld "PORT" 15 12 .ro 0x0, fld "LID" 11 0 .ro 0x0],
  rg "LINK_CNT0" 0x050 1 4 [fld "REPLAYS" 31 16 .rc 0x0, fld "CRC_ERR" 15 0 .rc 0x0],
  rg "LINK_CNT1" 0x054 1 4 [fld "RETRAINS" 31 16 .rc 0x0, fld "FEC_CORR" 15 0 .rc 0x0] ]

/-- The registers of the OGS page (R331). -/
def ogsRegs : List Reg := [
  rg "MOD_ID" 0x040 1 4 [fld "VALID" 31 31 .rw 0x0, fld "LID" 11 0 .rw 0x0],
  rg "CFG" 0x044 1 4 [fld "C2_DEPTH" 31 16 .rw 0x4000, fld "HOP_MAX" 15 8 .rw 0x20, fld "DEGRADED" 3 3 .rw 0x0, fld "REG_REMOTE" 2 2 .rw 0x0, fld "ACCEPT" 1 1 .rw 0x0, fld "EN" 0 0 .rw 0x0],
  rg "COORD" 0x048 1 4 [fld "ZS" 31 28 .rw 0x0, fld "YS" 27 24 .rw 0x0, fld "XS" 23 20 .rw 0x0],
  rg "ROUTE_GEN" 0x04C 1 4 [fld "BUSY" 31 31 .ro 0x0, fld "GO" 0 0 .wo 0x0],
  rg "RT_IDX" 0x050 1 4 [fld "ID" 11 0 .rw 0x0],
  rg "RT_DATA" 0x054 1 4 [fld "VALID" 31 31 .rw 0x0, fld "VC" 8 8 .rw 0x0, fld "PORT" 3 0 .rw 0x0],
  rg "C2_TMO" 0x058 1 4 [fld "US" 23 0 .rw 0x1F4],
  rg "REQ_TMO" 0x05C 1 4 [fld "US" 23 0 .rw 0x7D0],
  rg "TRK_C" 0x060 4 4 [fld "INUSE" 17 0 .ro 0x0],
  rg "ADM_CNT0" 0x070 1 4 [fld "C2_HELD" 31 16 .rc 0x0, fld "C1_STALLS" 15 0 .rc 0x0],
  rg "ADM_CNT1" 0x074 1 4 [fld "C3_REFUSED" 31 16 .rc 0x0, fld "C2_RETRY" 15 0 .rc 0x0],
  rg "ADM_CNT2" 0x078 1 4 [fld "TIMEOUTS" 31 16 .rc 0x0, fld "LATE_RSP" 15 0 .rc 0x0],
  rg "ERR_CAP0" 0x07C 1 4 [fld "VALID" 31 31 .w1c 0x0, fld "STATUS" 23 16 .ro 0x0, fld "DETAIL" 15 0 .ro 0x0],
  rg "ERR_CAP1" 0x080 1 4 [fld "PART" 31 26 .ro 0x0, fld "CLASS" 25 24 .ro 0x0, fld "CORE" 21 12 .ro 0x0, fld "DST" 11 0 .ro 0x0] ]

/-- The registers of the CLV page (R355). -/
def clvRegs : List Reg := [
  rg "PG_EVT" 0x010 1 4 [fld "IN_DOUBT" 3 3 .w1c 0x0, fld "MEMBER_LOST" 2 2 .w1c 0x0, fld "CONFLICT" 1 1 .w1c 0x0, fld "LOG_FULL" 0 0 .w1c 0x0],
  rg "CFG" 0x040 1 4 [fld "EN" 0 0 .rw 0x0],
  rg "LOG_BASE" 0x044 1 4 [fld "BASE" 13 0 .rw 0x0],
  rg "LOG_USE" 0x048 1 4 [fld "MIB" 10 0 .ro 0x0],
  rg "VOTE_TMO" 0x04C 1 4 [fld "US" 23 0 .rw 0x2710],
  rg "DEC_TMO" 0x050 1 4 [fld "US" 23 0 .rw 0x3E8],
  rg "FORCE" 0x054 1 4 [fld "ACT" 9 8 .wo 0x0, fld "SLOT" 3 0 .wo 0x0],
  rg "CNT0" 0x058 1 4 [fld "ABORTS" 31 16 .rc 0x0, fld "COMMITS" 15 0 .rc 0x0],
  rg "CNT1" 0x05C 1 4 [fld "CONFLICTS" 31 16 .rc 0x0, fld "LOST" 15 0 .rc 0x0],
  rg "LOST" 0x060 1 4 [fld "VALID" 31 31 .w1c 0x0, fld "SLOT" 15 12 .ro 0x0, fld "LID" 11 0 .ro 0x0],
  rg "SLOT_STAT" 0x100 16 8 [fld "STATE" 31 28 .ro 0x0, fld "CAUSE" 27 24 .ro 0x0, fld "STEP" 23 23 .ro 0x0, fld "SCOPE" 22 22 .ro 0x0, fld "COORD" 21 21 .ro 0x0, fld "OUTCOME" 20 19 .ro 0x0, fld "COORD_LID" 11 0 .ro 0x0],
  rg "SLOT_INFO" 0x104 16 8 [fld "SEQ" 31 16 .ro 0x0, fld "ACTIONS" 12 0 .ro 0x0] ]

/-- The registers of the COLL page (R386). -/
def collRegs : List Reg := [
  rg "PG_EVT" 0x010 1 4 [fld "LATE_LOST" 3 3 .w1c 0x0, fld "AFTER_USE" 2 2 .w1c 0x0, fld "EXCLUDED" 1 1 .w1c 0x0, fld "MISMATCH" 0 0 .w1c 0x0],
  rg "CFG" 0x040 1 4 [fld "EXCL_MAX" 15 8 .rw 0x8, fld "EN" 0 0 .rw 0x0],
  rg "GTAB_BASE" 0x044 1 4 [fld "BASE" 19 0 .rw 0x0],
  rg "ENTRY_TMO" 0x048 1 4 [fld "US" 23 0 .rw 0x2710],
  rg "CHUNK_TMO" 0x04C 1 4 [fld "US" 23 0 .rw 0x7D0],
  rg "LATE_TMO" 0x050 1 4 [fld "US" 23 0 .rw 0x2710],
  rg "MISM0" 0x054 1 4 [fld "VALID" 31 31 .w1c 0x0, fld "FIELD" 20 16 .ro 0x0, fld "MEMBER" 11 0 .ro 0x0],
  rg "MISM1" 0x058 1 4 [fld "GROUP" 31 24 .ro 0x0, fld "SEQ" 15 0 .ro 0x0],
  rg "EXCL" 0x05C 1 4 [fld "VALID" 31 31 .w1c 0x0, fld "GROUP" 23 16 .ro 0x0, fld "RANK" 11 0 .ro 0x0],
  rg "CNT0" 0x060 1 4 [fld "DONE" 31 16 .rc 0x0, fld "FAILED" 15 0 .rc 0x0],
  rg "CNT1" 0x064 1 4 [fld "EXCLUSIONS" 31 16 .rc 0x0, fld "LATE_LOST" 15 0 .rc 0x0],
  rg "CL_FLAGS" 0x100 1 4 [fld "INV" 3 3 .w1c 0x0, fld "OVF" 2 2 .w1c 0x0, fld "UNF" 1 1 .w1c 0x0, fld "INX" 0 0 .w1c 0x0] ]

/-- The registers of the HBMn page (R290). -/
def hbmRegs : List Reg := [
  rg "PG_EVT" 0x010 1 4 [fld "REBUILT" 8 8 .w1c 0x0, fld "SENSOR" 7 7 .w1c 0x0, fld "HOT" 6 6 .w1c 0x0, fld "FAILED" 5 5 .w1c 0x0, fld "RETIRE_PEND" 4 4 .w1c 0x0, fld "NOSPARE" 3 3 .w1c 0x0, fld "SPPR_DONE" 2 2 .w1c 0x0, fld "UE" 1 1 .w1c 0x0, fld "CE_ROW" 0 0 .w1c 0x0],
  rg "HC_STAT" 0x040 1 4 [fld "DIE_CAP" 23 16 .ro 0x0, fld "PCS" 15 8 .ro 0x0, fld "STATE" 2 0 .ro 0x0],
  rg "HC_CFG" 0x044 1 4 [fld "SR_IDLE" 25 16 .rw 0xA, fld "PARTIAL_SR_EN" 0 0 .rw 0x1],
  rg "RAS_CFG" 0x048 1 4 [fld "SCRUB_H" 31 24 .rw 0x18, fld "UE_PC" 23 16 .rw 0x4, fld "CE_ROW" 15 8 .rw 0x3, fld "PPR_EN" 0 0 .rw 0x1],
  rg "PC_RETIRED" 0x04C 1 4 [fld "MAP" 31 0 .ro 0x0],
  rg "PC_PENDING" 0x050 1 4 [fld "MAP" 31 0 .rw 0x0],
  rg "ECC_CNT" 0x054 1 4 [fld "UE" 31 16 .rc 0x0, fld "CE" 15 0 .rc 0x0],
  rg "PPR" 0x058 1 4 [fld "SPPR" 31 16 .rc 0x0, fld "NOSPARE" 15 0 .rc 0x0],
  rg "TEMP" 0x05C 1 4 [fld "SENSOR_FAULT" 8 8 .ro 0x0, fld "DEG_C" 7 0 .ro 0x0],
  rg "UE_CAP0" 0x060 1 4 [fld "VALID" 31 31 .w1c 0x0, fld "STRIPE" 30 0 .ro 0x0],
  rg "UE_CAP1" 0x064 1 4 [fld "PC" 28 24 .ro 0x0, fld "SLOT" 23 0 .ro 0x0] ]

/-- The registers of the DIEn page (R68). -/
def dieRegs : List Reg := [
  rg "MX_FLAGS" 0x100 1 4 [fld "INV" 3 3 .w1c 0x0, fld "OVF" 2 2 .w1c 0x0, fld "UNF" 1 1 .w1c 0x0, fld "INX" 0 0 .w1c 0x0],
  rg "VX_FLAGS" 0x104 1 4 [fld "INV" 3 3 .w1c 0x0, fld "OVF" 2 2 .w1c 0x0, fld "UNF" 1 1 .w1c 0x0, fld "INX" 0 0 .w1c 0x0],
  rg "NM_FLAGS" 0x108 1 4 [fld "INV" 3 3 .w1c 0x0, fld "OVF" 2 2 .w1c 0x0, fld "UNF" 1 1 .w1c 0x0, fld "INX" 0 0 .w1c 0x0] ]

/-- The registers of a block besides the common header. -/
def Block.regs : Block → List Reg
  | .gctl => gctlRegs
  | .hp => hpRegs
  | .mbx => mbxRegs
  | .cdm => cdmRegs
  | .sec => secRegs
  | .time => timeRegs
  | .pwr => pwrRegs
  | .clk => clkRegs
  | .sumac => sumacRegs
  | .zwk => zwkRegs
  | .site => siteRegs
  | .fp => fpRegs
  | .ogs => ogsRegs
  | .clv => clvRegs
  | .coll => collRegs
  | .saf => safRegs
  | .hbm => hbmRegs
  | .die => dieRegs
  | .core => coreRegs
  | .pcore => coreRegs

/-- The base, the BLOCK value and the number of instances of each kind of page (R562). -/
def Block.info : Block → Nat × Nat × Nat
  | .gctl => (0x0000000, 0x0001, 1)
  | .hp => (0x0004000, 0x0002, 2)
  | .mbx => (0x0010000, 0x0003, 2)
  | .cdm => (0x0020000, 0x0004, 1)
  | .sec => (0x0030000, 0x0005, 1)
  | .time => (0x0040000, 0x0007, 1)
  | .pwr => (0x0044000, 0x0008, 1)
  | .clk => (0x0048000, 0x0009, 1)
  | .sumac => (0x004C000, 0x000A, 1)
  | .zwk => (0x0050000, 0x000B, 1)
  | .site => (0x0054000, 0x000C, 2)
  | .fp => (0x0060000, 0x000D, 16)
  | .ogs => (0x00A0000, 0x000E, 1)
  | .clv => (0x00A4000, 0x000F, 1)
  | .coll => (0x00A8000, 0x0010, 1)
  | .saf => (0x00B0000, 0x0006, 5)
  | .hbm => (0x0100000, 0x0011, 32)
  | .die => (0x0200000, 0x0012, 8)
  | .core => (0x1000000, 0x0013, 1024)
  | .pcore => (0x2000000, 0x0014, 1088)

/-- Every kind of page. -/
def Block.all : List Block := [.gctl, .hp, .mbx, .cdm, .sec, .time, .pwr, .clk, .sumac, .zwk, .site, .fp, .ogs, .clv,
  .coll, .saf, .hbm, .die, .core, .pcore]

/-- The base address of page i of a block: base + i × 0x4000 (R562). -/
def Block.page (b : Block) (i : Nat) : Nat := b.info.1 + i * 0x4000

/-- Page i of a block as found from an address below 64 MiB. -/
def pageOf (a : Nat) : Option (Block × Nat) :=
  Block.all.findSome? fun b =>
    if b.info.1 ≤ a ∧ a < b.info.1 + b.info.2.2 * 0x4000 then some (b, (a - b.info.1) / 0x4000) else none

/-- The register at an offset of a page, if a table names one: the block's own tables first, then the common header. -/
def Block.regAt (b : Block) (off : Nat) : Option Reg :=
  (b.regs ++ hdrRegs).find? fun r =>
    decide (r.off ≤ off ∧ (off - r.off) % r.stride = 0 ∧ (off - r.off) / r.stride < r.n)

/-- The header registers PG_EVT, PG_EVT_EN and PG_EVT_INJ carry the event bits of the block's own table (R464). -/
def Block.evtMask (b : Block) : Nat :=
  match b.regs.find? (fun r => r.off == 0x010) with
  | some r => r.fields.foldl (fun m f => m ||| (maskBits f.hi f.lo).toNat) 0
  | none => 0

/-- The fields of a page offset, PG_EVT_EN and PG_EVT_INJ included; an offset no table names has none (R5, R7). -/
def Block.fieldsAt (b : Block) (off : Nat) : List Field :=
  if off = 0x014 ∨ off = 0x018 then
    match b.regs.find? (fun r => r.off == 0x010) with
    | some r => r.fields.map fun f => ⟨f.name, f.hi, f.lo, if off = 0x014 then .rw else .wo, 0⟩
    | none => []
  else match b.regAt off with
    | some r => r.fields
    | none => []

/-- The bits of an offset that carry one access code. -/
def accMask (fs : List Field) (a : Acc) : Word :=
  fs.foldl (fun m f => if f.acc = a then m ||| maskBits f.hi f.lo else m) 0

/-- The reset value of an offset of a page, as its table states it. -/
def Block.rst (b : Block) (off : Nat) : Word :=
  (b.fieldsAt off).foldl (fun w f => setBits w f.hi f.lo f.rst) 0

/-- The reset value of the register at an address in the layout of BAR0. -/
def regRst (a : Nat) : Word :=
  match pageOf a with
  | some (b, i) => b.rst (a - b.page i)
  | none => 0

/-! The fields by name. -/
namespace F

def PG_ID_BLOCK : FRef := ⟨0x000, 31, 16⟩
def PG_ID_INSTANCE : FRef := ⟨0x000, 15, 0⟩
def PG_VER_MAJOR : FRef := ⟨0x004, 31, 24⟩
def PG_VER_MINOR : FRef := ⟨0x004, 23, 16⟩
def PG_CTRL_ROUTE : FRef := ⟨0x008, 9, 8⟩
def PG_CTRL_VEC : FRef := ⟨0x008, 4, 0⟩
def PG_STAT_PEND_ANY : FRef := ⟨0x00C, 3, 3⟩
def PG_STAT_INT : FRef := ⟨0x00C, 2, 2⟩
def PG_STAT_DEGRADED : FRef := ⟨0x00C, 1, 1⟩
def PG_STAT_IN_SERVICE : FRef := ⟨0x00C, 0, 0⟩
def PG_UGRP_GROUP : FRef := ⟨0x01C, 3, 0⟩
def PG_PEND_STROBED : FRef := ⟨0x020, 1, 1⟩
def PG_PEND_WRITTEN : FRef := ⟨0x020, 0, 0⟩
def PG_ERRADDR_VALID : FRef := ⟨0x024, 31, 31⟩
def PG_ERRADDR_OFFSET : FRef := ⟨0x024, 13, 2⟩
def PG_ERRINFO_SRC : FRef := ⟨0x028, 31, 28⟩
def PG_ERRINFO_KIND : FRef := ⟨0x028, 27, 24⟩
def PG_ERRINFO_WRITE : FRef := ⟨0x028, 0, 0⟩
def PG_CNT_SEL_SEL : FRef := ⟨0x02C, 7, 0⟩
def PG_CNT_LO_COUNT : FRef := ⟨0x030, 31, 0⟩
def PG_CNT_HI_COUNT : FRef := ⟨0x034, 31, 0⟩
def PG_SPARE_MAP_MAP : FRef := ⟨0x038, 31, 0⟩
def PG_SCRATCH_DATA : FRef := ⟨0x03C, 31, 0⟩
def PG_EVT_DIVERGED : FRef := ⟨0x010, 1, 1⟩
def PG_EVT_CMPL : FRef := ⟨0x010, 0, 0⟩
def SQ_CTRL_CORE_RST : FRef := ⟨0x040, 1, 1⟩
def SQ_CTRL_HALT : FRef := ⟨0x040, 0, 0⟩
def SQ_STAT_INFLIGHT : FRef := ⟨0x044, 31, 16⟩
def SQ_STAT_TOK_SAT : FRef := ⟨0x044, 3, 3⟩
def SQ_STAT_WAIT_TMO : FRef := ⟨0x044, 2, 2⟩
def SQ_STAT_FETCH_ERR : FRef := ⟨0x044, 1, 1⟩
def SQ_STAT_HALTED : FRef := ⟨0x044, 0, 0⟩
def DR_BASE_LO_ADDR : FRef := ⟨0x048, 31, 12⟩
def DR_BASE_HI_SP : FRef := ⟨0x04C, 31, 31⟩
def DR_BASE_HI_ADDR_HI : FRef := ⟨0x04C, 11, 0⟩
def DR_SIZE_LOG2 : FRef := ⟨0x050, 4, 0⟩
def DR_HEAD_INDEX : FRef := ⟨0x054, 31, 0⟩
def DR_TAIL_INDEX : FRef := ⟨0x058, 31, 0⟩
def CR_BASE_LO_ADDR : FRef := ⟨0x05C, 31, 12⟩
def CR_BASE_HI_SP : FRef := ⟨0x060, 31, 31⟩
def CR_BASE_HI_ADDR_HI : FRef := ⟨0x060, 11, 0⟩
def CR_COUNT_INDEX : FRef := ⟨0x064, 31, 0⟩
def SQ_WAIT_TMO_US : FRef := ⟨0x068, 23, 0⟩
def MX_FLAGS_INV : FRef := ⟨0x100, 3, 3⟩
def MX_FLAGS_OVF : FRef := ⟨0x100, 2, 2⟩
def MX_FLAGS_UNF : FRef := ⟨0x100, 1, 1⟩
def MX_FLAGS_INX : FRef := ⟨0x100, 0, 0⟩
def VX_FLAGS_INV : FRef := ⟨0x104, 3, 3⟩
def VX_FLAGS_OVF : FRef := ⟨0x104, 2, 2⟩
def VX_FLAGS_UNF : FRef := ⟨0x104, 1, 1⟩
def VX_FLAGS_INX : FRef := ⟨0x104, 0, 0⟩
def NM_FLAGS_INV : FRef := ⟨0x108, 3, 3⟩
def NM_FLAGS_OVF : FRef := ⟨0x108, 2, 2⟩
def NM_FLAGS_UNF : FRef := ⟨0x108, 1, 1⟩
def NM_FLAGS_INX : FRef := ⟨0x108, 0, 0⟩
def MX_CTRL_RESTART_MAX : FRef := ⟨0x140, 7, 4⟩
def MX_CTRL_PREEMPT : FRef := ⟨0x140, 0, 0⟩
def MX_STAT_SAVE_ERR : FRef := ⟨0x144, 8, 8⟩
def MX_STAT_SWAPPED : FRef := ⟨0x144, 7, 7⟩
def MX_STAT_SHALLOW : FRef := ⟨0x144, 6, 6⟩
def MX_STAT_STATE : FRef := ⟨0x144, 2, 0⟩
def MX_SAVE_BASE_BASE : FRef := ⟨0x148, 23, 12⟩
def MX_EVENTS_PREEMPTS : FRef := ⟨0x14C, 31, 16⟩
def MX_EVENTS_RESTARTS : FRef := ⟨0x14C, 15, 0⟩
def MX_PASS_LO_COUNT : FRef := ⟨0x150, 31, 0⟩
def MX_PASS_HI_COUNT : FRef := ⟨0x154, 31, 0⟩
def MX_ACFG_TAB_CLR : FRef := ⟨0x158, 8, 8⟩
def MX_ACFG_REPEAT_MAX : FRef := ⟨0x158, 3, 0⟩
def MX_ANCHOR_S_OBS : FRef := ⟨0x15C, 31, 16⟩
def MX_ANCHOR_A_FINAL : FRef := ⟨0x15C, 15, 0⟩
def MX_REPEATS_FALLBACKS : FRef := ⟨0x160, 31, 16⟩
def MX_REPEATS_REPEATS : FRef := ⟨0x160, 15, 0⟩
def MX_FIRST_INV0_VALID : FRef := ⟨0x164, 31, 31⟩
def MX_FIRST_INV0_ARRAY : FRef := ⟨0x164, 27, 26⟩
def MX_FIRST_INV0_CORE : FRef := ⟨0x164, 25, 16⟩
def MX_FIRST_INV0_ROW : FRef := ⟨0x164, 15, 0⟩
def MX_FIRST_INV1_COLUMN : FRef := ⟨0x168, 15, 0⟩
def MX_FIRST_INV_K_KIDX : FRef := ⟨0x16C, 31, 0⟩
def MX_INV_COUNT_COUNT : FRef := ⟨0x170, 31, 0⟩
def SP_ACCBUF_BASE : FRef := ⟨0x180, 23, 12⟩
def SP_ACCBUF_UNITS : FRef := ⟨0x180, 11, 0⟩
def SP_SCALE_BASE_BASE : FRef := ⟨0x184, 23, 12⟩
def SP_BANKMAP_RETIRED : FRef := ⟨0x188, 3, 0⟩
def SP_ECC_UE : FRef := ⟨0x18C, 31, 16⟩
def SP_ECC_CE : FRef := ⟨0x18C, 15, 0⟩
def NM_SKIPS_STALE_DROPS : FRef := ⟨0x190, 31, 16⟩
def NM_SKIPS_SLICE_SKIPS : FRef := ⟨0x190, 15, 0⟩
def NM_STAT_REALIGNS : FRef := ⟨0x194, 31, 16⟩
def NM_STAT_EMA_TORN : FRef := ⟨0x194, 15, 0⟩
def NM_AUDIT_VALID : FRef := ⟨0x198, 31, 31⟩
def NM_AUDIT_TENSOR : FRef := ⟨0x198, 23, 0⟩
def NM_AUDIT_SLICE_SLICE : FRef := ⟨0x19C, 31, 0⟩
def NM_AUDIT_CNT_COUNT : FRef := ⟨0x1A0, 31, 0⟩
def NM_DIV_VALID : FRef := ⟨0x1A4, 31, 31⟩
def NM_DIV_SOURCE : FRef := ⟨0x1A4, 29, 24⟩
def NM_DIV_TENSOR : FRef := ⟨0x1A4, 23, 0⟩
def NM_DIV_SLICE_SLICE : FRef := ⟨0x1A8, 31, 0⟩
def NM_DIV_CNT_COUNT : FRef := ⟨0x1AC, 31, 0⟩
def NM_UPD_LO_COUNT : FRef := ⟨0x1B0, 31, 0⟩
def NM_UPD_HI_COUNT : FRef := ⟨0x1B4, 31, 0⟩
def TOK_COUNT : FRef := ⟨0x200, 15, 0⟩
def GCTL_UPD_STROBE_GROUPS : FRef := ⟨0x040, 15, 0⟩
def GCTL_UPD_PEND_GROUPS : FRef := ⟨0x044, 15, 0⟩
def GCTL_INT_SUM_IODIE : FRef := ⟨0x048, 25, 8⟩
def GCTL_INT_SUM_DIE : FRef := ⟨0x048, 7, 0⟩
def GCTL_HSEM_OWNER : FRef := ⟨0x080, 1, 0⟩
def GCTL_MX_FLAGS_INV : FRef := ⟨0x100, 3, 3⟩
def GCTL_MX_FLAGS_OVF : FRef := ⟨0x100, 2, 2⟩
def GCTL_MX_FLAGS_UNF : FRef := ⟨0x100, 1, 1⟩
def GCTL_MX_FLAGS_INX : FRef := ⟨0x100, 0, 0⟩
def GCTL_VX_FLAGS_INV : FRef := ⟨0x104, 3, 3⟩
def GCTL_VX_FLAGS_OVF : FRef := ⟨0x104, 2, 2⟩
def GCTL_VX_FLAGS_UNF : FRef := ⟨0x104, 1, 1⟩
def GCTL_VX_FLAGS_INX : FRef := ⟨0x104, 0, 0⟩
def GCTL_NM_FLAGS_INV : FRef := ⟨0x108, 3, 3⟩
def GCTL_NM_FLAGS_OVF : FRef := ⟨0x108, 2, 2⟩
def GCTL_NM_FLAGS_UNF : FRef := ⟨0x108, 1, 1⟩
def GCTL_NM_FLAGS_INX : FRef := ⟨0x108, 0, 0⟩
def GCTL_STEP_VER_VER : FRef := ⟨0x1C0, 31, 0⟩
def GCTL_STEP_STAT_SKIPS : FRef := ⟨0x1C4, 31, 16⟩
def GCTL_STEP_STAT_LAST : FRef := ⟨0x1C4, 9, 8⟩
def GCTL_STEP_STAT_OPEN : FRef := ⟨0x1C4, 0, 0⟩
def GCTL_LSCALE_MAX : FRef := ⟨0x1C8, 23, 16⟩
def GCTL_LSCALE_MIN : FRef := ⟨0x1C8, 15, 8⟩
def GCTL_LSCALE_EXP : FRef := ⟨0x1C8, 7, 0⟩
def GCTL_LS_GOOD_INTERVAL : FRef := ⟨0x1CC, 31, 16⟩
def GCTL_LS_GOOD_GOOD : FRef := ⟨0x1CC, 15, 0⟩
def GCTL_STEP_POL_STALE : FRef := ⟨0x1D0, 8, 8⟩
def GCTL_STEP_POL_SHIFT : FRef := ⟨0x1D0, 3, 0⟩
def GCTL_EVAL_CFG_MODE : FRef := ⟨0x1D4, 0, 0⟩
def GCTL_IDX_ADDR_OFFSET : FRef := ⟨0x3F8, 25, 2⟩
def GCTL_IDX_DATA_DATA : FRef := ⟨0x3FC, 31, 0⟩
def HP_PG_EVT_PERST : FRef := ⟨0x010, 5, 5⟩
def HP_PG_EVT_B2_FAIL : FRef := ⟨0x010, 4, 4⟩
def HP_PG_EVT_REG_TMO : FRef := ⟨0x010, 3, 3⟩
def HP_PG_EVT_MBX_REJ : FRef := ⟨0x010, 2, 2⟩
def HP_PG_EVT_LINK : FRef := ⟨0x010, 1, 1⟩
def HP_LINK_STAT_WIDTH : FRef := ⟨0x040, 20, 16⟩
def HP_LINK_STAT_RATE : FRef := ⟨0x040, 11, 8⟩
def HP_LINK_STAT_UP : FRef := ⟨0x040, 0, 0⟩
def HP_B2_CFG_CLASS : FRef := ⟨0x044, 5, 4⟩
def HP_B2_CFG_OGS_EN : FRef := ⟨0x044, 0, 0⟩
def HP_B2_BASE_LO_ADDR : FRef := ⟨0x048, 31, 12⟩
def HP_B2_BASE_HI_ADDR_HI : FRef := ⟨0x04C, 23, 0⟩
def HP_ERR_CNT0_MBX_REJ : FRef := ⟨0x050, 31, 16⟩
def HP_ERR_CNT0_REG_TMO : FRef := ⟨0x050, 15, 0⟩
def HP_ERR_CNT1_B2_FAIL : FRef := ⟨0x054, 31, 16⟩
def HP_ERR_CNT1_PERSTS : FRef := ⟨0x054, 15, 0⟩
def MBX_PG_EVT_F2H_WORD : FRef := ⟨0x010, 0, 0⟩
def MBX_H2F_WORD : FRef := ⟨0x040, 31, 0⟩
def MBX_F2H_WORD : FRef := ⟨0x080, 31, 0⟩
def MBX_H2F_FULL_FULL : FRef := ⟨0x0C0, 15, 0⟩
def MBX_F2H_FULL_FULL : FRef := ⟨0x0C4, 15, 0⟩
def MBX_H2F_DB_BITS : FRef := ⟨0x0C8, 31, 0⟩
def MBX_H2F_DB_MASK_BITS : FRef := ⟨0x0CC, 31, 0⟩
def MBX_F2H_DB_BITS : FRef := ⟨0x0D0, 31, 0⟩
def MBX_F2H_DB_MASK_BITS : FRef := ⟨0x0D4, 31, 0⟩
def CDM_PG_EVT_LOG_FULL : FRef := ⟨0x010, 5, 5⟩
def CDM_PG_EVT_SPARE_DONE : FRef := ⟨0x010, 4, 4⟩
def CDM_PG_EVT_PENDING : FRef := ⟨0x010, 3, 3⟩
def CDM_PG_EVT_DEGRADED : FRef := ⟨0x010, 2, 2⟩
def CDM_PG_EVT_BOOT_FAIL : FRef := ⟨0x010, 1, 1⟩
def CDM_PG_EVT_READY : FRef := ⟨0x010, 0, 0⟩
def CDM_BOOT_STAT_STEP : FRef := ⟨0x040, 31, 24⟩
def CDM_BOOT_STAT_FAILS : FRef := ⟨0x040, 23, 16⟩
def CDM_BOOT_STAT_REASON : FRef := ⟨0x040, 15, 8⟩
def CDM_BOOT_STAT_SRC : FRef := ⟨0x040, 7, 4⟩
def CDM_BOOT_STAT_READY : FRef := ⟨0x040, 3, 3⟩
def CDM_BOOT_STAT_STRAP_FAULT : FRef := ⟨0x040, 2, 2⟩
def CDM_BOOT_STAT_RESUME : FRef := ⟨0x040, 1, 1⟩
def CDM_BOOT_STAT_LOAD_WAIT : FRef := ⟨0x040, 0, 0⟩
def CDM_BOOT_NUM_COUNT : FRef := ⟨0x044, 31, 0⟩
def CDM_CORES0_COUNT : FRef := ⟨0x048, 31, 0⟩
def CDM_CORES1_COUNT : FRef := ⟨0x04C, 31, 0⟩
def CDM_DEG_BITS : FRef := ⟨0x050, 7, 0⟩
def CDM_ALERT_SRC_SRC : FRef := ⟨0x054, 8, 0⟩
def CDM_ALERT_MASK_MASK : FRef := ⟨0x058, 8, 0⟩
def CDM_PENDING_CORES : FRef := ⟨0x05C, 31, 16⟩
def CDM_PENDING_BANKS : FRef := ⟨0x05C, 15, 0⟩
def CDM_SPARE_OP_OP : FRef := ⟨0x060, 31, 28⟩
def CDM_SPARE_OP_CORE : FRef := ⟨0x060, 25, 16⟩
def CDM_SPARE_OP_BANK : FRef := ⟨0x060, 14, 12⟩
def CDM_SPARE_OP_DIE : FRef := ⟨0x060, 2, 0⟩
def CDM_SPARE_STAT_BUSY : FRef := ⟨0x064, 31, 31⟩
def CDM_SPARE_STAT_STATUS : FRef := ⟨0x064, 23, 16⟩
def CDM_SPARE_STAT_REASON : FRef := ⟨0x064, 15, 8⟩
def CDM_SPARE_STAT_OP : FRef := ⟨0x064, 3, 0⟩
def CDM_WEAR_CFG_CORE_FLT : FRef := ⟨0x068, 31, 24⟩
def CDM_WEAR_CFG_BANK_CE : FRef := ⟨0x068, 23, 8⟩
def CDM_WEAR_CFG_AUTO : FRef := ⟨0x068, 0, 0⟩
def CDM_LOG_HEAD_REPAIR : FRef := ⟨0x06C, 31, 16⟩
def CDM_LOG_HEAD_EVENT : FRef := ⟨0x06C, 12, 0⟩
def CDM_LOG_IDX_SECTION : FRef := ⟨0x070, 31, 30⟩
def CDM_LOG_IDX_WORD : FRef := ⟨0x070, 18, 16⟩
def CDM_LOG_IDX_ENTRY : FRef := ⟨0x070, 12, 0⟩
def CDM_LOG_DATA_DATA : FRef := ⟨0x074, 31, 0⟩
def SEC_PG_EVT_UNTRUSTED : FRef := ⟨0x010, 6, 6⟩
def SEC_PG_EVT_LC_CHANGE : FRef := ⟨0x010, 5, 5⟩
def SEC_PG_EVT_D2_ENTERED : FRef := ⟨0x010, 4, 4⟩
def SEC_PG_EVT_KEYS_ERASED : FRef := ⟨0x010, 3, 3⟩
def SEC_PG_EVT_EXHAUSTED : FRef := ⟨0x010, 2, 2⟩
def SEC_PG_EVT_RNG_FAIL : FRef := ⟨0x010, 1, 1⟩
def SEC_PG_EVT_OP_DONE : FRef := ⟨0x010, 0, 0⟩
def SEC_LC_D2_HISTORY : FRef := ⟨0x040, 31, 24⟩
def SEC_LC_DBG : FRef := ⟨0x040, 9, 8⟩
def SEC_LC_STATE : FRef := ⟨0x040, 1, 0⟩
def SEC_SVN_FW_SVN : FRef := ⟨0x044, 31, 0⟩
def SEC_SVN_CFG_SVN : FRef := ⟨0x048, 31, 0⟩
def SEC_POLICY_RETAIN_KEYS : FRef := ⟨0x04C, 2, 2⟩
def SEC_POLICY_ARB_AUTO : FRef := ⟨0x04C, 1, 1⟩
def SEC_POLICY_CFG_VALID : FRef := ⟨0x04C, 0, 0⟩
def SEC_CTRL_D2_EXIT : FRef := ⟨0x050, 3, 3⟩
def SEC_CTRL_ARB_COMMIT : FRef := ⟨0x050, 2, 2⟩
def SEC_CTRL_D1 : FRef := ⟨0x050, 0, 0⟩
def SEC_OP_CTRL_OP : FRef := ⟨0x054, 3, 0⟩
def SEC_OP_ADDR_LO_ADDR : FRef := ⟨0x058, 31, 0⟩
def SEC_OP_ADDR_HI_ADDR_HI : FRef := ⟨0x05C, 11, 0⟩
def SEC_OP_LEN_BYTES : FRef := ⟨0x060, 31, 0⟩
def SEC_OP_STAT_BUSY : FRef := ⟨0x064, 31, 31⟩
def SEC_OP_STAT_STATUS : FRef := ⟨0x064, 23, 16⟩
def SEC_OP_STAT_REASON : FRef := ⟨0x064, 15, 8⟩
def SEC_OP_STAT_KIND : FRef := ⟨0x064, 7, 0⟩
def SEC_NONCE_BYTES : FRef := ⟨0x080, 31, 0⟩
def SEC_DEV_ID_BYTES : FRef := ⟨0x0A0, 31, 0⟩
def SEC_SAF_MAP_L3 : FRef := ⟨0x0D0, 11, 9⟩
def SEC_SAF_MAP_L2 : FRef := ⟨0x0D0, 8, 6⟩
def SEC_SAF_MAP_L1 : FRef := ⟨0x0D0, 5, 3⟩
def SEC_SAF_MAP_L0 : FRef := ⟨0x0D0, 2, 0⟩
def SEC_SLOT_IDX_SLOT : FRef := ⟨0x0D4, 5, 0⟩
def SEC_SLOT_STAT_VALID : FRef := ⟨0x0D8, 31, 31⟩
def SEC_SLOT_STAT_EXHAUSTED : FRef := ⟨0x0D8, 30, 30⟩
def SEC_SLOT_STAT_USE : FRef := ⟨0x0D8, 29, 28⟩
def SEC_SLOT_STAT_PEER : FRef := ⟨0x0D8, 27, 24⟩
def SEC_SLOT_STAT_LOG2_LIMIT : FRef := ⟨0x0D8, 23, 16⟩
def SEC_SLOT_STAT_EPOCH : FRef := ⟨0x0D8, 15, 0⟩
def SEC_SLOT_CTR_LO_CTR : FRef := ⟨0x0DC, 31, 0⟩
def SEC_SLOT_CTR_HI_CTR : FRef := ⟨0x0E0, 31, 0⟩
def SEC_SLOT_ERASE_GO : FRef := ⟨0x0E4, 31, 31⟩
def SEC_SLOT_ERASE_ALL : FRef := ⟨0x0E4, 8, 8⟩
def SEC_SLOT_ERASE_INDEX : FRef := ⟨0x0E4, 5, 0⟩
def SEC_UNTR_INUSE : FRef := ⟨0x0E8, 6, 0⟩
def SEC_UNTR_REL_GO : FRef := ⟨0x0EC, 31, 31⟩
def SEC_UNTR_REL_ALL : FRef := ⟨0x0EC, 8, 8⟩
def SEC_UNTR_REL_INDEX : FRef := ⟨0x0EC, 5, 0⟩
def SAF_PG_EVT_SELFTEST_FAIL : FRef := ⟨0x010, 1, 1⟩
def SAF_PG_EVT_AUTH_FAIL : FRef := ⟨0x010, 0, 0⟩
def SAF_JR_BASE_LO_ADDR : FRef := ⟨0x040, 31, 12⟩
def SAF_JR_BASE_HI_ADDR_HI : FRef := ⟨0x044, 11, 0⟩
def SAF_JR_SIZE_LOG2 : FRef := ⟨0x048, 4, 0⟩
def SAF_JR_HEAD_INDEX : FRef := ⟨0x04C, 31, 0⟩
def SAF_JR_TAIL_INDEX : FRef := ⟨0x050, 31, 0⟩
def SAF_STAT_INFLIGHT : FRef := ⟨0x054, 31, 16⟩
def SAF_STAT_RETIRED : FRef := ⟨0x054, 2, 2⟩
def SAF_STAT_STALLED : FRef := ⟨0x054, 1, 1⟩
def SAF_STAT_IDLE : FRef := ⟨0x054, 0, 0⟩
def SAF_CTRL_EN : FRef := ⟨0x058, 0, 0⟩
def SAF_CNT_AUTH_FAIL : FRef := ⟨0x05C, 31, 16⟩
def SAF_CNT_REFUSED : FRef := ⟨0x05C, 15, 0⟩
def SAF_BYTES_LO_COUNT : FRef := ⟨0x060, 31, 0⟩
def SAF_BYTES_HI_COUNT : FRef := ⟨0x064, 31, 0⟩
def TIME_PG_EVT_STEP : FRef := ⟨0x010, 4, 4⟩
def TIME_PG_EVT_ACQ_FAIL : FRef := ⟨0x010, 3, 3⟩
def TIME_PG_EVT_REJECT : FRef := ⟨0x010, 2, 2⟩
def TIME_PG_EVT_UNLOCK : FRef := ⟨0x010, 1, 1⟩
def TIME_PG_EVT_LOCK : FRef := ⟨0x010, 0, 0⟩
def TIME_CTRL_ARM : FRef := ⟨0x040, 0, 0⟩
def TIME_STAT_REJ_RUN : FRef := ⟨0x044, 9, 8⟩
def TIME_STAT_STATE : FRef := ⟨0x044, 1, 0⟩
def TIME_NOW_LO_COUNT : FRef := ⟨0x048, 31, 0⟩
def TIME_NOW_HI_COUNT : FRef := ⟨0x04C, 31, 0⟩
def TIME_NEXT_LO_COUNT : FRef := ⟨0x050, 31, 0⟩
def TIME_NEXT_HI_COUNT : FRef := ⟨0x054, 31, 0⟩
def TIME_EDGE_LO_COUNT : FRef := ⟨0x058, 31, 0⟩
def TIME_EDGE_HI_COUNT : FRef := ⟨0x05C, 31, 0⟩
def TIME_ERR_VALUE : FRef := ⟨0x060, 31, 0⟩
def TIME_TRIM_VALUE : FRef := ⟨0x064, 31, 0⟩
def TIME_CNT_ACCEPTED : FRef := ⟨0x068, 31, 16⟩
def TIME_CNT_REJECTED : FRef := ⟨0x068, 15, 0⟩
def PWR_PG_EVT_V_RANGE : FRef := ⟨0x010, 8, 8⟩
def PWR_PG_EVT_THR_LONG : FRef := ⟨0x010, 7, 7⟩
def PWR_PG_EVT_SENSOR : FRef := ⟨0x010, 6, 6⟩
def PWR_PG_EVT_THERM_HARD : FRef := ⟨0x010, 5, 5⟩
def PWR_PG_EVT_THERM_SOFT : FRef := ⟨0x010, 4, 4⟩
def PWR_PG_EVT_P3_REFUSED : FRef := ⟨0x010, 3, 3⟩
def PWR_PG_EVT_THR : FRef := ⟨0x010, 2, 2⟩
def PWR_PG_EVT_LIMIT : FRef := ⟨0x010, 1, 1⟩
def PWR_PG_EVT_STATE : FRef := ⟨0x010, 0, 0⟩
def PWR_CTRL_AUTO_P2 : FRef := ⟨0x040, 8, 8⟩
def PWR_CTRL_REQ : FRef := ⟨0x040, 2, 0⟩
def PWR_STAT_ACK : FRef := ⟨0x044, 13, 13⟩
def PWR_STAT_THR : FRef := ⟨0x044, 12, 12⟩
def PWR_STAT_CLASS : FRef := ⟨0x044, 9, 8⟩
def PWR_STAT_STATE : FRef := ⟨0x044, 2, 0⟩
def PWR_CAP_WATTS : FRef := ⟨0x048, 11, 0⟩
def PWR_THR_CFG_LONG_S : FRef := ⟨0x04C, 31, 16⟩
def PWR_THR_CFG_FLOOR : FRef := ⟨0x04C, 11, 0⟩
def PWR_IDLE_US : FRef := ⟨0x050, 23, 0⟩
def PWR_P3_TMO_US : FRef := ⟨0x054, 23, 0⟩
def PWR_P1_STAT_DUTY : FRef := ⟨0x058, 22, 16⟩
def PWR_P1_STAT_LIMITER : FRef := ⟨0x058, 11, 8⟩
def PWR_P1_STAT_THERM_DIES : FRef := ⟨0x058, 7, 0⟩
def PWR_IN_V_MV : FRef := ⟨0x05C, 15, 0⟩
def PWR_IN_I_I10MA : FRef := ⟨0x060, 15, 0⟩
def PWR_IN_P_PEAK_W : FRef := ⟨0x064, 31, 16⟩
def PWR_IN_P_AVG_W : FRef := ⟨0x064, 15, 0⟩
def PWR_TEMP0_DIE : FRef := ⟨0x068, 31, 0⟩
def PWR_TEMP1_DIE : FRef := ⟨0x06C, 31, 0⟩
def PWR_TEMP2_FAULT : FRef := ⟨0x070, 16, 8⟩
def PWR_TEMP2_IODIE : FRef := ⟨0x070, 7, 0⟩
def PWR_ENERGY_LO_MJ : FRef := ⟨0x074, 31, 0⟩
def PWR_ENERGY_HI_MJ : FRef := ⟨0x078, 31, 0⟩
def PWR_AON_STAT_P3_COUNT : FRef := ⟨0x080, 31, 16⟩
def PWR_AON_STAT_REFUSE : FRef := ⟨0x080, 3, 0⟩
def CLK_PG_EVT_REF_SWITCH : FRef := ⟨0x010, 1, 1⟩
def CLK_PG_EVT_REFCLK_BAD : FRef := ⟨0x010, 0, 0⟩
def CLK_STAT_REF_SRC : FRef := ⟨0x040, 16, 16⟩
def CLK_STAT_LOCK : FRef := ⟨0x040, 14, 0⟩
def CLK_REF_HZ_HZ : FRef := ⟨0x044, 31, 0⟩
def CLK_REF_BAD_CNT_COUNT : FRef := ⟨0x048, 31, 0⟩
def SUMAC_PG_EVT_PHASE : FRef := ⟨0x010, 1, 1⟩
def SUMAC_PG_EVT_STRAP_FAULT : FRef := ⟨0x010, 0, 0⟩
def SUMAC_STRAPS_FAULT : FRef := ⟨0x040, 12, 12⟩
def SUMAC_STRAPS_PINS : FRef := ⟨0x040, 11, 0⟩
def SUMAC_PIN_IN_LEVEL : FRef := ⟨0x044, 11, 0⟩
def SUMAC_PHASE_PHASE : FRef := ⟨0x048, 1, 0⟩
def ZWK_PG_EVT_KEY_NEEDED : FRef := ⟨0x010, 6, 6⟩
def ZWK_PG_EVT_DROPPED : FRef := ⟨0x010, 5, 5⟩
def ZWK_PG_EVT_LATE : FRef := ⟨0x010, 4, 4⟩
def ZWK_PG_EVT_UNTRUSTED : FRef := ⟨0x010, 3, 3⟩
def ZWK_PG_EVT_REROUTE : FRef := ⟨0x010, 2, 2⟩
def ZWK_PG_EVT_MEMBERSHIP : FRef := ⟨0x010, 1, 1⟩
def ZWK_PG_EVT_COMMIT : FRef := ⟨0x010, 0, 0⟩
def ZWK_CFG_SITE_ID : FRef := ⟨0x040, 31, 28⟩
def ZWK_CFG_CONVENER : FRef := ⟨0x040, 27, 16⟩
def ZWK_CFG_NGW : FRef := ⟨0x040, 15, 12⟩
def ZWK_CFG_DONOR : FRef := ⟨0x040, 11, 8⟩
def ZWK_CFG_JOIN : FRef := ⟨0x040, 3, 3⟩
def ZWK_CFG_TABLE_EN : FRef := ⟨0x040, 2, 2⟩
def ZWK_CFG_GATEWAY : FRef := ⟨0x040, 1, 1⟩
def ZWK_CFG_EN : FRef := ⟨0x040, 0, 0⟩
def ZWK_RS_M : FRef := ⟨0x044, 20, 16⟩
def ZWK_RS_K : FRef := ⟨0x044, 5, 0⟩
def ZWK_WIN_S : FRef := ⟨0x048, 27, 24⟩
def ZWK_WIN_W : FRef := ⟨0x048, 23, 0⟩
def ZWK_TMO_ISO_TMO : FRef := ⟨0x04C, 31, 16⟩
def ZWK_TMO_ROUTE_JUMP : FRef := ⟨0x04C, 15, 0⟩
def ZWK_EXCH_REJOIN_HOLD : FRef := ⟨0x050, 31, 16⟩
def ZWK_EXCH_COUNT : FRef := ⟨0x050, 12, 0⟩
def ZWK_MEMB_ENROLLED : FRef := ⟨0x054, 31, 16⟩
def ZWK_MEMB_MEMBERS : FRef := ⟨0x054, 15, 0⟩
def ZWK_EPOCH_EPOCH : FRef := ⟨0x058, 31, 16⟩
def ZWK_EPOCH_DECIDER : FRef := ⟨0x058, 15, 12⟩
def ZWK_EPOCH_STATE : FRef := ⟨0x058, 1, 0⟩
def ZWK_ROUND_ROUND : FRef := ⟨0x05C, 31, 0⟩
def ZWK_FORK_ROUND : FRef := ⟨0x060, 31, 0⟩
def ZWK_RT_IDX_SITE : FRef := ⟨0x064, 9, 6⟩
def ZWK_RT_IDX_ROUTE : FRef := ⟨0x064, 5, 4⟩
def ZWK_RT_IDX_WORD : FRef := ⟨0x064, 2, 0⟩
def ZWK_KEYS_NEXT_READY : FRef := ⟨0x06C, 31, 16⟩
def ZWK_KEYS_KEY_STALE : FRef := ⟨0x06C, 15, 0⟩
def ZWK_CNT0_RECOVERED : FRef := ⟨0x070, 31, 16⟩
def ZWK_CNT0_NAKS : FRef := ⟨0x070, 15, 0⟩
def ZWK_CNT1_LOST : FRef := ⟨0x074, 31, 16⟩
def ZWK_CNT1_UNTRUSTED : FRef := ⟨0x074, 15, 0⟩
def ZWK_CNT2_LATE : FRef := ⟨0x078, 31, 16⟩
def ZWK_CNT2_DROPPED : FRef := ⟨0x078, 15, 0⟩
def ZWK_CNT3_REPLAYS : FRef := ⟨0x07C, 31, 16⟩
def ZWK_CNT3_REROUTES : FRef := ⟨0x07C, 15, 0⟩
def ZWK_GW_ODD : FRef := ⟨0x080, 27, 16⟩
def ZWK_GW_EVEN : FRef := ⟨0x080, 11, 0⟩
def ZWK_STALE_W_WEIGHT : FRef := ⟨0x0A0, 31, 0⟩
def ZWK_ZQ_FLAGS_INV : FRef := ⟨0x100, 3, 3⟩
def ZWK_ZQ_FLAGS_OVF : FRef := ⟨0x100, 2, 2⟩
def ZWK_ZQ_FLAGS_UNF : FRef := ⟨0x100, 1, 1⟩
def ZWK_ZQ_FLAGS_INX : FRef := ⟨0x100, 0, 0⟩
def SITE_PG_EVT_LINK : FRef := ⟨0x010, 0, 0⟩
def SITE_LINK_CTRL_SPEED : FRef := ⟨0x040, 2, 1⟩
def SITE_LINK_CTRL_EN : FRef := ⟨0x040, 0, 0⟩
def SITE_LINK_STAT_STATE : FRef := ⟨0x044, 17, 16⟩
def SITE_LINK_STAT_RATE : FRef := ⟨0x044, 1, 0⟩
def SITE_MAC_LO_ADDR : FRef := ⟨0x048, 31, 0⟩
def SITE_MAC_HI_ADDR : FRef := ⟨0x04C, 15, 0⟩
def SITE_IP6_ADDR : FRef := ⟨0x050, 31, 0⟩
def SITE_IPCFG_UDP_PORT : FRef := ⟨0x060, 31, 16⟩
def SITE_IPCFG_TCLASS : FRef := ⟨0x060, 15, 8⟩
def SITE_IPCFG_HOP_LIMIT : FRef := ⟨0x060, 7, 0⟩
def SITE_RX_DROP_COUNT : FRef := ⟨0x064, 31, 0⟩
def SITE_TX_CNT_COUNT : FRef := ⟨0x068, 31, 0⟩
def SITE_RX_CNT_COUNT : FRef := ⟨0x06C, 31, 0⟩
def FP_PG_EVT_STATE : FRef := ⟨0x010, 0, 0⟩
def FP_LINK_CTRL_RATE_CAP : FRef := ⟨0x040, 1, 1⟩
def FP_LINK_CTRL_EN : FRef := ⟨0x040, 0, 0⟩
def FP_LINK_STAT_STATE : FRef := ⟨0x044, 18, 16⟩
def FP_LINK_STAT_WIDTH : FRef := ⟨0x044, 11, 8⟩
def FP_LINK_STAT_RATE : FRef := ⟨0x044, 1, 0⟩
def FP_LANE_MAP_ACTIVE : FRef := ⟨0x048, 24, 16⟩
def FP_LANE_MAP_FAILED : FRef := ⟨0x048, 8, 0⟩
def FP_PEER_VALID : FRef := ⟨0x04C, 31, 31⟩
def FP_PEER_PORT : FRef := ⟨0x04C, 15, 12⟩
def FP_PEER_LID : FRef := ⟨0x04C, 11, 0⟩
def FP_LINK_CNT0_REPLAYS : FRef := ⟨0x050, 31, 16⟩
def FP_LINK_CNT0_CRC_ERR : FRef := ⟨0x050, 15, 0⟩
def FP_LINK_CNT1_RETRAINS : FRef := ⟨0x054, 31, 16⟩
def FP_LINK_CNT1_FEC_CORR : FRef := ⟨0x054, 15, 0⟩
def OGS_MOD_ID_VALID : FRef := ⟨0x040, 31, 31⟩
def OGS_MOD_ID_LID : FRef := ⟨0x040, 11, 0⟩
def OGS_CFG_C2_DEPTH : FRef := ⟨0x044, 31, 16⟩
def OGS_CFG_HOP_MAX : FRef := ⟨0x044, 15, 8⟩
def OGS_CFG_DEGRADED : FRef := ⟨0x044, 3, 3⟩
def OGS_CFG_REG_REMOTE : FRef := ⟨0x044, 2, 2⟩
def OGS_CFG_ACCEPT : FRef := ⟨0x044, 1, 1⟩
def OGS_CFG_EN : FRef := ⟨0x044, 0, 0⟩
def OGS_COORD_ZS : FRef := ⟨0x048, 31, 28⟩
def OGS_COORD_YS : FRef := ⟨0x048, 27, 24⟩
def OGS_COORD_XS : FRef := ⟨0x048, 23, 20⟩
def OGS_ROUTE_GEN_BUSY : FRef := ⟨0x04C, 31, 31⟩
def OGS_ROUTE_GEN_GO : FRef := ⟨0x04C, 0, 0⟩
def OGS_RT_IDX_ID : FRef := ⟨0x050, 11, 0⟩
def OGS_RT_DATA_VALID : FRef := ⟨0x054, 31, 31⟩
def OGS_RT_DATA_VC : FRef := ⟨0x054, 8, 8⟩
def OGS_RT_DATA_PORT : FRef := ⟨0x054, 3, 0⟩
def OGS_C2_TMO_US : FRef := ⟨0x058, 23, 0⟩
def OGS_REQ_TMO_US : FRef := ⟨0x05C, 23, 0⟩
def OGS_TRK_C_INUSE : FRef := ⟨0x060, 17, 0⟩
def OGS_ADM_CNT0_C2_HELD : FRef := ⟨0x070, 31, 16⟩
def OGS_ADM_CNT0_C1_STALLS : FRef := ⟨0x070, 15, 0⟩
def OGS_ADM_CNT1_C3_REFUSED : FRef := ⟨0x074, 31, 16⟩
def OGS_ADM_CNT1_C2_RETRY : FRef := ⟨0x074, 15, 0⟩
def OGS_ADM_CNT2_TIMEOUTS : FRef := ⟨0x078, 31, 16⟩
def OGS_ADM_CNT2_LATE_RSP : FRef := ⟨0x078, 15, 0⟩
def OGS_ERR_CAP0_VALID : FRef := ⟨0x07C, 31, 31⟩
def OGS_ERR_CAP0_STATUS : FRef := ⟨0x07C, 23, 16⟩
def OGS_ERR_CAP0_DETAIL : FRef := ⟨0x07C, 15, 0⟩
def OGS_ERR_CAP1_PART : FRef := ⟨0x080, 31, 26⟩
def OGS_ERR_CAP1_CLASS : FRef := ⟨0x080, 25, 24⟩
def OGS_ERR_CAP1_CORE : FRef := ⟨0x080, 21, 12⟩
def OGS_ERR_CAP1_DST : FRef := ⟨0x080, 11, 0⟩
def CLV_PG_EVT_IN_DOUBT : FRef := ⟨0x010, 3, 3⟩
def CLV_PG_EVT_MEMBER_LOST : FRef := ⟨0x010, 2, 2⟩
def CLV_PG_EVT_CONFLICT : FRef := ⟨0x010, 1, 1⟩
def CLV_PG_EVT_LOG_FULL : FRef := ⟨0x010, 0, 0⟩
def CLV_CFG_EN : FRef := ⟨0x040, 0, 0⟩
def CLV_LOG_BASE_BASE : FRef := ⟨0x044, 13, 0⟩
def CLV_LOG_USE_MIB : FRef := ⟨0x048, 10, 0⟩
def CLV_VOTE_TMO_US : FRef := ⟨0x04C, 23, 0⟩
def CLV_DEC_TMO_US : FRef := ⟨0x050, 23, 0⟩
def CLV_FORCE_ACT : FRef := ⟨0x054, 9, 8⟩
def CLV_FORCE_SLOT : FRef := ⟨0x054, 3, 0⟩
def CLV_CNT0_ABORTS : FRef := ⟨0x058, 31, 16⟩
def CLV_CNT0_COMMITS : FRef := ⟨0x058, 15, 0⟩
def CLV_CNT1_CONFLICTS : FRef := ⟨0x05C, 31, 16⟩
def CLV_CNT1_LOST : FRef := ⟨0x05C, 15, 0⟩
def CLV_LOST_VALID : FRef := ⟨0x060, 31, 31⟩
def CLV_LOST_SLOT : FRef := ⟨0x060, 15, 12⟩
def CLV_LOST_LID : FRef := ⟨0x060, 11, 0⟩
def CLV_SLOT_STAT_STATE : FRef := ⟨0x100, 31, 28⟩
def CLV_SLOT_STAT_CAUSE : FRef := ⟨0x100, 27, 24⟩
def CLV_SLOT_STAT_STEP : FRef := ⟨0x100, 23, 23⟩
def CLV_SLOT_STAT_SCOPE : FRef := ⟨0x100, 22, 22⟩
def CLV_SLOT_STAT_COORD : FRef := ⟨0x100, 21, 21⟩
def CLV_SLOT_STAT_OUTCOME : FRef := ⟨0x100, 20, 19⟩
def CLV_SLOT_STAT_COORD_LID : FRef := ⟨0x100, 11, 0⟩
def CLV_SLOT_INFO_SEQ : FRef := ⟨0x104, 31, 16⟩
def CLV_SLOT_INFO_ACTIONS : FRef := ⟨0x104, 12, 0⟩
def COLL_PG_EVT_LATE_LOST : FRef := ⟨0x010, 3, 3⟩
def COLL_PG_EVT_AFTER_USE : FRef := ⟨0x010, 2, 2⟩
def COLL_PG_EVT_EXCLUDED : FRef := ⟨0x010, 1, 1⟩
def COLL_PG_EVT_MISMATCH : FRef := ⟨0x010, 0, 0⟩
def COLL_CFG_EXCL_MAX : FRef := ⟨0x040, 15, 8⟩
def COLL_CFG_EN : FRef := ⟨0x040, 0, 0⟩
def COLL_GTAB_BASE_BASE : FRef := ⟨0x044, 19, 0⟩
def COLL_ENTRY_TMO_US : FRef := ⟨0x048, 23, 0⟩
def COLL_CHUNK_TMO_US : FRef := ⟨0x04C, 23, 0⟩
def COLL_LATE_TMO_US : FRef := ⟨0x050, 23, 0⟩
def COLL_MISM0_VALID : FRef := ⟨0x054, 31, 31⟩
def COLL_MISM0_FIELD : FRef := ⟨0x054, 20, 16⟩
def COLL_MISM0_MEMBER : FRef := ⟨0x054, 11, 0⟩
def COLL_MISM1_GROUP : FRef := ⟨0x058, 31, 24⟩
def COLL_MISM1_SEQ : FRef := ⟨0x058, 15, 0⟩
def COLL_EXCL_VALID : FRef := ⟨0x05C, 31, 31⟩
def COLL_EXCL_GROUP : FRef := ⟨0x05C, 23, 16⟩
def COLL_EXCL_RANK : FRef := ⟨0x05C, 11, 0⟩
def COLL_CNT0_DONE : FRef := ⟨0x060, 31, 16⟩
def COLL_CNT0_FAILED : FRef := ⟨0x060, 15, 0⟩
def COLL_CNT1_EXCLUSIONS : FRef := ⟨0x064, 31, 16⟩
def COLL_CNT1_LATE_LOST : FRef := ⟨0x064, 15, 0⟩
def COLL_CL_FLAGS_INV : FRef := ⟨0x100, 3, 3⟩
def COLL_CL_FLAGS_OVF : FRef := ⟨0x100, 2, 2⟩
def COLL_CL_FLAGS_UNF : FRef := ⟨0x100, 1, 1⟩
def COLL_CL_FLAGS_INX : FRef := ⟨0x100, 0, 0⟩
def HBM_PG_EVT_REBUILT : FRef := ⟨0x010, 8, 8⟩
def HBM_PG_EVT_SENSOR : FRef := ⟨0x010, 7, 7⟩
def HBM_PG_EVT_HOT : FRef := ⟨0x010, 6, 6⟩
def HBM_PG_EVT_FAILED : FRef := ⟨0x010, 5, 5⟩
def HBM_PG_EVT_RETIRE_PEND : FRef := ⟨0x010, 4, 4⟩
def HBM_PG_EVT_NOSPARE : FRef := ⟨0x010, 3, 3⟩
def HBM_PG_EVT_SPPR_DONE : FRef := ⟨0x010, 2, 2⟩
def HBM_PG_EVT_UE : FRef := ⟨0x010, 1, 1⟩
def HBM_PG_EVT_CE_ROW : FRef := ⟨0x010, 0, 0⟩
def HBM_HC_STAT_DIE_CAP : FRef := ⟨0x040, 23, 16⟩
def HBM_HC_STAT_PCS : FRef := ⟨0x040, 15, 8⟩
def HBM_HC_STAT_STATE : FRef := ⟨0x040, 2, 0⟩
def HBM_HC_CFG_SR_IDLE : FRef := ⟨0x044, 25, 16⟩
def HBM_HC_CFG_PARTIAL_SR_EN : FRef := ⟨0x044, 0, 0⟩
def HBM_RAS_CFG_SCRUB_H : FRef := ⟨0x048, 31, 24⟩
def HBM_RAS_CFG_UE_PC : FRef := ⟨0x048, 23, 16⟩
def HBM_RAS_CFG_CE_ROW : FRef := ⟨0x048, 15, 8⟩
def HBM_RAS_CFG_PPR_EN : FRef := ⟨0x048, 0, 0⟩
def HBM_PC_RETIRED_MAP : FRef := ⟨0x04C, 31, 0⟩
def HBM_PC_PENDING_MAP : FRef := ⟨0x050, 31, 0⟩
def HBM_ECC_CNT_UE : FRef := ⟨0x054, 31, 16⟩
def HBM_ECC_CNT_CE : FRef := ⟨0x054, 15, 0⟩
def HBM_PPR_SPPR : FRef := ⟨0x058, 31, 16⟩
def HBM_PPR_NOSPARE : FRef := ⟨0x058, 15, 0⟩
def HBM_TEMP_SENSOR_FAULT : FRef := ⟨0x05C, 8, 8⟩
def HBM_TEMP_DEG_C : FRef := ⟨0x05C, 7, 0⟩
def HBM_UE_CAP0_VALID : FRef := ⟨0x060, 31, 31⟩
def HBM_UE_CAP0_STRIPE : FRef := ⟨0x060, 30, 0⟩
def HBM_UE_CAP1_PC : FRef := ⟨0x064, 28, 24⟩
def HBM_UE_CAP1_SLOT : FRef := ⟨0x064, 23, 0⟩
def DIE_MX_FLAGS_INV : FRef := ⟨0x100, 3, 3⟩
def DIE_MX_FLAGS_OVF : FRef := ⟨0x100, 2, 2⟩
def DIE_MX_FLAGS_UNF : FRef := ⟨0x100, 1, 1⟩
def DIE_MX_FLAGS_INX : FRef := ⟨0x100, 0, 0⟩
def DIE_VX_FLAGS_INV : FRef := ⟨0x104, 3, 3⟩
def DIE_VX_FLAGS_OVF : FRef := ⟨0x104, 2, 2⟩
def DIE_VX_FLAGS_UNF : FRef := ⟨0x104, 1, 1⟩
def DIE_VX_FLAGS_INX : FRef := ⟨0x104, 0, 0⟩
def DIE_NM_FLAGS_INV : FRef := ⟨0x108, 3, 3⟩
def DIE_NM_FLAGS_OVF : FRef := ⟨0x108, 2, 2⟩
def DIE_NM_FLAGS_UNF : FRef := ⟨0x108, 1, 1⟩
def DIE_NM_FLAGS_INX : FRef := ⟨0x108, 0, 0⟩

end F

end Sys2Proof.Machine
end

