-- ==== Sys2Proof/Machine/State.lean ====
section
/-! DEFINITION. The state of the module as plain data: memory, registers, cores, fabric, transactions, collectives, site
exchange, security, power, time, boot, pins, what was sent, and the queue of waiting commands. -/

namespace Sys2Proof.Machine

/-- The spec stops the module nowhere: every access has a status and every event an effect, so no reason exists. -/
inductive Fault where
deriving DecidableEq, Repr

/-- Why a command is refused. -/
inductive Refusal where
  /-- Raised by the dispatch for a command whose meaning is not written. Safe: the machine stops. -/
  | notModelled (mnemonic : String)
deriving DecidableEq, Repr

/-! ### Memory -/

/-- Memory: HBM by local offset (R264), scratchpads by physical core above 0xC00_0000_0000. The cells are in one
canonical form: addresses rise strictly and no listed byte is 0, which is what an unlisted address reads as. -/
structure Mem where
  cells : List Host.Cell
  /-- what is wrong in code words: the key of an 8-byte scratchpad word (R166) or of a 32-byte HBM burst (R271), and the
  number of a wrong bit or symbol of it -/
  errs : List (Nat × Nat)
deriving DecidableEq, Repr

/-! ### Cores -/

/-- A descriptor the sequencer has fetched: its ring index and its 16 words (R147). -/
structure Fetched where
  idx : Nat
  words : List Word
deriving DecidableEq, Repr

/-- What a descriptor's completion record will carry (R157, R158): STATUS, the flags of R67, DETAIL, word 2, and word 3
where the spec fixes it (none: CYCLES). -/
structure Rec where
  status : Nat
  flags : Nat
  detail : Nat
  w2 : Nat
  w3 : Option Nat
deriving DecidableEq, Repr

/-- A piece of a MOVE or FPRINT: one request's worth of bytes (R294, R325). -/
structure Piece where
  src : Nat
  dst : Nat
  len : Nat
  part : Nat
deriving DecidableEq, Repr

/-- The progress of a MOVE or FPRINT (R325 to R328). -/
structure MoveSt where
  /-- pieces served locally, not yet performed -/
  pieces : List Piece
  /-- requests of the descriptor not yet ended -/
  waiting : Nat
  failed : Nat
  full : Nat
  first : Option (Nat × Nat)
  degraded : Bool
  stopped : Bool
  /-- bytes an FPRINT has read: field index and bytes -/
  got : List (Nat × List Byte)
  /-- the digest of an FPRINT once its fingerprints are formed -/
  digest : Option Nat
deriving DecidableEq, Repr

/-- The progress of a CHAIN (R139 to R144). -/
structure ChainSt where
  tile : Nat
  /-- writes of the current tile not yet ended -/
  writes : Nat
  /-- the signal after the current tile has been sent -/
  signalled : Bool
  /-- the tile being sent is header-only -/
  hdrOnly : Bool
  /-- a write of the current tile failed: the tile has not landed -/
  lost : Bool
  /-- the CSTAT carried from here on, and the DETAIL of the request that failed (R157) -/
  fail : Nat
  det : Nat
  longK : Bool
  flags : Nat
deriving DecidableEq, Repr

/-- A chunk that a member has ready to send: the receiver's included index and the writes of its staging slot (R377). -/
structure CollOut where
  dst : Nat
  writes : List (Nat × List Byte)
deriving DecidableEq, Repr

/-- Where a member of a collective stands: queued behind its engine, entered, START taken, its summaries being written,
its PRE sent, reading the agreed anchors, moving data, excluded, or served after its exclusion. -/
inductive CollPhase where
  | queued | entered | begun | summing | summed | anchors | data | late
deriving DecidableEq, Repr

/-- How a collective ended: status, bitmap, and the field and rank of a MISMATCH. -/
structure CollEnd where
  status : Nat
  bitmap : Nat
  field : Nat
  rank : Nat
deriving DecidableEq, Repr

/-- An ENTER as the leader holds it: the signature and the member's record (R364). -/
structure Entrant where
  sig : List Word
  peer : Peer
deriving DecidableEq, Repr

/-- The leader's side of a collective (R364 to R368, R373, R380 to R383). -/
structure CollLead where
  /-- the group table: module and core of each rank -/
  table : List (Nat × Nat)
  /-- for each rank, which of its ENTERs to this core belongs to this collective -/
  turn : List Nat
  entered : List Entrant
  closed : Bool
  /-- included members in rank order -/
  incl : List Peer
  /-- included indices whose PRE has come, the merged summaries, and the merged FIXED bits -/
  pres : List Nat
  sums : List Word
  fixed : List Bool
  /-- reports: rank, status, CONSUMED -/
  reports : List (Nat × Nat × Bool)
  /-- status of the first failure received -/
  fail : Option Nat
  stopSent : Bool
  stopOver : Bool
  verdict : Option CollEnd
  /-- excluded ranks; late members that were answered; those whose report has come; the one being served and its writes
  not yet answered; members served; LATE_TMO has elapsed -/
  excluded : List Nat
  late : List Peer
  lateReady : List Nat
  serving : Option (Nat × Nat)
  served : List Nat
  lateOver : Bool
deriving DecidableEq, Repr

/-- A COLL in flight at its member (R364 to R385). -/
structure CollSt where
  phase : CollPhase
  rank : Nat
  /-- group size N and the leader's module and core -/
  n : Nat
  leadLid : Nat
  leadCore : Nat
  sig : List Word
  /-- included index and the included members (their number is P) -/
  me : Nat
  peers : List Peer
  /-- CARRY EXACT: the agreed words of every chunk, the FIXED bit of every result slot, and the bytes of the agreed words
  that reads from another module have brought, by offset -/
  agreed : List Word
  fixed : List Bool
  got : List (Nat × List Byte)
  /-- COMMIT: the slot of the module is begun (R380) -/
  txn : Bool
  /-- the first sends of the data phase have been prepared -/
  begun : Bool
  ready : List CollOut
  /-- chunks sent to and released by each receiver, by included index -/
  sent : Tab Nat
  freed : Tab Nat
  /-- requests of the chunk or reads under way that are not answered, and the receiver they go to -/
  waiting : Nat
  target : Nat
  /-- CHUNKs not yet taken, by their sender's module and core; chunks taken from each sender; staging slots in use -/
  arrived : List (Nat × Nat)
  taken : Tab Nat
  busy : List Nat
  fail : Option (Nat × Nat)
  stopped : Bool
  reported : Bool
  /-- a chunk was released before a failure, STOP or VERDICT -/
  consumed : Bool
  flags : Nat
  verdict : Option CollEnd
  lead : Option CollLead
deriving DecidableEq, Repr

/-- An UPDATE that has started (R215, R242, R247): the hyperparameter words, V, EXP, LAMB's trust ratio and the flags of
its formation, and of each slice that a DERIVE serves the slot and its tag as they were first read, with the outcome of
that read. -/
structure NmSt where
  hp : List Nat
  v : Nat
  exp : Int
  trust : Nat
  fl : Nat
  tags : List (Nat × Option (Nat × Nat))
deriving DecidableEq, Repr

/-- The progress of an issued descriptor that has no record yet. -/
inductive Prog where
  | coll (c : CollSt)
  /-- queued behind its engine, or waiting for an event outside its core -/
  | queued
  /-- its data effect is done and its record is due -/
  | ran (r : Rec)
  /-- its record is formed and waits for the slot that it goes to (R277, R344) -/
  | done (r : Rec)
  /-- an UPDATE that runs -/
  | nm (n : NmSt)
  | move (m : MoveSt)
  | chain (c : ChainSt)
  /-- a SYNC: signals not yet answered, and the first failure -/
  | sync (left : Nat) (fail : Option (Nat × Nat))
  /-- a FENCE -/
  | fence
deriving DecidableEq, Repr

/-- An issued descriptor without a record. -/
structure Infl where
  idx : Nat
  words : List Word
  prog : Prog
  /-- the Clove slot whose attachment the descriptor was issued under (R338) -/
  txn : Option Nat
deriving DecidableEq, Repr

/-- States of the matrix engine (R106). -/
inductive MxState where
  | idle | issue | paused | saving | saved | restoring
deriving DecidableEq, Repr

/-- One accumulator of a cell (R109): the exact sum V + 2^128 × wrap, the product-overflow bit, and the side bits
INVD, NAN, NINF, PINF in bits 3 to 0. -/
structure Acc128 where
  total : Int
  prodOvf : Bool
  side : Nat
deriving DecidableEq, Repr

/-- A sweep in the arrays: its number, the K-steps already accumulated, the accumulators that hold them, in row-major
order of the output tile (none before anything was saved and reloaded), and the bytes of A and B that the feeder has
read (R92). -/
structure Sweep where
  j : Nat
  k0 : Nat
  acc : List Acc128
  ops : List Host.Cell
deriving DecidableEq, Repr

/-- What a pass is doing: a max-exponent scan (R121) or its sweeps. -/
inductive PassPhase where
  | scan | sweeps
deriving DecidableEq, Repr

/-- A pass of the matrix engine. -/
structure Pass where
  idx : Nat
  swapped : Bool
  shallow : Bool
  phase : PassPhase
  anchor : Int
  attempts : Nat
  repeats : Nat
  fallback : Bool
  restarts : Nat
  /-- the next sweep to start -/
  next : Nat
  /-- sweeps started and not yet drained, oldest first -/
  active : List Sweep
  /-- the last sweep has been injected whole -/
  ended : Bool
  /-- an overflowing drain has ended and the next attempt is due (R124) -/
  again : Bool
  flags : Nat
  eA : Int
  eB : Int
  /-- 0 × ∞ products of this attempt, and the first of them: K index, row, column, array (R131) -/
  invs : Nat
  firstInv : Option (Nat × Nat × Nat × Nat)
deriving DecidableEq, Repr

/-- The save header of R101. Its layout in memory is not stated, so its fields stand here. -/
structure SaveHdr where
  valid : Bool
  restart : Bool
  pass : Option Pass
  ks : Nat
  wraps : List Int
  sides : List (Nat × Bool)
deriving DecidableEq, Repr

/-- The matrix engine of a core. -/
structure Mx where
  st : MxState
  pass : Option Pass
  /-- the pass before it, whose sweeps are all injected and of which a sweep still drains or the record is due (R77, R149) -/
  tail : Option Pass
  hdr : Option SaveHdr
  /-- a pause of the power manager is requested (R99) -/
  pause : Bool
  /-- a pre-emption is requested and not yet begun (R100) -/
  want : Bool
  saveErr : Bool
  /-- PREEMPT returned to 0 while saving (R106) -/
  release : Bool
deriving DecidableEq, Repr

/-- An anchor-table entry that is valid: its tag and exponent sum (R118). -/
structure Anchor where
  tag : Nat
  sum : Int
deriving DecidableEq, Repr

/-- What a physical core holds besides its registers, its token counters among them, and its scratchpad. -/
structure CoreSt where
  fetched : List Fetched
  /-- the next ring index to fetch -/
  fetchNext : Nat
  inflight : List Infl
  /-- failing records since the previous FENCE (R182) -/
  fails : Nat
  /-- the Clove slot the core is attached to (R338) -/
  attach : Option Nat
  mx : Mx
  anchors : List (Nat × Anchor)
  /-- physical banks PENDING replacement, and the CORE itself (R545) -/
  pendingBanks : List Nat
deriving DecidableEq, Repr

/-! ### Units, HBM controllers, logs, sparing -/

/-- Which units serve (R21, R23): dies in service, positions (die × 128 + p) without a serving core, and positions whose
serving core is a spare, with that spare's physical number die × 136 + index. -/
structure Units where
  dies : Nat
  unserved : List Nat
  replaced : List (Nat × Nat)
deriving DecidableEq, Repr

/-- States of an HBM controller (R289), numbered as HC_STAT.STATE. -/
inductive HbmState where
  | off | training | active | selfRefresh | failed
deriving DecidableEq, Repr

/-- What an HBM controller holds besides its registers. Log entry 232: DESIGN CHOICE. -/
structure HbmCtl where
  st : HbmState
  /-- the stack serves in the map made at the last rebuild (R265, R283) -/
  inMap : Bool
  /-- failed training attempts of this training (R289) -/
  tries : Nat
  /-- the training follows a P3 exit or retention, so that map and contents are kept (R285) -/
  keep : Bool
  /-- rows with corrected errors and their counts, oldest first (R276): pseudo-channel × 2^32 + row number -/
  rows : List (Nat × Nat)
  /-- uncorrectable reads per pseudo-channel since reset (R280) -/
  uePc : Tab Nat
  /-- candidate rows for repair, and the one whose repair runs (R276, R277) -/
  candidates : List Nat
  repairing : Option Nat
  /-- rows whose soft repair is in force (R279) -/
  softRows : List Nat
  /-- in-range temperature readings still needed after a fault (R287) -/
  tempRun : Nat
  /-- refreshes at 1.95 µs (R286, R287) -/
  fast : Bool
  /-- the last reading in °C, when valid -/
  temp : Int
  /-- pseudo-channels in self-refresh (R288) -/
  pcSr : Nat
  /-- the next slot number that the scrub reads (R275) -/
  scrub : Nat
  /-- refreshes made: the model's count of HBM_REFRESH -/
  refreshes : Nat
deriving DecidableEq, Repr

/-- An entry of the error log (R543). -/
structure LogRec where
  time : Nat
  block : Nat
  inst : Nat
  sev : Nat
  code : Nat
  detail : Nat
  count : Nat
  boot : Nat
deriving DecidableEq, Repr

/-- The error log (R543): EVENT entries, oldest first, the number of EVENT entries ever made, REPAIR entries, and the
boot journal of R542 as its four words per entry, oldest first. -/
structure Logs where
  events : List LogRec
  eventNext : Nat
  repairs : List LogRec
  journal : List (List Nat)
  /-- counts coalesced since the last flush (R544) -/
  unflushed : Bool
deriving DecidableEq, Repr

/-- A sparing operation that runs (R547): its OP, its core, bank or die. -/
structure SpareOp where
  op : Nat
  core : Nat
  bank : Nat
  die : Nat
  /-- the spare physical core of a CORE replacement; 1 once an HBM_REBUILD has rebuilt the map -/
  spare : Nat
  /-- REPAIR recorded the replacement, which so outlives the next reset (R543) -/
  kept : Bool
deriving DecidableEq, Repr

/-- Wear and sparing as Cardamom keeps them (R545 to R549). -/
structure Wear where
  /-- counted events: physical core, kind (0 datapath fault, 1 + b corrected reads of bank b), time of each -/
  marks : List (Nat × Nat × Nat)
  /-- physical cores PENDING -/
  cores : List Nat
  /-- banks PENDING: physical core and bank -/
  banks : List (Nat × Nat)
  /-- physical cores that have left service for good -/
  retired : List Nat
  /-- those of them that a full REPAIR section does not record: they serve again after the next reset (R543) -/
  unrec : List Nat
  /-- replacements recorded in REPAIR, in order: physical core and the spare in its place -/
  repl : List (Nat × Nat)
  /-- banks recorded in REPAIR as replaced by the spare: physical core and bank -/
  bankReps : List (Nat × Nat)
  running : Option SpareOp
deriving DecidableEq, Repr

/-! ### Requests, packets and what the module sends -/

/-- Who waits for a fabric request. -/
inductive Owner where
  /-- a piece of a MOVE or FPRINT of a physical core: its part, and where data that is read goes -/
  | move (core idx : Nat) (part : Nat) (dst : Option Nat) (field : Nat)
  /-- a write or the signal of a CHAIN tile -/
  | chain (core idx : Nat) (isSignal : Bool)
  | sync (core idx : Nat)
  /-- a request of a BAR2 access: the access and the place of the request's bytes in it -/
  | bar2 (id place : Nat)
  /-- a request of a Saffron job: its engine and index, part 0 SRC, 1 AAD, 2 the tag, 3 a write, and the place of the data -/
  | saf (eng idx part place : Nat)
  | clove (slot : Nat)
  /-- a write, read or message of a COLL of a physical core; tag 0: its result is not awaited, 1: a chunk or the agreed words
  at an offset, 2: the result of an excluded member -/
  | coll (core idx tag place : Nat)
  /-- a request of the Zwikai engine: a message (0), or a packet of a parcel by its number -/
  | zwk (parcel : Nat)
deriving DecidableEq, Repr

/-- The engine that a request belongs to: one descriptor, access, job or unit (R314). Log entry 250: DESIGN CHOICE. -/
def Owner.key : Owner → List Nat
  | .move c i _ _ _ => [0, c, i]
  | .chain c i _ => [1, c, i]
  | .sync c i => [2, c, i]
  | .bar2 i _ => [3, i]
  | .saf e i _ _ => [4, e, i]
  | .clove n => [5, n]
  | .coll c i _ _ => [6, c, i]
  | .zwk _ => [7]

/-- Where a request stands: waiting at the tracker, admitted, held by a NAK with the target's depth, or sent again after
one (R314). -/
inductive ReqPhase where
  | waiting | admitted | naked (depth : Nat) | resent (depth : Nat)
deriving DecidableEq, Repr

/-- A request at the tracker (R312). OP and CLASS as in R302. -/
structure Req where
  tag : Nat
  op : Nat
  cls : Nat
  dst : Nat
  off : Nat
  len : Nat
  data : List Byte
  txn : Option Nat
  owner : Owner
  phase : ReqPhase
  /-- LID of the module when the request was issued (R311) -/
  src : Nat
  /-- the generation count of its tracker entry (R320) -/
  gen : Nat
  /-- a C2 request that was held at least once, at the tracker or by a NAK (R331) -/
  delayed : Bool
deriving DecidableEq, Repr

/-- An access held because a lock, a repair or a sparing operation covers it, in arrival order (R277, R344, R548). -/
inductive HeldAcc where
  | packet (a : Arrival)
  | regWrite (w : RegWr)
  | regRead (r : RegRd)
  | bar2 (id : Nat)
  | piece (core idx : Nat)
  /-- the completion record of a descriptor of a physical core -/
  | record (core idx : Nat)
  /-- a signal of a count to a token counter of a physical core -/
  | signal (core tok count : Nat)
deriving DecidableEq, Repr

/-- Everything the module sends to the outside, in order. Log entries 139: DESIGN CHOICE, 196: DESIGN CHOICE, 226:
DESIGN CHOICE. -/
inductive Out where
  /-- an MSI-X vector on a host port (R447, R465) -/
  | msix (port : HostPort) (vec : Nat)
  /-- an interrupt to module firmware from H2F_DB bit k of a port (R472) -/
  | fwDoorbell (port : HostPort) (k : Nat)
  /-- the answer to a register access (none: an error response, R462) -/
  | regData (rq : Requester) (v : Option Word)
  /-- a packet given to a fabric port (none: no port, as for an answer that the model does not route) -/
  | packet (port : Option Nat) (p : Packet)
  /-- a BAR2 read completion: the data, or Completer Abort (R443, R444) -/
  | bar2Data (port : HostPort) (data : Option (List Byte))
  /-- an error a port logs in AER (R448): true Completer Abort, false Poisoned TLP Received -/
  | aer (port : HostPort) (abort : Bool)
  /-- Configuration Request Retry Status (R440) -/
  | crs (port : HostPort)
  /-- the answer to a configuration request: a word of configuration space (R439) -/
  | cfgData (port : HostPort) (w : Word)
  /-- a replay request on a fabric port, from a sequence number (R298) -/
  | replay (port seq : Nat)
  /-- the bytes of a flit on each lane that carries it (R296) -/
  | flit (port : Nat) (lanes : List (Nat × List Byte))
  /-- a port trains: the module's LID and the port number that the peer learns (R300) -/
  | train (port lid : Nat)
  /-- the content of a collective message to another module, whose layout is not stated (R369) -/
  | coll (m : CollMsg)
  /-- a frame that leaves a site port (R410) -/
  | frame (port : Nat) (bytes : List Byte)
  /-- the content of a message between a module and its convener -/
  | conv (lid : Nat) (body : ConvBody)
  /-- an SMBus answer (R552, R553) -/
  | smbus (bytes : List Byte)
  /-- a pin takes a level: 0 FAULT_N, 5 HEARTBEAT, 6 STEP_MARK, 7 PPS_ECHO (R538, R530) -/
  | pin (name : Nat) (level : Bool)
deriving DecidableEq, Repr

/-! ### Fabric -/

/-- A route-table entry as RT_DATA holds it (R305, R308, R331). -/
structure Route where
  port : Nat
  vc : Bool
  valid : Bool
deriving DecidableEq, Repr

/-- The entry of a destination that was never written. -/
def Route.init : Route := ⟨0, false, false⟩

/-- A flit that was sent: its sequence number and its 256 bytes. -/
structure Flit where
  seq : Nat
  bytes : List Byte
deriving DecidableEq, Repr

/-- The link layer of a port (R297 to R299): the SEQ of its next flit, the flits sent and not yet acknowledged, oldest
first, the packet bytes of flits not yet sent with the packet that begins there, the SEQ it receives next, and whether it
discards flits until a replay. -/
structure LinkSt where
  txSeq : Nat
  unacked : List Flit
  queue : List (Option Packet × List Byte)
  rxNext : Nat
  discarding : Bool
deriving DecidableEq, Repr

def LinkSt.init : LinkSt := ⟨0, [], [], 0, false⟩

/-- The fabric side of the I/O die. -/
structure Fab where
  /-- requests held by the tracker, in the order of their arrival at it (R315) -/
  reqs : List Req
  /-- requests of engines that stall, in order: each reaches the tracker once the one before it is admitted (R314) -/
  stalled : List Req
  /-- route entries by destination (R305) -/
  routes : Tab Route
  /-- a fill runs (R305) -/
  fill : Bool
  /-- generation counts of tracker entries that were used (R320) -/
  gens : Tab Nat
  /-- the link layer of each port -/
  links : Tab LinkSt
deriving DecidableEq, Repr

/-! ### Clove -/

/-- States of a transaction slot (R342). -/
inductive SlotState where
  | free | opened | prepared | applying | ended
deriving DecidableEq, Repr

/-- One entry of the write-intent log (R339). Log entry 113: DESIGN CHOICE. -/
inductive LogEntry where
  /-- bytes of a write, by local offset -/
  | mem (off : Nat) (data : List Byte)
  | reg (addr : Nat) (val : Word)
  | doorbell (port : HostPort) (b : Nat)
  | signal (payload : Word)
deriving DecidableEq, Repr

/-- A vote or decision code of R349. -/
inductive Outcome4 where
  | committed | skipped | aborted | conflict
deriving DecidableEq, Repr

/-- What a coordinator holds of a module: whether it has joined, its vote, and whether it holds the decision (R346,
R350). -/
structure Member where
  lid : Nat
  joined : Bool
  vote : Option Nat
  stepWords : Nat × Nat × Nat
  acked : Bool
  sends : Nat
deriving DecidableEq, Repr

/-- A transaction slot. Log entry 113: DESIGN CHOICE. -/
structure Slot where
  st : SlotState
  seq : Nat
  hall : Bool
  step : Bool
  coord : Nat
  isCoord : Bool
  members : Nat
  cause : Nat
  outcome : Option Outcome4
  /-- this module has voted, and its code (R349) -/
  voted : Option Nat
  log : List LogEntry
  actions : Nat
  bytes : Nat
  /-- COMMIT or ABORT of this module waiting for its decision: core and ring index -/
  waiter : Option (Nat × Nat)
  /-- a COMMIT or ABORT has been issued (R337, reason 0x52) -/
  ended : Bool
  joined : List Member
  /-- JOINs received, and the COMMIT status is CORRUPT (R346, R341) -/
  joins : Nat
  corrupt : Bool
  /-- the step words of this module's own vote (R220) -/
  stepWords : Nat × Nat × Nat
  /-- the decision was forced (R353) -/
  forced : Bool
  /-- a collective's slot: member cores of this module that have not yet reported DONE (R380) -/
  coll : Option Nat
deriving DecidableEq, Repr

/-! ### Security -/

/-- A key slot (R490, R494). -/
structure KeySlot where
  valid : Bool
  exhausted : Bool
  use : Nat
  peer : Nat
  epoch : Nat
  fixed : Nat
  log2 : Nat
  ctr : Nat
  key : List Byte
deriving DecidableEq, Repr

/-- A SEC operation that runs (R506): its OP, and its status and reason once its check and effect are made. -/
structure SecOp where
  op : Nat
  result : Option (Nat × Nat)
  kind : Nat
deriving DecidableEq, Repr

/-- A Saffron job that runs (R496, R498). -/
structure SafJob where
  idx : Nat
  words : List Word
  /-- the key slot as it stood at the start, and the CTR taken -/
  key : KeySlot
  ctr : Nat
  /-- untrusted entry held by a DECRYPT -/
  entry : Option Nat
  src : List Byte
  aad : List Byte
  tagIn : List Byte
  /-- reads not yet answered, and writes not yet answered -/
  reads : Nat
  writes : Nat
  /-- the data has been processed -/
  formed : Bool
  /-- status and DETAIL, once decided -/
  result : Option (Nat × Nat)
  /-- the slot was erased while the job ran (R497) -/
  erased : Bool
deriving DecidableEq, Repr

/-- A Saffron engine. -/
structure SafSt where
  job : Option SafJob
  stalled : Bool
  retired : Bool
deriving DecidableEq, Repr

/-- The security unit. -/
structure SecSt where
  dbg : Nat
  /-- the owner public keys in flash: the RSA modulus and the SLH-DSA key (R482) -/
  ownerRsa : Nat
  ownerSlh : List Byte
  /-- SHA-384 of the running FIRMWARE header and of the CONFIG header, and their SVNs (R485, R489) -/
  fwHash : Nat
  cfgHash : Nat
  fwRun : Nat
  cfgRun : Nat
  /-- stage 2 found the identity and its certificate in order (R486) -/
  identityOk : Bool
  keys : Tab KeySlot
  op : Option SecOp
  /-- the untrusted table: entry, first byte and length (R499) -/
  untr : List (Nat × Nat × Nat)
  saf : Tab SafSt
deriving DecidableEq, Repr

/-! ### Power, time, boot -/

/-- The power manager besides its registers. -/
structure PwrSt where
  /-- thermal duty of each die; unlisted dies have 64 (R524) -/
  thermal : Tab Nat
  /-- dies at 105 °C that have not fallen below 100 °C -/
  hard : Nat
  /-- in-range readings still needed after a sensor fault, by die -/
  sensorRun : Tab Nat
  /-- stacks at or above their hold point at the last reading -/
  hotStacks : Nat
  /-- consecutive 10 µs input samples outside 40 V to 60 V, outside 38 V to 62 V, and back in range (R525) -/
  vOut : Nat
  vFar : Nat
  vBack : Nat
  /-- consecutive REFCLK windows out of range (R512) -/
  refBad : Nat
  /-- the I/O die limits L to 1,800 W (R524) -/
  ioHot : Bool
  /-- the input voltage limits L to 1,800 W (R525) -/
  vLimit : Bool
  /-- the ramp after a throttle release runs (R523) -/
  ramp : Bool
  /-- the throttle was held beyond LONG_S -/
  thrLong : Bool
  /-- P3 entry has begun, from this state (R517) -/
  p3From : Option Nat
  /-- a P3 or P4 request written before BS14 completed (R541) -/
  later : Option Nat
  /-- the stacks were put in self-refresh by P3 and kept power since (R285) -/
  retained : Bool
  /-- the time unit was LOCKED or HOLDOVER at P3 entry (R526) -/
  timeHeld : Bool
deriving DecidableEq, Repr

/-- The time unit besides its registers (R529): the e that the running slew removes, the cycles of it that are left and
all its cycles, the accumulators that place slew and trim adjustments evenly, and trim adjustments put off. -/
structure TimeSt where
  slew : Int
  span : Nat
  total : Nat
  slewAcc : Nat
  trimAcc : Nat
  deferred : Int
  /-- E of the running slot (R527) -/
  expect : Nat
deriving DecidableEq, Repr

/-- Start-up, straps and pins. -/
structure BootSt where
  /-- PWR_OK is high -/
  pwrOk : Bool
  /-- MOD_RESET_N is low -/
  resetLow : Bool
  /-- the module is held in reset or runs no start: nothing but AON works -/
  running : Bool
  /-- strap samples since the STRAP phase began, newest first (R535) -/
  samples : List Nat
  /-- MOD_RESET_N rose before the third sample: the release waits (R535) -/
  waitSample : Bool
  /-- BS14 has completed -/
  ready : Bool
  /-- Cardamom runs a start that waits in load mode (R540) -/
  loading : Bool
  /-- a host port no longer answers with Configuration Request Retry Status: bit 0 port A, bit 1 port B (R440) -/
  hostReady : Nat
  /-- a host port is held in reset by its PERST_n: bit 0 port A, bit 1 port B -/
  perst : Nat
  /-- the image buffer of load mode in Cardamom memory (R540): it differs from 0 at these offsets -/
  buffer : List Host.Cell
  /-- the image source of the last full start (R541) -/
  source : Nat
  /-- the level of HEARTBEAT (R538) -/
  heartbeat : Bool
  /-- FAULT_N is driven low (R538) -/
  fault : Bool
  /-- STATUS[3:0] -/
  status : Nat
  /-- PERST_n of an enabled port was released in P3: the exit is due (R516) -/
  wake : Bool
  /-- hard-repaired rows: stack and row key (R279) -/
  repairs : List (Nat × Nat)
deriving DecidableEq, Repr

/-- The MCTP endpoint (R552): its endpoint ID. -/
structure MctpSt where
  eid : Nat
deriving DecidableEq, Repr

/-- A BAR2 access that is not completed (R442 to R444): bytes that are not yet read or written, by place and address,
with a write's data (none: a byte not enabled). -/
structure Bar2Acc where
  id : Nat
  port : HostPort
  isWrite : Bool
  /-- a read's address and the number of its bytes -/
  addr : Nat
  len : Nat
  /-- a read has started: no earlier write of the port remained -/
  started : Bool
  /-- what this module serves itself and has not yet served: place in the access, local offset, and a write's bytes -/
  todo : List (Nat × Nat × List Byte)
  /-- requests not yet answered -/
  waiting : Nat
  failed : Bool
  /-- a read's bytes by place -/
  got : List (Nat × List Byte)
deriving DecidableEq, Repr

/-! ### The state of the module -/

/-- The pages whose shadows hold written values: address and shadow word, and the strobed pages (R458, R459). -/
structure Shadows where
  words : List (Nat × Word)
  strobed : List Nat
deriving DecidableEq, Repr

/-- Collective messages between members of this module that are under way; ENTERs that came before their collective, with
their turn; and counts by leader core and member: ENTERs received, and collectives as leader that list the member (R364). -/
structure CollNet where
  msgs : List CollMsg
  early : List (Nat × Nat × Entrant)
  enters : Tab Nat
  lists : Tab Nat
deriving DecidableEq, Repr

/-- A group of a stream being received: parcels by index, its data once it is decoded (R417), and the parcels whose
reassembly buffer is untrusted (R413). -/
structure GroupIn where
  group : Nat
  k : Nat
  m : Nat
  parcels : List (Nat × List Byte)
  data : Option (List Byte)
  untrusted : List Nat
deriving DecidableEq, Repr

/-- A stream being received: its site, core, kind and round, its groups, the largest k seen, the exclusion list of FINAL,
whether COMPLETE or MISSING was sent, and whether the convener knows that it is held (R418). -/
structure StreamIn where
  site : Nat
  core : Nat
  skind : Nat
  round : Nat
  groups : List GroupIn
  k : Nat
  final : Option Ranges
  told : Bool
  held : Bool
deriving DecidableEq, Repr

/-- A stream being sent: the physical core and ring index of its descriptor, whether the descriptor has started, its
bytes, k and m, the sites it goes to, their reports, and the list of FINAL (R402, R415, R418). -/
structure StreamOut where
  core : Nat
  phys : Nat
  idx : Nat
  skind : Nat
  round : Nat
  started : Bool
  data : List Byte
  k : Nat
  m : Nat
  targets : List Nat
  reports : List (Nat × Ranges)
  final : Option Ranges
deriving DecidableEq, Repr

/-- A replay window (R413): sending module, route and key slot, the highest CTR accepted and those within 1,024 of it. -/
structure Window where
  lid : Nat
  route : Nat
  slot : Nat
  high : Nat
  seen : List Nat
deriving DecidableEq, Repr

/-- What a convener last heard from a site (R420). -/
structure Beat where
  site : Nat
  epoch : Nat
  members : Nat
  state : Nat
  round : Nat
  fork : Nat
deriving DecidableEq, Repr

/-- The convener of the site (R388, R420 to R434). Sites as bitmaps; modules, cores and rounds as numbers. -/
structure Convener where
  sent : List (Nat × Nat × Nat)
  finals : List (Nat × Nat × Nat)
  holds : List (Nat × Nat × Nat)
  applied : List (Nat × Nat)
  jump : Nat
  haveSent : List Nat
  /-- the decider's view: site, round, sites held -/
  haves : List (Nat × Nat × Nat)
  draft : Option Decision
  dacks : List Nat
  held : List Decision
  voided : List Decision
  /-- contributions included or dropped so far: site and round; drops by site, the site that did not hold, and round -/
  done : List (Nat × Nat)
  dropBy : List (Nat × Nat × Nat)
  beats : List Beat
  unreach : Nat
  observers : Nat
  /-- decisions list the observers from the round after this one -/
  joinAfter : Nat
  /-- the other side's LEDGER: site, fork round, last committed round, side size; whether this convener has sent its own -/
  ledger : Option (Nat × Nat × Nat × Nat)
  ledgerSent : Bool
  /-- the round for which this convener has sent READY while it joins (R434) -/
  readyFor : Option Nat
  /-- contributions of void decisions: round and site (R429) -/
  lates : List (Nat × Nat)
deriving DecidableEq, Repr

/-- The Zwikai engine (R387 to R434). Routes: word w of the entry of site s and route r at (4s + r) × 8 + w. Echoes:
site × 4 + route, the peer's SEND_TIME and its arrival. Last SEND of each core: its round + 1. -/
structure ZwkSt where
  routes : Tab Word
  outs : List StreamOut
  ins : List StreamIn
  windows : List Window
  echoes : List (Nat × Nat × Nat)
  lastSend : Tab Nat
  keyEpoch : Tab Nat
  decisions : List Decision
  conv : Convener
  /-- parcels given to the fabric so far -/
  parcels : Nat
  /-- messages between conveners acted on: source, SEND_TIME and content (R420) -/
  copies : List (Nat × Nat × ZCtrl)
  /-- members of the other side of a rejoin (R432) -/
  other : Nat
  /-- rounds whose contribution of this module became late (R426) -/
  late : List Nat
deriving DecidableEq, Repr

/-- The state of the module. -/
structure State where
  mem : Mem
  /-- registers that differ from their reset value, by BAR0 address of the normal view; core pages by physical core -/
  regs : Tab Word
  shadows : Shadows
  /-- _HI words latched by a read of _LO, by requester number and address of the _HI register (R456) -/
  latches : List (Nat × Nat × Word)
  /-- IDX_ADDR of each requester (R463) -/
  idxAddr : Tab Nat
  cores : Tab CoreSt
  fab : Fab
  units : Units
  hbm : Tab HbmCtl
  logs : Logs
  wear : Wear
  slots : Tab Slot
  coll : CollNet
  zwk : ZwkSt
  held : List HeldAcc
  /-- the replay-protected block (R479) -/
  rpb : Rpb
  sec : SecSt
  pwr : PwrSt
  time : TimeSt
  boot : BootSt
  mctp : MctpSt
  /-- BAR2 accesses not yet completed, in order (R442 to R444) -/
  bar2 : List Bar2Acc
  out : List Out
  /-- the model's own counter of free values drawn so far -/
  freeCtr : Nat
  /-- commands that are waiting, first in, first out -/
  pending : List Instr
deriving DecidableEq, Repr

/-- The outcome of a command. -/
abbrev Result := Host.Outcome State Fault Refusal

/-! ### Reset -/

def Fab.init : Fab := ⟨[], [], [], false, [], []⟩
def Mem.init : Mem := ⟨[], []⟩
def Shadows.init : Shadows := ⟨[], []⟩
/-- No unit serves. -/
def Units.empty : Units := ⟨0, [], []⟩
def PwrSt.init : PwrSt := ⟨[], 0, [], 0, 0, 0, 0, 0, false, false, false, false, none, none, false, false⟩
def TimeSt.init : TimeSt := ⟨0, 0, 0, 0, 0, 0, 0⟩

def Convener.init : Convener :=
  ⟨[], [], [], [], 0, [], [], none, [], [], [], [], [], [], 0, 0, 0, none, false, none, []⟩
def ZwkSt.init : ZwkSt := ⟨[], [], [], [], [], [], [], [], Convener.init, 0, [], 0, []⟩

/-- An HBM controller before power. -/
def HbmCtl.init : HbmCtl := ⟨.off, false, 0, false, [], [], [], none, [], 0, false, 0, 0, 0, 0⟩

/-- The module right after a reset (R536): power is good and MOD_RESET_N is low, so that the STRAP phase runs and no
start has begun. Every register is at its reset value; the flash is that of a module as manufactured, which has not
yet started. Log entries 3: DESIGN CHOICE, 231: DEDUCED. -/
def State.reset : State where
  mem := Mem.init
  regs := []
  shadows := Shadows.init
  latches := []
  idxAddr := []
  cores := []
  fab := Fab.init
  units := Units.empty
  hbm := []
  logs := ⟨[], 0, [], [], false⟩
  wear := ⟨[], [], [], [], [], [], [], none⟩
  slots := []
  coll := ⟨[], [], [], []⟩
  zwk := ZwkSt.init
  held := []
  rpb := ⟨0, 0, 0, 0, 0, 0⟩
  sec := ⟨0, 0, [], 0, 0, 0, 0, false, [], none, [], []⟩
  pwr := PwrSt.init
  time := TimeSt.init
  boot := { pwrOk := true, resetLow := true, running := false, samples := [], waitSample := false, ready := false,
            loading := false, hostReady := 0, perst := 0, wake := false, buffer := [], source := 0, heartbeat := false,
            fault := false, status := 0, repairs := [] }
  mctp := ⟨0⟩
  bar2 := []
  out := []
  freeCtr := 0
  pending := []

end Sys2Proof.Machine
end

