-- ==== Sys2Proof/Machine/Memory.lean ====
section
/-! DEFINITION. Memory byte by byte in its canonical form, the error-correcting codes of scratchpad and HBM, and the
interleave of HBM (R162 to R168, R264 to R274). -/

namespace Sys2Proof.Machine

/-- The first local offset past HBM (R264). -/
def hbmEnd : Nat := 0x24000000000
/-- The size of a die region (R264). -/
def dieSize : Nat := 0x4800000000
/-- Where the scratchpad window starts (R292). -/
def spBase : Nat := 0xC0000000000
/-- Where the register window starts (R292). -/
def regBase : Nat := 0xF0000000000
/-- Bytes of an active scratchpad (R162). -/
def spSize : Nat := 0x600000

/-- The memory key of scratchpad offset x of a physical core. -/
def spKey (phys x : Nat) : Nat := spBase + phys * 0x1000000 + x

/-- What an unlisted address reads as. DESIGN CHOICE for scratchpad; for HBM the zeros of R283. Log entries 10: DESIGN
CHOICE, 11: DEDUCED. -/
def Mem.blank : Byte := 0

/-- The byte at a key. Log entries 10: DESIGN CHOICE, 11: DEDUCED. -/
def Mem.byte (m : Mem) (a : Nat) : Byte := Tab.get Mem.blank a m.cells

/-- n bytes from a key upward. -/
def Mem.read (m : Mem) (a : Nat) : Nat → List Byte
  | 0 => []
  | n + 1 => m.byte a :: m.read (a + 1) n

/-- Bytes stored from a key upward, in the canonical form of the cells. -/
def Mem.putCells : List Host.Cell → Nat → List Byte → List Host.Cell
  | c, _, [] => c
  | c, a, b :: bs => Mem.putCells (Tab.set Mem.blank a b c) (a + 1) bs

/-- Bytes stored from a key upward, with no regard to the codes. -/
def Mem.put (m : Mem) (a : Nat) (bs : List Byte) : Mem := { m with cells := Mem.putCells m.cells a bs }

/-- The canonical form of memory: addresses rise strictly, and no listed byte equals what an unlisted address reads as. -/
def Mem.wf (m : Mem) : Bool := Tab.rising m.cells && m.cells.all fun c => c.2 != Mem.blank

/-- Every cell from a key on, n keys long, back to the blank value. -/
def Mem.wipe (m : Mem) (a n : Nat) : Mem :=
  { m with cells := m.cells.filter fun c => !(decide (a ≤ c.1 ∧ c.1 < a + n)) }

/-- A run of bytes cut at multiples of g: address and bytes of each piece. fuel bounds the number of pieces. -/
def cutAt (g : Nat) : Nat → Nat → List Byte → List (Nat × List Byte)
  | 0, _, _ => []
  | f + 1, a, bs =>
    if bs.isEmpty then [] else
    let n := g - a % g
    (a, bs.take n) :: cutAt g f (a + n) (bs.drop n)

/-- The units of size g that n bytes from a touch. -/
def unitsOf (g a n : Nat) : List Nat := (List.range (cdiv (a % g + n) g)).map (· + a / g)

/-- A coded write: its memory, whether a merge failed (R166, R268), and the code words of corrected and failed merge
reads. -/
structure CodedWrite where
  mem : Mem
  corrupt : Bool
  ce : List Nat
  ue : List Nat
deriving DecidableEq, Repr

/-- Is the key in a scratchpad? -/
def isSp (a : Nat) : Bool := decide (spBase ≤ a)

/-- The size of a code word at a key: 8 bytes of scratchpad (R166), 32 bytes of HBM (R271). -/
def codeSize (a : Nat) : Nat := if isSp a then 8 else 32

/-- The key of the code word that holds a key. -/
def codeKey (a : Nat) : Nat := a / codeSize a * codeSize a

/-- Wrong bits or symbols of the code word at a key. -/
def Mem.wrong (m : Mem) (k : Nat) : Nat := (m.errs.filter fun e => e.1 == k).length

/-- Does the code word at a key fail beyond correction: two or more are wrong (R166, R271)? -/
def Mem.isBad (m : Mem) (k : Nat) : Bool := decide (2 ≤ m.wrong k)

/-- Does it read with an error that the code corrects (R166, R271)? -/
def Mem.isSoft (m : Mem) (k : Nat) : Bool := m.wrong k == 1

/-- The code word at a key takes an error in one bit or symbol. -/
def Mem.hit (m : Mem) (k x : Nat) : Mem := if m.errs.contains (k, x) then m else { m with errs := m.errs ++ [(k, x)] }

/-- Memory takes an error, in HBM or in a scratchpad. Log entry 245: DESIGN CHOICE. -/
def Mem.takeHbm (m : Mem) (h : HbmHit) : Mem := m.hit (h.x / 32 * 32) h.sym.val
def Mem.takeSp (m : Mem) (h : SpHit) : Mem := m.hit (spKey h.phys.val h.x / 8 * 8) h.b.val

/-- The code word at a key is correct from now on. -/
def Mem.heal (m : Mem) (k : Nat) : Mem := { m with errs := m.errs.filter fun e => e.1 != k }

/-- Has no scratchpad word, and no HBM burst, an error? -/
def Mem.spClean (m : Mem) : Bool := m.errs.all fun e => !isSp e.1
def Mem.hbmClean (m : Mem) : Bool := m.errs.all fun e => isSp e.1

/-- One piece of a coded write: a partial piece of a failed word is not written; a whole word stores a fresh code, and a
merge stores a fresh code over a corrected read (R166, R268, R274). -/
def CodedWrite.step (w : CodedWrite) (p : Nat × List Byte) : CodedWrite :=
  let k := codeKey p.1
  let whole := p.2.length == codeSize p.1
  if w.mem.isBad k && !whole then { w with corrupt := true, ue := w.ue ++ [k] }
  else { w with mem := (w.mem.heal k).put p.1 p.2, ce := if w.mem.isSoft k && !whole then w.ce ++ [k] else w.ce }

/-- A write of bytes from a key upward through the code. -/
def Mem.write (m : Mem) (a : Nat) (bs : List Byte) : CodedWrite :=
  (cutAt (codeSize a) (bs.length + 1) a bs).foldl CodedWrite.step ⟨m, false, [], []⟩

/-- The code words with an error among n bytes from a key, in ascending order. -/
def Mem.faulty (m : Mem) (a n : Nat) : List Nat :=
  if n = 0 ∨ m.errs.isEmpty then [] else
    ((unitsOf (codeSize a) a n).map (· * codeSize a)).filter fun k => m.wrong k != 0

/-- Code words of a read that fail beyond correction. -/
def Mem.failing (m : Mem) (a n : Nat) : List Nat := (m.faulty a n).filter m.isBad

/-- Code words of a read that the code corrects. -/
def Mem.corrected (m : Mem) (a n : Nat) : List Nat := (m.faulty a n).filter m.isSoft

/-! ### The blocked tile layout -/

/-- Byte offset of element (r, c) of a tile of element size e (R168). -/
def tileOff (e r c : Nat) : Nat :=
  let b := (r + c) % 8
  let s := ((r / 8 % 4) * 4 + (c / 8 % 4)) * 8 + r % 8
  let q := ((r / 32) * 2 + c / 32) * 128 + s
  let l := (q * e) / 128
  let o := (q * e) % 128
  (8 * l + b) * 128 + o

/-- Offset of element (r, c) of a tiled matrix at base with ld tiles per tile row (R169). -/
def elemOff (base ld e r c : Nat) : Nat :=
  base + ((r / 64) * ld + c / 64) * (4096 * e) + tileOff e (r % 64) (c % 64)

/-- The stride in tiles: 0 means dense (R169). -/
def strideOf (ld cols : Nat) : Nat := if ld = 0 then cdiv cols 64 else ld

/-- Offset of the scale byte of the block that holds stored element (r, c) (R171). -/
def scaleOff (scaleBase base ld r c : Nat) : Nat :=
  let x := base + ((r / 64) * ld + c / 64) * 4096
  scaleBase + (x / 4096) * 128 + 2 * (r % 64) + (c % 64) / 32

end Sys2Proof.Machine
end

