-- ==== Sys2Proof/Machine/Ops.lean ====
section
/-! DEFINITION. The shared operations over registers, page events, interrupts, the error log, the numbering of cores,
memory accesses by local offset and free values. -/

namespace Sys2Proof.Machine

/-! ### The register store -/

/-- The word stored for a register address. -/
def State.reg (s : State) (a : Nat) : Word := Tab.get (regRst a) a s.regs

/-- The register store with a word at an address. -/
def State.setReg (s : State) (a : Nat) (w : Word) : State := { s with regs := Tab.set (regRst a) a w s.regs }

/-- A field of the page at base p. -/
def State.fget (s : State) (p : Nat) (f : FRef) : Nat := bits (s.reg (p + f.off)) f.hi f.lo

/-- A field of the page at base p set to a value, wherever its access code would ignore a write from outside. -/
def State.fset (s : State) (p : Nat) (f : FRef) (v : Nat) : State :=
  s.setReg (p + f.off) (setBits (s.reg (p + f.off)) f.hi f.lo v)

/-- A counter field that rises by n and saturates at its largest value. -/
def State.finc (s : State) (p : Nat) (f : FRef) (n : Nat := 1) : State :=
  s.fset p f (sat (f.hi + 1 - f.lo) (s.fget p f + n))

/-- A 64-bit counter in a _LO, _HI pair of registers, raised by n. -/
def State.inc64 (s : State) (p : Nat) (lo : FRef) (n : Nat) : State :=
  let v := ((s.reg (p + lo.off)).toNat + 2 ^ 32 * (s.reg (p + lo.off + 4)).toNat + n) % 2 ^ 64
  (s.setReg (p + lo.off) (BitVec.ofNat 32 v)).setReg (p + lo.off + 4) (BitVec.ofNat 32 (v / 2 ^ 32))

/-- Page addresses. -/
def pGctl : Nat := Block.gctl.page 0
def pCdm : Nat := Block.cdm.page 0
def pSec : Nat := Block.sec.page 0
def pTime : Nat := Block.time.page 0
def pPwr : Nat := Block.pwr.page 0
def pClk : Nat := Block.clk.page 0
def pSumac : Nat := Block.sumac.page 0
def pZwk : Nat := Block.zwk.page 0
def pOgs : Nat := Block.ogs.page 0
def pClv : Nat := Block.clv.page 0
def pColl : Nat := Block.coll.page 0
def pHp (p : HostPort) : Nat := Block.hp.page (match p with | .a => 0 | .b => 1)
def pMbx (p : HostPort) : Nat := Block.mbx.page (match p with | .a => 0 | .b => 1)
def pFp (n : Nat) : Nat := Block.fp.page n
def pSite (n : Nat) : Nat := Block.site.page n
def pSaf (n : Nat) : Nat := Block.saf.page n
def pHbm (n : Nat) : Nat := Block.hbm.page n
def pDie (n : Nat) : Nat := Block.die.page n
/-- The page of a physical core, where its registers are kept under both views (R563). Log entry 91: DEDUCED. -/
def pCore (phys : Nat) : Nat := Block.pcore.page phys

/-! ### Sending and free values -/

/-- Something sent to the outside. Log entry 8: DESIGN CHOICE. -/
def State.send (s : State) (o : Out) : State := { s with out := s.out ++ [o] }

/-- A free value drawn: the counter moves on. Log entry 7: DESIGN CHOICE. -/
def State.draw (s : State) : Nat × State := (s.freeCtr, { s with freeCtr := s.freeCtr + 1 })

/-- n free bytes drawn. Log entry 7: DESIGN CHOICE. -/
def State.drawBytes (s : State) (n : Nat) : List Byte × State :=
  ((List.range n).map fun i => Config.freeByte (s.freeCtr + i), { s with freeCtr := s.freeCtr + n })

/-! ### Events and interrupts -/

/-- PG_STAT.INT of a page: PG_EVT AND PG_EVT_EN is not 0 (R464). -/
def State.intOf (s : State) (p : Nat) : Bool := (s.reg (p + 0x010) &&& s.reg (p + 0x014)) != 0

/-- The MSI-X vector of a page sent on the ports its ROUTE names (R465). Log entry 196: DESIGN CHOICE. -/
def State.sendInt (s : State) (p : Nat) : State :=
  let r := s.fget p F.PG_CTRL_ROUTE
  let v := s.fget p F.PG_CTRL_VEC
  let s := if r % 2 = 1 then s.send (.msix .a v) else s
  if r / 2 = 1 then s.send (.msix .b v) else s

/-- A change to a page: a rise of its INT sends its vector (R465). Log entry 229: DEDUCED. -/
def State.withInt (s : State) (p : Nat) (f : State → State) : State :=
  let t := f s
  if !s.intOf p && t.intOf p then t.sendInt p else t

/-- The event counter of a page rises when the event it selects occurs (R464). DEDUCED: SEL names the PG_EVT bit. Log
entry 14: DEDUCED. -/
def State.countEvt (s : State) (p b : Nat) : State :=
  if s.fget p F.PG_CNT_SEL_SEL = b then s.inc64 p F.PG_CNT_LO_COUNT 1 else s

/-- Bit b of a page's PG_EVT set by the hardware event (R464, R465). Log entry 14: DEDUCED. -/
def State.raise (s : State) (p b : Nat) : State :=
  (s.withInt p fun t => t.setReg (p + 0x010) (t.reg (p + 0x010) ||| maskBits b b)).countEvt p b

/-- The event of a field of a PG_EVT table. -/
def State.event (s : State) (p : Nat) (f : FRef) : State := s.raise p f.lo

/-! ### Core numbering (R23) -/

/-- Is a position served? -/
def Units.served (u : Units) (pos : Nat) : Bool :=
  u.dies.testBit (pos / 128) && !u.unserved.contains pos && decide (pos < 1024)

/-- Served positions of a die, ascending. -/
def Units.ofDie (u : Units) (d : Nat) : Nat :=
  if u.dies.testBit d then 128 - (u.unserved.filter fun p => p / 128 == d).length else 0

/-- A number put into an ascending list. -/
def insertUp (x : Nat) : List Nat → List Nat
  | [] => [x]
  | y :: ys => if x < y then x :: y :: ys else y :: insertUp x ys

/-- The position on a die of its k-th served position: unserved positions, ascending, are stepped over. -/
def skipTo : List Nat → Nat → Nat
  | [], k => k
  | p :: ps, k => if p ≤ k then skipTo ps (k + 1) else k

/-- The position of logical core n, dies in ascending order (R23). -/
def Units.posOfAux (u : Units) (n : Nat) : List Nat → Option Nat
  | [] => none
  | d :: ds =>
    let c := u.ofDie d
    if n < c then
      some (128 * d + skipTo ((u.unserved.filter fun p => p / 128 == d).map (· % 128)) n)
    else Units.posOfAux u (n - c) ds

/-- The position of logical core n. -/
def Units.posOf (u : Units) (n : Nat) : Option Nat := u.posOfAux n (List.range 8)

/-- The physical core that serves a position. -/
def Units.physAt (u : Units) (pos : Nat) : Nat :=
  match u.replaced.find? fun r => r.1 == pos with
  | some r => r.2
  | none => (pos / 128) * 136 + pos % 128

/-- The physical core of logical core n, when n names a core (R565). -/
def State.phys (s : State) (n : Nat) : Option Nat := (s.units.posOf n).map s.units.physAt

/-- The number of in-service logical cores. -/
def Units.count (u : Units) : Nat := (List.range 8).foldl (fun a d => a + u.ofDie d) 0

/-- The position a physical core serves. -/
def Units.posOfPhys (u : Units) (i : Nat) : Option Nat :=
  match u.replaced.find? fun r => r.2 == i with
  | some r => if u.served r.1 then some r.1 else none
  | none =>
    let pos := (i / 136) * 128 + i % 136
    if i % 136 < 128 && u.served pos && !(u.replaced.any fun r => r.1 == pos) then some pos else none

/-- The logical number of a physical core that serves. -/
def State.logical (s : State) (i : Nat) : Option Nat :=
  (s.units.posOfPhys i).map fun pos =>
    (List.range (pos / 128)).foldl (fun a d => a + s.units.ofDie d) 0
      + pos % 128 - (s.units.unserved.filter fun p => p / 128 == pos / 128 && decide (p < pos)).length

/-- Every physical core that serves, in ascending logical order. -/
def State.physCores (s : State) : List Nat := (List.range s.units.count).filterMap s.phys

/-! ### Per-core state -/

/-- A core after reset. -/
def Mx.init : Mx := ⟨.idle, none, none, none, false, false, false, false⟩
def CoreSt.init : CoreSt := ⟨[], 0, [], 0, none, Mx.init, [], []⟩

/-- What physical core i holds. -/
def State.core (s : State) (i : Nat) : CoreSt := Tab.get CoreSt.init i s.cores

/-- Physical core i changed. -/
def State.setCore (s : State) (i : Nat) (c : CoreSt) : State := { s with cores := Tab.set CoreSt.init i c s.cores }

def State.modCore (s : State) (i : Nat) (f : CoreSt → CoreSt) : State := s.setCore i (f (s.core i))

/-- What HBM controller n holds. -/
def State.hbmc (s : State) (n : Nat) : HbmCtl := Tab.get HbmCtl.init n s.hbm

def State.setHbmc (s : State) (n : Nat) (h : HbmCtl) : State := { s with hbm := Tab.set HbmCtl.init n h s.hbm }

def State.modHbmc (s : State) (n : Nat) (f : HbmCtl → HbmCtl) : State := s.setHbmc n (f (s.hbmc n))

/-- A slot that has carried no transaction. -/
def Slot.init : Slot := ⟨.free, 0, false, false, 0, false, 0, 0, none, none, [], 0, 0, none, false, [], 0, false, (0, 0, 0), false, none⟩

def State.slot (s : State) (n : Nat) : Slot := Tab.get Slot.init n s.slots

def State.setSlot (s : State) (n : Nat) (x : Slot) : State := { s with slots := Tab.set Slot.init n x s.slots }

def State.modSlot (s : State) (n : Nat) (f : Slot → Slot) : State := s.setSlot n (f (s.slot n))

/-! ### Time and the error log -/

/-- The time unit's count in ns (R526), held in TIME.NOW. -/
def State.now (s : State) : Nat := (s.reg (pTime + 0x048)).toNat + 2 ^ 32 * (s.reg (pTime + 0x04C)).toNat

/-- A new EVENT entry; the section holds 8,192 and overwrites its oldest (R543). Log entry 15: DEDUCED. -/
def State.addEvent (s : State) (e : LogRec) : State :=
  let evs := s.logs.events ++ [e]
  { s with logs := { s.logs with
      events := if evs.length > 8192 then evs.drop 1 else evs, eventNext := s.logs.eventNext + 1 } }

/-- The fields of a log entry made now. -/
def State.logRec (s : State) (block inst sev code detail : Nat) : LogRec :=
  ⟨s.now, block, inst, sev, code, detail, 1, (s.reg (pCdm + 0x044)).toNat % 65536⟩

/-- An EVENT of the error log under R543 and R544: coalesced when the newest entry of the same BLOCK, INSTANCE and
CODE is less than 1 s old. Log entry 15: DEDUCED. -/
def State.logEvent (s : State) (block inst sev code detail : Nat) : State :=
  let same := fun e : LogRec => e.block == block && e.inst == inst && e.code == code
  match s.logs.events.reverse.find? same with
  | some e =>
    if s.now < e.time + 1000000000 then
      let ev := (modFirst same (fun x => { x with count := sat 16 (x.count + 1) }) s.logs.events.reverse).reverse
      { s with logs := { s.logs with events := ev, unflushed := true } }
    else s.addEvent (s.logRec block inst sev code detail)
  | none => s.addEvent (s.logRec block inst sev code detail)

/-- A REPAIR entry; a full section records nothing more, sets LOG_FULL and ALERT_SRC bit 8 (R543). -/
def State.logRepair (s : State) (block inst sev code detail : Nat) : State :=
  if s.logs.repairs.length < 2048 then
    { s with logs := { s.logs with repairs := s.logs.repairs ++ [s.logRec block inst sev code detail] } }
  else
    (s.event pCdm F.CDM_PG_EVT_LOG_FULL).fset pCdm ⟨0x054, 8, 8⟩ 1

/-! ### The HBM map (R265, R266) -/

/-- How many ones a number below 2^32 has. -/
def popcount (n : Nat) : Nat := (List.range 32).foldl (fun a i => a + b2n (n.testBit i)) 0

/-- Pseudo-channels retired in the map of stack n. -/
def State.retired (s : State) (n : Nat) : Nat := s.fget (pHbm n) F.HBM_PC_RETIRED_MAP

/-- In-service stacks of die d: those of the last map rebuild. -/
def State.stacks (s : State) (d : Nat) : List Nat :=
  if s.units.dies.testBit d then ((List.range 4).map (· + 4 * d)).filter fun n => (s.hbmc n).inMap else []

/-- P_s of a stack. -/
def State.pcs (s : State) (n : Nat) : Nat := 32 - popcount (s.retired n)

/-- DIE_CAP: C_n of a die in units of 2.25 GiB, S × P_min (R266). -/
def State.dieUnits (s : State) (d : Nat) : Nat :=
  match (s.stacks d).map s.pcs with
  | [] => 0
  | p :: ps => (ps.length + 1) * ps.foldl min p

/-- C_n in bytes. -/
def State.dieCap (s : State) (d : Nat) : Nat := s.dieUnits d * 2415919104

/-- In-service pseudo-channels of a stack, ascending. -/
def State.pcList (s : State) (n : Nat) : List Nat := (List.range 32).filter fun p => !(s.retired n).testBit p

/-- Where a local HBM offset lies: stack, pseudo-channel, slot (R265). -/
def State.hbmPlace (s : State) (x : Nat) : Nat × Nat × Nat :=
  let d := x / dieSize
  let y := x % dieSize
  let st := s.stacks d
  let u := y / 4096
  let n := st.getD (u % st.length) 0
  let j := (u / st.length) * 16 + y / 256 % 16
  let pl := s.pcList n
  (n, pl.getD (j % pl.length) 0, j / pl.length)

/-- The bank key of a place: stack, pseudo-channel and the bank of the slot, which the spec does not expose. -/
def bankKey (pl : Nat × Nat × Nat) : Nat := (pl.1 * 32 + pl.2.1) * 2 ^ 16 + Config.bankOf pl.2.2 % 2 ^ 16

/-- The row key of a place within its stack: pseudo-channel, bank and row. -/
def rowKey (pl : Nat × Nat × Nat) : Nat :=
  (pl.2.1 * 2 ^ 16 + Config.bankOf pl.2.2 % 2 ^ 16) * 2 ^ 32 + Config.rowOf pl.2.2 % 2 ^ 32

/-- A row becomes a repair candidate when PPR_EN is 1 (R276). -/
def State.candidate (s : State) (n row : Nat) : State :=
  if s.fget (pHbm n) F.HBM_RAS_CFG_PPR_EN = 1 && !(s.hbmc n).candidates.contains row then
    s.modHbmc n fun h => { h with candidates := h.candidates ++ [row] }
  else s

/-- The entry with the lowest count, the oldest among equals, leaves a full table (R276). -/
def dropLowest (rows : List (Nat × Nat)) : List (Nat × Nat) :=
  let low := rows.foldl (fun a r => min a r.2) (2 ^ 32)
  eraseFirst (fun r => r.2 == low) rows

/-- A corrected error on a row: the row's count rises; a row that reaches CE_ROW is a candidate (R276, R290). -/
def State.rowCe (s : State) (n row : Nat) : State :=
  let rows := (s.hbmc n).rows
  let rows := match rows.find? fun r => r.1 == row with
    | some _ => modFirst (fun r => r.1 == row) (fun r => (r.1, r.2 + 1)) rows
    | none => (if rows.length < 64 then rows else dropLowest rows) ++ [(row, 1)]
  let s := s.modHbmc n fun h => { h with rows := rows }
  let lim := s.fget (pHbm n) F.HBM_RAS_CFG_CE_ROW
  match rows.find? fun r => r.1 == row with
  | some r => if lim ≠ 0 && r.2 == lim then (s.event (pHbm n) F.HBM_PG_EVT_CE_ROW).candidate n row else s
  | none => s

/-- A corrected HBM read (R272). -/
def State.hbmCe (s : State) (x : Nat) : State :=
  let pl := s.hbmPlace x
  (s.finc (pHbm pl.1) F.HBM_ECC_CNT_CE).rowCe pl.1 (rowKey pl)

/-- Uncorrectable reads on a pseudo-channel reach UE_PC: its retirement is pending (R280). -/
def State.countUePc (s : State) (n pc : Nat) : State :=
  let k := Tab.get 0 pc (s.hbmc n).uePc + 1
  let s := s.modHbmc n fun h => { h with uePc := Tab.set 0 pc k h.uePc }
  let lim := s.fget (pHbm n) F.HBM_RAS_CFG_UE_PC
  if lim ≠ 0 && k == lim then
    (s.setReg (pHbm n + 0x050) (s.reg (pHbm n + 0x050) ||| maskBits pc pc)).event (pHbm n) F.HBM_PG_EVT_RETIRE_PEND
  else s

/-- An uncorrectable HBM read (R273, R276, R280); the capture is taken by accesses and not by the scrub (R275). -/
def State.hbmUe (s : State) (x : Nat) (capture : Bool) : State :=
  let pl := s.hbmPlace x
  let p := pHbm pl.1
  let c0 := 2 ^ 31 + (x % dieSize) / 256
  let c1 := pl.2.1 * 2 ^ 24 + pl.2.2
  let s := s.finc p F.HBM_ECC_CNT_UE
  let s := s.event p F.HBM_PG_EVT_UE
  let s := if capture && s.fget p F.HBM_UE_CAP0_VALID = 0 then
      (s.setReg (p + 0x060) (BitVec.ofNat 32 c0)).setReg (p + 0x064) (BitVec.ofNat 32 c1)
    else s
  let s := s.logEvent 0x0011 pl.1 2 0x0010 (c0 + 2 ^ 32 * c1)
  let s := s.candidate pl.1 (rowKey pl)
  s.countUePc pl.1 pl.2.1

/-! ### Accesses by local offset -/

/-- Does an untrusted entry cover a byte of n bytes from a local offset (R499)? Log entry 228: DEDUCED. -/
def State.covered (s : State) (off n : Nat) : Bool :=
  s.sec.untr.any fun e => n != 0 && decide (e.2.1 < off + n ∧ off < e.2.1 + e.2.2)

/-- The outcome of an access: status of R12, DETAIL, and the bytes of a read. -/
structure Res where
  st : State
  status : Nat
  detail : Nat
  data : List Byte
deriving DecidableEq, Repr

/-- A status with its DETAIL in one number (R157). -/
def outcome (status detail : Nat) : Nat := status + 256 * detail

def Res.outcome (r : Res) : Nat := Sys2Proof.Machine.outcome r.status r.detail

/-- Where a local offset leads (R292, R293, R565). -/
inductive Place where
  /-- an HBM offset below C_n -/
  | hbm (x : Nat)
  /-- a scratchpad offset of a physical core -/
  | sp (phys x : Nat)
  /-- a register address in the layout of BAR0 -/
  | register (a : Nat)
  /-- ACCESS_DENIED -/
  | denied
deriving DecidableEq, Repr

/-- Is a map rebuild of die d running (R284)? -/
def State.rebuilding (s : State) (d : Nat) : Bool :=
  match s.wear.running with
  | some o => o.op == 3 && o.die == d
  | none => false

/-- The place of n bytes from a local offset. While a die's map is rebuilt, C_n of its region is not asked (R284). -/
def State.place (s : State) (off n : Nat) : Place :=
  if off + n ≤ hbmEnd then
    if s.rebuilding (off / dieSize) ∨ (off % dieSize) + n ≤ s.dieCap (off / dieSize) then .hbm off else .denied
  else if spBase ≤ off ∧ off < spBase + 0x400000000 then
    let x := (off - spBase) % 0x1000000
    match s.phys ((off - spBase) / 0x1000000) with
    | some ph => if x + n ≤ spSize then .sp ph x else .denied
    | none => .denied
  else if regBase ≤ off ∧ off + n ≤ regBase + 0x4000000 then .register (off - regBase)
  else .denied

/-- The physical bank of logical bank b holds bank b's data; a corrected or failed read marks the bank's wear (R545). -/
def State.bankPending (s : State) (ph b : Nat) : State :=
  if s.wear.banks.contains (ph, b) || s.wear.cores.contains ph then s else
  let spare := s.fget (pCore ph) F.SP_BANKMAP_RETIRED ≠ 0xF
  let w := if spare then { s.wear with cores := s.wear.cores ++ [ph] } else { s.wear with banks := s.wear.banks ++ [(ph, b)] }
  { s with wear := w }.event pCdm F.CDM_PG_EVT_PENDING

/-- Marks of one kind for a core within the last 24 hours (R545). Log entry 224: DEDUCED. -/
def State.marksOf (s : State) (ph kind : Nat) : Nat :=
  (s.wear.marks.filter fun m => m.1 == ph && m.2.1 == kind && decide (s.now ≤ m.2.2 + 86400000000000)).length

/-- A counted wear event. Log entries 209: DESIGN CHOICE, 224: DEDUCED. -/
def State.mark (s : State) (ph kind : Nat) : State :=
  { s with wear := { s.wear with marks := s.wear.marks ++ [(ph, kind, s.now)] } }

/-- A corrected scratchpad read (R166, R545). -/
def State.spCe (s : State) (ph x : Nat) : State :=
  let b := x / 128 % 8
  let s := s.finc (pCore ph) F.SP_ECC_CE
  let s := s.logEvent 0x0014 ph 1 0x0002 b
  let s := s.mark ph (1 + b)
  let lim := s.fget pCdm F.CDM_WEAR_CFG_BANK_CE
  if lim ≠ 0 ∧ lim ≤ s.marksOf ph (1 + b) then s.bankPending ph b else s

/-- An uncorrectable scratchpad read (R166, R545). -/
def State.spUe (s : State) (ph x : Nat) : State :=
  let b := x / 128 % 8
  let s := s.finc (pCore ph) F.SP_ECC_UE
  let s := s.logEvent 0x0014 ph 2 0x0003 (b + 2 ^ 32 * (x / 1024))
  s.bankPending ph b

/-- A read of scratchpad bytes of a physical core. -/
def State.spRead (s : State) (ph x n : Nat) : Res :=
  let a := spKey ph x
  let bad := s.mem.failing a n
  let s' := (s.mem.corrected a n).foldl (fun t k => t.spCe ph (k - spKey ph 0)) s
  let s' := bad.foldl (fun t k => t.spUe ph (k - spKey ph 0)) s'
  ⟨s', if bad.isEmpty then 0 else 7, 0, s.mem.read a n⟩

/-- A write of scratchpad bytes of a physical core. -/
def State.spWrite (s : State) (ph x : Nat) (bs : List Byte) : Res :=
  let a := spKey ph x
  let w := s.mem.write a bs
  let s := { s with mem := w.mem }
  let s := w.ce.foldl (fun t k => t.spCe ph (k - spKey ph 0)) s
  let s := w.ue.foldl (fun t k => t.spUe ph (k - spKey ph 0)) s
  ⟨s, if w.corrupt then 7 else 0, 0, []⟩

/-- Can the stack of an HBM offset serve (R282, R284)? none: it can. Log entry 192: DESIGN CHOICE. -/
def State.hbmBlocked (s : State) (x : Nat) : Option (Nat × Nat) :=
  if s.rebuilding (x / dieSize) then some (4, 0x30)
  else if (s.hbmc (s.hbmPlace x).1).st = .active then none else some (7, 0)

/-- An access takes its pseudo-channel out of self-refresh (R288). Log entry 191: DEDUCED. -/
def State.wakePc (s : State) (x : Nat) : State :=
  let pl := s.hbmPlace x
  let h := s.hbmc pl.1
  if h.pcSr = 0 then s else s.setHbmc pl.1 { h with pcSr := h.pcSr - (h.pcSr &&& 2 ^ pl.2.1) }

/-- A read of HBM bytes within one slot of 256 bytes. -/
def State.hbmRead (s : State) (x n : Nat) : Res :=
  match s.hbmBlocked x with
  | some (st, d) => ⟨s, st, d, []⟩
  | none =>
    let bad := s.mem.failing x n
    let soft := s.mem.corrected x n
    let s := s.wakePc x
    let s' := soft.foldl (fun t k => ({ t with mem := t.mem.heal k }).hbmCe k) s
    let s' := bad.foldl (fun t k => t.hbmUe k true) s'
    ⟨s', if bad.isEmpty then 0 else 7, 0, s.mem.read x n⟩

/-- A write of HBM bytes within one slot of 256 bytes. -/
def State.hbmWrite (s : State) (x : Nat) (bs : List Byte) : Res :=
  match s.hbmBlocked x with
  | some (st, d) => ⟨s, st, d, []⟩
  | none =>
    let w := s.mem.write x bs
    let s := { s.wakePc x with mem := w.mem }
    let s := w.ce.foldl (fun t k => t.hbmCe k) s
    let s := w.ue.foldl (fun t k => t.hbmUe k true) s
    ⟨s, if w.corrupt then 7 else 0, 0, []⟩

/-- A read of memory, not of registers, by local offset within one block of 256 bytes. -/
def State.memRead1 (s : State) (off n : Nat) : Res :=
  match s.place off n with
  | .hbm x => s.hbmRead x n
  | .sp ph x => s.spRead ph x n
  | _ => ⟨s, 0x0B, 0, []⟩

/-- A write of memory by local offset within one block of 256 bytes. -/
def State.memWrite1 (s : State) (off : Nat) (bs : List Byte) : Res :=
  match s.place off bs.length with
  | .hbm x => s.hbmWrite x bs
  | .sp ph x => s.spWrite ph x bs
  | _ => ⟨s, 0x0B, 0, []⟩

/-- The cuts of n bytes from off at multiples of 256. -/
def cuts256 (off n : Nat) : List (Nat × Nat) :=
  if n = 0 then [] else
  (List.range (cdiv (off % 256 + n) 256)).map fun i =>
    let a := max off (off / 256 * 256 + 256 * i)
    (a, min (off + n) (off / 256 * 256 + 256 * (i + 1)) - a)

/-- A read of any length, cut at 256-byte blocks; the first failure stands (R14). Log entry 230: DEDUCED. -/
def State.memRead (s : State) (off n : Nat) : Res :=
  (cuts256 off n).foldl (fun r c =>
    let t := r.st.memRead1 c.1 c.2
    ⟨t.st, if r.status = 0 then t.status else r.status, if r.status = 0 then t.detail else r.detail, r.data ++ t.data⟩)
    ⟨s, 0, 0, []⟩

/-- A write of any length, cut at 256-byte blocks; the first failure stands (R14). Log entry 230: DEDUCED. -/
def State.memWrite (s : State) (off : Nat) (bs : List Byte) : Res :=
  (cuts256 off bs.length).foldl (fun r c =>
    let t := r.st.memWrite1 c.1 ((bs.drop (c.1 - off)).take c.2)
    ⟨t.st, if r.status = 0 then t.status else r.status, if r.status = 0 then t.detail else r.detail, []⟩)
    ⟨s, 0, 0, []⟩

end Sys2Proof.Machine
end

