-- ==== Sys2Proof/Machine/Completion.lean ====
section
/-! DEFINITION. Issue and completion: token counters, header waits and signals, engine queues and completion records
(R148 to R159). -/

namespace Sys2Proof.Machine

/-! ### Locks, repairs and replacements that hold accesses (R277, R344, R345, R548) -/

/-- The 32-byte bursts an entry writes. -/
def LogEntry.bursts : LogEntry → List Nat
  | .mem off data => unitsOf 32 off data.length
  | _ => []

/-- A register address without its view and alias bits (R452). -/
def regAlias (a : Nat) : Nat := a / 0x4000 * 0x4000 + a % 0x400 / 4 * 4

/-- Where a register is kept: a logical core page is the page of its physical core (R563). Log entry 91: DEDUCED. -/
def State.regKey (s : State) (a : Nat) : Nat :=
  match pageOf a with
  | some (.core, i) => match s.phys i with
    | some ph => pCore ph + a % 0x400 / 4 * 4
    | none => regAlias a
  | _ => regAlias a

/-- The register an entry writes. -/
def State.entryReg (s : State) : LogEntry → Option Nat
  | .reg a _ => some (s.regKey a)
  | _ => none

/-- Do two entries touch the same burst or register? -/
def State.meets (s : State) (a b : LogEntry) : Bool :=
  a.bursts.any (fun u => b.bursts.contains u) || ((s.entryReg a).isSome && s.entryReg a == s.entryReg b)

/-- Does a slot hold locks? -/
def Slot.locking (x : Slot) : Bool := x.st == .prepared || x.st == .applying

/-- Entries of every slot that locks. -/
def State.lockedEntries (s : State) : List LogEntry :=
  (List.range 16).flatMap fun n => if (s.slot n).locking then (s.slot n).log else []

/-- Is a byte range of the local map locked? -/
def State.lockedMem (s : State) (off len : Nat) : Bool :=
  len != 0 && s.lockedEntries.any fun e => match e with
    | .mem o data => decide (off / 32 ≤ (o + data.length - 1) / 32 ∧ o / 32 ≤ (off + len - 1) / 32) && !data.isEmpty
    | _ => false

/-- Is a register locked? -/
def State.lockedReg (s : State) (a : Nat) : Bool := s.lockedEntries.any fun e => s.entryReg e == some (s.regKey a)

/-- Does a running CORE replacement hold accesses to a logical core (R548)? -/
def State.coreHeld (s : State) (n : Nat) : Bool :=
  match s.wear.running with
  | some o => o.op == 1 && o.core == n
  | none => false

/-- Does a run of bytes meet the bank of a row under repair (R277)? -/
def State.underRepair (s : State) (off n : Nat) : Bool :=
  decide (off < hbmEnd) && (s.hbm.any fun h => h.2.repairing.isSome) && (cuts256 off n).any fun c =>
    let pl := s.hbmPlace c.1
    match (s.hbmc pl.1).repairing with
    | some row => bankKey pl % 2 ^ 21 == row / 2 ^ 32 % 2 ^ 21
    | none => false

/-- Is a run of bytes of the local map held: locked, in a bank under repair, or in the scratchpad of a core that is being
replaced? -/
def State.memHeld (s : State) (off n : Nat) : Bool :=
  n != 0 && (s.lockedMem off n || s.underRepair off n ||
    (decide (spBase ≤ off ∧ off < spBase + 0x400000000) && s.coreHeld ((off - spBase) / 0x1000000)))

/-- Is an access held: by a Clove lock (R344), or by a running CORE replacement of its core (R548)? Log entry 86:
DEDUCED. -/
def State.regHeld (s : State) (a : Nat) : Bool :=
  s.lockedReg a || (match pageOf a with
    | some (.core, n) => s.coreHeld n
    | _ => false)

/-- Is a byte of a core's scratchpad region locked? -/
def State.spLocked (s : State) (ph : Nat) (r : List (Nat × Nat)) : Bool :=
  if s.lockedEntries.isEmpty then false
  else match s.logical ph with
    | some n => r.any fun x => s.lockedMem (spBase + n * 0x1000000 + x.1) x.2
    | none => false

/-! ### Token counters (R152 to R156) -/

/-- The count of a token counter of a physical core. -/
def State.tok (s : State) (ph t : Nat) : Nat := bits (s.reg (pCore ph + 0x200 + 4 * t)) 15 0

def State.setTok (s : State) (ph t v : Nat) : State := s.setReg (pCore ph + 0x200 + 4 * t) (BitVec.ofNat 32 v)

/-- The page address of a token counter of a physical core. -/
def tokAddr (ph t : Nat) : Nat := pCore ph + 0x200 + 4 * t

/-- A signal adds n to a counter; a counter that would exceed 65,535 holds 65,535 and sets TOK_SAT (R154). -/
def State.signalNow (s : State) (ph t n : Nat) : State :=
  let v := s.tok ph t + n
  let s := s.setTok ph t (sat 16 v)
  if v > 65535 then s.fset (pCore ph) F.SQ_STAT_TOK_SAT 1 else s

/-- A signal to a counter; it waits while the counter is locked (R344). -/
def State.signal (s : State) (ph t n : Nat) : State :=
  if s.lockedReg (tokAddr ph t) then { s with held := s.held ++ [.signal ph t n] } else s.signalNow ph t n

/-- A signal to a logical core; a number that names no core changes nothing and is answered ACCESS_DENIED (R565). Log
entry 21: DESIGN CHOICE. -/
def State.signalCore (s : State) (n t k : Nat) : State × Nat :=
  match s.phys n with
  | some ph => (s.signal ph t k, 0)
  | none => (s, 0x0B)

/-! ### Completion records -/

/-- Is a status one of DONE, LONG_K, REPEAT_LIMIT and DEGRADED_TARGET (R14)? -/
def good (st : Nat) : Bool := st == 0 || st == 0xD || st == 0xE || st == 0xF

/-- A status that comes from outside, in a packet or a tile: one of the table as it is, any other a free one of the table
(R12, R13). Log entry 244: DESIGN CHOICE. -/
def tableStatus (st : Nat) : Nat := if st ≤ 0x10 then st else (Config.otherStatus st).val + 1

/-- A record of a status alone. -/
def Rec.of (status : Nat) (detail : Nat := 0) : Rec := ⟨status, 0, detail, 0, none⟩

/-- The record of a status with its DETAIL. -/
def Rec.ofOutcome (o : Nat) : Rec := ⟨o % 256, 0, o / 256, 0, none⟩

/-- The record of a refusal with its reason. -/
def Rec.refused (reason : Nat) : Rec := ⟨4, 0, reason, 0, none⟩

/-- DETAIL of R157: the reason of REFUSED, the hint of RETRY_LATER, else 0. -/
def Rec.det (r : Rec) : Nat := if r.status = 4 ∨ r.status = 3 then r.detail % 65536 else 0

/-- A write into a ring region of a core: scratchpad of the core, or HBM of the module (R146). -/
def State.ringWrite (s : State) (ph : Nat) (lo hi : Word) (off : Nat) (bs : List Byte) : State :=
  if bit hi 31 then (s.spWrite ph ((bits lo 31 12 * 4096 + off) % 0x1000000) bs).st
  else (s.memWrite (bits lo 31 12 * 4096 + 2 ^ 32 * bits hi 11 0 + off) bs).st

/-- A read from a ring region of a core. -/
def State.ringRead (s : State) (ph : Nat) (lo hi : Word) (off n : Nat) : Res :=
  if bit hi 31 then s.spRead ph ((bits lo 31 12 * 4096 + off) % 0x1000000) n
  else s.memRead (bits lo 31 12 * 4096 + 2 ^ 32 * bits hi 11 0 + off) n

/-- The number of slots of both rings of a core (R146, R160). -/
def State.ringSize (s : State) (ph : Nat) : Nat := 2 ^ s.fget (pCore ph) F.DR_SIZE_LOG2

/-- The 16 bytes of a completion record (R157). -/
def recBytes (status flags ty idx tag detail w2 w3 : Nat) : List Byte :=
  leBytes 4 (status * 2 ^ 24 + (flags % 16) * 2 ^ 20 + (ty % 16) * 2 ^ 16 + idx % 65536)
    ++ leBytes 4 ((tag % 65536) * 2 ^ 16 + detail % 65536) ++ leBytes 4 w2 ++ leBytes 4 w3

/-- A completion record written into the slot of ring index idx, and CR_COUNT raised (R146, R159). CYCLES is a free
value. Log entry 6: DESIGN CHOICE. -/
def State.putRecord (s : State) (ph idx ty tag : Nat) (r : Rec) : State :=
  let (ctr, s) := s.draw
  let w3 := match r.w3 with
    | some v => v
    | none => (Config.cycles ctr).toNat
  let s := s.ringWrite ph (s.reg (pCore ph + 0x05C)) (s.reg (pCore ph + 0x060)) ((idx % s.ringSize ph) * 16)
    (recBytes r.status r.flags ty idx tag r.det r.w2 w3)
  s.setReg (pCore ph + 0x064) (s.reg (pCore ph + 0x064) + 1)

/-- The record of a descriptor and what follows it: the count of MATMUL records (R107), the failures a FENCE reports
(R182), the header signal under SIG_COND (R152), and CMPL (R151). -/
def State.recordFor (s : State) (ph idx : Nat) (w : List Word) (r : Rec) : State :=
  let s := s.putRecord ph idx (hType w) (hTag w) r
  let s := if hType w = tMATMUL then s.inc64 (pCore ph) F.MX_PASS_LO_COUNT 1 else s
  let s := if good r.status then s else s.modCore ph fun c => { c with fails := c.fails + 1 }
  let s := if hSigEn w && (!hSigCond w || good r.status) then s.signal ph (hSigTok w) (hSigCnt w) else s
  if hIrq w then s.event (pCore ph) F.PG_EVT_CMPL else s

/-- An in-flight descriptor changed. -/
def State.modInfl (s : State) (ph idx : Nat) (f : Infl → Infl) : State :=
  s.modCore ph fun c => { c with inflight := modFirst (fun x => x.idx == idx) f c.inflight }

/-- Is an access to a ring region of a core held (R277, R344)? -/
def State.ringHeld (s : State) (ph : Nat) (lo hi : Word) (off n : Nat) : Bool :=
  if bit hi 31 then s.spLocked ph [((bits lo 31 12 * 4096 + off) % 0x1000000, n)]
  else s.memHeld (bits lo 31 12 * 4096 + 2 ^ 32 * bits hi 11 0 + off) n

/-- Is the slot of the record of ring index idx held? -/
def State.recordHeld (s : State) (ph idx : Nat) : Bool :=
  s.ringHeld ph (s.reg (pCore ph + 0x05C)) (s.reg (pCore ph + 0x060)) ((idx % s.ringSize ph) * 16) 16

/-- An issued descriptor completes: it leaves the in-flight list and writes its record, which waits while its slot is held.
Log entry 246: DEDUCED. -/
def State.complete (s : State) (ph : Nat) (e : Infl) (r : Rec) : State :=
  if s.recordHeld ph e.idx then
    let s := s.modInfl ph e.idx fun x => { x with prog := .done r }
    { s with held := s.held ++ [.record ph e.idx] }
  else
    (s.modCore ph fun c => { c with inflight := eraseFirst (fun x => x.idx == e.idx) c.inflight }).recordFor ph e.idx e.words r

/-- The in-flight descriptor with a ring index. -/
def State.infl (s : State) (ph idx : Nat) : Option Infl := (s.core ph).inflight.find? fun x => x.idx == idx

/-- Has a descriptor nothing left to do but to write its record? -/
def Prog.isDone : Prog → Bool
  | .done _ => true
  | _ => false

/-- The descriptors of one type in flight, in issue order: the engine's queue. -/
def State.queue (s : State) (ph ty : Nat) : List Infl :=
  (s.core ph).inflight.filter fun x => hType x.words == ty && !x.prog.isDone

/-- Is a descriptor of a type without its record? -/
def State.pendingOf (s : State) (ph ty : Nat) : Bool := (s.core ph).inflight.any fun x => hType x.words == ty

/-! ### Issue (R148) -/

/-- A header wait is satisfied when its counter holds at least WAIT_CNT (R152) and is not locked (R344). Log entry 19:
DEDUCED. -/
def State.waitOk (s : State) (ph : Nat) (w : List Word) : Bool :=
  !hWaitEn w || (decide (hWaitCnt w ≤ s.tok ph (hWaitTok w)) && !s.lockedReg (tokAddr ph (hWaitTok w)))

/-- The head of the ring when it may be tested for issue: HALT is 0 and no SYNC or FENCE holds issue. -/
def State.head (s : State) (ph : Nat) : Option Fetched :=
  if s.fget (pCore ph) F.SQ_CTRL_HALT = 1 ∨ s.pendingOf ph tSYNC ∨ s.pendingOf ph tFENCE then none
  else (s.core ph).fetched.head?

/-- Has the engine of a type room in its queue? -/
def State.room (s : State) (ph ty : Nat) : Bool := decide ((s.queue ph ty).length < queueDepth ty)

/-- The head of the ring if it issues as a descriptor that satisfies p: its type's queue has room and its header wait is
satisfied (R148). -/
def State.issuable (s : State) (ph : Nat) (p : List Word → Bool) : Option Fetched :=
  match s.head ph with
  | some f => if p f.words && s.room ph (hType f.words) && s.waitOk ph f.words then some f else none
  | none => none

/-- The head leaves the fetched copies, and DR_HEAD names the next index to issue. -/
def State.popHead (s : State) (ph : Nat) : State :=
  let nxt := match (s.core ph).fetched.drop 1 with
    | g :: _ => g.idx
    | [] => (s.core ph).fetchNext
  (s.modCore ph fun c => { c with fetched := c.fetched.drop 1 }).setReg (pCore ph + 0x054) (BitVec.ofNat 32 nxt)

/-- A descriptor issues: the head is taken, WAIT_CNT is consumed in that cycle (R152), and the descriptor is in flight. -/
def State.issue (s : State) (ph : Nat) (f : Fetched) (prog : Prog) : State :=
  let s := s.popHead ph
  let s := if hWaitEn f.words then s.setTok ph (hWaitTok f.words) (s.tok ph (hWaitTok f.words) - hWaitCnt f.words) else s
  s.modCore ph fun c => { c with inflight := c.inflight ++ [⟨f.idx, f.words, prog, c.attach⟩] }

/-- A descriptor issues and completes in the same cycle with a record: a refusal, or nothing to do. -/
def State.issueDone (s : State) (ph : Nat) (f : Fetched) (r : Rec) : State :=
  (s.issue ph f .queued).complete ph ⟨f.idx, f.words, .queued, none⟩ r

/-- A command that acts on a logical core: nothing happens when the number names no core (R565). Log entry 4: DEDUCED.
-/
def State.onCore (s : State) (n : Nat) (f : State → Nat → State) : State :=
  match s.phys n with
  | some ph => f s ph
  | none => s


end Sys2Proof.Machine
end

