-- ==== Sys2Proof/Machine/Tiles.lean ====
section
/-! DEFINITION. What the engines of a core share: regions of tiles, elements read and written in the blocked layout with
their scale bytes, RAW tiles with their side plane and CRC, and the flag registers (R38 to R41, R65, R129, R134 to R136,
R168 to R173). -/

namespace Sys2Proof.Machine

/-- Byte intervals of a region. -/
abbrev Region := List (Nat × Nat)

/-- The tiles of a rows × cols matrix at base with stride ld and tiles of tb bytes. Log entry 28: DEDUCED. -/
def tileRegion (base ld rows cols tb : Nat) : Region :=
  (List.range (cdiv rows 64)).flatMap fun tr => (List.range (cdiv cols 64)).map fun tc => (base + (tr * ld + tc) * tb, tb)

/-- Do two regions share a byte? -/
def overlaps (a b : Region) : Bool :=
  a.any fun x => b.any fun y => decide (x.1 < y.1 + y.2 ∧ y.1 < x.1 + x.2) && x.2 != 0 && y.2 != 0

/-- Does a region lie below a limit and at or above a start? -/
def inside (a : Region) (lo hi : Nat) : Bool := a.all fun x => decide (lo ≤ x.1 ∧ x.1 + x.2 ≤ hi)

/-- The accumulator buffer of a core as far as it lies in the active scratchpad (R173). -/
def State.accBuf (s : State) (ph : Nat) : Nat × Nat :=
  let b := s.fget (pCore ph) F.SP_ACCBUF_BASE * 4096
  (b, min spSize (b + s.fget (pCore ph) F.SP_ACCBUF_UNITS * 4096))

/-- The scale window of a core: 192 KiB at SP_SCALE_BASE (R172, R174). -/
def State.scaleBase (s : State) (ph : Nat) : Nat := s.fget (pCore ph) F.SP_SCALE_BASE_BASE * 4096

/-- An engine reads every tile of a region: corrected words are counted, and failed words make the reader CORRUPT
(R166). Log entry 28: DEDUCED. -/
def State.touch (s : State) (ph : Nat) (r : Region) : State × Bool :=
  let base := spKey ph 0
  let hit := fun k => r.any fun x => decide (base + x.1 < k + 8 ∧ k < base + x.1 + x.2)
  let ks := ((s.mem.errs.map (·.1)).eraseDups).filter hit
  let bad := ks.filter s.mem.isBad
  let s := (ks.filter s.mem.isSoft).foldl (fun t k => t.spCe ph (k - base)) s
  (bad.foldl (fun t k => t.spUe ph (k - base)) s, !bad.isEmpty)

/-- A region with the scale bytes of its tiles, when its format is block-scaled (R171). -/
def State.withScales (s : State) (ph fmt : Nat) (r : Region) : Region :=
  if isBlock fmt then r ++ r.map fun x => (s.scaleBase ph + (x.1 / 4096) * 128, 128) else r

/-- The code of element (r, c) of size e. -/
def State.elem (s : State) (ph e base ld r c : Nat) : Nat := leNat (s.mem.read (spKey ph (elemOff base ld e r c)) e)

/-- The operand at element (r, c) in a format, its block scale applied (R38, R171). -/
def State.num (s : State) (ph fmt base ld r c : Nat) : Num :=
  match fmtOf fmt with
  | none => .nan
  | some f =>
    let x := f.decode (s.elem ph (fmtBytes fmt) base ld r c)
    if isBlock fmt then
      x.scale (s.mem.byte (spKey ph (scaleOff (s.scaleBase ph) base ld r c))).toNat
    else x

/-- Bytes written into a core's scratchpad by one of its engines. -/
def State.sput (s : State) (ph x : Nat) (bs : List Byte) : State := (s.spWrite ph x bs).st

/-- Element (r, c) of size e written. -/
def State.putElem (s : State) (ph e base ld r c v : Nat) : State := s.sput ph (elemOff base ld e r c) (leBytes e v)

/-- Flags raised in a flag register of a page (R65). -/
def State.raiseFlags (s : State) (a fl : Nat) : State := s.setReg a (s.reg a ||| BitVec.ofNat 32 (fl % 16))

/-! ### Writing results -/

/-- One result element: its row and column of D, its exact value, and an INV raised beside the conversion. -/
structure Cell where
  r : Nat
  c : Nat
  v : XVal
  inv : Bool
deriving DecidableEq, Repr

/-- What a result needs to be written: format, rounding, policy, stochastic key, columns of the logical tensor (R54),
base and stride. -/
structure Sink where
  fmt : Nat
  rnd : Nat
  pol : Nat
  key : Nat
  cols : Nat
  base : Nat
  ld : Nat
deriving DecidableEq, Repr

/-- The 16-bit value R for an element of a result (R53, R54). -/
def Sink.r16 (k : Sink) (r c : Nat) : Nat := if k.rnd = 4 then srR k.key (r * k.cols + c) else 0

/-- The scale byte of a block whose elements are given (R40, R41). -/
def blockScale (f : Fmt) (vs : List XVal) : Nat :=
  let emax : Int := if f.ebits = 4 then 8 else 15
  let ls := vs.filterMap fun v => match v with
    | .val _ m => if m.isZero then none else some m.ilog2
    | _ => none
  match ls with
  | [] => 127
  | x :: xs => (min 254 (max 0 (xs.foldl max x - emax + 127))).toNat

/-- An exact value times 2^k. -/
def XVal.shift (v : XVal) (k : Int) : XVal :=
  match v with
  | .val n m => .val n (m.shift k)
  | x => x

/-- One element converted and written (not block-scaled): the state and the flags. -/
def State.deliver1 (s : State) (ph : Nat) (k : Sink) (x : Cell) : State × Nat :=
  let inv := if x.inv then flINV else 0
  if k.fmt = 7 then
    let (h, t, fl) := pairOf k.pol x.v
    ((s.putElem ph 8 k.base k.ld x.r x.c (h + 2 ^ 32 * t)), fl ||| inv)
  else match fmtOf k.fmt with
    | none => (s, inv)
    | some f =>
      let (code, fl) := f.convert k.rnd k.pol (k.r16 x.r x.c) x.v
      (s.putElem ph (fmtBytes k.fmt) k.base k.ld x.r x.c code, fl ||| inv)

/-- One block of 32 columns of a row converted and written with its scale byte (R40, R75). -/
def State.deliverBlock (s : State) (ph : Nat) (k : Sink) (xs : List Cell) : State × Nat :=
  match fmtOf k.fmt, xs with
  | some f, x0 :: _ =>
    let sc := blockScale f (xs.map (·.v))
    let s := s.sput ph (scaleOff (s.scaleBase ph) k.base k.ld x0.r x0.c) [BitVec.ofNat 8 sc]
    xs.foldl (fun a x =>
      let (code, fl) := f.convert k.rnd k.pol (k.r16 x.r x.c) (x.v.shift (127 - (sc : Int)))
      (a.1.putElem ph 1 k.base k.ld x.r x.c code, a.2 ||| fl ||| (if x.inv then flINV else 0))) (s, 0)
  | _, _ => (s, 0)

/-- The blocks of a list of cells: row and column ÷ 32, in order of first appearance. -/
def blocksOf (xs : List Cell) : List (List Cell) :=
  ((xs.map fun x => (x.r, x.c / 32)).eraseDups).map fun b => xs.filter fun x => x.r == b.1 && x.c / 32 == b.2

/-- The bytes that the results of a list of cells cover, scale bytes among them. -/
def State.spans (s : State) (ph : Nat) (k : Sink) (xs : List Cell) : Region :=
  let e := fmtBytes k.fmt
  (xs.map fun x => (elemOff k.base k.ld e x.r x.c, e))
    ++ (if isBlock k.fmt then xs.map fun x => (scaleOff (s.scaleBase ph) k.base k.ld x.r x.c, 1) else [])

/-- Does a write of these bytes merge into a word that fails beyond correction (R166)? Log entry 30: DEDUCED. -/
def State.mergeFails (s : State) (ph : Nat) (sp : Region) : Bool :=
  let base := spKey ph 0
  s.mem.errs.any fun e => s.mem.isBad e.1 && decide (base ≤ e.1) && overlaps sp [(e.1 - base, 8)] &&
    !((List.range 8).all fun i => overlaps sp [(e.1 + i - base, 1)])

/-- Words that a write covers wholly become correct (R166). Log entry 30: DEDUCED. -/
def State.freshCode (s : State) (ph : Nat) (sp : Region) : State :=
  let base := spKey ph 0
  let kept := fun (e : Nat × Nat) => decide (e.1 < base) || !((List.range 8).all fun i => overlaps sp [(e.1 + i - base, 1)])
  { s with mem := { s.mem with errs := s.mem.errs.filter kept } }

/-- Results converted and written; the flags they raise. -/
def State.deliver (s : State) (ph : Nat) (k : Sink) (xs : List Cell) : State × Nat :=
  let s := s.freshCode ph (s.spans ph k xs)
  if isBlock k.fmt then
    (blocksOf xs).foldl (fun a b => let r := a.1.deliverBlock ph k b; (r.1, a.2 ||| r.2)) (s, 0)
  else xs.foldl (fun a x => let r := a.1.deliver1 ph k x; (r.1, a.2 ||| r.2)) (s, 0)

/-! ### RAW tiles (R134, R135) -/

/-- The size of a RAW slot. Log entry 27: DEDUCED. -/
def rawSlot : Nat := 69632

/-- The fields of a RAW tile header (R135). -/
structure RawHdr where
  cstat : Nat
  special : Bool
  compact : Bool
  anchored : Bool
  anchor : Int
  err : Nat
  pos : Nat
  chainId : Nat
  trow : Nat
  tcol : Nat
  crc : Nat
deriving DecidableEq, Repr

/-- The header a 64-byte string spells. -/
def rawHdr (bs : List Byte) : RawHdr :=
  let w := wordsOf 16 bs
  { cstat := bits (wd w 0) 31 24, special := bit (wd w 0) 18, compact := bit (wd w 0) 17, anchored := bit (wd w 0) 16,
    anchor := sint 16 (bits (wd w 0) 15 0), err := (wd w 1).toNat + 2 ^ 32 * (wd w 2).toNat,
    pos := bits (wd w 3) 23 16, chainId := bits (wd w 3) 15 0, trow := bits (wd w 4) 15 0, tcol := bits (wd w 4) 31 16,
    crc := (wd w 14).toNat + 2 ^ 32 * (wd w 15).toNat }

/-- Header bytes 0x00 to 0x37. -/
def RawHdr.bytes56 (h : RawHdr) : List Byte :=
  leBytes 4 (h.cstat * 2 ^ 24 + b2n h.special * 2 ^ 18 + b2n h.compact * 2 ^ 17 + b2n h.anchored * 2 ^ 16 + ofSint 16 h.anchor)
    ++ leBytes 8 h.err ++ leBytes 4 ((h.pos % 256) * 2 ^ 16 + h.chainId % 65536)
    ++ leBytes 4 ((h.tcol % 65536) * 2 ^ 16 + h.trow % 65536) ++ leBytes 36 0

/-- The CRC of a tile: header bytes 0x00 to 0x37 as they stand in memory, the side plane when SPECIAL, the body (R135,
R566). -/
def rawCrcOf (head : List Byte) (special : Bool) (side body : List Byte) : Nat :=
  crc64 (head ++ (if special then side else []) ++ body)

/-- The CRC of a tile that a unit of the module writes, its reserved header bits 0. -/
def rawCrc (h : RawHdr) (side body : List Byte) : Nat := rawCrcOf h.bytes56 h.special side body

/-- A RAW tile as its header, the header bytes 0x00 to 0x37 that it was read from, its side plane and body. -/
structure RawTile where
  hdr : RawHdr
  head : List Byte
  side : List Byte
  body : List Byte
deriving DecidableEq, Repr

/-- Where element i of a full body lies in a compact one: the blocked layout orders elements of 16 and of 8 bytes
differently (R142, R168). -/
def compactIdx (i : Nat) : Nat :=
  let q := i / 64 * 8 + i % 8
  (q / 16 * 8 + i / 8 % 8) * 16 + q % 16

/-- The element of a full body that lies at place j of a compact one. -/
def fullIdx (j : Nat) : Nat :=
  let q := j / 128 * 16 + j % 16
  (q / 8 * 8 + j / 16 % 8) * 8 + q % 8

/-- The RAW tile in a slot of a core's scratchpad; a compact body has 8 bytes per element (R142). -/
def State.rawAt (s : State) (ph x : Nat) : RawTile :=
  let hb := s.mem.read (spKey ph x) 64
  let h := rawHdr hb
  ⟨h, hb.take 56, s.mem.read (spKey ph (x + 0x400)) 2048, s.mem.read (spKey ph (x + 0x1000)) (if h.compact then 32768 else 65536)⟩

/-- The CRC of a tile matches its header (R136). -/
def RawTile.ok (t : RawTile) : Bool := t.hdr.crc == rawCrcOf t.head t.hdr.special t.side t.body

/-- The carry that landed in a slot: its side plane, when SPECIAL is 1, and its body follow the header (R142). Log
entry 31: DEDUCED. -/
def State.carryAt (s : State) (ph x : Nat) : RawTile :=
  let hb := s.mem.read (spKey ph x) 64
  let h := rawHdr hb
  let n := if h.special then 2048 else 0
  ⟨h, hb.take 56, s.mem.read (spKey ph (x + 64)) n, s.mem.read (spKey ph (x + 64 + n)) (if h.compact then 32768 else 65536)⟩

/-- The place of element i of the tile in its body. -/
def RawTile.place (t : RawTile) (i : Nat) : Nat := if t.hdr.compact then compactIdx i else i

/-- V of element i of the tile, sign-extended from a compact body (R142). -/
def RawTile.v (t : RawTile) (i : Nat) : Int :=
  let j := t.place i
  if t.hdr.compact then sint 64 (leNat ((t.body.drop (8 * j)).take 8)) else sint 128 (leNat ((t.body.drop (16 * j)).take 16))

/-- The side nibble of element i (R134, R142); a tile without SPECIAL has none set. -/
def RawTile.nib (t : RawTile) (i : Nat) : Nat :=
  if t.hdr.special then
    let j := t.place i
    let b := (t.side.getD (j / 2) 0).toNat
    if j % 2 = 0 then b % 16 else b / 16
  else 0

/-- The body index of element (r, c) of a tile: the element order of the blocked layout. -/
def rawIdx (r c : Nat) : Nat := tileOff 16 r c / 16

/-- Two nibbles to a byte. -/
def nibBytes : List Nat → List Byte
  | a :: b :: t => BitVec.ofNat 8 (a % 16 + 16 * b) :: nibBytes t
  | [a] => [BitVec.ofNat 8 (a % 16)]
  | [] => []

/-- The full RAW tile of values and nibbles in body order, its SPECIAL bit and CRC formed (R136). -/
def mkRaw (h : RawHdr) (vs : List Int) (nibs : List Nat) : RawTile :=
  let h := { h with special := nibs.any (· != 0), compact := false }
  let side := nibBytes nibs
  let body := vs.flatMap fun v => leBytes 16 (ofSint 128 v)
  ⟨{ h with crc := rawCrc h side body }, h.bytes56, side, body⟩

/-- The writes of a tile into a slot: offset and bytes; the side plane holds every element's nibble, zeros without SPECIAL
(R134). -/
def RawTile.writes (t : RawTile) : List (Nat × List Byte) :=
  [(0, t.hdr.bytes56 ++ leBytes 8 t.hdr.crc), (0x400, if t.hdr.special then t.side else List.replicate 2048 0), (0x1000, t.body)]

/-- The bytes of a carry (R142). Log entry 31: DEDUCED. -/
def RawTile.carryBytes (t : RawTile) : List Byte :=
  t.hdr.bytes56 ++ leBytes 8 t.hdr.crc ++ (if t.hdr.special then t.side else []) ++ t.body

/-- The length of a carry that landed; a tile with CSTAT set is header-only. -/
def RawTile.carryLen (t : RawTile) : Nat := if t.hdr.cstat ≠ 0 then 64 else t.carryBytes.length

/-- A tile written into a slot of a core's scratchpad. -/
def State.putRaw (s : State) (ph x : Nat) (t : RawTile) : State := t.writes.foldl (fun s w => s.sput ph (x + w.1) w.2) s

/-- The value a RAW element delivers and whether it raises INV (R129). -/
def rawValue (v : Int) (nib : Nat) (a : Int) : XVal × Bool :=
  let both := nib % 4 == 3
  let inv := nib / 8 % 2 == 1 || both
  if nib / 4 % 2 = 1 ∨ both then (.nan, inv)
  else if nib % 2 = 1 then (.inf false, inv)
  else if nib / 2 % 2 = 1 then (.inf true, inv)
  else (XVal.ofInt v a, inv)

end Sys2Proof.Machine
end

