-- ==== Sys2Proof/Machine/Vector.lean ====
section
/-! DEFINITION. The vector unit's operations: checks, exact results with one rounding, and special cases (R183 to R188). -/

namespace Sys2Proof.Machine

/-- The sources an OP of R183 names; an OP without an entry is reserved or a Zwikai operation. Log entry 36: DEDUCED.
-/
def vxSrcs (op : Nat) : Option (List Nat) :=
  if op = 4 then some [0, 1, 2]
  else if op ∈ [0x01, 0x02, 0x03, 0x05, 0x06, 0x23, 0x24] then some [0, 1]
  else if op ∈ [0x07, 0x08, 0x09, 0x0A, 0x10, 0x11, 0x12, 0x13, 0x14, 0x15, 0x16, 0x20, 0x21, 0x22] then some [0]
  else none

/-- ROWSUM, ROWMAX and ROWSSQ. -/
def VectorD.reduces (d : VectorD) : Bool := decide (0x20 ≤ d.op ∧ d.op ≤ 0x22)

/-- Format, address, rows and columns of source i. -/
def VectorD.src (d : VectorD) : Nat → Nat × Nat × Nat × Nat
  | 0 => (d.s0Fmt, d.s0, d.rows, d.cols)
  | 1 => (d.s1Fmt, d.s1, if d.op = 0x24 then 1 else d.rows, if d.op = 0x23 then 1 else d.cols)
  | _ => (d.s2Fmt, d.s2, d.rows, d.cols)

/-- Columns of D: one for a row reduction (R183). -/
def VectorD.dCols (d : VectorD) : Nat := if d.reduces then 1 else d.cols

/-- The tiles of source i, and of D. -/
def VectorD.srcReg (d : VectorD) (i : Nat) : Region :=
  let (f, a, r, c) := d.src i
  tileRegion a (strideOf d.lds c) r c (4096 * fmtBytes f)
def VectorD.dReg (d : VectorD) : Region :=
  tileRegion d.d (strideOf d.ldd d.dCols) d.rows d.dCols (4096 * fmtBytes d.dFmt)

/-- The failed checks of a VECTOR of R183, lowest reason first (R95, R172, R188). A reserved OP names no region. Log
entry 36: DEDUCED. -/
def State.vectorReasons (s : State) (ph : Nat) (d : VectorD) : List Nat :=
  let on := fun (b : Bool) (n : Nat) => if b then [n] else []
  match vxSrcs d.op with
  | none => [0x1B]
  | some is =>
    let win : Region := [(s.scaleBase ph, 0x30000)]
    let narrow := fun (ld c : Nat) => ld != 0 && decide (ld < cdiv c 64)
    on (d.d % 4096 != 0 || is.any fun i => (d.src i).2.1 % 4096 != 0) 0x13
    ++ on (!inside d.dReg 0 spSize || narrow d.ldd d.dCols
        || is.any fun i => !inside (d.srcReg i) 0 spSize || narrow d.lds (d.src i).2.2.2) 0x14
    ++ on ((isBlock d.dFmt && overlaps d.dReg win) || is.any fun i => isBlock (d.src i).1 && overlaps (d.srcReg i) win) 0x1A
    ++ on (decide (d.dFmt > 6) || decide (d.rnd > 4) || (is.any fun i => decide ((d.src i).1 > 6))
        || (is.any fun i => if d.srcReg i == d.dReg then d.reduces && !d.dReg.isEmpty else overlaps (d.srcReg i) d.dReg)) 0x1B

/-! ### Results -/

/-- Is a at most b in the order of MAX and MIN: −0 lies below +0 (R186)? -/
def Num.le (a b : Num) : Bool :=
  match a, b with
  | .inf true, _ => true
  | _, .inf false => true
  | .fin n m e, .fin k j g => if m = 0 ∧ j = 0 then n || !k else (dyOf n m e).le (dyOf k j g)
  | _, _ => a == b

/-- The larger operand; a NaN gives a NaN (R186). -/
def Num.larger (a b : Num) : Num := if a = .nan ∨ b = .nan then .nan else if a.le b then b else a

/-- The smaller operand. -/
def Num.smaller (a b : Num) : Num := if a = .nan ∨ b = .nan then .nan else if a.le b then a else b

/-- An exact product plus an addend and whether the operation is invalid; 0 × ∞ is, whatever the addend (R186). Log
entry 40: DEDUCED. -/
def fmaOf (a b c : Num) : XVal × Bool :=
  let p := a.toE.mul b.toE
  let r := p.1.add c.toE
  (r.1.toX, p.2 || r.2)

/-- 2^x (R183, R186). Beyond ±1,024 every format overflows or underflows alike, so the value stands at the bound. Log
entry 43: DESIGN CHOICE. -/
def exp2Of (neg : Bool) (m : Nat) (e : Int) : XVal :=
  let (k, exact) := ratFloor m 1 e
  if k ≥ 1024 then .val false (.rat 1 1 (if neg then -1024 else 1024))
  else if exact then .val false (.rat 1 1 (if neg then -(k : Int) else k))
  else .val false (.fn .exp2 neg m 1 e 0)

/-- log2 of a positive dyadic (R183). -/
def log2Of (m : Nat) (e : Int) : XVal :=
  let k := m.log2
  if m = 2 ^ k then XVal.ofInt ((k : Int) + e) 0
  else .val (decide ((k : Int) + e < 0)) (.fn .log2 false m 1 e 0)

/-- The function of OP 0x10 to 0x16 on one source: value, and whether it is invalid (R183, R186). -/
def vxFunc (op : Nat) (x : Num) : XVal × Bool :=
  match op, x with
  | _, .nan => (.nan, false)
  | 0x10, .inf n => (if n then .val false (.rat 0 1 0) else .inf false, false)
  | 0x10, .fin n m e => (exp2Of n m e, false)
  | 0x11, .inf n => if n then (.nan, true) else (.inf false, false)
  | 0x11, .fin n m e => if m = 0 then (.inf true, false) else if n then (.nan, true) else (log2Of m e, false)
  | 0x12, .inf _ => (.val false (.rat 0 1 0), false)
  | 0x12, .fin n m e => if m = 0 then (.inf n, false) else (.val n (.rat 1 m (-e)), false)
  | 0x13, .inf n => if n then (.nan, true) else (.val false (.rat 0 1 0), false)
  | 0x13, .fin n m e => if m = 0 then (.inf n, false) else if n then (.nan, true) else (.val false (.sqrt 1 m (-e)), false)
  | 0x14, .inf n => if n then (.nan, true) else (.inf false, false)
  | 0x14, .fin n m e => if m = 0 then (.val false (.rat 0 1 0), false)
      else if n then (.nan, true) else (.val false (.sqrt m 1 e), false)
  | _, .inf n => (.val n (.rat 1 1 0), false)
  | f, .fin n m e => if m = 0 then (.val false (.rat 0 1 0), false)
      else (.val n (.fn (if f = 0x15 then .tanh else .erf) false m 1 e 0), false)

/-- A row's sum of terms with the side bits of R128, delivered by R129. -/
def rowSum (sq : Bool) (xs : List Num) : XVal × Bool :=
  let side := xs.foldl (fun a x => match x with
    | .nan => a ||| 4
    | .inf n => a ||| (if n && !sq then 2 else 1)
    | .fin .. => a) 0
  let sum := xs.foldl (fun a x => match x with
    | .fin n m e => let d := dyOf n m e; a.add (if sq then d.mul d else d)
    | _ => a) Dy.zero
  let v := rawValue sum.v side sum.e
  (v.1, v.2)

/-- One result element from the sources of its row: x i c is source i at column c. -/
def VectorD.result (d : VectorD) (x : Nat → Nat → Num) (c : Nat) : XVal × Bool :=
  let a := x 0 c
  let row := (List.range d.cols).map (x 0)
  let imm := fun (w : Nat) => fmtFP32.decode w
  match d.op with
  | 0x01 => let r := a.toE.add (x 1 c).toE; (r.1.toX, r.2)
  | 0x02 => let r := a.toE.add (x 1 c).toE.neg; (r.1.toX, r.2)
  | 0x04 => fmaOf a (x 1 c) (x 2 c)
  | 0x05 => ((a.larger (x 1 c)).toX, false)
  | 0x06 => ((a.smaller (x 1 c)).toX, false)
  | 0x07 => fmaOf a (imm d.imm0) (imm d.imm1)
  | 0x08 => (a.toX, false)
  | 0x09 => (match a with | .fin _ m e => .val false (.rat m 1 e) | .inf _ => .inf false | .nan => .nan, false)
  | 0x0A => (match a with | .fin n m e => .val (!n) (.rat m 1 e) | .inf n => .inf (!n) | .nan => .nan, false)
  | 0x20 => rowSum false row
  | 0x21 => ((row.drop 1).foldl Num.larger (x 0 0) |>.toX, false)
  | 0x22 => rowSum true row
  | 0x23 => let r := a.toE.mul (x 1 0).toE; (r.1.toX, r.2)
  | op => if op = 0x03 ∨ op = 0x24 then let r := a.toE.mul (x 1 c).toE; (r.1.toX, r.2) else vxFunc op a

/-- The sink of D; the element index is r × COLS + c (R185). Log entry 37: DEDUCED. -/
def VectorD.sink (d : VectorD) : Sink :=
  ⟨d.dFmt, d.rnd, d.pol, srKey d.step d.tensor d.stream, d.cols, d.d, strideOf d.ldd d.dCols⟩

/-- Source i at row r and column c. -/
def State.vxNum (s : State) (ph : Nat) (d : VectorD) (r i c : Nat) : Num :=
  let (f, a, _, cs) := d.src i
  s.num ph f a (strideOf d.lds cs) (if i = 1 && d.op == 0x24 then 0 else r) c

/-- The result elements of D. -/
def State.vxCells (s : State) (ph : Nat) (d : VectorD) : List Cell :=
  (List.range d.rows).flatMap fun r => (List.range d.dCols).map fun c =>
    let v := d.result (s.vxNum ph d r) c
    Cell.mk r c v.1 v.2

/-- Elements of D left with free contents. Log entries 38: DESIGN CHOICE, 39: DESIGN CHOICE. -/
def State.freeCells (s : State) (ph : Nat) (k : Sink) (cs : List (Nat × Nat)) : State :=
  cs.foldl (fun s c =>
    let (bs, s) := s.drawBytes (fmtBytes k.fmt)
    let s := s.sput ph (elemOff k.base k.ld (fmtBytes k.fmt) c.1 c.2) bs
    if isBlock k.fmt then
      let (b, s) := s.drawBytes 1
      s.sput ph (scaleOff (s.scaleBase ph) k.base k.ld c.1 c.2) b
    else s) s

/-- Four free flags. -/
def State.freeFlags (s : State) : Nat × State :=
  let (ctr, s) := s.draw
  ((Config.freeWord ctr).toNat % 16, s)

/-- The effect of a VECTOR of R183: its results are written and its flags raised, and its record formed. Sources that
fail beyond correction make it CORRUPT (R166) and leave D and the flags free. ROWMUL and COLMUL onto their own factor
have the results that follow the overwritten factor free: R187 states no order. Log entries 34: DESIGN CHOICE, 38:
DESIGN CHOICE, 39: DESIGN CHOICE. -/
def State.vectorRun (s : State) (ph : Nat) (w : List Word) : State × Rec :=
  let d := vectorD w
  let (s, ue) := s.touch ph (((vxSrcs d.op).getD []).flatMap fun i => s.withScales ph (d.src i).1 (d.srcReg i))
  let all := (List.range d.rows).flatMap fun r => (List.range d.dCols).map fun c => (r, c)
  if ue then
    let s := s.freeCells ph d.sink all
    let (fl, s) := s.freeFlags
    (s.raiseFlags (pCore ph + 0x104) fl, ⟨7, fl, 0, 0, none⟩)
  else
    let cells := s.vxCells ph d
    let own := (d.op == 0x23 || d.op == 0x24) && d.srcReg 1 == d.dReg
    let sure := if !own then cells else if isBlock d.dFmt then [] else
      cells.filter fun x => if d.op = 0x23 then x.c == 0 else x.r == 0
    let cor := s.mergeFails ph (s.spans ph d.sink cells)
    let (s, fl) := s.deliver ph d.sink sure
    if own then
      let s := s.freeCells ph d.sink ((cells.filter fun x => !sure.contains x).map fun x => (x.r, x.c))
      let (f, s) := s.freeFlags
      (s.raiseFlags (pCore ph + 0x104) (fl ||| f), ⟨if cor then 7 else 0, fl ||| f, 0, 0, none⟩)
    else (s.raiseFlags (pCore ph + 0x104) fl, ⟨if cor then 7 else 0, fl, 0, 0, none⟩)

end Sys2Proof.Machine
end

