-- ==== Sys2Proof/Machine/Arith.lean ====
section
/-! DEFINITION. What Nutmeg and the Zwikai quantiser share: FP32 operations rounded once, byte records, tile images, RAW
slots read with their check, and memory at an operand place of a descriptor (R136, R168, R233, R238, R244, R390). -/

namespace Sys2Proof.Machine

/-! ### FP32 operations, each rounded once under RNE (R244) -/

/-- An FP32 code and the flags raised on the way to it. -/
structure F32 where
  code : Nat
  fl : Nat
deriving DecidableEq, Repr

/-- A code as it stands. -/
def F32.of (c : Nat) : F32 := ⟨c % 2 ^ 32, 0⟩

/-- The operand it spells. -/
def F32.num (a : F32) : Num := fmtFP32.decode a.code

/-- A result rounded to FP32 under RNE; an exact zero is +0 (R45). -/
def F32.rne (v : XVal) (inv : Bool) (fl : Nat) : F32 :=
  let r := fmtFP32.convert 0 0 0 v.posZero
  ⟨r.1, r.2 ||| fl ||| (if inv then flINV else 0)⟩

def F32.add (a b : F32) : F32 := let r := a.num.toE.add b.num.toE; F32.rne r.1.toX r.2 (a.fl ||| b.fl)
def F32.sub (a b : F32) : F32 := let r := a.num.toE.add b.num.toE.neg; F32.rne r.1.toX r.2 (a.fl ||| b.fl)
def F32.mul (a b : F32) : F32 := let r := a.num.toE.mul b.num.toE; F32.rne r.1.toX r.2 (a.fl ||| b.fl)

/-- A quotient: x ÷ 0 is a signed infinity without a flag, as RCP has it; 0 ÷ 0 and ∞ ÷ ∞ are invalid (R186). Log
entry 41: DEDUCED. -/
def divOf (a b : Num) : XVal × Bool :=
  match a, b with
  | .nan, _ => (.nan, false)
  | _, .nan => (.nan, false)
  | .inf _, .inf _ => (.nan, true)
  | .inf x, .fin y _ _ => (.inf (x != y), false)
  | .fin .., .inf _ => (.val false (.rat 0 1 0), false)
  | .fin x m e, .fin y k g =>
    if k = 0 then (if m = 0 then (.nan, true) else (.inf (x != y), false))
    else (.val (x != y) (.rat m k (e - g)), false)

/-- Log entry 41: DEDUCED. -/
def F32.div (a b : F32) : F32 := let r := divOf a.num b.num; F32.rne r.1 r.2 (a.fl ||| b.fl)
def F32.sqrt (a : F32) : F32 := let r := vxFunc 0x14 a.num; F32.rne r.1 r.2 a.fl

/-- sign(c): +1.0, −1.0 or +0, and the canonical NaN of a NaN (R245). -/
def F32.sign (a : F32) : F32 :=
  match a.num with
  | .nan => ⟨0x7FC00000, a.fl⟩
  | .inf n => ⟨if n then 0xBF800000 else 0x3F800000, a.fl⟩
  | .fin n m _ => ⟨if m = 0 then 0 else if n then 0xBF800000 else 0x3F800000, a.fl⟩

/-! ### Bytes -/

/-- A byte string cut into n pieces of k bytes. -/
def chunks (k : Nat) : Nat → List Byte → List (List Byte)
  | 0, _ => []
  | n + 1, bs => bs.take k :: chunks k n (bs.drop k)

/-- k bytes at offset o, little-endian. -/
def field (bs : List Byte) (o k : Nat) : Nat := leNat ((bs.drop o).take k)

/-- k bytes at offset o replaced. -/
def putField (bs : List Byte) (o k v : Nat) : List Byte := bs.take o ++ leBytes k v ++ bs.drop (o + k)

/-- Row and column of the k-th element of a tile image of element size e: the inverse of the layout of R168. -/
def tileRC (e k : Nat) : Nat × Nat :=
  let off := k * e
  let line := off / 128
  let q := ((line / 8) * 128 + off % 128) / e
  let s := q % 128
  let r := (q / 256) * 32 + (s / 32) * 8 + s % 8
  let c8 := (line % 8 + 8 - s % 8) % 8
  (r, (q / 128 % 2) * 32 + (s / 8 % 4) * 8 + c8)

/-- The bytes of a tile of element size e from its elements. -/
def tileImage (e : Nat) (f : Nat → Nat → Nat) : List Byte :=
  (List.range 4096).flatMap fun k => let p := tileRC e k; leBytes e (f p.1 p.2)

/-! ### Operand places (R238) -/

/-- A place named by an address pair: scratchpad offset or local HBM offset. -/
structure Loc where
  sp : Bool
  off : Nat
deriving DecidableEq, Repr

/-- The place in words i and i + 1 of a descriptor. -/
def locOf (w : List Word) (i : Nat) : Loc :=
  let sp := bit (wd w (i + 1)) 31
  ⟨sp, (wd w i).toNat + (if sp then 0 else 2 ^ 32 * bits (wd w (i + 1)) 11 0)⟩

def Loc.add (l : Loc) (n : Nat) : Loc := ⟨l.sp, l.off + n⟩

/-- A read up to the first byte that cannot be read; status is an outcome. -/
structure Got where
  st : State
  status : Nat
  data : List Byte
deriving DecidableEq, Repr

/-- The bytes of a failed read that precede its first failing code word. -/
def State.beforeBad (s : State) (key n : Nat) (data : List Byte) : List Byte :=
  match s.mem.failing key n with
  | [] => []
  | u :: us => data.take (us.foldl min u - key)

/-- n bytes from a place, read in ascending order until one fails; nothing is read where an untrusted entry covers a
byte (R499). Log entry 47: DEDUCED. -/
def State.locRead (s : State) (ph : Nat) (l : Loc) (n : Nat) : Got :=
  if !l.sp && s.covered l.off n then ⟨s, outcome 4 0x8C, []⟩ else
  (cuts256 l.off n).foldl (fun (g : Got) c =>
    if g.status ≠ 0 then g
    else if l.sp then
      if c.1 + c.2 > spSize then { g with status := 0x0B }
      else
        let r := g.st.spRead ph c.1 c.2
        ⟨r.st, r.outcome, g.data ++ (if r.status = 0 then r.data else g.st.beforeBad (spKey ph c.1) c.2 r.data)⟩
    else if c.1 + c.2 > hbmEnd then { g with status := 0x0B }
    else
      let r := g.st.memRead1 c.1 c.2
      ⟨r.st, r.outcome, g.data ++ (if r.status = 0 then r.data else g.st.beforeBad c.1 c.2 r.data)⟩) ⟨s, 0, []⟩

/-- Bytes written to a place, with the outcome; the first failure stands. -/
def State.locWrite (s : State) (ph : Nat) (l : Loc) (bs : List Byte) : State × Nat :=
  if l.sp then
    if l.off + bs.length > spSize then (s, 0x0B) else let r := s.spWrite ph l.off bs; (r.st, r.outcome)
  else if l.off + bs.length > hbmEnd then (s, 0x0B)
  else let r := s.memWrite l.off bs; (r.st, r.outcome)

/-- Is a byte of a place held (R277, R344)? -/
def State.locLocked (s : State) (ph : Nat) (l : Loc) (n : Nat) : Bool :=
  if l.sp then s.spLocked ph [(l.off, n)] else s.memHeld l.off n

/-! ### RAW slots -/

/-- A RAW slot of a core's scratchpad read with its CRC checked (R136); none: CORRUPT. -/
def State.readSlot (s : State) (ph x : Nat) : State × Option RawTile :=
  let (s, ue) := s.touch ph [(x, rawSlot)]
  let t := s.rawAt ph x
  (s, if ue || !t.ok then none else some t)

/-- V and nibble of a slice element j = 64r + c (R233). -/
def RawTile.elem (t : RawTile) (j : Nat) : Int × Nat :=
  let i := rawIdx (j / 64) (j % 64)
  (t.v i, t.nib i)

/-- The bytes of a slot that a write of a whole tile covers. -/
def RawTile.region (t : RawTile) (x : Nat) : Region := t.writes.map fun w => (x + w.1, w.2.length)

end Sys2Proof.Machine
end

