-- ==== Sys2Proof/Machine/Frames.lean ====
section
/-! DEFINITION. The Ethernet frames of a site port: 802.1Q, IPv6 and UDP around a parcel, with checksum and FCS (R410,
R414). The layouts of these standards, and the CRC-32 of the FCS, are theirs. Log entry 252: PRESUMED. -/

namespace Sys2Proof.Machine

/-! ### FCS and checksum -/

def fcsStep (c : Nat) : Nat := if c % 2 = 1 then (c / 2) ^^^ 0xEDB88320 else c / 2

/-- The FCS of IEEE 802.3 over the bytes before it. -/
def fcs (bs : List Byte) : List Byte :=
  leBytes 4 ((bs.foldl (fun c b => (List.range 8).foldl (fun c _ => fcsStep c) (c ^^^ b.toNat)) 0xFFFFFFFF) ^^^ 0xFFFFFFFF)

/-- The sum of 16-bit big-endian words. -/
def sum16 : List Byte → Nat
  | [] => 0
  | [a] => a.toNat * 256
  | a :: b :: l => a.toNat * 256 + b.toNat + sum16 l

/-- The ones' complement sum of UDP over IPv6: the pseudo-header and the datagram. -/
def udpSum (src dst : Nat) (udp : List Byte) : Nat :=
  let t := sum16 (beBytes 16 src ++ beBytes 16 dst ++ beBytes 4 udp.length ++ [0, 0, 0, 17] ++ udp)
  if t = 0 then 0 else (t - 1) % 65535 + 1

/-! ### Frames -/

/-- What a frame says around its payload: MAC addresses, the 802.1Q tag's PCP and VLAN, traffic class, hop limit, IPv6
addresses and the UDP port. -/
structure FrameHdr where
  dst : Nat
  src : Nat
  tag : Option (Nat × Nat)
  tclass : Nat
  hop : Nat
  ipSrc : Nat
  ipDst : Nat
  port : Nat
deriving DecidableEq, Repr

/-- The UDP datagram of a payload with a checksum field. -/
def FrameHdr.udp (h : FrameHdr) (ck : Nat) (p : List Byte) : List Byte :=
  beBytes 2 h.port ++ beBytes 2 h.port ++ beBytes 2 (8 + p.length) ++ beBytes 2 ck ++ p

/-- The checksum field; a sum of 0 is sent as all ones. -/
def FrameHdr.checksum (h : FrameHdr) (p : List Byte) : Nat :=
  let c := 65535 - udpSum h.ipSrc h.ipDst (h.udp 0 p)
  if c = 0 then 65535 else c

/-- The frame of a payload (R410): the flow label is 0. -/
def FrameHdr.frame (h : FrameHdr) (p : List Byte) : List Byte :=
  let tag := match h.tag with
    | some (pcp, vlan) => beBytes 2 0x8100 ++ beBytes 2 (pcp % 8 * 8192 + vlan % 4096)
    | none => []
  let body := beBytes 6 h.dst ++ beBytes 6 h.src ++ tag ++ beBytes 2 0x86DD
    ++ beBytes 4 (6 * 2 ^ 28 + h.tclass % 256 * 2 ^ 20) ++ beBytes 2 (8 + p.length) ++ [17, BitVec.ofNat 8 h.hop]
    ++ beBytes 16 h.ipSrc ++ beBytes 16 h.ipDst ++ h.udp (h.checksum p) p
  body ++ fcs body

/-- The big-endian number of n bytes at an offset. -/
def beAt (bs : List Byte) (o n : Nat) : Nat := beNat ((bs.drop o).take n)

/-- The payload of the UDP datagram of an IPv6 packet, when it goes to a port with a valid checksum (R414). -/
def udpIn (port : Nat) (ip : List Byte) : Option (List Byte) :=
  let len := beAt ip 4 2
  let udp := (ip.drop 40).take len
  if beAt ip 0 1 / 16 = 6 ∧ beAt ip 6 1 = 17 ∧ 8 ≤ len ∧ 40 + len ≤ ip.length ∧ beAt udp 2 2 = port ∧ beAt udp 4 2 = len
      ∧ beAt udp 6 2 ≠ 0 ∧ udpSum (beAt ip 8 16) (beAt ip 24 16) udp = 65535 then some (udp.drop 8)
  else none

/-- The payload of a frame that a site port accepts (R414): one with a good FCS that is addressed to its MAC and carries
IPv6 with UDP to its port and a valid checksum; none: it is discarded. -/
def frameIn (mac port : Nat) (bs : List Byte) : Option (List Byte) :=
  let body := bs.take (bs.length - 4)
  let rest := if beAt body 12 2 = 0x8100 then body.drop 16 else body.drop 12
  if bs.length < 66 ∨ fcs body ≠ bs.drop (bs.length - 4) ∨ beAt body 0 6 ≠ mac ∨ beAt rest 0 2 ≠ 0x86DD then none
  else udpIn port (rest.drop 2)

end Sys2Proof.Machine
end

