-- ==== Sys2Proof/Machine/Matrix.lean ====
section
/-! DEFINITION. The matrix engine: checks, passes, sweeps, drains, anchors, repeats, pauses, pre-emption and faults
(R71 to R136). -/

namespace Sys2Proof.Machine

/-! ### What a descriptor asks for -/

/-- Does the pass run swapped (R84)? -/
def MatmulD.swap (d : MatmulD) : Bool := d.autoSwap && decide (d.n < 16) && decide (16 ≤ d.m)
def MatmulD.m' (d : MatmulD) : Nat := if d.swap then d.n else d.m
def MatmulD.n' (d : MatmulD) : Nat := if d.swap then d.m else d.n

/-- Does the pass run in the shallow shape (R83)? -/
def MatmulD.shallow (d : MatmulD) : Bool := d.shape == 2 || (d.shape == 0 && decide (d.m' ≤ 4))

/-- FIXED mode: both operands unscaled FP8 and no SPLIT6 (R88). -/
def MatmulD.fixed (d : MatmulD) : Bool := decide (d.aFmt ≤ 1) && decide (d.bFmt ≤ 1) && !d.split6

/-- H: HEADROOM, 0 selecting 24 (R111). -/
def MatmulD.h (d : MatmulD) : Nat := if d.headroom = 0 then 24 else d.headroom

/-- K_e: K, or 6K under SPLIT6 (R113). -/
def MatmulD.ke (d : MatmulD) : Nat := if d.split6 then 6 * d.k else d.k

/-- The operand class of R72: FP8, 16-bit, FP32. -/
def opClass (f : Nat) : Nat := if f ≤ 1 ∨ f = 5 ∨ f = 6 then 0 else if f ≤ 3 then 1 else 2

/-- ACLK cycles per K-step (R72). -/
def MatmulD.c (d : MatmulD) : Nat := match opClass d.aFmt with | 0 => 1 | 1 => 2 | _ => 12

/-- Stored rows and columns of A and B. -/
def MatmulD.aDim (d : MatmulD) : Nat × Nat := if d.aT then (d.k, d.m) else (d.m, d.k)
def MatmulD.bDim (d : MatmulD) : Nat × Nat := if d.bT then (d.n, d.k) else (d.k, d.n)

/-- Bytes of a stored tile: a slot for RAW (R134). Log entry 27: DEDUCED. -/
def tileBytes (f : Nat) : Nat := if f = 8 then rawSlot else 4096 * fmtBytes f

def MatmulD.sa (d : MatmulD) : Nat := strideOf d.lda d.aDim.2
def MatmulD.sb (d : MatmulD) : Nat := strideOf d.ldb d.bDim.2
def MatmulD.sc (d : MatmulD) : Nat := strideOf d.ldc d.n
def MatmulD.sd (d : MatmulD) : Nat := strideOf d.ldd d.n

def MatmulD.aReg (d : MatmulD) : Region := tileRegion d.aAddr d.sa d.aDim.1 d.aDim.2 (tileBytes d.aFmt)
def MatmulD.bReg (d : MatmulD) : Region := tileRegion d.bAddr d.sb d.bDim.1 d.bDim.2 (tileBytes d.bFmt)
def MatmulD.cReg (d : MatmulD) : Region := if d.cEn then tileRegion d.cAddr d.sc d.m d.n (tileBytes d.cFmt) else []
def MatmulD.dReg (d : MatmulD) : Region := tileRegion d.dAddr d.sd d.m d.n (tileBytes d.dFmt)

/-- The length L of a sweep in cycles (R74, R90). -/
def MatmulD.len (d : MatmulD) : Nat :=
  let ck := d.c * d.k
  if d.shallow then
    ck + cdiv ck 256 + (if d.cEn then cdiv (4 * 1024 * fmtBytes d.cFmt) 1024 else 0)
  else ck

/-- The fill F (R74). -/
def MatmulD.fill (d : MatmulD) : Nat := if d.shallow then 258 else 78

/-- I = max(L, ⌈(L + F + 64) ÷ 2⌉) (R77). -/
def MatmulD.interval (d : MatmulD) : Nat := max d.len (cdiv (d.len + d.fill + 64) 2)

/-- Start cycles of consecutive sweeps of one pass from a first start: S_(j+1) of R77. -/
def MatmulD.sweepStart (d : MatmulD) (s0 : Nat) : Nat → Nat
  | 0 => s0
  | 1 => s0 + d.interval
  | j + 2 => max (d.sweepStart s0 (j + 1) + d.interval) (d.sweepStart s0 j + d.len + d.fill + 64)

/-- A stride smaller than dense (R95). -/
def badStride (ld cols : Nat) : Bool := ld != 0 && decide (ld < cdiv cols 64)

/-- What a pass reads of A and B, and of C. -/
def State.abReads (s : State) (ph : Nat) (d : MatmulD) : Region :=
  s.withScales ph d.aFmt d.aReg ++ s.withScales ph d.bFmt d.bReg
def State.cReads (s : State) (ph : Nat) (d : MatmulD) : Region := s.withScales ph d.cFmt d.cReg

/-- Headers of the RAW C tiles with an anchor other than −32 (R132). -/
def State.badRawC (s : State) (ph : Nat) (d : MatmulD) : Bool :=
  d.cReg.any fun x => (rawHdr (s.mem.read (spKey ph x.1) 64)).anchor != -32

/-- The scale window as a region (R172). -/
def State.scaleWin (s : State) (ph : Nat) : Region := [(s.scaleBase ph, 0x30000)]

/-- The failed checks of a MATMUL, lowest reason first (R95, R132, R172), made when it issues. An FP32 operand without
SPLIT6 has reason 0x12. Log entries 233: DEDUCED, 234: DESIGN CHOICE. -/
def State.matmulReasons (s : State) (ph : Nat) (d : MatmulD) : List Nat :=
  let blocks := (if isBlock d.aFmt then d.aReg else []) ++ (if isBlock d.bFmt then d.bReg else [])
    ++ (if d.cEn && isBlock d.cFmt then d.cReg else []) ++ (if isBlock d.dFmt then d.dReg else [])
  let buf := s.accBuf ph
  let all := d.aReg ++ d.bReg ++ d.cReg ++ d.dReg
  let on := fun (b : Bool) (n : Nat) => if b then [n] else []
  on (decide (d.aFmt > 6) || decide (d.bFmt > 6) || (d.cEn && (decide (d.cFmt > 8) || d.cFmt == 7)) || decide (d.dFmt > 8)
      || d.shape == 3 || decide (d.rnd > 4)) 0x10
  ++ on (d.shape == 2 && decide (d.m' > 4)) 0x11
  ++ on (opClass d.aFmt != opClass d.bFmt || (d.split6 && opClass d.aFmt != 2) || (!d.split6 && (opClass d.aFmt == 2 || opClass d.bFmt == 2))
      || (d.split6 && opClass d.bFmt != 2)) 0x12
  ++ on (d.aAddr % 4096 != 0 || d.bAddr % 4096 != 0 || (d.cEn && d.cAddr % 4096 != 0) || d.dAddr % 4096 != 0) 0x13
  ++ on (!inside all 0 spSize || badStride d.lda d.aDim.2 || badStride d.ldb d.bDim.2 || (d.cEn && badStride d.ldc d.n)
      || badStride d.ldd d.n) 0x14
  ++ on (!d.fixed && d.headroom != 0 && (decide (d.headroom < 8) || decide (d.headroom > 60))) 0x15
  ++ on ((d.cEn && d.cFmt == 8 && !inside d.cReg buf.1 buf.2) || (d.dFmt == 8 && !inside d.dReg buf.1 buf.2)) 0x16
  ++ on (!d.fixed && d.cEn && overlaps d.dReg d.cReg) 0x17
  ++ on (d.fixed && d.cEn && (!(d.cFmt == 0 || d.cFmt == 1 || d.cFmt == 3 || d.cFmt == 8) || (d.cFmt == 8 && s.badRawC ph d))) 0x18
  ++ on ((isBlock d.aFmt && d.aT) || (isBlock d.bFmt && !d.bT) || overlaps blocks (s.scaleWin ph)) 0x1A

/-! ### Elements -/

/-- Element k of row r of A, and element k of column c of B, as operands. -/
def State.aNum (s : State) (ph : Nat) (d : MatmulD) (r k : Nat) : Num :=
  if d.aT then s.num ph d.aFmt d.aAddr d.sa k r else s.num ph d.aFmt d.aAddr d.sa r k
def State.bNum (s : State) (ph : Nat) (d : MatmulD) (k c : Nat) : Num :=
  if d.bT then s.num ph d.bFmt d.bAddr d.sb c k else s.num ph d.bFmt d.bAddr d.sb k c

/-- ⌊log2|x|⌋ of a non-zero finite operand; under SPLIT6 of its part x0 (R111). -/
def Num.expo (split : Bool) : Num → Option Int
  | .fin n m e =>
    if m = 0 then none
    else if split then
      let x := rneSig 8 (-133) (dyOf n m e)
      if x.v = 0 then none else some ((x.v.natAbs.log2 : Int) + x.e)
    else some ((m.log2 : Int) + e)
  | _ => none

/-- The larger of an exponent so far and an operand's. -/
def maxExpo (split : Bool) (a : Int) (x : Num) : Int :=
  match x.expo split with
  | some e => max a e
  | none => a

/-- E_A over all of A and E_B over all of B (R111); −150 without a non-zero finite element. -/
def State.scanA (s : State) (ph : Nat) (d : MatmulD) : Int :=
  (List.range d.m).foldl (fun a r => (List.range d.k).foldl (fun a k => maxExpo d.split6 a (s.aNum ph d r k)) a) (-150)
def State.scanB (s : State) (ph : Nat) (d : MatmulD) : Int :=
  (List.range d.k).foldl (fun a k => (List.range d.n).foldl (fun a c => maxExpo d.split6 a (s.bNum ph d k c)) a) (-150)

/-- The RAW C tile that holds element (r, c), and the element's body index. -/
def State.cRaw (s : State) (ph : Nat) (d : MatmulD) (r c : Nat) : RawTile × Nat :=
  (s.rawAt ph (d.cAddr + ((r / 64) * d.sc + c / 64) * rawSlot), rawIdx (r % 64) (c % 64))

/-- E_C of R125: over the finite non-zero C elements, a RAW element by its value; −150 without C. -/
def State.scanC (s : State) (ph : Nat) (d : MatmulD) : Int :=
  if !d.cEn then -150 else
  (List.range d.m).foldl (fun a r => (List.range d.n).foldl (fun a c =>
    if d.cFmt = 8 then
      let (t, i) := s.cRaw ph d r c
      let v := t.v i
      if v = 0 ∨ t.nib i ≠ 0 then a else max a ((v.natAbs.log2 : Int) + t.hdr.anchor)
    else maxExpo false a (s.num ph d.cFmt d.cAddr d.sc r c)) a) (-150)

/-- ⌈log2(n + 1)⌉ -/
def clog2succ (n : Nat) : Nat := if n = 0 then 0 else n.log2 + 1

/-- The safe anchor a_f of R125. -/
def safeAnchor (sScan eC : Int) (h ke : Nat) : Int := max (sScan + 2) (eC + 1) + (max h (clog2succ ke) : Nat) - 126

/-! ### Accumulation -/

/-- The side bits a product sets (R128): INVD 8, NAN 4, NINF 2, PINF 1; none when both operands are finite. -/
def sideOf (a b : Num) : Option Nat :=
  match a, b with
  | .nan, _ => some 4
  | _, .nan => some 4
  | .inf x, .inf y => some (if x = y then 1 else 2)
  | .inf x, .fin n m _ => if m = 0 then some 12 else some (if x = n then 1 else 2)
  | .fin n m _, .inf y => if m = 0 then some 12 else some (if n = y then 1 else 2)
  | .fin .., .fin .. => none

/-- The products a pair of finite operands delivers: one, or the six part products of SPLIT6 (R57). -/
def products (split : Bool) (a b : Num) : List Dy :=
  match a, b with
  | .fin n m e, .fin n' m' e' =>
    let x := dyOf n m e
    let y := dyOf n' m' e'
    if split then
      match split3 x, split3 y with
      | [a0, a1, a2], [b0, b1, b2] => [a0.mul b0, a0.mul b1, a1.mul b0, a0.mul b2, a1.mul b1, a2.mul b0]
      | _, _ => []
    else [x.mul y]
  | _, _ => []

/-- One cell's work over a run of K-steps: accumulator, whether R112 changed a product, and its 0 × ∞ products as
their count and first K index. -/
structure CellRun where
  acc : Acc128
  inx : Bool
  invs : Nat
  firstK : Option Nat
deriving DecidableEq, Repr

/-- One K-step of a cell (R112, R123, R128). -/
def CellRun.step (d : MatmulD) (anchor : Int) (x : CellRun) (k : Nat) (a b : Num) : CellRun :=
  match sideOf a b with
  | some n =>
    { x with acc := { x.acc with side := x.acc.side ||| n },
             invs := x.invs + (if n = 12 then 1 else 0),
             firstK := if n = 12 && x.firstK.isNone then some k else x.firstK }
  | none =>
    (products d.split6 a b).foldl (fun x p =>
      let (v, ch) := rneMult p.v p.e anchor
      { x with acc := { x.acc with total := x.acc.total + v, prodOvf := x.acc.prodOvf || !fits128 v },
               inx := x.inx || ch }) x

/-- A cell at (r, c) of D over K-steps k0 to k1 − 1, strictly ascending (R116). -/
def State.cellRun (s : State) (ph : Nat) (d : MatmulD) (anchor : Int) (r c : Nat) (acc : Acc128) (k0 k1 : Nat) : CellRun :=
  (List.range (k1 - k0)).foldl (fun x i => x.step d anchor (k0 + i) (s.aNum ph d r (k0 + i)) (s.bNum ph d (k0 + i) c))
    ⟨acc, false, 0, none⟩

/-! ### Output tiles -/

/-- Width of an output tile in columns and rows (R79, R81). -/
def MatmulD.tw (d : MatmulD) : Nat := if d.shallow then 1024 else 256
def MatmulD.th (d : MatmulD) : Nat := if d.shallow then 4 else 16

/-- The number of sweeps: output tiles, row-major (R87). -/
def MatmulD.sweeps (d : MatmulD) : Nat := cdiv d.m' d.th * cdiv d.n' d.tw

/-- Cells of output tile j that are not masked: index within the tile, row and column of D, array, drain cycle of the
column, in row-major order of the tile. -/
structure TileCell where
  i : Nat
  r : Nat
  c : Nat
  array : Nat
  cycle : Nat
deriving DecidableEq, Repr

def MatmulD.cells (d : MatmulD) (j : Nat) : List TileCell :=
  let nc := cdiv d.n' d.tw
  let r0 := (j / nc) * d.th
  let c0 := (j % nc) * d.tw
  (List.range (d.th * d.tw)).filterMap fun i =>
    let r := r0 + i / d.tw
    let c := c0 + i % d.tw
    if r < d.m' ∧ c < d.n' then
      let w := d.tw / 4
      some ⟨i, if d.swap then c else r, if d.swap then r else c, (i % d.tw) / w,
        if d.shallow then (i % d.tw % w) / 4 else i % d.tw % w⟩
    else none

/-- A zero accumulator. -/
def Acc128.zero : Acc128 := ⟨0, false, 0⟩

/-- The C element added to an accumulator as it is read out (R89, R133): the accumulator, whether the conversion
changed the value, and what ERR gains. -/
def State.addC (s : State) (ph : Nat) (d : MatmulD) (anchor : Int) (r c : Nat) (x : Acc128) : Acc128 × Bool :=
  if !d.cEn then (x, false)
  else if d.cFmt = 8 then
    let (t, i) := s.cRaw ph d r c
    let (v, ch) := rneMult (t.v i) t.hdr.anchor anchor
    ({ total := x.total + v, prodOvf := x.prodOvf || !fits128 v, side := x.side ||| t.nib i }, ch)
  else match s.num ph d.cFmt d.cAddr d.sc r c with
    | .nan => ({ x with side := x.side ||| 4 }, false)
    | .inf n => ({ x with side := x.side ||| (if n then 2 else 1) }, false)
    | .fin n m e =>
      let v0 := dyOf n m e
      let (v, ch) := rneMult v0.v v0.e anchor
      ({ x with total := x.total + v, prodOvf := x.prodOvf || !fits128 v }, ch)

/-- A cell overflows (R123); one with NAN, PINF or NINF never counts. -/
def Acc128.overflows (x : Acc128) : Bool := x.side % 8 == 0 && (x.prodOvf || wrapOf x.total != 0)

/-- ⌈e × 2^k⌉ -/
def scaleUp (e : Nat) (k : Int) : Nat := if k ≥ 0 then e * 2 ^ k.toNat else cdiv e (2 ^ (-k).toNat)

/-- ERR of the tile that holds element (r, c) (R113, R133): 0 in a FIXED pass. -/
def State.tileErr (s : State) (ph : Nat) (d : MatmulD) (anchor : Int) (r c : Nat) : Nat :=
  let base := if d.fixed then 0 else d.ke
  let add := if !d.cEn ∨ d.fixed then 0
    else if d.cFmt = 8 then
      let h := (s.cRaw ph d r c).1.hdr
      scaleUp h.err (h.anchor - anchor) + (if h.anchor < anchor then 1 else 0)
    else 1
  min (base + add) (2 ^ 64 - 1)

/-- ERR of the RAW slot that holds element (r, c): the count of R113; a pass with K = 0 takes that of a RAW C unchanged
(R97). -/
def State.slotErr (s : State) (ph : Nat) (d : MatmulD) (anchor : Int) (r c : Nat) : Nat :=
  if d.k = 0 && d.cEn && d.cFmt == 8 then (s.cRaw ph d r c).1.hdr.err else s.tileErr ph d anchor r c

/-- The result cells of a RAW D written: values, nibbles, headers and CRCs of the slots touched, one slot for each 64 × 64
tile of D (R134, R135). Log entry 235: DEDUCED. -/
def State.putRawCells (s : State) (ph : Nat) (d : MatmulD) (anchor : Int) (xs : List (TileCell × Acc128)) : State :=
  let slot := fun (r c : Nat) => d.dAddr + ((r / 64) * d.sd + c / 64) * rawSlot
  let s := xs.foldl (fun s x =>
    let i := rawIdx (x.1.r % 64) (x.1.c % 64)
    let b := slot x.1.r x.1.c
    let s := s.sput ph (b + 0x1000 + 16 * i) (leBytes 16 (ofSint 128 x.2.total))
    let old := (s.mem.byte (spKey ph (b + 0x400 + i / 2))).toNat
    let nb := if i % 2 = 0 then old / 16 * 16 + x.2.side else old % 16 + 16 * x.2.side
    s.sput ph (b + 0x400 + i / 2) [BitVec.ofNat 8 nb]) s
  ((xs.map fun x => (x.1.r / 64, x.1.c / 64)).eraseDups).foldl (fun s t =>
    let b := slot (t.1 * 64) (t.2 * 64)
    let side := s.mem.read (spKey ph (b + 0x400)) 2048
    let body := s.mem.read (spKey ph (b + 0x1000)) 65536
    let live := (List.range 4096).any fun e =>
      let r := e / 64
      let c := e % 64
      decide (t.1 * 64 + r < d.m ∧ t.2 * 64 + c < d.n) &&
        (let i := rawIdx r c
         let x := (side.getD (i / 2) 0).toNat
         (if i % 2 = 0 then x % 16 else x / 16) != 0)
    let h : RawHdr := ⟨0, live, false, !d.fixed, anchor, s.slotErr ph d anchor (t.1 * 64) (t.2 * 64), 0, 0, t.1, t.2, 0⟩
    s.sput ph b (h.bytes56 ++ leBytes 8 (rawCrc h side body))) s

/-- The sink of a pass's result (R54). -/
def MatmulD.sink (d : MatmulD) : Sink := ⟨d.dFmt, d.rnd, d.pol, srKey d.step d.tensor d.stream, d.n, d.dAddr, d.sd⟩

/-- The bytes a RAW result covers: elements, their nibbles and the headers. -/
def MatmulD.rawSpans (d : MatmulD) (xs : List (TileCell × Acc128)) : Region :=
  xs.flatMap fun x =>
    let b := d.dAddr + ((x.1.r / 64) * d.sd + x.1.c / 64) * rawSlot
    let i := rawIdx (x.1.r % 64) (x.1.c % 64)
    [(b, 64), (b + 0x400 + i / 2, 1), (b + 0x1000 + 16 * i, 16)]

/-- The drain of output tile j with its final accumulators: results written up to an overflowing column, the flags,
whether it overflowed, which a FIXED pass never does (R110), and whether a partial write met a failed word (R75, R124,
R129, R166). A result takes V, not the wrap count (R109). Log entry 29: DEDUCED. -/
def State.drain (s : State) (ph : Nat) (d : MatmulD) (anchor : Int) (xs : List (TileCell × Acc128)) :
    State × Nat × Bool × Bool :=
  let ovs := if d.fixed then [] else xs.filterMap fun x => if x.2.overflows then some x.1.cycle else none
  let firstOver := ovs.foldl (fun (a : Option Nat) c => some (match a with | some b => min b c | none => c)) none
  -- written before the overflow was found: read at least 4 cycles earlier (R75)
  let ok := fun (x : TileCell × Acc128) => match firstOver with
    | none => true
    | some cc => decide (x.1.cycle + 4 ≤ cc)
  let mk := fun (x : TileCell × Acc128) => let v := rawValue (sint 128 (ofSint 128 x.2.total)) x.2.side anchor; Cell.mk x.1.r x.1.c v.1 v.2
  if d.dFmt = 8 then
    let sp := d.rawSpans (xs.filter ok)
    let cor := s.mergeFails ph sp
    let s := (s.freshCode ph sp).putRawCells ph d anchor (xs.filter ok)
    (s, 0, !ovs.isEmpty, cor)
  else if isBlock d.dFmt then
    let late := (xs.filter fun x => !ok x).map fun x => (x.1.r, x.1.c / 32)
    let keep := xs.filter fun x => !late.contains (x.1.r, x.1.c / 32)
    let cor := s.mergeFails ph (s.spans ph d.sink (keep.map mk))
    let (s, fl) := s.deliver ph d.sink (keep.map mk)
    (s, fl, !ovs.isEmpty, cor)
  else
    let cor := s.mergeFails ph (s.spans ph d.sink ((xs.filter ok).map mk))
    let (s, fl) := s.deliver ph d.sink ((xs.filter ok).map mk)
    (s, fl, !ovs.isEmpty, cor)

/-! ### The engine's states (R106) -/

def State.mx (s : State) (ph : Nat) : Mx := (s.core ph).mx
def State.setMx (s : State) (ph : Nat) (m : Mx) : State := s.modCore ph fun c => { c with mx := m }
def State.modMx (s : State) (ph : Nat) (f : Mx → Mx) : State := s.setMx ph (f (s.mx ph))

/-- A pass of the engine changed: the one that drains behind the current one, or the current one. -/
def State.setPass (s : State) (ph : Nat) (p : Pass) : State :=
  let m := s.mx ph
  s.setMx ph (if m.tail.map (·.idx) = some p.idx then { m with tail := some p } else { m with pass := some p })

/-- The oldest pass in the arrays. -/
def Mx.oldest (m : Mx) : Option Pass := match m.tail with | some t => some t | none => m.pass

/-- Flags of a pass raised in MX_FLAGS and kept for its record (R65, R67). -/
def State.passFlags (s : State) (ph : Nat) (p : Pass) (fl : Nat) : State × Pass :=
  (s.raiseFlags (pCore ph + 0x100) fl, { p with flags := p.flags ||| fl })

/-- Does the save area lie inside the accumulator buffer (R108, R173)? -/
def State.saveOk (s : State) (ph : Nat) : Bool :=
  let b := s.fget (pCore ph) F.MX_SAVE_BASE_BASE * 4096
  inside [(b, 69632)] (s.accBuf ph).1 (s.accBuf ph).2

/-- A header with VALID = 0 and no pass. -/
def SaveHdr.empty : SaveHdr := ⟨false, false, none, 0, [], []⟩

/-- A pass at its start. Log entry 23: DEDUCED. -/
def Pass.start (idx : Nat) (d : MatmulD) (phase : PassPhase) (anchor : Int) (attempts : Nat) : Pass :=
  ⟨idx, d.swap, d.shallow, phase, anchor, attempts, 0, false, 0, 0, [], false, false, 0, -150, -150, 0, none⟩

/-- The recorded exponent sum of a TENSOR (R118). -/
def State.anchorHit (s : State) (ph tensor : Nat) : Option Int :=
  match (s.core ph).anchors.find? fun a => a.1 == tensor % 256 with
  | some a => if a.2.tag = tensor / 256 then some a.2.sum else none
  | none => none

/-- A 4 KiB save header with VALID = 0 or RESTART = 1 written to the save area (R106); its layout is not stated. Log entry
26: DESIGN CHOICE. -/
def State.putSaveHdr (s : State) (ph : Nat) : State :=
  let (free, s) := s.drawBytes 4096
  s.sput ph (s.fget (pCore ph) F.MX_SAVE_BASE_BASE * 4096) free

/-- SAVED with VALID = 0: PREEMPT found the engine IDLE (R100, R106). -/
def State.savedEmpty (s : State) (ph : Nat) : State :=
  let s := s.putSaveHdr ph
  s.setMx ph { s.mx ph with st := .saved, hdr := some SaveHdr.empty, want := false }

/-- The pass that begins for a descriptor (R97, R117). -/
def State.beginPass (s : State) (ph idx : Nat) (d : MatmulD) : State :=
  let p :=
    if d.k = 0 then Pass.start idx d .sweeps (-32) 0
    else if d.fixed then Pass.start idx d .sweeps (-32) 1
    else if d.hintEn then Pass.start idx d .sweeps d.hint 1
    else match s.anchorHit ph d.tensor with
      | some r => Pass.start idx d .sweeps (r + d.h - 125) 1
      | none => Pass.start idx d .scan 0 0
  s.setMx ph { s.mx ph with st := .issue, pass := some p }

/-- The engine, IDLE, takes the next MATMUL of its queue (R149). With PREEMPT still 1 it enters SAVED with VALID = 0
(R100). -/
def State.mxNext (s : State) (ph : Nat) : State :=
  let m := s.mx ph
  if m.st ≠ .idle then s
  else if s.fget (pCore ph) F.MX_CTRL_PREEMPT = 1 && !m.saveErr then s.savedEmpty ph
  else match s.queue ph tMATMUL with
    | [] => s
    | e :: _ => s.beginPass ph e.idx (matmulD e.words)

/-- The record of a pass (R158): attempts and final anchor, both 0 for a pass that ran no sweep. -/
def Pass.record (p : Pass) (status : Nat) : Rec :=
  ⟨status, p.flags, 0, p.attempts % 256 * 65536 + (if p.attempts = 0 then 0 else ofSint 16 p.anchor), none⟩

/-- MX_INV_COUNT and the capture of the first 0 × ∞ product (R131). -/
def State.invCapture (s : State) (ph n : Nat) (p : Pass) : State :=
  let s := if p.invs = 0 then s else s.finc (pCore ph) F.MX_INV_COUNT_COUNT p.invs
  match p.firstInv with
  | some (k, r, c, a) =>
    if s.fget (pCore ph) F.MX_FIRST_INV0_VALID = 1 then s else
    ((s.setReg (pCore ph + 0x164) (BitVec.ofNat 32 (2 ^ 31 + a * 2 ^ 26 + n * 65536 + r))).setReg
      (pCore ph + 0x168) (BitVec.ofNat 32 c)).setReg (pCore ph + 0x16C) (BitVec.ofNat 32 k)
  | none => s

/-- What a completing pass leaves in the registers whatever its status: the 0 × ∞ products of its final attempt (R131), and
in MX_ANCHOR the anchor and S_obs of an ANCHORED pass that made an attempt (R127). -/
def State.passRegs (s : State) (ph : Nat) (d : MatmulD) (p : Pass) : State :=
  let s := s.invCapture ph ((s.logical ph).getD 0) p
  if d.fixed ∨ p.attempts = 0 then s
  else s.setReg (pCore ph + 0x15C) (BitVec.ofNat 32 (ofSint 16 (p.eA + p.eB) * 65536 + ofSint 16 p.anchor))

/-- The engine without a pass that has ended: the pass behind or before it goes on, or the engine is IDLE. -/
def Mx.without (m : Mx) (idx : Nat) : Mx :=
  if m.tail.map (·.idx) = some idx then { m with tail := none }
  else match m.tail with
    | some q => { m with pass := some q, tail := none }
    | none => { m with st := .idle, pass := none }

/-- The pass ends with a status: its record is written, and the engine goes on with another pass, or is IDLE and takes the
next queued MATMUL. Log entry 22: DEDUCED. -/
def State.endPass (s : State) (ph : Nat) (p : Pass) (status : Nat) : State :=
  match s.infl ph p.idx with
  | none => s
  | some e =>
    let s := (s.passRegs ph (matmulD e.words) p).complete ph e (p.record status)
    (s.setMx ph ((s.mx ph).without p.idx)).mxNext ph

/-- A pass before its first sweep of an attempt. -/
def Pass.fresh (p : Pass) : Pass :=
  { p with next := 0, active := [], ended := false, again := false, eA := -150, eB := -150, invs := 0, firstInv := none }

/-- The pass in the engine alone from sweep 0: a pass begun after it goes back to the queue (R124). -/
def Mx.alone (m : Mx) (p : Pass) : Mx := { m with st := .issue, hdr := none, pass := some p, tail := none }

/-- The pass is restarted from sweep 0 with the anchor of its attempt, or completes as CORRUPT at RESTART_MAX (R103). -/
def State.restartPass (s : State) (ph : Nat) (p : Pass) : State :=
  if p.restarts ≥ s.fget (pCore ph) F.MX_CTRL_RESTART_MAX then s.endPass ph p 7
  else
    let s := s.finc (pCore ph) F.MX_EVENTS_RESTARTS
    s.setMx ph ((s.mx ph).alone { p.fresh with restarts := p.restarts + 1 })

/-- A sweep injects: the pass is in its sweeps, and the last one started is not known to have been injected whole. -/
def Pass.injecting (p : Pass) : Bool := decide (p.phase = .sweeps) && !p.active.isEmpty && !p.ended

/-! ### Meanings -/

/-- R87, R95, R96: a MATMUL issues; a failed check refuses it, M or N of 0 completes it at once, else it joins the engine's
queue. Log entries 234: DESIGN CHOICE, 236: DEDUCED. -/
def matmul (n : Nat) (s : State) : State :=
  s.onCore n fun s ph =>
    match s.issuable ph fun w => hType w == tMATMUL with
    | none => s
    | some f =>
      let d := matmulD f.words
      match s.matmulReasons ph d with
      | r :: _ => s.issueDone ph f (Rec.refused r)
      | [] => if d.m = 0 ∨ d.n = 0 then s.issueDone ph f (Rec.of 0) else (s.issue ph f .queued).mxNext ph

/-- R121, R125: a max-exponent scan ends and the pass starts its attempt at the resulting anchor. -/
def maxExponentScan (n : Nat) (s : State) : State :=
  s.onCore n fun s ph =>
    match (s.mx ph).pass with
    | none => s
    | some p =>
      if (s.mx ph).st ≠ .issue ∨ p.phase ≠ .scan then s else
      match s.infl ph p.idx with
      | none => s
      | some e =>
        let d := matmulD e.words
        if s.spLocked ph (s.abReads ph d ++ s.cReads ph d) then s else
        let (s, ue) := s.touch ph (s.abReads ph d ++ (if d.cFmt = 8 && !p.fallback then [] else s.cReads ph d))
        if ue then s.endPass ph p 7 else
        let sum := s.scanA ph d + s.scanB ph d
        let a := if p.fallback then safeAnchor sum (s.scanC ph d) d.h d.ke else sum + d.h - 125
        s.setPass ph { p.fresh with phase := .sweeps, anchor := a, attempts := p.attempts + 1 }

/-- The cells of memory in a region of a core's scratchpad. -/
def State.cellsIn (s : State) (ph : Nat) (r : Region) : List Host.Cell :=
  s.mem.cells.filter fun c => r.any fun x => decide (spKey ph x.1 ≤ c.1 ∧ c.1 < spKey ph x.1 + x.2)

/-- The state as the feeder saw A and B of a sweep (R92). -/
def State.fed (s : State) (w : Sweep) : State := { s with mem := { s.mem with cells := w.ops } }

/-- The next sweep of a pass starts: the feeder reads its A and B (R80, R92, R104). A pause requested earlier takes effect
at this K-step boundary (R99); a pre-emption request waiting begins (R100). Log entry 25: DESIGN CHOICE. -/
def State.startSweep (s : State) (ph : Nat) (p : Pass) (d : MatmulD) : State :=
  if s.spLocked ph (s.abReads ph d) then s
  else
    let ops := s.cellsIn ph (s.abReads ph d)
    let (s, ue) := s.touch ph (s.abReads ph d)
    if ue then s.endPass ph p 7
    else
      let m := s.mx ph
      (s.setPass ph { p with next := p.next + 1, active := p.active ++ [⟨p.next, 0, [], ops⟩] }).modMx ph fun x =>
        { x with want := false, st := if m.want then .saving else if m.pause then .paused else .issue }

/-- The MATMUL queued behind the pass (R149). -/
def State.nextMatmul (s : State) (ph idx : Nat) : Option Infl := (s.queue ph tMATMUL).find? fun e => e.idx != idx

/-- Every sweep of the pass has been started: its last one is injected whole, and the first sweep of the next MATMUL may
start while it drains (R77, R78, R149). Log entry 24: DEDUCED. -/
def State.startNext (s : State) (ph : Nat) (p : Pass) : State :=
  let s := s.setPass ph { p with ended := true }
  let m := s.mx ph
  if m.tail.isSome || m.want then s
  else match s.nextMatmul ph p.idx with
    | none => s
    | some e =>
      let d := matmulD e.words
      if d.k = 0 then s
      else
        let s := s.setMx ph { m with pass := none, tail := m.pass }
        let s := s.beginPass ph e.idx d
        match (s.mx ph).pass with
        | some q => if q.phase = .sweeps then s.startSweep ph q d else s
        | none => s

/-- R77: the next sweep starts in the accumulator that the sweep before the previous one has left; after the last sweep of
a MATMUL, the first one of the next. -/
def sweepStart (n : Nat) (s : State) : State :=
  s.onCore n fun s ph =>
    let m := s.mx ph
    match m.pass with
    | none => s
    | some p =>
      match s.infl ph p.idx with
      | none => s
      | some e =>
        let d := matmulD e.words
        let busy := p.active.length + (match m.tail with | some t => t.active.length | none => 0)
        if m.st ≠ .issue ∨ p.phase ≠ .sweeps ∨ p.again ∨ d.k = 0 ∨ busy ≥ 2 ∨ m.tail.any (·.again) then s
        else if p.next < d.sweeps then s.startSweep ph p d
        else s.startNext ph p

/-- The final accumulators of a sweep over all its K-steps, C added, with what the cells raised. The products come of what
the feeder read; C is read as the value is read out (R89, R92). -/
def State.finishSweep (s : State) (ph : Nat) (d : MatmulD) (anchor : Int) (w : Sweep) :
    List (TileCell × Acc128) × Bool × List (Nat × Nat × Nat × Nat × Nat) :=
  let runs := (d.cells w.j).map fun t =>
    (t, (s.fed w).cellRun ph d anchor t.r t.c (w.acc.getD t.i Acc128.zero) w.k0 d.k)
  let fin := runs.map fun x => let y := s.addC ph d anchor x.1.r x.1.c x.2.acc; (x.1, y.1, x.2.inx || y.2)
  (fin.map fun x => (x.1, x.2.1), fin.any fun x => x.2.2,
    runs.filterMap fun x => match x.2.firstK with
      | some k => some (k, x.1.r, x.1.c, x.1.array, x.2.invs)
      | none => none)

/-- The earlier of two captures of R131: lowest K index, then row, then column. -/
def firstOf (a : Option (Nat × Nat × Nat × Nat)) (b : Nat × Nat × Nat × Nat) : Option (Nat × Nat × Nat × Nat) :=
  match a with
  | none => some b
  | some x =>
    if b.1 < x.1 ∨ (b.1 = x.1 ∧ (b.2.1 < x.2.1 ∨ (b.2.1 = x.2.1 ∧ b.2.2.1 < x.2.2.1))) then some b else some x

/-- E_A and E_B over the elements that a sweep streamed up to K-step k1 (R119). -/
def State.observed (s : State) (ph : Nat) (d : MatmulD) (w : Sweep) (k1 : Nat) (p : Pass) : Int × Int :=
  let s := s.fed w
  let cs := d.cells w.j
  let ks := (List.range (k1 - w.k0)).map (· + w.k0)
  let rows := (cs.map (·.r)).eraseDups
  let cols := (cs.map (·.c)).eraseDups
  (rows.foldl (fun a r => ks.foldl (fun a k => maxExpo d.split6 a (s.aNum ph d r k)) a) p.eA,
   cols.foldl (fun a c => ks.foldl (fun a k => maxExpo d.split6 a (s.bNum ph d k c)) a) p.eB)

/-- The read of RAW C tiles whose CRC fails (R136). -/
def State.rawCBad (s : State) (ph : Nat) (d : MatmulD) (j : Nat) : Bool :=
  d.cEn && d.cFmt == 8 &&
    ((((d.cells j).map fun t => (t.r / 64, t.c / 64)).eraseDups).any fun t => !(s.cRaw ph d (t.1 * 64) (t.2 * 64)).1.ok)

/-- The accumulators of output tile j in a pass with K = 0 (R97): zero, or C at an anchor. -/
def State.zeroCells (s : State) (ph : Nat) (d : MatmulD) (a : Int) (cs : List TileCell) : List (TileCell × Acc128) :=
  cs.map fun t => (t, (s.addC ph d a t.r t.c Acc128.zero).1)

/-- Cells delivered, with the flags and whether a partial write met a failed word (R166). -/
def State.deliverMerged (s : State) (ph : Nat) (k : Sink) (xs : List Cell) : State × Nat × Bool :=
  let cor := s.mergeFails ph (s.spans ph k xs)
  let r := s.deliver ph k xs
  (r.1, r.2, cor)

/-- RAW cells written, and whether a partial write met a failed word (R166). -/
def State.putRawMerged (s : State) (ph : Nat) (d : MatmulD) (a : Int) (xs : List (TileCell × Acc128)) : State × Bool :=
  ((s.freshCode ph (d.rawSpans xs)).putRawCells ph d a xs, s.mergeFails ph (d.rawSpans xs))

/-- Output tile j of a pass with K = 0 written (R97): its flags, and whether a partial write met a failed word. -/
def State.zeroDrain (s : State) (ph : Nat) (d : MatmulD) (j : Nat) : State × Nat × Bool :=
  let cs := d.cells j
  if d.dFmt = 8 then
    if d.cEn && d.cFmt == 8 then
      -- value, anchor, ERR and side plane of each C tile, unchanged
      ((cs.map fun t => (t.r / 64, t.c / 64)).eraseDups).foldl (fun (x : State × Nat × Bool) q =>
        let a := (x.1.cRaw ph d (q.1 * 64) (q.2 * 64)).1.hdr.anchor
        let r := x.1.putRawMerged ph d a (x.1.zeroCells ph d a (cs.filter fun t => t.r / 64 == q.1 && t.c / 64 == q.2))
        (r.1, 0, x.2.2 || r.2)) (s, 0, false)
    else
      let a : Int := if !d.cEn ∨ d.fixed then -32 else safeAnchor (-300) (s.scanC ph d) d.h 0
      let r := s.putRawMerged ph d a (s.zeroCells ph d a cs)
      (r.1, 0, r.2)
  else
    s.deliverMerged ph d.sink (cs.map fun t =>
      if !d.cEn then Cell.mk t.r t.c (XVal.ofInt 0 0) false
      else if d.cFmt = 8 then
        let (rt, i) := s.cRaw ph d t.r t.c
        let v := rawValue (rt.v i) (rt.nib i) rt.hdr.anchor
        Cell.mk t.r t.c v.1 v.2
      else Cell.mk t.r t.c ((s.num ph d.cFmt d.cAddr d.sc t.r t.c).toX.posZero) false)

/-- A drain in SAVING or PAUSED of the only sweep shows that it had been injected whole when PREEMPT or the pause came:
the request stays pending (R99, R100). Log entry 237: DESIGN CHOICE. -/
def Mx.drainsOn (m : Mx) (p : Pass) : Mx :=
  if m.tail = none ∧ p.active.length = 1 ∧ m.hdr = none then
    match m.st with
    | .saving => { m with st := .issue, want := !m.release, release := false }
    | .paused => { m with st := .issue }
    | _ => m
  else m

/-- The oldest sweep of a pass drains. -/
def State.drainSweep (s : State) (ph : Nat) (p : Pass) (d : MatmulD) (w : Sweep) (rest : List Sweep) : State :=
  let (s, ue) := s.touch ph (s.cReads ph d)
  if ue ∨ s.rawCBad ph d w.j then s.endPass ph p 7 else
  let (xs, inx, invs) := s.finishSweep ph d p.anchor w
  let obs := s.observed ph d w d.k p
  let first := invs.foldl (fun a x => firstOf a (x.1, x.2.1, x.2.2.1, x.2.2.2.1)) p.firstInv
  let p := { p with active := rest, ended := p.ended || (rest.isEmpty && decide (d.sweeps ≤ p.next)), eA := obs.1, eB := obs.2,
                    invs := invs.foldl (fun a x => a + x.2.2.2.2) p.invs, firstInv := first }
  let (s, fl, ovf, cor) := s.drain ph d p.anchor xs
  let (s, p) := s.passFlags ph p (if d.dFmt = 8 then 0 else
    fl ||| (if inx && !d.fixed then flINX else 0) ||| (if invs.isEmpty then 0 else flINV))
  if cor then s.endPass ph p 7 else s.setPass ph { p with again := ovf }

/-- R75, R97, R123, R124: the oldest sweep drains: C is added, overflow tested, results rounded and written. Log entries
44: DEDUCED, 237: DESIGN CHOICE. -/
def sweepDrain (n : Nat) (s : State) : State :=
  s.onCore n fun s ph =>
    let m := s.mx ph
    match m.oldest with
    | none => s
    | some p =>
      match s.infl ph p.idx with
      | none => s
      | some e =>
        let d := matmulD e.words
        if m.st = .idle ∨ m.st = .saved ∨ m.st = .restoring ∨ (m.st = .saving ∧ m.hdr.isSome) ∨ p.again ∨ p.phase ≠ .sweeps ∨
            s.spLocked ph (s.cReads ph d ++ d.dReg) then s
        else if d.k = 0 then
          if p.next ≥ d.sweeps then s else
          let (s, ue) := s.touch ph (s.cReads ph d)
          if ue ∨ s.rawCBad ph d p.next then s.endPass ph p 7 else
          let (s, fl, cor) := s.zeroDrain ph d p.next
          let (s, p) := s.passFlags ph p fl
          if cor then s.endPass ph p 7 else s.setPass ph { p with next := p.next + 1 }
        else match p.active with
          | [] => s
          | w :: rest => (s.setMx ph (m.drainsOn p)).drainSweep ph p d w rest

/-- R124, R125: the next attempt starts from sweep 0 with the anchor raised by 16, or the fallback's scan begins. A MATMUL
begun behind the pass goes back to the queue. Log entry 24: DEDUCED. -/
def attemptRepeat (n : Nat) (s : State) : State :=
  s.onCore n fun s ph =>
    let m := s.mx ph
    match m.oldest with
    | none => s
    | some p =>
      if !p.again ∨ !(m.st = .issue ∨ (m.st = .saving ∧ m.tail.isSome)) then s
      else
        let m' := { m with want := m.want || (decide (m.st = MxState.saving) && !m.release), release := false }
        if p.repeats < s.fget (pCore ph) F.MX_ACFG_REPEAT_MAX then
          (s.finc (pCore ph) F.MX_REPEATS_REPEATS).setMx ph (m'.alone
            { p.fresh with repeats := p.repeats + 1, anchor := p.anchor + 16, attempts := p.attempts + 1 })
        else
          (s.finc (pCore ph) F.MX_REPEATS_FALLBACKS).setMx ph (m'.alone
            { p.fresh with fallback := true, phase := .scan, eA := p.eA, eB := p.eB, invs := p.invs, firstInv := p.firstInv })

/-- The largest ERR among the tiles of D (R114). -/
def State.maxErr (s : State) (ph : Nat) (d : MatmulD) (a : Int) : Nat :=
  (List.range (cdiv d.m 64 * cdiv d.n 64)).foldl (fun x i =>
    max x (s.tileErr ph d a (i / cdiv d.n 64 * 64) (i % cdiv d.n 64 * 64))) 0

/-- The anchor-table entry of TENSOR written with S_obs (R119). -/
def State.putAnchor (s : State) (ph tensor : Nat) (sum : Int) : State :=
  s.modCore ph fun c => { c with anchors := Tab.insert (tensor % 256) ⟨tensor / 256, sum⟩ c.anchors }

/-- The status of a pass whose last result is written (R114, R125). -/
def State.passStatus (s : State) (ph : Nat) (d : MatmulD) (p : Pass) : Nat :=
  if d.k = 0 ∨ d.fixed then 0 else if p.fallback then 0xE else if s.maxErr ph d p.anchor > 2 ^ d.h then 0xD else 0

/-- R93, R114, R119, R127, R131: the last result is written and the pass completes. -/
def passComplete (n : Nat) (s : State) : State :=
  s.onCore n fun s ph =>
    let m := s.mx ph
    match m.oldest with
    | none => s
    | some p =>
      match s.infl ph p.idx with
      | none => s
      | some e =>
        let d := matmulD e.words
        if !(m.st = .issue ∨ m.tail.isSome) ∨ p.phase ≠ .sweeps ∨ p.again ∨ p.next < d.sweeps ∨ !p.active.isEmpty then s
        else if d.k = 0 ∨ d.fixed then s.endPass ph p 0
        else (s.putAnchor ph d.tensor (p.eA + p.eB)).endPass ph p (s.passStatus ph d p)

/-- R99: an issue pause takes effect at the next K-step boundary. -/
def issuePause (n : Nat) (s : State) : State :=
  s.onCore n fun s ph =>
    let m := s.mx ph
    match m.st, m.pass with
    | .issue, some p => s.setMx ph { m with pause := true, st := if p.injecting then .paused else .issue }
    | .restoring, _ => s.setMx ph { m with pause := true }
    | _, _ => s

/-- R99: the pause ends and injection resumes at the held k. -/
def pauseEnd (n : Nat) (s : State) : State :=
  s.onCore n fun s ph =>
    let m := s.mx ph
    s.setMx ph { m with pause := false, st := if m.st = .paused then .issue else m.st }

/-- R100, R106, R108: PREEMPT changes to 1. -/
def State.preemptSet (s : State) (ph : Nat) : State :=
  let m := s.mx ph
  if !s.saveOk ph then s.setMx ph { m with saveErr := true }
  else match m.st, m.pass with
    | .idle, _ => s.savedEmpty ph
    | .issue, some p => s.setMx ph (if p.injecting then { m with st := .saving } else { m with want := true })
    | .paused, _ => s.setMx ph { m with st := .saving }
    | .saving, _ => s.setMx ph { m with release := false }
    | _, _ => s

/-- R102, R106: PREEMPT changes to 0. -/
def State.preemptClear (s : State) (ph : Nat) : State :=
  let m := { s.mx ph with saveErr := false, want := false }
  let s := s.setMx ph m
  match m.st, m.hdr with
  | .saving, _ => s.setMx ph { m with release := true }
  | .saved, some h =>
    if h.restart then
      match m.pass with
      | some p => s.restartPass ph p
      | none => (s.setMx ph { m with st := .idle, hdr := none }).mxNext ph
    else if h.valid then s.setMx ph { m with st := .restoring }
    else (s.setMx ph { m with st := .idle, hdr := none }).mxNext ph
  | _, _ => s

/-- A write that changes MX_CTRL.PREEMPT. -/
def State.preemptWrite (s : State) (ph : Nat) (old new : Nat) : State :=
  if old = 0 ∧ new = 1 then s.preemptSet ph
  else if old = 1 ∧ new = 0 then s.preemptClear ph
  else if new = 0 then s.setMx ph { s.mx ph with saveErr := false }
  else s

/-- A save that a fault or a write error ends: a header with RESTART = 1, and SAVED, which a PREEMPT already back at 0
leaves (R106). -/
def State.saveFails (s : State) (ph : Nat) : State :=
  let s := s.putSaveHdr ph
  let m := s.mx ph
  let s := s.setMx ph { m with st := .saved, release := false, hdr := some { SaveHdr.empty with restart := true } }
  if m.release then s.preemptClear ph else s

/-- The accumulators of the sweep that a save stops at ks, and what its cells raised (R101). -/
def State.stopSweep (s : State) (ph : Nat) (p : Pass) (d : MatmulD) (w : Sweep) (ks : Nat) : State × Pass × List Acc128 :=
  let cs := (d.cells w.j).map fun t => (t, (s.fed w).cellRun ph d p.anchor t.r t.c (w.acc.getD t.i Acc128.zero) w.k0 ks)
  let accs := (List.range 4096).map fun i =>
    match cs.find? fun x => x.1.i == i with
    | some x => x.2.acc
    | none => Acc128.zero
  let inx := !d.fixed && d.dFmt != 8 && cs.any fun x => x.2.inx
  let inv := d.dFmt != 8 && cs.any fun x => decide (0 < x.2.invs)
  let obs := s.observed ph d w ks p
  let first := cs.foldl (fun a x => match x.2.firstK with
    | some k => firstOf a (k, x.1.r, x.1.c, x.1.array)
    | none => a) p.firstInv
  let (s, p) := s.passFlags ph p ((if inx then flINX else 0) ||| (if inv then flINV else 0))
  (s, { p with active := [⟨w.j, ks, accs, []⟩], eA := obs.1, eB := obs.2, firstInv := first,
               invs := cs.foldl (fun a x => a + x.2.invs) p.invs }, accs)

/-- R100, R101: at a K-step boundary the injection stops at ks, every other drain has ended, and the accumulators are
written to the save area; not ok: a write of the save fails (R106). The header's layout is not stated: its 4 KiB are
free bytes. Log entry 26: DESIGN CHOICE. -/
def preemptSave (n : Nat) (v : SaveIn) (s : State) : State :=
  let ks := v.ks
  s.onCore n fun s ph =>
    let m := s.mx ph
    match m.st, m.pass with
    | .saving, some p =>
      match s.infl ph p.idx, p.active with
      | some e, [w] =>
        let d := matmulD e.words
        if ks < w.k0 ∨ ks > d.k ∨ m.tail.isSome ∨ m.hdr.isSome then s else
        let (s, p, accs) := s.stopSweep ph p d w ks
        let s := s.setPass ph p
        if !v.ok then s.saveFails ph
        else
          let s := s.putSaveHdr ph
          let s := s.sput ph (s.fget (pCore ph) F.MX_SAVE_BASE_BASE * 4096 + 4096) (accs.flatMap fun a => leBytes 16 (ofSint 128 a.total))
          s.modMx ph fun m => { m with
            hdr := some ⟨true, false, some p, ks, (accs.map fun a => wrapOf a.total), (accs.map fun a => (a.side, a.prodOvf))⟩ }
      | _, _ => s
    | _, _ => s

/-- R106: the save header is written; STATE becomes SAVED, PREEMPTS rises; a PREEMPT already back at 0 leaves SAVED. -/
def saveComplete (n : Nat) (s : State) : State :=
  s.onCore n fun s ph =>
    let m := s.mx ph
    match m.st, m.hdr with
    | .saving, some _ =>
      let s := (s.finc (pCore ph) F.MX_EVENTS_PREEMPTS).setMx ph { m with st := .saved, release := false }
      if m.release then s.preemptClear ph else s
    | _, _ => s

/-- The accumulators of the save area as the reload reads them (R101). -/
def State.savedAccs (s : State) (ph : Nat) (h : SaveHdr) : List Acc128 :=
  let base := s.fget (pCore ph) F.MX_SAVE_BASE_BASE * 4096
  (List.range 4096).map fun i =>
    let v := sint 128 (leNat (s.mem.read (spKey ph (base + 4096 + 16 * i)) 16))
    let sd := h.sides.getD i (0, false)
    Acc128.mk (v + h.wraps.getD i 0 * (2 ^ 128 : Nat)) sd.2 sd.1

/-- R102, R106: the reload ends and ks is injected, or held when a pause is requested; a failed read restarts the
pass. The feeder reads what is left of A and B. Log entries 25: DESIGN CHOICE, 26: DESIGN CHOICE. -/
def restoreComplete (n : Nat) (s : State) : State :=
  s.onCore n fun s ph =>
    let m := s.mx ph
    match m.st, m.pass, m.hdr with
    | .restoring, some p, some h =>
      match s.infl ph p.idx, p.active with
      | some e, [w] =>
        let d := matmulD e.words
        if s.spLocked ph (s.abReads ph d) then s else
        let base := s.fget (pCore ph) F.MX_SAVE_BASE_BASE * 4096
        let (s, bad) := s.touch ph [(base, 69632)]
        if bad then s.restartPass ph p
        else
          let ops := s.cellsIn ph (s.abReads ph d)
          let accs := s.savedAccs ph h
          let (s, ue) := s.touch ph (s.abReads ph d)
          let s := s.setMx ph { s.mx ph with st := if m.pause then .paused else .issue, hdr := none,
                                             pass := some { p with active := [⟨w.j, h.ks, accs, ops⟩] } }
          if ue then s.endPass ph p 7 else s
      | _, _ => s
    | _, _, _ => s

/-- CORE_FLT datapath faults within 24 hours make a core PENDING (R545). -/
def State.coreFault (s : State) (ph : Nat) : State :=
  let s := s.mark ph 0
  let lim := s.fget pCdm F.CDM_WEAR_CFG_CORE_FLT
  if lim != 0 && decide (lim ≤ s.marksOf ph 0) && !s.wear.cores.contains ph then
    { s with wear := { s.wear with cores := s.wear.cores ++ [ph] } }.event pCdm F.CDM_PG_EVT_PENDING
  else s

/-- The fault logged, and counted towards the core's wear (R103, R545). -/
def State.noteFault (s : State) (ph n : Nat) (p : Pass) : State :=
  (s.logEvent 0x0013 n 1 0x0001 (match s.infl ph p.idx with | some e => hTag e.words | none => 0)).coreFault ph

/-- The pass that a fault strikes: the oldest one with a sweep in the arrays. Log entry 238: DESIGN CHOICE. -/
def Mx.struck (m : Mx) : Option Pass :=
  match m.tail with
  | some t => if t.active.isEmpty then m.pass else some t
  | none => m.pass

/-- R103, R106: a residue or lane-parity fault. -/
def datapathFault (n : Nat) (s : State) : State :=
  s.onCore n fun s ph =>
    let m := s.mx ph
    match m.struck with
    | none => s
    | some p =>
      match m.st with
      | .issue => (s.noteFault ph n p).restartPass ph p
      | .saving => if m.tail.isSome then (s.noteFault ph n p).restartPass ph p else (s.noteFault ph n p).saveFails ph
      | .restoring => (s.noteFault ph n p).restartPass ph p
      | _ => s

/-- The pass that reads scratchpad offset x: C of the pass that drains, or an operand, a scale byte or C of the current
one. -/
def State.readerOf (s : State) (ph x : Nat) : Option Pass :=
  let m := s.mx ph
  let hits := fun (p : Pass) (c : Bool) => match s.infl ph p.idx with
    | some e =>
      let d := matmulD e.words
      (s.cReads ph d ++ if c then [] else s.abReads ph d).any fun i => decide (i.1 ≤ x ∧ x < i.1 + i.2)
    | none => false
  match m.tail, m.pass with
  | some t, some p => if hits t true then some t else if hits p false then some p else none
  | _, some p => if hits p false then some p else none
  | _, none => none

/-- R104: a read of an operand, of its scale bytes or of C at scratchpad offset x fails beyond correction. Log entries 13:
DESIGN CHOICE, 22: DEDUCED. -/
def operandUe (n x : Nat) (s : State) : State :=
  s.onCore n fun s ph =>
    if (s.mx ph).st ≠ .issue then s
    else match s.readerOf ph x with
      | none => s
      | some p =>
        let k := codeKey (spKey ph x)
        let s := { s with mem := (s.mem.hit k 0).hit k 1 }
        (s.spUe ph x).endPass ph p 7

/-- The anchor table emptied (R119). -/
def State.clearAnchors (s : State) (ph : Nat) : State := s.modCore ph fun c => { c with anchors := [] }

end Sys2Proof.Machine
end

