-- ==== Sys2Proof/Machine/Flits.lean ====
section
/-! DEFINITION. The link layer of the fabric ports: the flits that carry packets, their control word, CRC and check
symbols, the lanes that carry them, and the flits kept until they are acknowledged (R296 to R299). -/

namespace Sys2Proof

open Sys2Proof.Machine

/-- The bytes of a packet: its header of four little-endian words, then its payload (R302). -/
def Packet.bytes (p : Packet) : List Byte :=
  leBytes 4 p.w0.toNat ++ leBytes 4 p.w1.toNat ++ leBytes 4 p.w2.toNat ++ leBytes 4 p.w3.toNat ++ p.payload

/-- The packet bytes of the flits that carry a packet: 240 to a flit, the packet itself named with its first flit. Every
packet begins a flit. Log entry 248: DESIGN CHOICE. -/
def Packet.flits (p : Packet) : List (Option Packet × List Byte) :=
  (cutAt 240 3 0 p.bytes).map fun c => (if c.1 = 0 then some p else none, c.2)

/-! ### A received flit -/

/-- The control word of a received flit. -/
def FlitRx.ctrl (f : FlitRx) : Nat := leNat ((f.data.drop 240).take 4)
/-- SEQ and ACK (R297). -/
def FlitRx.seq (f : FlitRx) : Nat := nbits f.ctrl 31 20
def FlitRx.ackSeq (f : FlitRx) : Nat := nbits f.ctrl 19 8
/-- Does the CRC-32 of the corrected bytes agree? -/
def FlitRx.crcOk (f : FlitRx) : Bool := leNat ((f.data.drop 244).take 4) == (Config.crc32 (f.data.take 244)).toNat

end Sys2Proof

namespace Sys2Proof.Machine

/-! ### The layout of a flit (R297) -/

/-- The control word: SEQ, ACK, and the credits CVC and CCNT. -/
def flitWord (seq ack credit : Nat) : Nat := seq % 4096 * 2 ^ 20 + ack % 4096 * 2 ^ 8 + credit % 256

/-- Every second byte of a list, from byte k on. -/
def everySecond (k : Nat) (bs : List Byte) : List Byte := ((bs.zipIdx).filter fun x => x.2 % 2 == k).map (·.1)

/-- The check symbols of bytes 0 to 247: those of the even bytes and of the odd bytes in turn. Log entry 248: DESIGN
CHOICE. -/
def flitCheck (bs : List Byte) : List Byte :=
  (List.range 4).flatMap fun i => [Config.flitSymbol (everySecond 0 bs) i, Config.flitSymbol (everySecond 1 bs) i]

/-- The 256 bytes of a flit from its 240 packet bytes and its control word. -/
def flitBytes (body : List Byte) (ctrl : Nat) : List Byte :=
  let a := body ++ leBytes 4 ctrl
  let b := a ++ leBytes 4 (Config.crc32 a).toNat
  b ++ flitCheck b

/-! ### Lanes (R296) -/

/-- The lanes that carry flits, in ascending physical order. -/
def State.lanes (s : State) (n : Nat) : List Nat :=
  (List.range 9).filter fun l => (s.fget (pFp n) F.FP_LANE_MAP_ACTIVE).testBit l

/-- The bytes that a lane carries in one FCLK cycle: 64 bits at 112 Gb/s, 128 bits at 224 Gb/s. -/
def laneUnit (rate : Nat) : Nat := if rate = 2 then 16 else 8

/-- A flit striped over lanes: unit k of the flit goes to lane k mod w of the w lanes in order. Log entry 248: DESIGN
CHOICE. -/
def stripe (lanes : List Nat) (unit : Nat) (bs : List Byte) : List (Nat × List Byte) :=
  let us := (cutAt unit (bs.length + 1) 0 bs).map (·.2)
  (lanes.zipIdx).map fun l => (l.1, (us.zipIdx).flatMap fun u => if u.2 % lanes.length = l.2 then u.1 else [])

/-- A flit leaves on the lanes of its port. -/
def State.putFlit (s : State) (n : Nat) (f : Flit) : State :=
  s.send (.flit n (stripe (s.lanes n) (laneUnit (s.fget (pFp n) F.FP_LINK_STAT_RATE)) f.bytes))

/-! ### The sender (R297, R298) -/

/-- The link layer of a port. -/
def State.link (s : State) (n : Nat) : LinkSt := Tab.get LinkSt.init n s.fab.links
def State.setLink (s : State) (n : Nat) (l : LinkSt) : State :=
  { s with fab := { s.fab with links := Tab.set LinkSt.init n l s.fab.links } }

/-- The next flit of a port is formed, kept until it is acknowledged, and sent: its filler bytes and credits are free
values. Log entry 248: DESIGN CHOICE. -/
def State.newFlit (s : State) (n : Nat) (x : Option Packet × List Byte) : State :=
  let (fill, s) := s.drawBytes (240 - x.2.length)
  let (c, s) := s.draw
  let l := s.link n
  let ack := (l.rxNext + 4095) % 4096
  let f : Flit := ⟨l.txSeq, flitBytes (x.2 ++ fill) (flitWord l.txSeq ack (Config.freeWord c).toNat)⟩
  let s := s.setLink n { l with txSeq := (l.txSeq + 1) % 4096, unacked := l.unacked ++ [f] }
  let s := match x.1 with
    | some p => s.send (.packet (some n) p)
    | none => s
  s.putFlit n f

/-- An ACTIVE port sends what its queue holds, while at most 256 flits are unacknowledged (R298). -/
def State.pump (s : State) (n : Nat) : State :=
  let l := s.link n
  if s.fget (pFp n) F.FP_LINK_STAT_STATE ≠ 2 then s
  else
    let k := min l.queue.length (256 - l.unacked.length)
    (l.queue.take k).foldl (fun s x => s.newFlit n x) (s.setLink n { l with queue := l.queue.drop k })

/-- A packet given to a port: sent, or held while the port sends no new flit (R298, R299). -/
def State.toPort (s : State) (port : Nat) (p : Packet) : State :=
  let l := s.link port
  (s.setLink port { l with queue := l.queue ++ p.flits }).pump port

/-- The flits kept from a sequence number on are sent again, unchanged. -/
def State.replayFrom (s : State) (n seq : Nat) : State :=
  ((s.link n).unacked.dropWhile fun f => f.seq != seq).foldl (fun s f => s.putFlit n f) s

/-- Every unacknowledged flit is sent again, then the new ones (R299). -/
def State.replayAll (s : State) (n : Nat) : State :=
  ((s.link n).unacked.foldl (fun s f => s.putFlit n f) s).pump n

/-- The flits up to an acknowledged one are no longer kept. -/
def LinkSt.acked (l : LinkSt) (ack : Nat) : LinkSt :=
  if l.unacked.any fun f => f.seq == ack then { l with unacked := (l.unacked.dropWhile fun f => f.seq != ack).drop 1 } else l

/-! ### The receiver (R298) -/

/-- A flit that passed its CRC: taken when it is the next in order, with its acknowledgement and the peer's replay
request. Log entry 249: DESIGN CHOICE. -/
def State.flitTake (s : State) (n : Nat) (f : FlitRx) : State :=
  let l := s.link n
  if f.seq ≠ l.rxNext then s
  else
    let s := s.setLink n ({ l with rxNext := (l.rxNext + 1) % 4096, discarding := false }.acked f.ackSeq)
    let s := match f.replay with
      | some k => s.replayFrom n k.val
      | none => s
    s.pump n

/-- R298: an ACTIVE port receives a flit. When the CRC fails it and every later flit is discarded until the replay, which
is requested from the first discarded SEQ. Log entry 249: DESIGN CHOICE. -/
def flitReceive (n : FpId) (f : FlitRx) (s : State) : State :=
  let p := pFp n
  if s.fget p F.FP_LINK_STAT_STATE ≠ 2 then s
  else
    let s := if f.corrected then s.finc p F.FP_LINK_CNT1_FEC_CORR else s
    if f.crcOk then s.flitTake n f
    else
      let s := s.finc p F.FP_LINK_CNT0_CRC_ERR
      let l := s.link n
      if l.discarding then s
      else ((s.setLink n { l with discarding := true }).finc p F.FP_LINK_CNT0_REPLAYS).send (.replay n l.rxNext)

end Sys2Proof.Machine
end

