-- ==== Sys2Proof/Machine/Tracker.lean ====
section
/-! DEFINITION. The request tracker and the way out: packet headers, routes, admission by class, held flits, and the end
of a request's entry (R291, R294, R302 to R320). -/

namespace Sys2Proof

open Sys2Proof.Machine

/-! ### Packet headers (R302) -/

def Packet.op (p : Packet) : Nat := bits p.w0 31 28
def Packet.cls (p : Packet) : Nat := bits p.w0 27 26
def Packet.lenCode (p : Packet) : Nat := bits p.w0 25 22
def Packet.tag (p : Packet) : Nat := bits p.w0 17 0
def Packet.src (p : Packet) : Nat := bits p.w1 31 20
def Packet.hops (p : Packet) : Nat := bits p.w1 17 12
def Packet.dst (p : Packet) : Nat := bits p.w1 11 0
def Packet.off (p : Packet) : Nat := p.w2.toNat + 2 ^ 32 * bits p.w3 31 20
def Packet.txnId (p : Packet) : Nat := bits p.w3 19 16
def Packet.txn (p : Packet) : Bool := bit p.w3 15
def Packet.status (p : Packet) : Nat := bits p.w2 31 24
def Packet.degraded (p : Packet) : Bool := bit p.w2 16
def Packet.detail (p : Packet) : Nat := bits p.w2 15 0
/-- The bytes LEN names: 4, or 32 to 256 (R302). -/
def Packet.len (p : Packet) : Nat := if p.lenCode = 0 then 4 else 32 * p.lenCode

/-- The packet with one more link crossed (R304). Log entry 94: DEDUCED. -/
def Packet.hop (p : Packet) : Packet := { p with w1 := setBits p.w1 17 12 (p.hops + 1) }

end Sys2Proof

namespace Sys2Proof.Machine

def opRD : Nat := 1
def opWR : Nat := 2
def opSIG : Nat := 3
def opMSG : Nat := 4
def opRSP : Nat := 8
def opNAK : Nat := 9

/-- LEN of a number of bytes. -/
def lenCodeOf (n : Nat) : Nat := if n ≤ 4 then 0 else n / 32

/-- A request packet (R302). Log entry 76: DEDUCED. -/
def reqPacket (op cls len tag src dst off : Nat) (txn : Option Nat) (data : List Byte) : Packet :=
  ⟨BitVec.ofNat 32 (op * 2 ^ 28 + cls * 2 ^ 26 + lenCodeOf len * 2 ^ 22 + tag % 2 ^ 18),
   BitVec.ofNat 32 (src % 4096 * 2 ^ 20 + dst % 4096), BitVec.ofNat 32 off,
   BitVec.ofNat 32 (off / 2 ^ 32 % 4096 * 2 ^ 20 + (match txn with | some t => t % 16 * 65536 + 32768 | none => 0)), data⟩

/-- The RSP or NAK that answers a request (R302): STATUS, DEGRADED, DETAIL, and the data of an RD. -/
def answer (op : Nat) (p : Packet) (me status detail : Nat) (degraded : Bool) (data : List Byte) : Packet :=
  ⟨BitVec.ofNat 32 (op * 2 ^ 28 + p.cls * 2 ^ 26 + p.lenCode * 2 ^ 22 + p.tag),
   BitVec.ofNat 32 (me % 4096 * 2 ^ 20 + p.src),
   BitVec.ofNat 32 (status * 2 ^ 24 + b2n degraded * 65536 + detail % 65536), 0, data⟩

/-! ### Addresses (R291) -/

/-- The module's own logical ID. -/
def State.lid (s : State) : Nat := s.fget pOgs F.OGS_MOD_ID_LID

/-- The global address a LOCAL bit makes local: bits [55:44] replaced by the module's own ID (R175). -/
def State.gaddr (s : State) (a : Nat) (isLocal : Bool) : Nat := if isLocal then s.lid * 2 ^ 44 + a % 2 ^ 44 else a

/-- Is a global address served locally (R291)? -/
def State.isLocal (s : State) (g : Nat) : Bool := g / 2 ^ 44 % 4096 == s.lid

/-- Are length and offset those of a fabric request (R294)? -/
def fabricSize (off len : Nat) : Bool :=
  (len == 4 && off % 4 == 0) ||
  (decide (32 ≤ len ∧ len ≤ 256) && len % 32 == 0 && off % 32 == 0 && decide (off % 256 + len ≤ 256))

/-! ### Routes (R304 to R308) -/

/-- Is a fabric port ACTIVE? -/
def State.fpState (s : State) (n : Nat) : Nat := s.fget (pFp n) F.FP_LINK_STAT_STATE

/-- The port of the same direction in the other plane; express ports have none (R305, R307). -/
def otherPlane (p : Nat) : Option Nat := if p % 8 ≥ 6 then none else some ((p + 8) % 16)

/-- The port a packet for dst leaves through: the entry's port, or the other plane's when that is not ACTIVE and the
other is (R307). -/
def State.egress (s : State) (dst : Nat) : Option Nat :=
  let r := Tab.get Route.init dst s.fab.routes
  if !r.valid then none
  else if s.fpState r.port = 2 then some r.port
  else (otherPlane r.port).filter fun q => s.fpState q == 2

/-- An answer leaves towards its requester; without a route it is discarded (R304). -/
def State.sendAnswer (s : State) (p : Packet) : State :=
  match s.egress p.dst with
  | some port => if p.hops + 1 > s.fget pOgs F.OGS_CFG_HOP_MAX then s else s.toPort port p.hop
  | none => s

/-! ### At the target (R303, R304, R309, R310, R314, R318, R327) -/

/-- Does the module consume a packet? Log entry 96: DEDUCED. -/
def State.consumes (s : State) (p : Packet) : Bool := s.fget pOgs F.OGS_MOD_ID_VALID == 1 && p.dst == s.lid

/-- The RSP to a request, with DEGRADED as OGS.CFG has it. -/
def State.respond (s : State) (p : Packet) (status detail : Nat) (data : List Byte) : State :=
  s.sendAnswer (answer opRSP p s.lid status detail (s.fget pOgs F.OGS_CFG_DEGRADED == 1) data)

/-- Is a request one to the register window (R292)? -/
def toRegs (p : Packet) : Bool := (p.op == opRD || p.op == opWR) && decide (regBase ≤ p.off ∧ p.off < regBase + 0x4000000)

/-- Requests in the ingress queue of a class of the die that a packet reaches (R313): those the fabric tells, and those
that a hold keeps there. Log entry 97: DESIGN CHOICE. -/
def State.queuedAt (s : State) (a : Arrival) : Nat :=
  a.queued + (s.held.filter fun h => match h with
    | .packet b => b.port.val / 2 == a.port.val / 2 && b.pkt.cls == a.pkt.cls
    | _ => false).length

/-- A request that the target turns away: its answer is sent; a full queue of class C0 or C1 leaves the packet in the
fabric (R313). Log entry 97: DESIGN CHOICE. -/
def State.turnAway (s : State) (a : Arrival) : Option State :=
  let p := a.pkt
  let q := s.queuedAt a
  if s.fget pOgs F.OGS_CFG_ACCEPT = 0 ∧ !toRegs p then some (s.respond p 4 0x46 [])
  else if p.cls = 2 ∧ s.fget pOgs F.OGS_CFG_ACCEPT = 1 ∧ s.fget pOgs F.OGS_CFG_C2_DEPTH = 0 then some (s.respond p 4 0x44 [])
  else if (p.cls = 0 ∧ 256 ≤ q) ∨ (p.cls = 1 ∧ 4096 ≤ q) then some s
  else if p.cls = 2 ∧ 2048 ≤ q then some (s.sendAnswer (answer opNAK p s.lid 0 (min q 65535) false []))
  else if p.cls = 3 ∧ 512 ≤ q then some (s.respond p 4 0x45 [])
  else none

/-! ### Admission (R312 to R317) -/

/-- Entries of a class and the first entry number of its partition. -/
def classEntries : Nat → Nat
  | 0 => 4096 | 1 => 131072 | 2 => 98304 | _ => 28672
def classBase : Nat → Nat
  | 0 => 0 | 1 => 4096 | 2 => 135168 | _ => 233472

/-- A request holds an entry from its admission on; a NAKed request keeps it (R312, R316). -/
def Req.holds (r : Req) : Bool := match r.phase with | .waiting => false | _ => true

/-- Entries of a class in use (TRK_Cn). -/
def State.inUse (s : State) (cls : Nat) : Nat := (s.fab.reqs.filter fun r => r.cls == cls && r.holds).length

/-- Requests of a class waiting at the tracker. -/
def State.waitingIn (s : State) (cls : Nat) : Nat := (s.fab.reqs.filter fun r => r.cls == cls && !r.holds).length

/-- The lowest free entry of a class from a number on, by fuel. Log entry 93: DESIGN CHOICE. -/
def freeTag (reqs : List Req) : Nat → Nat → Nat
  | 0, t => t
  | f + 1, t => if reqs.any fun r => r.holds && r.tag == t then freeTag reqs f (t + 1) else t

/-- A request admitted: it takes an entry with a new generation and its packet leaves; without a route or with no hop
allowed it ends at once with the reason of R304, and while OGS.CFG.EN is 0 no request leaves (R331). Log entries 93:
DESIGN CHOICE, 94: DEDUCED. -/
def State.grant (s : State) (r : Req) : State × Option (Nat × Nat) :=
  if s.fget pOgs F.OGS_CFG_EN = 0 then (s, some (0x0B, 0)) else
  match s.egress r.dst with
  | none => (s, some (4, 0x40))
  | some port =>
    if 1 > s.fget pOgs F.OGS_CFG_HOP_MAX then (s, some (4, 0x41)) else
    let tag := freeTag s.fab.reqs (classEntries r.cls) (classBase r.cls)
    let gen := (Tab.get 0 tag s.fab.gens + 1) % 16
    let r := { r with tag := tag, gen := gen, phase := .admitted }
    let s := { s with fab := { s.fab with reqs := s.fab.reqs ++ [r], gens := Tab.set 0 tag gen s.fab.gens } }
    (s.toPort port (reqPacket r.op r.cls r.len tag r.src r.dst r.off r.txn r.data).hop, none)

/-- The first failed request of a descriptor on the module captured (R329). Log entry 81: DEDUCED. -/
def State.captureFail (s : State) (status detail part cls core dst : Nat) : State :=
  if s.fget pOgs F.OGS_ERR_CAP0_VALID = 1 then s else
  (s.setReg (pOgs + 0x07C) (BitVec.ofNat 32 (2 ^ 31 + status * 65536 + detail % 65536))).setReg (pOgs + 0x080)
    (BitVec.ofNat 32 (part % 64 * 2 ^ 26 + cls % 4 * 2 ^ 24 + core % 1024 * 4096 + dst % 4096))

/-- The failed request of a descriptor captured (R329). The pieces of a MOVE and FPRINT capture with their part. Log
entry 81: DEDUCED. -/
def State.captureOwner (s : State) (o : Owner) (cls dst : Nat) (f : Nat × Nat) : State :=
  match o with
  | .chain core _ _ | .sync core _ | .coll core _ _ _ => s.captureFail f.1 f.2 0 cls ((s.logical core).getD 0) dst
  | _ => s

/-- Does an engine stall: a request of it waits at the tracker, or waits behind one (R314)? -/
def State.stalls (s : State) (o : Owner) : Bool :=
  (s.fab.reqs.any fun r => !r.holds && r.owner.key == o.key) || s.fab.stalled.any fun r => r.owner.key == o.key

/-- A request reaches the tracker (R314): admitted, waiting, or ended at once with a status and DETAIL. more: it goes on
from a stall, which is one episode of class C1. -/
def State.reachTracker (s : State) (r : Req) (more : Bool) : State × Option (Nat × Nat) :=
  if s.fget pOgs F.OGS_CFG_EN = 0 then (s, some (0x0B, 0))
  else if s.inUse r.cls < classEntries r.cls && s.waitingIn r.cls == 0 then s.grant r
  else
    let wait := fun (s : State) =>
      ({ s with fab := { s.fab with reqs := s.fab.reqs ++ [{ r with delayed := true }] } }, (none : Option (Nat × Nat)))
    match r.cls with
    | 0 => wait s
    | 1 => wait (if s.waitingIn 1 = 0 ∧ !more then s.finc pOgs F.OGS_ADM_CNT0_C1_STALLS else s)
    | 2 =>
      if s.fget pOgs F.OGS_CFG_C2_DEPTH ≤ s.waitingIn 2 then (s, some (4, 0x42))
      else wait (s.finc pOgs F.OGS_ADM_CNT0_C2_HELD)
    | _ => (s.finc pOgs F.OGS_ADM_CNT1_C3_REFUSED, some (4, 0x43))

/-- A request of an engine: of a size of R294, else ended at once; behind the others of an engine that stalls; else at the
tracker. Log entry 250: DESIGN CHOICE. -/
def State.requestNow (s : State) (op cls g len : Nat) (data : List Byte) (txn : Option Nat) (owner : Owner) :
    State × Option (Nat × Nat) :=
  let r : Req := ⟨0, op, cls, g / 2 ^ 44 % 4096, g % 2 ^ 44, len, data, txn, owner, .waiting, s.lid, 0, false⟩
  if s.fget pOgs F.OGS_CFG_EN = 0 then (s, some (0x0B, 0))
  else if (op == opRD || op == opWR) && (!fabricSize r.off len ||
      (decide (regBase ≤ r.off ∧ r.off < regBase + 0x4000000) && len != 4)) then (s, some (0x0B, 0))
  else if (cls = 1 ∨ cls = 2) ∧ s.stalls owner then
    ({ s with fab := { s.fab with stalled := s.fab.stalled ++ [r] } }, none)
  else s.reachTracker r false

/-- A request issued; one that ends at once is captured (R329). -/
def State.request (s : State) (op cls g len : Nat) (data : List Byte) (txn : Option Nat) (owner : Owner) :
    State × Option (Nat × Nat) :=
  let r := s.requestNow op cls g len data txn owner
  match r.2 with
  | none => r
  | some f => (r.1.captureOwner owner cls (g / 2 ^ 44 % 4096) f, some f)

/-- Requests leave the tracker, or are never issued. -/
def State.dropReqs (s : State) (p : Req → Bool) : State :=
  { s with fab := { s.fab with reqs := s.fab.reqs.filter fun r => !p r, stalled := s.fab.stalled.filter fun r => !p r } }

/-- The requests of some owners that hold no entry yet are never issued. Gives their owners. -/
def State.dropWaiting (s : State) (mine : Owner → Bool) : State × List Owner :=
  let p := fun (r : Req) => mine r.owner && !r.holds
  (s.dropReqs p, ((s.fab.reqs ++ s.fab.stalled).filter p).map (·.owner))

/-- A request leaves the tracker. -/
def State.dropReq (s : State) (p : Req → Bool) : State :=
  { s with fab := { s.fab with reqs := eraseFirst p s.fab.reqs } }

end Sys2Proof.Machine
end

