-- ==== Sys2Proof/Machine/Chain.lean ====
section
/-! DEFINITION. The Anise chain: RAW tiles added in a fixed order and handed on (R137 to R144). -/

namespace Sys2Proof.Machine

/-- A CHAIN that has not started. -/
def ChainSt.init : ChainSt := ⟨0, 0, false, false, false, 0, 0, false, 0⟩

/-- A status and DETAIL that a CHAIN meets; the first one stands (R140). Log entry 32: DEDUCED. -/
def ChainSt.meet (c : ChainSt) (f : Nat × Nat) : ChainSt := if c.fail = 0 then { c with fail := f.1, det := f.2 } else c

/-- The tile stride of D: LDD, 0 meaning dense over TCOLS tile columns. -/
def ChainD.sd (d : ChainD) : Nat := if d.ldd = 0 then d.tcols else d.ldd

/-- Is this the last engine of the chain? -/
def ChainD.last (d : ChainD) : Bool := d.pos + 1 == d.len

def ChainD.h (d : ChainD) : Nat := if d.headroom = 0 then 24 else d.headroom

/-- TILES consecutive slots. -/
def slotsRegion (base tiles : Nat) : Region := (List.range tiles).map fun t => (base + t * rawSlot, rawSlot)

/-- D of the last engine. -/
def ChainD.dReg (d : ChainD) : Region :=
  (List.range d.tiles).map fun t => (d.dAddr + ((t / d.tcols) * d.sd + t % d.tcols) * tileBytes d.dFmt, tileBytes d.dFmt)

/-- The failed checks of a CHAIN, lowest reason first (R138). Log entry 45: DEDUCED. -/
def State.chainReasons (s : State) (ph : Nat) (d : ChainD) : List Nat :=
  let on := fun (b : Bool) (n : Nat) => if b then [n] else []
  let buf := s.accBuf ph
  let src := slotsRegion d.src d.tiles
  let rcv := if d.pos > 0 then slotsRegion d.rcv d.tiles else []
  let dr := if d.last then d.dReg else []
  on ((d.last && (decide (d.dFmt > 8) || decide (d.rnd > 4))) || decide (d.carry > 1)) 0x10
  ++ on (d.src % 4096 != 0 || (decide (d.pos > 0) && d.rcv % 4096 != 0) || (d.last && d.dAddr % 4096 != 0)) 0x13
  ++ on (!inside (src ++ rcv ++ dr) 0 spSize || (d.last && d.ldd != 0 && decide (d.ldd < d.tcols))) 0x14
  ++ on (decide (d.headroom ≠ 0 ∧ (d.headroom < 8 ∨ d.headroom > 60))) 0x15
  ++ on (!inside (src ++ rcv) buf.1 buf.2 || (d.last && d.dFmt == 8 && !inside dr buf.1 buf.2)) 0x16
  ++ on (d.len == 0 || decide (d.pos ≥ d.len) || (d.tcols == 0 && d.tiles != 0)) 0x19
  ++ on (d.last && isBlock d.dFmt && overlaps dr (s.scaleWin ph)) 0x1A

/-- An element brought from anchor a to anchor b (R112, R141). -/
def reanchor (v : Int) (a b : Int) : Int := (rneMult v a b).1

/-- Do all elements of X, Y and their sum fit at an anchor? -/
def fitsAt (x y : List Int) (ax ay a : Int) : Bool :=
  (List.zip x y).all fun p =>
    let u := reanchor p.1 ax a
    let v := reanchor p.2 ay a
    fits128 u && fits128 v && fits128 (u + v)

/-- The least anchor min(a_X, a_Y) + 16j at which everything fits (R141). -/
def sumAnchor (x y : List Int) (ax ay : Int) : Nat → Int → Int
  | 0, a => a
  | f + 1, a => if fitsAt x y ax ay a then a else sumAnchor x y ax ay f (a + 16)

/-- The elements and nibbles of a tile in body order. -/
def RawTile.vs (t : RawTile) : List Int := (List.range 4096).map t.v
def RawTile.nibs (t : RawTile) : List Nat := (List.range 4096).map t.nib

/-- The sum of two RAW tiles (R141). -/
def rawAdd (x y : RawTile) : RawTile :=
  let vx := x.vs
  let vy := y.vs
  let a := sumAnchor vx vy x.hdr.anchor y.hdr.anchor ((x.hdr.anchor - y.hdr.anchor).natAbs / 16 + 3)
    (min x.hdr.anchor y.hdr.anchor)
  let e := fun (h : RawHdr) => scaleUp h.err (h.anchor - a) + (if h.anchor < a then 1 else 0)
  mkRaw { x.hdr with anchored := !(!x.hdr.anchored && !y.hdr.anchored && a == -32), anchor := a,
                     err := min (e x.hdr + e y.hdr) (2 ^ 64 - 1) }
    ((List.zip vx vy).map fun p => reanchor p.1 x.hdr.anchor a + reanchor p.2 y.hdr.anchor a)
    ((List.zip x.nibs y.nibs).map fun p => p.1 ||| p.2)

/-- The carry a sender sends: compact under AUTO when every element lies within 64 bits (R142). -/
def RawTile.carry (t : RawTile) (auto : Bool) : RawTile :=
  let vs := t.vs
  let nibs := t.nibs
  if auto && vs.all fun v => decide (-(2 : Int) ^ 63 ≤ v ∧ v < (2 : Int) ^ 63) then
    let is := (List.range 4096).map fullIdx
    let h := { t.hdr with special := nibs.any (· != 0), compact := true }
    let side := nibBytes (is.map fun i => nibs.getD i 0)
    let body := is.flatMap fun i => leBytes 8 (ofSint 64 (vs.getD i 0))
    ⟨{ h with crc := rawCrc h side body }, h.bytes56, side, body⟩
  else mkRaw t.hdr vs nibs

/-- The tile as this engine sends it: its CHAIN_ID, POS and the place of tile t. -/
def ChainD.dress (d : ChainD) (t : Nat) (x : RawTile) : RawTile :=
  let h := { x.hdr with cstat := 0, pos := d.pos, chainId := d.chainId, trow := t / d.tcols, tcol := t % d.tcols }
  ({ x with hdr := h } : RawTile).carry (d.carry == 0)

/-- A header-only tile with CSTAT set (R140, R143). -/
def ChainD.failTile (d : ChainD) (t cstat : Nat) : List (Nat × List Byte) :=
  let h : RawHdr := ⟨cstat, false, false, true, 0, 0, d.pos, d.chainId, t / d.tcols, t % d.tcols, 0⟩
  [(0, h.bytes56 ++ leBytes 8 (rawCrc h [] []))]

/-- Change the chain state of a descriptor. -/
def State.setChain (s : State) (ph idx : Nat) (c : ChainSt) : State := s.modInfl ph idx fun e => { e with prog := .chain c }

/-- The writes of a tile from an address, each within one block of 256 bytes (R294). -/
def tileWrites (g : Nat) (ws : List (Nat × List Byte)) : List (Nat × List Byte) :=
  ws.flatMap fun w => cutAt 256 (w.2.length + 1) (g + w.1) w.2

/-- The requests that carry a tile to the successor: 256-byte writes of class C1 (R140, R294). Counts those that were
accepted and gives the status and DETAIL of one that failed at once, after which none is issued. -/
def State.chainWrites (s : State) (g : Nat) (owner : Owner) (ws : List (Nat × List Byte)) : State × Nat × Nat × Nat :=
  (tileWrites g ws).foldl (fun a w =>
    if a.2.2.1 ≠ 0 then a else
    match a.1.request opWR 1 w.1 w.2.length w.2 none owner with
    | (s, none) => (s, a.2.1 + 1, a.2.2)
    | (s, some f) => (s, a.2.1, f)) (s, 0, 0, 0)

/-- The writes of a CHAIN that still wait at the tracker are never issued (R140). Gives how many they were. -/
def State.chainDrop (s : State) (ph idx : Nat) : State × Nat :=
  let (s, os) := s.dropWaiting fun o => o == .chain ph idx false
  (s, os.length)

/-- The successor's logical core and the token signal to it, as a SIG payload (R303). -/
def chainSigPayload (d : ChainD) : Word :=
  BitVec.ofNat 32 (((d.next % 2 ^ 44 - spBase) / 0x1000000 % 1024) * 2 ^ 22 + d.nextTok * 2 ^ 16 + 1)

/-- Sends tile t to a local successor: the writes, then the token (R140). Gives the status and DETAIL of the first
failure. -/
def State.chainLocal (s : State) (d : ChainD) (t : Nat) (ws : List (Nat × List Byte)) : State × Nat × Nat :=
  let base := d.next % 2 ^ 44 + t * rawSlot
  let (s, st, det) := (tileWrites base ws).foldl (fun (a : State × Nat × Nat) w =>
    if a.2.1 ≠ 0 then a else let r := a.1.memWrite w.1 w.2; (r.st, r.status, r.detail)) (s, 0, 0)
  if st ≠ 0 then (s, st, det)
  else
    let r := s.signalCore ((d.next % 2 ^ 44 - spBase) / 0x1000000) d.nextTok 1
    (r.1, r.2, 0)

/-- The signal that follows a tile to another module (R140); an immediate failure counts as its end. Log entry 33:
DEDUCED. -/
def State.chainSignal (s : State) (ph idx : Nat) (d : ChainD) (c : ChainSt) : State × Bool :=
  match s.request opSIG 0 d.next 4 (leBytes 4 (chainSigPayload d).toNat) none (.chain ph idx true) with
  | (s, none) => (s.setChain ph idx { c with signalled := true }, false)
  | (s, some f) =>
    if c.fail = 0 then (s.setChain ph idx (c.meet f), true)
    else (s.setChain ph idx { c with tile := c.tile + 1 }, true)

/-- A write of the current tile has failed: once the others have ended, a header-only tile follows in its place; after one
that was header-only, the next tile (R140). The Boolean says whether the engine goes on at once. -/
def State.chainLost (s : State) (ph idx : Nat) (c : ChainSt) : State × Bool :=
  if c.writes ≠ 0 then (s.setChain ph idx c, false)
  else (s.setChain ph idx (if c.hdrOnly then { c with tile := c.tile + 1 } else c), true)

/-- Sends the writes of tile c.tile: a local send ends at once, a send to another module waits for its answers. The
Boolean says whether the engine goes on at once. Log entry 33: DEDUCED. -/
def State.chainSend (s : State) (ph idx : Nat) (d : ChainD) (c : ChainSt) (ws : List (Nat × List Byte)) : State × Bool :=
  let c := { c with signalled := false, hdrOnly := c.fail != 0, lost := false }
  if s.isLocal d.next then
    let (s, f) := s.chainLocal d c.tile ws
    let s := if f.1 = 0 then s else s.captureFail f.1 f.2 0 1 ((s.logical ph).getD 0) (d.next / 2 ^ 44 % 4096)
    if f.1 ≠ 0 ∧ c.fail = 0 then (s.setChain ph idx (c.meet f), true)
    else (s.setChain ph idx { c with tile := c.tile + 1 }, true)
  else
    let (s, n, f) := s.chainWrites (d.next + c.tile * rawSlot) (.chain ph idx false) ws
    if f.1 ≠ 0 then
      let (s, k) := s.chainDrop ph idx
      s.chainLost ph idx ({ c with writes := n - k, lost := true }.meet f)
    else if n ≠ 0 then (s.setChain ph idx { c with writes := n }, false)
    else s.chainSignal ph idx d { c with writes := 0 }

/-- Is the send of a tile to this module held, by a write of it (R277, R344)? -/
def State.chainHeld (s : State) (d : ChainD) (t : Nat) (ws : List (Nat × List Byte)) : Bool :=
  s.isLocal d.next && (tileWrites (d.next % 2 ^ 44 + t * rawSlot) ws).any fun w => s.memHeld w.1 w.2.length

/-- One move of the engine: it sends what is due without an incoming tile, or completes after its last tile. -/
def State.chainStep (s : State) (ph idx : Nat) : State × Bool :=
  match s.infl ph idx with
  | none => (s, false)
  | some e =>
    match e.prog with
    | .chain c =>
      let d := chainD e.words
      if c.tile ≥ d.tiles ∨ (d.last ∧ c.fail ≠ 0) then
        (s.complete ph e ⟨if c.fail ≠ 0 then c.fail else if d.last && c.longK then 0xD else 0, c.flags, c.det, 0, none⟩, false)
      else if d.last ∨ (c.fail = 0 ∧ d.pos ≠ 0) ∨ c.writes ≠ 0 ∨ c.signalled then (s, false)
      else
        -- this engine's own slot at position 0, or a header-only tile; an access that is held waits
        let src := d.src + c.tile * rawSlot
        let (t, ue) := if c.fail = 0 then s.touch ph [(src, rawSlot)] else (s, false)
        let own := t.rawAt ph src
        let k := if c.fail = 0 && (ue || !own.ok) then { c with fail := 7 } else c
        let ws := if k.fail ≠ 0 then d.failTile c.tile k.fail else [(0, (d.dress c.tile own).carryBytes)]
        if (c.fail = 0 ∧ s.spLocked ph [(src, rawSlot)]) ∨ s.chainHeld d c.tile ws then (s, false)
        else t.chainSend ph idx d k ws
    | _ => (s, false)

/-- The engine goes on as far as it can without an outside event. -/
def State.chainRun : Nat → State → Nat → Nat → State
  | 0, s, _, _ => s
  | fuel + 1, s, ph, idx =>
    let r := s.chainStep ph idx
    if r.2 then State.chainRun fuel r.1 ph idx else r.1

/-- Moves that a CHAIN may make in a row. -/
def chainFuel (w : List Word) : Nat := 2 * (chainD w).tiles + 2

/-- Tile t converted and written to D at its place, RAW copied as it is (R129, R139, R144). -/
def State.chainConvert (s : State) (ph : Nat) (d : ChainD) (t : Nat) (x : RawTile) (c : ChainSt) : State × ChainSt :=
  let longK := c.longK || decide (x.hdr.err > 2 ^ d.h)
  let tr := t / d.tcols
  let tc := t % d.tcols
  if d.dFmt = 8 then
    let h := { x.hdr with pos := d.pos, chainId := d.chainId, trow := tr, tcol := tc }
    (s.putRaw ph (d.dAddr + (tr * d.sd + tc) * rawSlot) (mkRaw h x.vs x.nibs), { c with longK := longK, tile := t + 1 })
  else
    let k : Sink := ⟨d.dFmt, d.rnd, d.pol, srKey d.step d.tensor d.stream, d.tcols * 64, d.dAddr, d.sd⟩
    let cells := (List.range 4096).map fun i =>
      let r := i / 64
      let cc := i % 64
      let j := rawIdx r cc
      let v := rawValue (x.v j) (x.nib j) x.hdr.anchor
      Cell.mk (tr * 64 + r) (tc * 64 + cc) v.1 v.2
    let cor := s.mergeFails ph (s.spans ph k cells)
    let (s, fl) := s.deliver ph k cells
    (s.raiseFlags (pCore ph + 0x100) fl,
     { c with longK := longK, flags := c.flags ||| fl, tile := t + 1, fail := if cor && c.fail == 0 then 7 else c.fail })

/-- LEN = 1: the engine converts every own slot and writes it to D (R139); a bad slot stops it. -/
def State.chainSolo (s : State) (ph : Nat) (d : ChainD) : State × ChainSt :=
  (List.range d.tiles).foldl (fun (a : State × ChainSt) t =>
    if a.2.fail ≠ 0 then a else
    let src := d.src + t * rawSlot
    let (s, ue) := a.1.touch ph [(src, rawSlot)]
    let x := s.rawAt ph src
    if ue ∨ !x.ok then (s, { a.2 with fail := 7 }) else s.chainConvert ph d t x a.2) (s, ChainSt.init)

/-- A CHAIN at the head of its engine's queue starts (R139). -/
def State.chainStart (s : State) (ph : Nat) (e : Infl) : State :=
  let d := chainD e.words
  if d.tiles ≠ 0 ∧ d.len = 1 then
    let (s, c) := s.chainSolo ph d
    s.setChain ph e.idx c |>.chainRun 1 ph e.idx
  else (s.setChain ph e.idx ChainSt.init).chainRun (chainFuel e.words) ph e.idx

/-- The CHAIN logic takes the next queued CHAIN once none runs (R149). fuel bounds those that end at once. -/
def State.chainNext : Nat → State → Nat → State
  | 0, s, _ => s
  | fuel + 1, s, ph =>
    match s.queue ph tCHAIN with
    | [] => s
    | e :: _ =>
      -- an access to a locked burst waits (R344)
      if e.prog = .queued ∧ !s.spLocked ph (slotsRegion (chainD e.words).src (chainD e.words).tiles) then
        State.chainNext fuel (s.chainStart ph e) ph
      else s

/-- R138, R139: a CHAIN issues. -/
def chain (n : Nat) (s : State) : State :=
  s.onCore n fun s ph =>
    match s.issuable ph fun w => hType w == tCHAIN with
    | none => s
    | some f =>
      match s.chainReasons ph (chainD f.words) with
      | r :: _ => s.issueDone ph f (Rec.refused r)
      | [] => (s.issue ph f .queued).chainNext 3 ph

/-- R139 to R143: the engine takes incoming tile t when RCV_TOKEN holds a count, checks it, adds its own slot and
sends or converts the sum. Log entry 32: DEDUCED. -/
def chainTile (n : Nat) (s : State) : State :=
  s.onCore n fun s ph =>
    match s.queue ph tCHAIN with
    | [] => s
    | e :: _ =>
      let d := chainD e.words
      match e.prog with
      | .chain c =>
        if d.pos = 0 ∨ c.fail ≠ 0 ∨ c.writes ≠ 0 ∨ c.signalled ∨ c.tile ≥ d.tiles ∨ s.tok ph d.rcvTok = 0 ∨
            s.spLocked ph ([(d.rcv + c.tile * rawSlot, rawSlot), (d.src + c.tile * rawSlot, rawSlot)] ++ d.dReg) then s
        else
          let t := c.tile
          let s0 := s
          let s := s.setTok ph d.rcvTok (s.tok ph d.rcvTok - 1)
          let rcv := d.rcv + t * rawSlot
          let src := d.src + t * rawSlot
          let x := s.carryAt ph rcv
          let (s, ueIn) := s.touch ph [(rcv, x.carryLen)]
          let (s, ueOwn) := s.touch ph [(src, rawSlot)]
          let own := s.rawAt ph src
          let good := !ueIn && x.ok && x.hdr.chainId == d.chainId && x.hdr.pos + 1 == d.pos && x.hdr.trow == t / d.tcols
            && x.hdr.tcol == t % d.tcols && x.hdr.cstat == 0
          let fail := if x.hdr.cstat ≠ 0 then tableStatus x.hdr.cstat else if !good || ueOwn || !own.ok then 7 else 0
          let run := fun (s : State) => (s.chainRun (chainFuel e.words) ph e.idx).chainNext 3 ph
          if fail ≠ 0 then run (s.setChain ph e.idx { c with fail := fail })
          else
            let sum := rawAdd x own
            if d.last then
              let (s, c) := s.chainConvert ph d t sum c
              run (s.setChain ph e.idx c)
            else
              let ws := [(0, (d.dress t sum).carryBytes)]
              if s0.chainHeld d t ws then s0
              else
                let r := s.chainSend ph e.idx d c ws
                if r.2 then run r.1 else r.1
      | _ => s

/-- A running CHAIN that waited for a hold goes on. -/
def State.chainAgain (s : State) (ph : Nat) : State :=
  match s.queue ph tCHAIN with
  | [] => s
  | e :: _ => match e.prog with
    | .chain _ => (s.chainRun (chainFuel e.words) ph e.idx).chainNext 3 ph
    | _ => s.chainNext 3 ph

/-- A request of a CHAIN ends with a status (R140). -/
def State.chainDone (s : State) (ph idx : Nat) (isSignal : Bool) (status detail : Nat) : State :=
  match s.infl ph idx with
  | none => s
  | some e =>
    match e.prog with
    | .chain c =>
      let d := chainD e.words
      let run := fun (s : State) => (s.chainRun (chainFuel e.words) ph idx).chainNext 3 ph
      if isSignal then
        if status ≠ 0 ∧ c.fail = 0 then run (s.setChain ph idx { c.meet (status, detail) with signalled := false })
        else run (s.setChain ph idx { c with tile := c.tile + 1, signalled := false })
      else
        let go := fun (r : State × Bool) => if r.2 then run r.1 else r.1
        let c := { c with writes := c.writes - 1 }
        if status ≠ 0 then
          let (s, k) := s.chainDrop ph idx
          go (s.chainLost ph idx ({ c with writes := c.writes - k, lost := true }.meet (status, detail)))
        else if c.lost then go (s.chainLost ph idx c)
        else if c.writes ≠ 0 then s.setChain ph idx c
        else go (s.chainSignal ph idx d c)
    | _ => s

end Sys2Proof.Machine
end

