-- ==== Sys2Proof/Machine/Sequencer.lean ====
section
/-! DEFINITION. The sequencer: ring tail and fetch, reserved types, wait timeouts, SYNC, FENCE, core reset and HALT
(R11, R146 to R160, R179 to R182, R193). -/

namespace Sys2Proof.Machine

/-- HALTED: HALT is 1 and no issued descriptor lacks its record (R160). -/
def State.halted (s : State) (ph : Nat) : Bool :=
  s.fget (pCore ph) F.SQ_CTRL_HALT == 1 && (s.core ph).inflight.isEmpty

/-- Has the free-running DR_TAIL passed an index (R147)? At most half the index range lies between them. Log entry 17:
DEDUCED. -/
def tailPassed (tail : Word) (i : Nat) : Bool :=
  let d := (tail - BitVec.ofNat 32 i).toNat
  decide (0 < d ∧ d < 2 ^ 31)

/-- R147, R150: the next descriptor is fetched, once DR_TAIL has passed its index and at most 16 ahead of issue. A
fetch that fails writes a CORRUPT record of TYPE 0, sets FETCH_ERR and HALT, and the index is passed over; the rule
names an uncorrectable error, and a ring that cannot be read for another reason is treated the same. The record's TAG is
free: the header was not read. While the descriptor or that record's slot is held, nothing is fetched. Log entries 18:
DESIGN CHOICE, 246: DEDUCED. -/
def descriptorFetch (n : Nat) (s : State) : State :=
  s.onCore n fun s ph =>
    let c := s.core ph
    let i := c.fetchNext
    let lo := s.reg (pCore ph + 0x048)
    let hi := s.reg (pCore ph + 0x04C)
    let off := (i % s.ringSize ph) * 64
    if !tailPassed (s.reg (pCore ph + 0x058)) i || decide (c.fetched.length ≥ 16) then s
    else if s.ringHeld ph lo hi off 64 || s.recordHeld ph i then s
    else
      let r := s.ringRead ph lo hi off 64
      if r.status = 0 then
        r.st.modCore ph fun c => { c with fetched := c.fetched ++ [⟨i, wordsOf 16 r.data⟩], fetchNext := add32 i 1 }
      else
        let (ctr, s) := r.st.draw
        let s := s.putRecord ph i 0 ((Config.freeWord ctr).toNat % 65536) (Rec.of 7)
        let s := s.modCore ph fun c => { c with fetchNext := add32 i 1, fails := c.fails + 1 }
        let s := if c.fetched.isEmpty then s.setReg (pCore ph + 0x054) (BitVec.ofNat 32 (add32 i 1)) else s
        (s.fset (pCore ph) F.SQ_STAT_FETCH_ERR 1).fset (pCore ph) F.SQ_CTRL_HALT 1

/-- R11: a descriptor with a reserved type code issues, executes nothing and completes REFUSED with reason 0x01. -/
def reservedType (n : Nat) (s : State) : State :=
  s.onCore n fun s ph =>
    match s.head ph with
    | some f =>
      if (hType f.words == 0 || decide (hType f.words ≥ 12)) && s.waitOk ph f.words then
        s.issueDone ph f (Rec.refused 1)
      else s
    | none => s

/-- Enabled waits of a SYNC, counts on the same counter added (R180). -/
def sumWaits (ws : List (Nat × Nat)) : List (Nat × Nat) :=
  ws.foldl (fun a w =>
    if a.any fun x => x.1 == w.1 then modFirst (fun x => x.1 == w.1) (fun x => (x.1, x.2 + w.2)) a else a ++ [w]) []

/-- Are all the waits of a SYNC satisfied, its header wait among them, on counters that are not locked (R344)? -/
def State.syncOk (s : State) (ph : Nat) (w : List Word) : Bool :=
  (sumWaits ((if hWaitEn w then [(hWaitTok w, hWaitCnt w)] else []) ++ syncWaits w)).all
    fun x => decide (x.2 ≤ s.tok ph x.1) && !s.lockedReg (tokAddr ph x.1)

/-- R155: a header wait or SYNC wait has blocked the head of the ring for SQ_WAIT_TMO; it completes as TIMEOUT without
consuming a count; a FENCE's record still holds FAILS (R158). The value 0 disables the timeout. Nothing happens while the
record's slot is held. Log entries 5: DESIGN CHOICE, 19: DEDUCED, 246: DEDUCED. -/
def waitTimeout (n : Nat) (s : State) : State :=
  s.onCore n fun s ph =>
    match s.head ph with
    | some f =>
      if s.fget (pCore ph) F.SQ_WAIT_TMO_US = 0 ∨ s.recordHeld ph f.idx ∨
        (s.waitOk ph f.words ∧ (hType f.words ≠ tSYNC ∨ s.syncOk ph f.words)) then s
      else
        let w2 := if hType f.words = tFENCE then (s.core ph).fails % 2 ^ 32 else 0
        ((s.popHead ph).recordFor ph f.idx f.words ⟨9, 0, 0, w2, none⟩).fset (pCore ph) F.SQ_STAT_WAIT_TMO 1
    | none => s

/-- The payload of a SIG (R303). Log entry 102: DESIGN CHOICE. -/
def sigPayload (core tok count : Nat) : Word :=
  BitVec.ofNat 32 (core % 1024 * 2 ^ 22 + tok % 64 * 2 ^ 16 + count % 256)

/-- A SYNC signal answered with a status: the SYNC completes when every signal is answered (R180, R565). -/
def State.syncDone (s : State) (ph idx status detail : Nat) : State :=
  match s.infl ph idx with
  | none => s
  | some e =>
    match e.prog with
    | .sync left fail =>
      let fail := if status ≠ 0 ∧ fail.isNone then some (status, detail) else fail
      if left ≤ 1 then
        s.complete ph e (match fail with | some f => ⟨f.1, 0, f.2, 0, none⟩ | none => Rec.of 0)
      else s.modInfl ph idx fun e => { e with prog := .sync (left - 1) fail }
    | _ => s

/-- R182: a FENCE issues once every earlier descriptor has its record, reports FAILS and may set HALT. -/
def fence (n : Nat) (s : State) : State :=
  s.onCore n fun s ph =>
    match s.issuable ph fun w => hType w == tFENCE with
    | none => s
    | some f =>
      if !(s.core ph).inflight.isEmpty then s
      else
        let fails := (s.core ph).fails
        let s := (s.issueDone ph f ⟨0, 0, 0, fails % 2 ^ 32, none⟩).modCore ph fun c => { c with fails := 0 }
        if bit (wd f.words 2) 0 then s.fset (pCore ph) F.SQ_CTRL_HALT 1 else s

/-- A descriptor ended by a core reset: ABORTED, with what a running MATMUL's attempts leave (R127, R158). One whose record
only waits for its slot keeps that record. -/
def State.abortInfl (s : State) (m : Mx) (ph : Nat) (e : Infl) : State :=
  if e.prog.isDone then s
  else match [m.tail, m.pass].reduceOption.find? fun p => p.idx == e.idx && hType e.words == tMATMUL with
  | some p => (s.passRegs ph (matmulD e.words) p).complete ph e (p.record 2)
  | none => s.complete ph e (Rec.of 2)

/-- R193: a core reset: in-flight descriptors complete as ABORTED; tokens, anchor table, flags and RC counters clear, SP_ECC
among them; the matrix engine is IDLE, with SAVE_ERR 0, and a PREEMPT still 1 is found by the next MATMUL; HALT is 1. Log
entry 239: DESIGN CHOICE. -/
def State.coreReset (s : State) (ph : Nat) : State :=
  let p := pCore ph
  let m := s.mx ph
  let s := s.setMx ph Mx.init
  let s := (s.core ph).inflight.foldl (fun s e => s.abortInfl m ph e) s
  let s := s.dropReqs fun r => match r.owner with
    | .move c _ _ _ _ | .chain c _ _ | .sync c _ => c == ph
    | _ => false
  let s := { s with zwk := { s.zwk with outs := s.zwk.outs.filter fun o => !(o.phys == ph && o.final.isNone) } }
  let s := (List.range 64).foldl (fun s t => s.setTok ph t 0) s
  let s := s.clearAnchors ph
  let s := [0x100, 0x104, 0x108].foldl (fun s o => s.setReg (p + o) 0) s
  let s := coreRegs.foldl (fun s r => r.fields.foldl (fun s f =>
    if f.acc = .rc then s.setReg (p + r.off) (setBits (s.reg (p + r.off)) f.hi f.lo 0) else s) s) s
  s.fset p F.SQ_CTRL_HALT 1

end Sys2Proof.Machine
end

