-- ==== Sys2Proof/Machine/Clove.lean ====
section
/-! DEFINITION. Clove: the write-intent log, slot states, conflicts, votes, decisions and their messages, and the TXN
descriptors (R333 to R355), with the outcome of a step transaction (R218 to R222). -/

namespace Sys2Proof.Machine

/-! ### Flags and step registers -/

/-- The physical core whose page holds a register address, and the offset in the page. -/
def coreOfAddr (a : Nat) : Option (Nat × Nat) :=
  if pCore 0 ≤ a ∧ a < pCore 1088 then some ((a - pCore 0) / 0x4000, a % 0x4000) else none

/-- Bits cleared in one register of every serving core whose number satisfies p (R69). -/
def State.clearInCores (s : State) (offs : List Nat) (mask : Word) (p : Nat → Bool) : State :=
  { s with regs := s.regs.filterMap fun e =>
      match coreOfAddr e.1 with
      | some (i, o) =>
        if offs.contains o && p i && (s.units.posOfPhys i).isSome then
          let w := e.2 &&& ~~~ mask
          if w = regRst e.1 then none else some (e.1, w)
        else some e
      | none => some e }

/-- The OR of one register over the serving cores whose number satisfies p (R68). -/
def State.orOfCores (s : State) (off : Nat) (p : Nat → Bool) : Word :=
  s.regs.foldl (fun a e =>
    match coreOfAddr e.1 with
    | some (i, o) => if o == off && p i && (s.units.posOfPhys i).isSome then a ||| e.2 else a
    | none => a) 0

/-- A step transaction opens (R218). -/
def State.stepOpen (s : State) : State :=
  (s.fset pGctl F.GCTL_STEP_STAT_OPEN 1).clearInCores [0x100, 0x104, 0x108] 0xC fun _ => true

/-- The words a step vote carries: STEP_VER, EXP, GOOD (R220). -/
def State.stepWords (s : State) : Nat × Nat × Nat :=
  (s.fget pGctl F.GCTL_STEP_VER_VER, s.fget pGctl F.GCTL_LSCALE_EXP, s.fget pGctl F.GCTL_LS_GOOD_GOOD)

/-- EXP changed by one within MIN and MAX (R222). -/
def State.expStep (s : State) (d : Int) : State × Bool :=
  let e := sint 8 (s.fget pGctl F.GCTL_LSCALE_EXP)
  let lo := sint 8 (s.fget pGctl F.GCTL_LSCALE_MIN)
  let hi := sint 8 (s.fget pGctl F.GCTL_LSCALE_MAX)
  let n := e + d
  if (0 < d ∧ hi < n) ∨ (d < 0 ∧ n < lo) then (s, false)
  else (s.fset pGctl F.GCTL_LSCALE_EXP (ofSint 8 n), true)

/-- The outcome of a step transaction applied in the commit cycle (R221). -/
def State.stepOutcome (s : State) (o : Outcome4) : State :=
  let s := s.fset pGctl F.GCTL_STEP_STAT_OPEN 0
  match o with
  | .committed =>
    let s := s.setReg (pGctl + 0x1C0) (s.reg (pGctl + 0x1C0) + 1)
    let g := s.fget pGctl F.GCTL_LS_GOOD_GOOD + 1
    let iv := s.fget pGctl F.GCTL_LS_GOOD_INTERVAL
    let (s, rose) := if iv ≠ 0 ∧ iv ≤ g then s.expStep 1 else (s, false)
    let s := s.fset pGctl F.GCTL_LS_GOOD_GOOD (if rose then 0 else sat 16 g)
    (s.fset pGctl F.GCTL_STEP_STAT_LAST 1).send (.pin 6 true)
  | .skipped =>
    let s := (s.expStep (-1)).1
    let s := s.fset pGctl F.GCTL_LS_GOOD_GOOD 0
    (s.fset pGctl F.GCTL_STEP_STAT_LAST 2).finc pGctl F.GCTL_STEP_STAT_SKIPS
  | .aborted => s.fset pGctl F.GCTL_STEP_STAT_LAST 3
  | .conflict => s.fset pGctl F.GCTL_STEP_STAT_LAST 3

/-! ### Messages (R349) -/

def kJOIN : Nat := 1
def kVOTE : Nat := 2
def kDECIDE : Nat := 3
def kACK : Nat := 4
def kQUERY : Nat := 5

/-- The words a received message spells. -/
structure CloveMsg where
  kind : Nat
  slot : Nat
  seq : Nat
  code : Nat
  members : Nat
  step : Nat × Nat × Nat
deriving DecidableEq, Repr

def cloveMsg (bs : List Byte) : CloveMsg :=
  let w := wordsOf 8 bs
  ⟨bits (wd w 0) 31 28, bits (wd w 0) 27 24, bits (wd w 0) 15 0, bits (wd w 1) 31 24, bits (wd w 1) 12 0,
   ((wd w 2).toNat, bits (wd w 3) 31 24, bits (wd w 3) 15 0)⟩

/-- The payload of a message. Log entry 102: DESIGN CHOICE. -/
def cloveBytes (kind slot seq code members : Nat) (st : Nat × Nat × Nat) : List Byte :=
  leBytes 4 (kind * 2 ^ 28 + slot % 16 * 2 ^ 24 + seq % 65536) ++ leBytes 4 (code % 256 * 2 ^ 24 + members % 8192)
    ++ leBytes 4 st.1 ++ leBytes 4 (st.2.1 % 256 * 2 ^ 24 + st.2.2 % 65536) ++ leBytes 16 0

/-- A message sent to a module; a request that fails at once has no further effect on the slot. Log entry 103:
DEDUCED. -/
def State.cloveSend (s : State) (n lid kind code : Nat) : State :=
  let x := s.slot n
  let st := if x.step && kind == kVOTE then x.stepWords else (0, 0, 0)
  let mem := if kind = kJOIN then x.members else 0
  (s.request opMSG 0 (lid * 2 ^ 44) 32 (cloveBytes kind n x.seq code mem st) (some n) (.clove n)).1

/-! ### Codes -/

def voteCommit : Nat := 0
def voteNumeric : Nat := 1
def voteOther : Nat := 2
def voteConflict : Nat := 3

/-- The vote code of an abort cause (R346, R349). -/
def causeVote (c : Nat) : Nat := if c = 1 then voteNumeric else if c = 3 then voteConflict else voteOther

/-- The DECIDE code of an outcome. -/
def Outcome4.code : Outcome4 → Nat
  | .committed => 0x10 | .skipped => 0x11 | .aborted => 0x12 | .conflict => 0x13

/-- The outcome a DECIDE code names. -/
def outcomeOf : Nat → Option Outcome4
  | 0x10 => some .committed | 0x11 => some .skipped | 0x12 => some .aborted | 0x13 => some .conflict | _ => none

/-- The status of a COMMIT or ABORT record (R346). -/
def Outcome4.status : Outcome4 → Nat
  | .committed => 0 | .skipped => 2 | .aborted => 2 | .conflict => 0x10

/-! ### Ending a transaction -/

/-- Every core attached to slot n is detached. -/
def State.detachAll (s : State) (n : Nat) : State :=
  s.cores.foldl (fun s e =>
    if e.2.attach = some n then s.setCore e.1 { e.2 with attach := none } else s) s

/-- The record of this module's COMMIT or ABORT, when one waits; the slot is FREE. -/
def State.slotFree (s : State) (n : Nat) : State :=
  let x := s.slot n
  let s := s.setSlot n { x with st := .free, waiter := none, log := [] }
  match x.waiter, x.outcome with
  | some (ph, idx), some o =>
    match s.infl ph idx with
    | some e => s.complete ph e (Rec.of (if o = .committed ∧ x.corrupt then 7 else o.status))
    | none => s
  | _, _ => s

/-- The counts of an ended transaction (R355). -/
def State.countEnd (s : State) (o : Outcome4) : State :=
  if o = .committed then s.finc pClv F.CLV_CNT0_COMMITS else s.finc pClv F.CLV_CNT0_ABORTS

/-- A decision takes effect at this module in its commit cycle (R342, R347). -/
def State.applyDecision (s : State) (n : Nat) (o : Outcome4) : State :=
  let x := s.slot n
  let outcome := fun (s : State) =>
    let s := (s.modSlot n fun x => { x with outcome := some o }).countEnd o
    if x.step then s.stepOutcome o else s
  let ended := fun (s : State) => if x.waiter.isSome || x.coll.isSome then s.slotFree n else s
  match x.st with
  | .opened =>
    if o = .committed then s
    else
      let s := (s.modSlot n fun x => { x with st := .ended, log := [] }).detachAll n
      ended (outcome s)
  | .prepared =>
    if o = .committed then outcome (s.modSlot n fun x => { x with st := .applying })
    else (outcome (s.modSlot n fun x => { x with log := [] })).slotFree n
  | .ended => if x.outcome.isSome then s else ended (outcome s)
  | _ => s

/-- A coordinator or LOCAL transaction decides: the decision goes to every joined member and takes effect here (R346,
R347, R350). -/
def State.decideOutcome (s : State) (n : Nat) (o : Outcome4) : State :=
  let s := ((s.slot n).joined.filter (·.joined)).foldl (fun s m => s.cloveSend n m.lid kDECIDE o.code) s
  let s := s.modSlot n fun x => { x with joined := x.joined.map fun m => if m.joined then { m with sends := 1 } else m }
  s.applyDecision n o

/-- The outcome that the votes held and this module's own vote give (R346). -/
def Slot.verdict (x : Slot) : Outcome4 :=
  let votes := x.joined.filterMap (·.vote) ++ x.voted.toList
  if votes.contains voteConflict then .conflict
  else if votes.contains voteOther || x.cause == 6 || x.cause == 7 || x.cause == 8 then .aborted
  else if votes.contains voteNumeric then .skipped
  else .committed

/-- Do the step votes held disagree (R220)? -/
def Slot.disagree (x : Slot) : Bool :=
  let ws := (x.joined.filter fun m => m.vote.isSome).map (·.stepWords) ++ (if x.voted.isSome then [x.stepWords] else [])
  x.step && ws.any fun w => ws.any fun v => w != v

/-- CAUSE is recorded once. -/
def Slot.withCause (x : Slot) (c : Nat) : Slot := if x.cause = 0 then { x with cause := c } else x

/-- Commit votes that count: of joined modules and this module's own (R346). -/
def Slot.commits (x : Slot) : Nat := (x.joined.filter fun m => m.joined && m.vote == some voteCommit).length + b2n x.voted.isSome

/-- The coordinator decides as soon as R346 lets it: an abort vote of any module decides; step votes that disagree abort as
other whatever they are (R220). -/
def State.tryDecide (s : State) (n : Nat) : State :=
  let x := s.slot n
  if !x.isCoord || x.outcome.isSome || x.st == .free || x.st == .applying then s
  else
    let votes := x.joined.filterMap (·.vote) ++ x.voted.toList
    if x.joins > x.members then
      let y := x.withCause 8
      (s.setSlot n y).decideOutcome n { y with cause := 8 }.verdict
    else if x.disagree then
      let y := x.withCause 7
      (s.setSlot n y).decideOutcome n { y with cause := 7 }.verdict
    else if votes.any (· != voteCommit) then s.decideOutcome n x.verdict
    else if x.voted.isSome && decide ((if x.hall then x.members else 1) ≤ x.commits) then s.decideOutcome n .committed
    else s

/-- This module votes: the coordinator and a LOCAL transaction may decide in this cycle, a member sends VOTE. -/
def State.castVote (s : State) (n code : Nat) : State :=
  let s := s.modSlot n fun x => { x with voted := some code, stepWords := s.stepWords }
  if (s.slot n).isCoord then s.tryDecide n else s.cloveSend n (s.slot n).coord kVOTE code

/-- An OPEN slot takes an abort cause (R342). -/
def State.slotAbort (s : State) (n cause : Nat) : State :=
  if (s.slot n).st ≠ .opened then s
  else
    let s := (s.modSlot n fun x => { x.withCause cause with st := .ended, log := [] }).detachAll n
    let s := if cause = 3 then (s.finc pClv F.CLV_CNT1_CONFLICTS).event pClv F.CLV_PG_EVT_CONFLICT else s
    s.castVote n (causeVote cause)

/-! ### Logging (R339, R340) -/

/-- Log space of an entry: 32 bytes and its payload rounded up to 32. Log entry 111: DEDUCED. -/
def LogEntry.space : LogEntry → Nat
  | .mem _ d => 32 + 32 * cdiv d.length 32
  | .reg _ _ => 64
  | .signal _ => 64
  | .doorbell _ _ => 32

/-- Write data of an entry. Log entry 111: DEDUCED. -/
def LogEntry.size : LogEntry → Nat
  | .mem _ d => d.length
  | .reg _ _ => 4
  | _ => 0

/-- Log space in use by every slot. -/
def State.logUse (s : State) : Nat :=
  (List.range 16).foldl (fun a n => (s.slot n).log.foldl (fun a e => a + e.space) a) 0

/-- A target logs an entry under a slot and answers with a status and DETAIL (R339, R340, R345). Log entry 109:
DEDUCED. -/
def State.logEntry (s : State) (n : Nat) (e : LogEntry) : State × Nat × Nat :=
  let x := s.slot n
  match x.st with
  | .free => (s, 4, 0x55)
  | .opened =>
    if x.bytes + e.size > 2 ^ 28 then (s.slotAbort n 5, 0x0C, 0)
    else if s.logUse + e.space > 2 ^ 30 then
      ((s.event pClv F.CLV_PG_EVT_LOG_FULL).slotAbort n 5, 0x0C, 0)
    else
      let hit := s.lockedEntries.any fun y => s.meets y e
      let s := s.setSlot n { x with log := x.log ++ [e], bytes := x.bytes + e.size }
      (if hit then s.slotAbort n 3 else s, 0, 0)
  | _ => (s, 2, 0)

/-- Actions counted at the issuing module; beyond 4,096 the slot takes cause NO_RESOURCE (R334, R340). Log entry 114:
DEDUCED. -/
def State.countActions (s : State) (n k : Nat) : State × Bool :=
  let x := s.slot n
  if x.actions + k > 4096 then (s.slotAbort n 5, false)
  else (s.setSlot n { x with actions := x.actions + k }, true)

/-! ### SYNC (R180, R338) -/

/-- Does a write or signal under slot txn leave a LOCAL transaction's module (R335, R337)? -/
def State.outOfScope (s : State) (txn : Option Nat) : Bool :=
  match txn with
  | some t => !(s.slot t).hall
  | none => false

/-- One signal of a SYNC sent by a physical core: done, refused at once, or waiting for its answer; a LOCAL transaction
signals to no other module (R335, R337). Log entry 20: DEDUCED. -/
def State.sendSig (s : State) (ph idx : Nat) (txn : Option Nat) (g : SyncSig) : State × Option (Nat × Nat) × Bool :=
  if g.toLocal || g.module == s.lid then
    match txn with
    | some n =>
      if (s.phys g.core).isNone then (s.slotAbort n 4, some (0x0B, 0), false)
      else
        let (s, st, d) := s.logEntry n (.signal (sigPayload g.core g.token g.count))
        if st = 0 then (s, none, false) else (s.slotAbort n 4, some (st, d), false)
    | none =>
      let r := s.signalCore g.core g.token g.count
      if r.2 = 0 then (r.1, none, false)
      else (r.1.captureFail r.2 0 0 0 ((r.1.logical ph).getD 0) s.lid, some (r.2, 0), false)
  else
    let r := if s.outOfScope txn then (s, some (4, 0x55))
      else s.request opSIG 0 (g.module * 2 ^ 44) 4 (leBytes 4 (sigPayload g.core g.token g.count).toNat) txn (.sync ph idx)
    match r with
    | (s, none) => (s, none, true)
    | (s, some f) => (match txn with | some n => s.slotAbort n 4 | none => s, some f, false)

/-- R180: a SYNC at the head whose enabled waits are all satisfied consumes them together, sends its enabled signals
and completes once every remote one is answered. Log entries 20: DEDUCED, 114: DEDUCED. -/
def sync (n : Nat) (s : State) : State :=
  s.onCore n fun s ph =>
    match s.issuable ph fun w => hType w == tSYNC with
    | none => s
    | some f =>
      if !s.syncOk ph f.words then s
      else
        let s := s.issue ph f .queued
        let s := (sumWaits (syncWaits f.words)).foldl (fun s w => s.setTok ph w.1 (s.tok ph w.1 - w.2)) s
        let txn := (s.core ph).attach
        let sigs := syncSigs f.words
        let cnt := match txn with | some t => s.countActions t sigs.length | none => (s, true)
        let s := cnt.1
        let e : Infl := ⟨f.idx, f.words, .queued, txn⟩
        if !cnt.2 then s.complete ph e (Rec.of 0x0C)
        else
          let r := sigs.foldl (fun (a : State × Option (Nat × Nat) × Nat) g =>
            if txn.isSome && a.2.1.isSome then a
            else
              let (s, f, w) := a.1.sendSig ph e.idx txn g
              (s, if a.2.1.isSome then a.2.1 else f, a.2.2 + b2n w)) (s, none, 0)
          if r.2.2 = 0 then
            r.1.complete ph e (match r.2.1 with | some f => ⟨f.1, 0, f.2, 0, none⟩ | none => Rec.of 0)
          else r.1.modInfl ph e.idx fun e => { e with prog := .sync r.2.2 r.2.1 }

/-! ### TXN descriptors (R336, R337) -/

/-- Reserved OPs are taken with BEGIN. -/
def txnOpIs (op : Nat) (w : List Word) : Bool :=
  hType w == tTXN && ((txnD w).op == op || (op == 0 && decide ((txnD w).op ≥ 6)))

/-- Does a non-BEGIN OP name a slot that holds its SEQ? -/
def State.txnSlotOk (s : State) (d : TxnD) : Bool := (s.slot d.slot).st != .free && (s.slot d.slot).seq == d.seq

/-- A page that REG actions may not name (R337): CDM, SEC, SAF0 to SAF4, SUMAC, PWR, CLK, or no register. -/
def State.regDenied (s : State) (a : Nat) : Bool :=
  match pageOf a with
  | none => true
  | some (b, i) =>
    b == .cdm || b == .sec || b == .saf || b == .sumac || b == .pwr || b == .clk ||
    (b == .core && (s.phys i).isNone) || (b.regAt (a % 0x400)).isNone || a % 4 != 0

/-- The register-window offset that a REG action names (R336). -/
def TxnD.regOff (d : TxnD) : Nat := bits d.target 25 0

/-- The failed checks of a TXN, lowest first (R337). -/
def State.txnReasons (s : State) (ph : Nat) (d : TxnD) : List Nat :=
  let on := fun (b : Bool) (n : Nat) => if b then [n] else []
  let x := s.slot d.slot
  on (decide (d.op ≥ 6) || (d.op == 3 && d.kind == 3) || (d.op == 0 && d.hall && (d.members == 0 || decide (d.members > 4096)))) 0x50
  ++ on (d.op == 0 && x.st != .free) 0x51
  ++ on (decide (1 ≤ d.op ∧ d.op ≤ 5) && (!s.txnSlotOk d
        || (d.op == 1 && (s.core ph).attach.isSome)
        || ((d.op == 1 || d.op == 3) && x.voted.isSome)
        || ((d.op == 4 || d.op == 5) && (x.voted == some voteCommit || x.ended)))) 0x52
  ++ on (d.op == 0 && d.step && (List.range 16).any fun n => (s.slot n).st != .free && (s.slot n).step) 0x53
  ++ on (d.op == 3 && d.kind == 0 && s.regDenied d.regOff) 0x54
  ++ on (d.op == 3 && !x.hall && !d.toLocal && d.module != s.lid) 0x55
  ++ on (s.fget pClv F.CLV_CFG_EN == 0) 0x56

/-- BEGIN binds the slot; a HALL member other than the coordinator sends JOIN; STEP opens a step (R342). Log entry 106:
DEDUCED. -/
def State.bindSlot (s : State) (d : TxnD) : State :=
  let me := s.lid
  let isCo := !d.hall || d.coord == me
  let s := s.setSlot d.slot { Slot.init with st := .opened, seq := d.seq, hall := d.hall, step := d.step,
                                             coord := if d.hall then d.coord else me, isCoord := isCo,
                                             members := if d.hall then d.members else 1 }
  let s := if isCo then s else s.cloveSend d.slot d.coord kJOIN 0
  if d.step then s.stepOpen else s

/-- The entry a local ACTION logs. -/
def TxnD.entry (d : TxnD) : LogEntry :=
  match d.kind with
  | 0 => .reg (regAlias d.regOff) d.value
  | 1 => .doorbell (if bit d.target 8 then .b else .a) (bits d.target 4 0)
  | _ => .signal d.target

/-- The SET view of a port's F2H_DB, which carries a DOORBELL action to another module. -/
def doorbellAddr (p : HostPort) : Nat := pMbx p + 0x10D0

/-- A TXN at the head issues: refused, or its effect at issue: BEGIN opens the slot, ATTACH and DETACH change the core's
attachment, an ACTION is counted, and a COMMIT or ABORT is the slot's only one (R334, R337, R338, R340, R342). Log entry
107: DEDUCED. -/
def State.txnIssue (s : State) (ph : Nat) (f : Fetched) : State :=
  let d := txnD f.words
  match s.txnReasons ph d with
  | r :: _ => s.issueDone ph f (Rec.refused r)
  | [] =>
    let e : Infl := ⟨f.idx, f.words, .queued, (s.core ph).attach⟩
    let s := s.issue ph f .queued
    match d.op with
    | 0 => s.bindSlot d
    | 1 => s.modCore ph fun c => { c with attach := some d.slot }
    | 2 => s.modCore ph fun c => { c with attach := if c.attach = some d.slot then none else c.attach }
    | 3 =>
      let (s, room) := s.countActions d.slot 1
      if room then s else s.complete ph e (Rec.of 0x0C)
    | _ => s.modSlot d.slot fun x => { x with ended := true }

/-- An ACTION runs: logged at its target (R333, R339). -/
def State.actionRun (s : State) (ph : Nat) (e : Infl) (d : TxnD) : State :=
  let fail := fun (s : State) (f : Nat × Nat) => (s.slotAbort d.slot 4).complete ph e ⟨f.1, 0, f.2, 0, none⟩
  if d.toLocal || d.module == s.lid then
    if d.kind == 2 && (s.phys (bits d.target 31 22)).isNone then
      fail (s.captureFail 0x0B 0 0 0 ((s.logical ph).getD 0) s.lid) (0x0B, 0)
    else
      let (s, st, det) := s.logEntry d.slot d.entry
      if st = 0 then s.complete ph e (Rec.of 0) else fail s (st, det)
  else
    let g := d.module * 2 ^ 44
    let (s, r) := match d.kind with
      | 0 => s.request opWR 0 (g + regBase + regAlias d.regOff) 4 (leBytes 4 d.value.toNat) (some d.slot) (.sync ph e.idx)
      | 1 => s.request opWR 0 (g + regBase + doorbellAddr (if bit d.target 8 then .b else .a)) 4
          (leBytes 4 (2 ^ bits d.target 4 0)) (some d.slot) (.sync ph e.idx)
      | _ => s.request opSIG 0 g 4 (leBytes 4 d.target.toNat) (some d.slot) (.sync ph e.idx)
    match r with
    | none => s.modInfl ph e.idx fun e => { e with prog := .sync 1 none }
    | some f => fail s f

/-- Every descriptor issued under an attachment to slot n has its record (R343): all but the COMMIT or ABORT itself, what
waits behind it at its port, and the COLL whose slot it is. Log entry 108: DEDUCED. -/
def State.attachedDone (s : State) (n : Nat) : Bool :=
  s.cores.all fun c => c.2.inflight.all fun e =>
    e.txn != some n || (hType e.words == tCOLL && (s.slot n).coll.isSome)
      || (hType e.words == tTXN && ((txnD e.words).op != 3 || e.prog == .queued))

/-- A GUARDED RULE or FOLD is issued and has no record (R219, R220). -/
def State.guardedBusy (s : State) : Bool :=
  s.cores.any fun c => c.2.inflight.any fun e =>
    hType e.words == tUPDATE && bit (wd e.words 2) 23 && (bits (wd e.words 2) 31 28 == 0 || bits (wd e.words 2) 31 28 == 3)

/-- The cause of a step transaction's abort vote at prepare; 0 votes commit (R220). -/
def State.stepCause (s : State) : Nat :=
  if [0x100, 0x104, 0x108].any fun o => (s.orOfCores o fun _ => true) &&& 0xC != 0 then 1
  else if s.guardedBusy then 10 else 0

/-- A slot prepares on this module (R342, R343, R345): it votes, locks, and every other OPEN slot that holds an entry
for the same burst or register takes cause CONFLICT. -/
def State.prepareNow (s : State) (n : Nat) : State :=
  let x := s.slot n
  if x.st ≠ .opened ∨ !s.attachedDone n then s
  else
    let c := if x.step then s.stepCause else 0
    if c ≠ 0 then s.slotAbort n c
    else
      let s := (s.modSlot n fun x => { x with st := .prepared }).detachAll n
      let s := (List.range 16).foldl (fun s m =>
        let y := s.slot m
        if m ≠ n ∧ y.st = .opened ∧ (y.log.any fun a => x.log.any fun b => s.meets a b) then s.slotAbort m 3 else s) s
      s.castVote n voteCommit

/-- A slot whose COMMIT waits prepares once its attached descriptors have their records (R343). -/
def State.prepare (s : State) (n : Nat) : State := if (s.slot n).waiter.isNone then s else s.prepareNow n

/-- A COMMIT or ABORT runs: its record waits for the decision, which an ENDED slot may hold; a COMMIT prepares its slot, an
ABORT gives it an abort cause (R342, R343). -/
def State.endRun (s : State) (ph : Nat) (e : Infl) (d : TxnD) : State :=
  let s := s.modInfl ph e.idx fun e => { e with prog := .sync 0 none }
  let s := s.modSlot d.slot fun x => { x with waiter := some (ph, e.idx) }
  let x := s.slot d.slot
  if x.st = .ended ∧ x.outcome.isSome then s.slotFree d.slot
  else if d.op = 4 then s.prepare d.slot else s.slotAbort d.slot 2

/-- The TXN at the front of a core's Clove port runs, or goes on (R149); one whose slot was released by force meanwhile is
REFUSED 0x52 (R353). -/
def State.txnGo (s : State) (ph : Nat) : State :=
  match s.queue ph tTXN with
  | [] => s
  | e :: _ =>
    let d := txnD e.words
    if e.prog = .queued then
      if d.op ≤ 2 then s.complete ph e (Rec.of 0)
      else if !s.txnSlotOk d then s.complete ph e (Rec.refused 0x52)
      else if d.op = 3 then s.actionRun ph e d
      else s.endRun ph e d
    else if e.prog = .sync 0 none ∧ d.op = 4 then s.prepare d.slot
    else s

/-- The Clove port of a core runs what it holds, one after another: at most four TXNs (R148, R149). -/
def State.txnNext (s : State) (ph : Nat) : State := (List.range 4).foldl (fun s _ => s.txnGo ph) s

/-- A TXN of an OP issues when it stands at the head of the ring, and the port goes on. -/
def State.txnStep (s : State) (n op : Nat) : State :=
  s.onCore n fun s ph =>
    match s.issuable ph (txnOpIs op) with
    | some f => (s.txnIssue ph f).txnNext ph
    | none => s.txnNext ph

/-- R342: BEGIN opens a slot. -/
def txnBegin (n : Nat) (s : State) : State := s.txnStep n 0

/-- R338: ATTACH makes the core's later MOVEs and SYNC signals actions of the slot. -/
def txnAttach (n : Nat) (s : State) : State := s.txnStep n 1

/-- R338: DETACH ends the attachment. -/
def txnDetach (n : Nat) (s : State) : State := s.txnStep n 2

/-- R333, R340: an ACTION is counted and logged at its target. -/
def txnAction (n : Nat) (s : State) : State := s.txnStep n 3

/-- R343: a COMMIT prepares its slot once the attached descriptors have their records. -/
def txnCommit (n : Nat) (s : State) : State := s.txnStep n 4

/-- R342: an ABORT gives the slot an abort cause and waits for the decision. -/
def txnAbort (n : Nat) (s : State) : State := s.txnStep n 5

/-! ### Received messages (R346 to R351) -/

/-- The slot of a message, when it holds the message's SEQ. -/
def State.cloveSlot (s : State) (m : CloveMsg) : Option Slot :=
  let x := s.slot m.slot
  if x.seq = m.seq ∧ (x.st ≠ .free ∨ x.outcome.isSome) then some x else none

/-- The entry of a module at its coordinator, made when there is none. -/
def Slot.heard (x : Slot) (lid : Nat) : Slot :=
  if x.joined.any fun j => j.lid == lid then x else { x with joined := x.joined ++ [⟨lid, false, none, (0, 0, 0), false, 0⟩] }

/-- A member joins; after a decision it is told at once. Log entry 104: DEDUCED. -/
def State.cloveJoin (s : State) (lid : Nat) (m : CloveMsg) : State :=
  let x := s.slot m.slot
  if !x.isCoord || !x.hall then s
  else
    let known := x.joined.any fun j => j.lid == lid && j.joined
    let x := x.heard lid
    let x := { x with joins := x.joins + 1,
                      joined := if known then x.joined else modFirst (fun j => j.lid == lid)
                        (fun j => { j with joined := true, sends := b2n x.outcome.isSome }) x.joined }
    let s := s.setSlot m.slot x
    match x.outcome with
    | some o => if known then s else s.cloveSend m.slot lid kDECIDE o.code
    | none => s.tryDecide m.slot

/-- The causes that a vote ABORT_OTHER may stand for (R355). -/
def otherCauses : List Nat := [2, 4, 5, 6, 7, 8, 9, 10]

/-- A vote reaches the coordinator, of a module that has joined or not. The CAUSE of a first abort vote of another kind than
numeric and conflict is not carried by the message: a free one of the causes it may stand for. Log entry 105: DESIGN CHOICE.
-/
def State.cloveVote (s : State) (lid : Nat) (m : CloveMsg) : State :=
  let x := s.slot m.slot
  if !x.isCoord || x.outcome.isSome || m.code > 3 then s
  else
    let (ctr, s) := if m.code = voteOther then s.draw else (0, s)
    let cause := if m.code = voteCommit then 0 else if m.code = voteNumeric then 1 else if m.code = voteConflict then 3
      else otherCauses.getD ((Config.freeWord ctr).toNat % 8) 2
    let x := (if m.code = voteCommit then x else x.withCause cause).heard lid
    let j := modFirst (fun j => j.lid == lid) (fun j => if j.vote.isSome then j else { j with vote := some m.code, stepWords := m.step }) x.joined
    (s.setSlot m.slot { x with joined := j }).tryDecide m.slot

/-- Has the table of slot states a row for a decision (R9, R342)? A FREE slot that holds an outcome acknowledges it again. Log
entry 110: DEDUCED. -/
def Slot.takes (x : Slot) (o : Outcome4) : Bool :=
  match x.st with
  | .opened => o != .committed
  | .applying => false
  | _ => true

/-- A decision reaches a member, which holds it and sends ACK. Log entry 110: DEDUCED. -/
def State.cloveDecide (s : State) (m : CloveMsg) : State :=
  let x := s.slot m.slot
  match outcomeOf m.code with
  | none => s
  | some o =>
    if x.isCoord || !x.takes o then s else (s.applyDecision m.slot o).cloveSend m.slot x.coord kACK 0

/-- An acknowledgement of a decision. -/
def State.cloveAck (s : State) (lid : Nat) (m : CloveMsg) : State :=
  s.modSlot m.slot fun x => { x with joined := modFirst (fun j => j.lid == lid) (fun j => { j with acked := true }) x.joined }

/-- A query: the coordinator answers with DECIDE when it has decided. -/
def State.cloveQuery (s : State) (lid : Nat) (m : CloveMsg) : State :=
  let x := s.slot m.slot
  match x.outcome with
  | some o => if x.isCoord then s.cloveSend m.slot lid kDECIDE o.code else s
  | none => s

/-- A Clove message of a kind reaches this module: its effect, and the status and DETAIL of its answer (R349). -/
def State.cloveReceive (s : State) (p : Packet) : State × Nat × Nat :=
  let m := cloveMsg p.payload
  match s.cloveSlot m with
  | none => (s, 4, 0x55)
  | some _ =>
    (match m.kind with
     | 1 => s.cloveJoin p.src m
     | 2 => s.cloveVote p.src m
     | 3 => s.cloveDecide m
     | 4 => s.cloveAck p.src m
     | 5 => s.cloveQuery p.src m
     | _ => s, 0, 0)

/-! ### Timeouts and force (R346, R350, R351, R353) -/

/-- R346: VOTE_TMO after the coordinator's own vote without all votes: it decides to abort. -/
def voteTimeout (n : SlotId) (s : State) : State :=
  let x := s.slot n
  if x.isCoord && x.hall && x.voted.isSome && x.outcome.isNone && x.st != .free then
    (s.setSlot n (x.withCause 6)).decideOutcome n { x with cause := 6 }.verdict
  else s

/-- R350: DECIDE again to each joined member without an ACK; after its sixteenth send a member is given up. -/
def decideResend (n : SlotId) (s : State) : State :=
  let x := s.slot n
  match x.outcome with
  | none => s
  | some o =>
    if !x.isCoord then s
    else
      let s := x.joined.foldl (fun s m =>
        if m.acked || !m.joined then s
        else if m.sends < 16 then s.cloveSend n m.lid kDECIDE o.code
        else if m.sends = 16 then
          let s := s.finc pClv F.CLV_CNT1_LOST
          let s := if s.fget pClv F.CLV_LOST_VALID = 1 then s
            else s.setReg (pClv + 0x060) (BitVec.ofNat 32 (2 ^ 31 + n.val * 4096 + m.lid))
          s.event pClv F.CLV_PG_EVT_MEMBER_LOST
        else s) s
      s.modSlot n fun x => { x with joined := x.joined.map fun m => if m.acked || !m.joined then m else { m with sends := min 17 (m.sends + 1) } }

/-- R351: a member PREPARED for DEC_TMO sets IN_DOUBT and sends QUERY. -/
def inDoubt (n : SlotId) (s : State) : State :=
  let x := s.slot n
  if x.st = .prepared ∧ x.hall ∧ !x.isCoord then
    (s.event pClv F.CLV_PG_EVT_IN_DOUBT).cloveSend n x.coord kQUERY 0
  else s

/-- An ENDED slot released by force: it ends here without a commit, and a COMMIT or ABORT that waits for its decision
completes as REFUSED 0x52 (R353, R355). -/
def State.forceFree (s : State) (n : Nat) : State :=
  let x := s.slot n
  let s := if x.outcome.isNone then s.finc pClv F.CLV_CNT0_ABORTS else s
  let s := s.setSlot n { x with st := .free, waiter := none, log := [] }
  match x.waiter with
  | some (ph, idx) =>
    match s.infl ph idx with
    | some e => s.complete ph e (Rec.refused 0x52)
    | none => s
  | none => s

/-- R353: a forced decision. -/
def State.force (s : State) (act n : Nat) : State :=
  let x := s.slot n
  match act with
  | 1 =>
    if x.st = .opened ∨ x.st = .prepared then (s.setSlot n { x with cause := 9, forced := true }).applyDecision n .aborted else s
  | 2 => if x.st = .prepared then (s.setSlot n { x with forced := true }).applyDecision n .committed else s
  | 3 => if x.st = .ended then s.forceFree n else s
  | _ => s

end Sys2Proof.Machine
end

