-- ==== Sys2Proof/Machine/Crypto.lean ====
section
/-! DEFINITION. The public standards that the security chapter names: SHA-384 (FIPS 180-4), AES-256 (FIPS 197), GCM
(SP 800-38D), RSA with PSS and OAEP (RFC 8017). PRESUMED from those standards. The keys that the spec does not give and
the SLH-DSA signatures stay opaque. -/

namespace Sys2Proof.Machine

/-! ### SHA-384 -/

/-- The round constants of SHA-512. -/
def shaK : List Nat :=
  [0x428A2F98D728AE22, 0x7137449123EF65CD, 0xB5C0FBCFEC4D3B2F, 0xE9B5DBA58189DBBC,
   0x3956C25BF348B538, 0x59F111F1B605D019, 0x923F82A4AF194F9B, 0xAB1C5ED5DA6D8118,
   0xD807AA98A3030242, 0x12835B0145706FBE, 0x243185BE4EE4B28C, 0x550C7DC3D5FFB4E2,
   0x72BE5D74F27B896F, 0x80DEB1FE3B1696B1, 0x9BDC06A725C71235, 0xC19BF174CF692694,
   0xE49B69C19EF14AD2, 0xEFBE4786384F25E3, 0x0FC19DC68B8CD5B5, 0x240CA1CC77AC9C65,
   0x2DE92C6F592B0275, 0x4A7484AA6EA6E483, 0x5CB0A9DCBD41FBD4, 0x76F988DA831153B5,
   0x983E5152EE66DFAB, 0xA831C66D2DB43210, 0xB00327C898FB213F, 0xBF597FC7BEEF0EE4,
   0xC6E00BF33DA88FC2, 0xD5A79147930AA725, 0x06CA6351E003826F, 0x142929670A0E6E70,
   0x27B70A8546D22FFC, 0x2E1B21385C26C926, 0x4D2C6DFC5AC42AED, 0x53380D139D95B3DF,
   0x650A73548BAF63DE, 0x766A0ABB3C77B2A8, 0x81C2C92E47EDAEE6, 0x92722C851482353B] ++
  [0xA2BFE8A14CF10364, 0xA81A664BBC423001, 0xC24B8B70D0F89791, 0xC76C51A30654BE30,
   0xD192E819D6EF5218, 0xD69906245565A910, 0xF40E35855771202A, 0x106AA07032BBD1B8,
   0x19A4C116B8D2D0C8, 0x1E376C085141AB53, 0x2748774CDF8EEB99, 0x34B0BCB5E19B48A8,
   0x391C0CB3C5C95A63, 0x4ED8AA4AE3418ACB, 0x5B9CCA4F7763E373, 0x682E6FF3D6B2B8A3,
   0x748F82EE5DEFB2FC, 0x78A5636F43172F60, 0x84C87814A1F0AB72, 0x8CC702081A6439EC,
   0x90BEFFFA23631E28, 0xA4506CEBDE82BDE9, 0xBEF9A3F7B2C67915, 0xC67178F2E372532B,
   0xCA273ECEEA26619C, 0xD186B8C721C0C207, 0xEADA7DD6CDE0EB1E, 0xF57D4F7FEE6ED178,
   0x06F067AA72176FBA, 0x0A637DC5A2C898A6, 0x113F9804BEF90DAE, 0x1B710B35131C471B,
   0x28DB77F523047D84, 0x32CAAB7B40C72493, 0x3C9EBE0A15C9BEBC, 0x431D67C49C100D4C,
   0x4CC5D4BECB3E42B6, 0x597F299CFC657E2A, 0x5FCB6FAB3AD6FAEC, 0x6C44198C4A475817]

/-- The initial hash value of SHA-384. -/
def sha384Iv : List Nat :=
  [0xCBBB9D5DC1059ED8, 0x629A292A367CD507, 0x9159015A3070DD17, 0x152FECD8F70E5939,
   0x67332667FFC00B31, 0x8EB44A8768581511, 0xDB0C2E0D64F98FA7, 0x47B5481DBEFA4FA4]

/-- Sum modulo 2^64. -/
def add64 (a b : Nat) : Nat := (a + b) % 2 ^ 64

/-- Rotation right of a 64-bit word. -/
def rotr64 (n x : Nat) : Nat := (x >>> n) ||| ((x <<< (64 - n)) % 2 ^ 64)

/-- Complement of a 64-bit word. -/
def not64 (x : Nat) : Nat := 2 ^ 64 - 1 - x

def shaS0 (x : Nat) : Nat := rotr64 28 x ^^^ rotr64 34 x ^^^ rotr64 39 x
def shaS1 (x : Nat) : Nat := rotr64 14 x ^^^ rotr64 18 x ^^^ rotr64 41 x
def shaG0 (x : Nat) : Nat := rotr64 1 x ^^^ rotr64 8 x ^^^ (x >>> 7)
def shaG1 (x : Nat) : Nat := rotr64 19 x ^^^ rotr64 61 x ^^^ (x >>> 6)

/-- The message schedule: the last 16 words, newest first, and every word, newest first. -/
def shaSchedule (m : List Nat) : List Nat :=
  ((List.range 64).foldl (fun (w : List Nat) _ =>
    add64 (add64 (shaG1 (w.getD 1 0)) (w.getD 6 0)) (add64 (shaG0 (w.getD 14 0)) (w.getD 15 0)) :: w) m.reverse).reverse

/-- One round on the eight working words. -/
def shaRound (h : List Nat) (kw : Nat × Nat) : List Nat :=
  match h with
  | [a, b, c, d, e, f, g, hh] =>
    let t1 := add64 (add64 (add64 hh (shaS1 e)) ((e &&& f) ^^^ (not64 e &&& g))) (add64 kw.1 kw.2)
    let t2 := add64 (shaS0 a) ((a &&& b) ^^^ (a &&& c) ^^^ (b &&& c))
    [add64 t1 t2, a, b, c, add64 d t1, e, f, g]
  | _ => h

/-- One block of 128 bytes. -/
def shaBlock (h : List Nat) (blk : List Byte) : List Nat :=
  let m := (List.range 16).map fun i => beNat ((blk.drop (8 * i)).take 8)
  let r := (shaK.zip (shaSchedule m)).foldl shaRound h
  (h.zip r).map fun p => add64 p.1 p.2

/-- The blocks of a padded message, by fuel. -/
def chunksOf (n : Nat) : Nat → List Byte → List (List Byte)
  | 0, _ => []
  | f + 1, bs => if bs.isEmpty then [] else bs.take n :: chunksOf n f (bs.drop n)

/-- SHA-384: 48 bytes. Log entry 162: PRESUMED. -/
def sha384 (bs : List Byte) : List Byte :=
  let pad := (128 + 112 - (bs.length + 1) % 128) % 128
  let msg := bs ++ [0x80] ++ List.replicate pad 0 ++ beBytes 16 (8 * bs.length)
  let h := (chunksOf 128 (msg.length / 128) msg).foldl shaBlock sha384Iv
  (h.take 6).flatMap fun w => beBytes 8 w

/-! ### AES-256 and GCM -/

/-- Multiplication in GF(2^8) of AES, by fuel over the bits of the second factor. -/
def gmul8 : Nat → Nat → Nat → Nat
  | 0, _, _ => 0
  | f + 1, a, b =>
    let a2 := if a.testBit 7 then ((a <<< 1) % 256) ^^^ 0x1B else a <<< 1
    (if b.testBit 0 then a else 0) ^^^ gmul8 f a2 (b >>> 1)

def gf8 (a b : Nat) : Nat := gmul8 8 a b

/-- The inverse in GF(2^8): the 254th power. -/
def ginv (a : Nat) : Nat :=
  let a2 := gf8 a a
  let a4 := gf8 a2 a2
  let a8 := gf8 a4 a4
  let a16 := gf8 a8 a8
  let a32 := gf8 a16 a16
  let a64 := gf8 a32 a32
  let a128 := gf8 a64 a64
  gf8 (gf8 (gf8 a2 a4) (gf8 a8 a16)) (gf8 (gf8 a32 a64) a128)

def rotl8 (n x : Nat) : Nat := ((x <<< n) ||| (x >>> (8 - n))) % 256

/-- The S-box. -/
def subByte (a : Nat) : Nat :=
  let b := ginv a
  b ^^^ rotl8 1 b ^^^ rotl8 2 b ^^^ rotl8 3 b ^^^ rotl8 4 b ^^^ 0x63

/-- The key schedule of AES-256: 60 words of four bytes, newest first. -/
def aesExpand (key : List Nat) : List (List Nat) :=
  let w0 := (List.range 8).map fun i => (key.drop (4 * i)).take 4
  ((List.range 52).foldl (fun (ws : List (List Nat)) n =>
    let i := n + 8
    let prev := ws.getD 0 []
    let t := if i % 8 = 0 then
        let r := (prev.drop 1 ++ prev.take 1).map subByte
        let rc := (List.range (i / 8 - 1)).foldl (fun c _ => gf8 c 2) 1
        (r.getD 0 0 ^^^ rc) :: r.drop 1
      else if i % 8 = 4 then prev.map subByte
      else prev
    ((ws.getD 7 []).zip t |>.map fun p => p.1 ^^^ p.2) :: ws) w0.reverse).reverse

def xorList (a b : List Nat) : List Nat := (a.zip b).map fun p => p.1 ^^^ p.2

/-- ShiftRows on the 16 bytes of the state, column by column. -/
def shiftRows (s : List Nat) : List Nat :=
  (List.range 16).map fun i => s.getD ((i + 4 * (i % 4)) % 16) 0

def mixColumn (c : List Nat) : List Nat :=
  (List.range 4).map fun i =>
    gf8 (c.getD i 0) 2 ^^^ gf8 (c.getD ((i + 1) % 4) 0) 3 ^^^ c.getD ((i + 2) % 4) 0 ^^^ c.getD ((i + 3) % 4) 0

def mixColumns (s : List Nat) : List Nat := (List.range 4).flatMap fun i => mixColumn ((s.drop (4 * i)).take 4)

/-- AES-256 of one block under a 32-byte key. -/
def aes256 (key : List Nat) (blk : List Nat) : List Nat :=
  let ws := aesExpand key
  let rk := fun (r : Nat) => ((ws.drop (4 * r)).take 4).flatten
  let s := (List.range 13).foldl (fun s r => xorList (mixColumns (shiftRows (s.map subByte))) (rk (r + 1))) (xorList blk (rk 0))
  xorList (shiftRows (s.map subByte)) (rk 14)

/-- Multiplication in GF(2^128) of GHASH, most significant bit first. -/
def gmul128 (x y : Nat) : Nat :=
  ((List.range 128).foldl (fun (a : Nat × Nat) i =>
    let z := if x.testBit (127 - i) then a.1 ^^^ a.2 else a.1
    let v := if a.2.testBit 0 then (a.2 >>> 1) ^^^ (0xE1 <<< 120) else a.2 >>> 1
    (z, v)) (0, y)).1

/-- Bytes padded with zeros to a multiple of 16. -/
def pad16 (bs : List Byte) : List Byte := bs ++ List.replicate ((16 - bs.length % 16) % 16) 0

/-- GHASH of a byte string of whole blocks. -/
def ghash (h : Nat) (bs : List Byte) : Nat :=
  (chunksOf 16 (bs.length / 16) bs).foldl (fun y b => gmul128 (y ^^^ beNat b) h) 0

/-- The counter-mode stream of GCM over a text, from counter block j + 1 on. -/
def gcmCtr (key : List Nat) (iv : Nat) (bs : List Byte) : List Byte :=
  let blks := chunksOf 16 (cdiv bs.length 16) bs
  (blks.zip (List.range blks.length)).flatMap fun p =>
    let ks := aes256 key ((beBytes 12 iv ++ beBytes 4 (p.2 + 2)).map (·.toNat))
    (p.1.zip ks).map fun q => q.1 ^^^ BitVec.ofNat 8 q.2

/-- The tag of GCM over additional data and ciphertext. -/
def gcmTag (key : List Nat) (iv : Nat) (aad ct : List Byte) : List Byte :=
  let h := beNat ((aes256 key (List.replicate 16 0)).map (BitVec.ofNat 8))
  let s := ghash h (pad16 aad ++ pad16 ct ++ beBytes 8 (8 * aad.length) ++ beBytes 8 (8 * ct.length))
  let e := beNat ((aes256 key ((beBytes 12 iv ++ beBytes 4 1).map (·.toNat))).map (BitVec.ofNat 8))
  beBytes 16 (s ^^^ e)

/-- AES-256-GCM sealing: ciphertext and tag (R493). Log entry 162: PRESUMED. -/
def gcmSeal (key : List Byte) (iv : Nat) (aad pt : List Byte) : List Byte × List Byte :=
  let k := key.map (·.toNat)
  let ct := gcmCtr k iv pt
  (ct, gcmTag k iv aad ct)

/-- AES-256-GCM opening: plaintext, and whether the tag matches. -/
def gcmOpen (key : List Byte) (iv : Nat) (aad ct tag : List Byte) : List Byte × Bool :=
  let k := key.map (·.toNat)
  (gcmCtr k iv ct, gcmTag k iv aad ct == tag)

/-! ### HMAC-SHA-384 and the KDF (R478) -/

/-- HMAC-SHA-384 of a message under a key of at most one block. -/
def hmac384 (key msg : List Byte) : List Byte :=
  let k := key ++ List.replicate (128 - key.length) 0
  sha384 (k.map (· ^^^ 0x5C) ++ sha384 (k.map (· ^^^ 0x36) ++ msg))

/-- n bytes of the counter-mode KDF of SP 800-108 with HMAC-SHA-384, from the device secret under a label: a 32-bit counter,
the label, a zero byte, no context and the length in bits. Log entry 261: PRESUMED. -/
def deriveKey (label n : Nat) : List Byte :=
  ((List.range (cdiv n 48)).flatMap fun i =>
    hmac384 (beBytes 32 Config.deviceSecret.toNat) (beBytes 4 (i + 1) ++ [BitVec.ofNat 8 label, 0] ++ beBytes 4 (8 * n))).take n

/-- The keys of R478: the sealing key, the seed of the SLH-DSA identity key, and the block key. -/
def sealingKey : List Byte := deriveKey 1 32
def slhSeed : List Byte := deriveKey 2 72
def blockKey : List Byte := deriveKey 3 48

/-- The RSA identity private exponent, unsealed (R487). -/
def idRsaD : Nat := Config.unsealed sealingKey Config.sealedRsa

/-- The SLH-DSA identity public key: PK.seed and PK.root of its seed (R478, R487). -/
def idSlh : List Byte := slhSeed.drop 48 ++ (List.range 24).map fun i => (Config.slhRoot slhSeed).getD i 0

/-! ### RSA-3072 -/

/-- Modular power by the bits of the exponent, by fuel. -/
def powMod (m : Nat) : Nat → Nat → Nat → Nat
  | 0, _, _ => 1 % m
  | f + 1, b, e =>
    if e = 0 then 1 % m
    else (if e % 2 = 1 then b else 1) * powMod m f (b * b % m) (e / 2) % m

/-- MGF1 with SHA-384. -/
def mgf1 (seed : List Byte) (n : Nat) : List Byte :=
  (((List.range (cdiv n 48)).flatMap fun i => sha384 (seed ++ beBytes 4 i))).take n

def xorBytes (a b : List Byte) : List Byte := (a.zip b).map fun p => p.1 ^^^ p.2

/-- RSASSA-PSS verification of a 3,072-bit modulus with exponent 65,537, SHA-384, MGF1 and a 48-byte salt (R481). -/
def pssVerify (n : Nat) (msg sig : List Byte) : Bool :=
  let s := beNat sig
  if n < 2 ^ 3071 ∨ n ≤ s then false
  else
    let em := beBytes 384 (powMod n 17 s 65537)
    let masked := em.take 335
    let h := (em.drop 335).take 48
    let db := xorBytes masked (mgf1 h 335)
    let db := match db with | b :: t => (b &&& 0x7F) :: t | [] => []
    let salt := db.drop 287
    em.getD 383 0 == 0xBC && (masked.getD 0 0).toNat < 128 && (db.take 286).all (· == 0) && db.getD 286 0 == 1 &&
      h == sha384 (List.replicate 8 0 ++ sha384 msg ++ salt)

/-- RSAES-OAEP decoding of the encoded message with SHA-384, MGF1 and an empty label (R490). -/
def oaepDecode (em : List Byte) : Option (List Byte) :=
  let seed := xorBytes ((em.drop 1).take 48) (mgf1 (em.drop 49) 48)
  let db := xorBytes (em.drop 49) (mgf1 seed 335)
  let rest := (db.drop 48).dropWhile (· == 0)
  if em.getD 0 0 == 0 && db.take 48 == sha384 [] && rest.headD 0 == 1 then some (rest.drop 1) else none

end Sys2Proof.Machine
end

