-- ==== Sys2Proof/Machine/Degraded.lean ====
section
/-! DEFINITION. Straps, the host ports they enable, and the degraded conditions that module firmware keeps (R438, R550,
R557). -/

namespace Sys2Proof.Machine

/-- The straps as sampled, or the safe defaults (R535). -/
def State.straps (s : State) : Nat := s.fget pSumac F.SUMAC_STRAPS_PINS

/-- HOST_CFG (R438, R557). -/
def State.hostCfg (s : State) : Nat := nbits s.straps 5 4

/-- Does HOST_CFG enable a host port (R438)? -/
def State.hostOn (s : State) : HostPort → Bool
  | .a => s.hostCfg != 2
  | .b => s.hostCfg != 1

/-- The lanes HOST_CFG gives an enabled port (R438). -/
def State.hostLanes (s : State) : Nat := if s.hostCfg = 3 then 8 else 16

def SafSt.init : SafSt := ⟨none, false, false⟩

/-- What Saffron engine n holds. -/
def State.safSt (s : State) (n : Nat) : SafSt := Tab.get SafSt.init n s.sec.saf

def State.setSaf (s : State) (n : Nat) (x : SafSt) : State :=
  { s with sec := { s.sec with saf := Tab.set SafSt.init n x s.sec.saf } }

/-- Saffron engines not retired. -/
def State.safCount (s : State) : Nat := ((List.range 5).filter fun n => !(s.safSt n).retired).length

/-- Does a fabric port count as degraded (R550, bit 2)? -/
def State.fpDegraded (s : State) (n : Nat) : Bool :=
  s.fpState n == 4 || ((s.fpState n == 2 || s.fpState n == 3) &&
    (s.fget (pFp n) F.FP_LINK_STAT_WIDTH == 7 || s.fget (pFp n) F.FP_LINK_STAT_RATE == 1))

/-- Does a site port count as degraded (R550, bit 3)? -/
def State.siteFailed (s : State) (n : Nat) : Bool := s.fget (pSite n) F.SITE_LINK_STAT_STATE == 3

/-- Does a host port count as degraded (R550, bit 4)? -/
def State.hpDegraded (s : State) (p : HostPort) : Bool :=
  s.hostOn p && s.fget (pHp p) F.HP_LINK_STAT_UP == 1 && decide (s.fget (pHp p) F.HP_LINK_STAT_WIDTH < s.hostLanes)

/-- Is a stack degraded (R550, bit 1)? -/
def State.stackDegraded (s : State) (n : Nat) : Bool := s.retired n != 0 || (s.hbmc n).st == .failed

/-- The conditions of R550. -/
def State.degBits (s : State) : Nat :=
  b2n (decide (s.units.count < 1024)) + 2 * b2n ((List.range 32).any s.stackDegraded)
    + 4 * b2n ((List.range 16).any s.fpDegraded) + 8 * b2n ((List.range 2).any s.siteFailed)
    + 16 * b2n (s.hpDegraded .a || s.hpDegraded .b) + 32 * b2n (decide (s.safCount < 4))
    + 64 * b2n (s.units.dies != 255) + 128 * b2n (s.fget pClk F.CLK_STAT_REF_SRC == 1)

/-- Module firmware keeps CDM.DEG, rewrites OGS.CFG.DEGRADED when DEG changes, and sets the event (R550, R554). Before
BS14 of a start the conditions are not yet kept. -/
def State.refreshDeg (s : State) : State :=
  let v := s.degBits
  if !s.boot.ready ∨ v = s.fget pCdm F.CDM_DEG_BITS then s
  else
    let s := s.fset pCdm F.CDM_DEG_BITS v
    let s := s.fset pOgs F.OGS_CFG_DEGRADED (b2n ((v &&& 0x67) != 0))
    s.event pCdm F.CDM_PG_EVT_DEGRADED

end Sys2Proof.Machine
end

