-- ==== Sys2Proof/Machine/Security.lean ====
section
/-! DEFINITION. Security: signed objects, nonces, key slots, the untrusted table, attestation, lifecycle and debug level
(R476 to R492, R499 to R506). -/

namespace Sys2Proof.Machine

/-! ### Nonce, slots, untrusted table -/

/-- A fresh nonce drawn into SEC.NONCE (R484): eight free words. Log entry 170: DESIGN CHOICE. -/
def State.newNonce (s : State) : State :=
  let c := s.freeCtr
  (List.range 8).foldl (fun s i => s.setReg (pSec + 0x080 + 4 * i) (Config.freeWord (c + i))) { s with freeCtr := c + 8 }

/-- The bytes of SEC.NONCE. -/
def State.nonceBytes (s : State) : List Byte :=
  bytesOfWords ((List.range 8).map fun i => s.reg (pSec + 0x080 + 4 * i))

/-- A key slot that holds no key. -/
def KeySlot.init : KeySlot := ⟨false, false, 0, 0, 0, 0, 0, 0, []⟩

/-- Key slot n. -/
def State.key (s : State) (n : Nat) : KeySlot := Tab.get KeySlot.init n s.sec.keys

def State.setKey (s : State) (n : Nat) (k : KeySlot) : State :=
  { s with sec := { s.sec with keys := Tab.set KeySlot.init n k s.sec.keys } }

/-- SLOT of a Saffron job. -/
def jobSlot (w : List Word) : Nat := bits (wd w 0) 27 22

/-- Every key slot that satisfies p is emptied; running jobs on it are aborted, and its replay
windows are discarded (R413, R492, R497, R505). -/
def State.eraseSlots (s : State) (p : Nat → Bool) : State :=
  let mark := fun (e : Nat × SafSt) => match e.2.job with
    | some j =>
      if p (jobSlot j.words) then (e.1, { e.2 with job := some { j with erased := true, result := j.result <|> some (2, 0) } })
      else e
    | none => e
  let s := { s with sec := { s.sec with keys := s.sec.keys.filter (fun e => !p e.1), saf := s.sec.saf.map mark } }
  let s := { s with zwk := { s.zwk with windows := s.zwk.windows.filter fun w => !p w.slot } }
  s.event pSec F.SEC_PG_EVT_KEYS_ERASED

/-- A read by a core engine, over the fabric or by a Saffron job: refused where an untrusted entry covers it (R499). -/
def State.engRead (s : State) (off n : Nat) : Res :=
  if s.covered off n then ⟨s, 4, 0x8C, []⟩ else s.memRead off n

/-- An untrusted entry freed (R499). Log entry 228: DEDUCED. -/
def State.untrFree (s : State) (e : Nat) : State :=
  { s with sec := { s.sec with untr := s.sec.untr.filter fun x => x.1 != e } }

/-! ### Signed objects (R481 to R483) -/

/-- The header of an envelope (R481). -/
structure Envelope where
  magic : Nat
  kind : Nat
  format : Nat
  signer : Nat
  svn : Nat
  bodyLen : Nat
  target : List Byte
  nonce : List Byte
  hash : List Byte
deriving DecidableEq, Repr

def envelopeOf (h : List Byte) : Envelope :=
  let w := wordsOf 4 h
  ⟨(wd w 0).toNat, bits (wd w 1) 31 24, bits (wd w 1) 23 16, bits (wd w 1) 15 8, (wd w 2).toNat, (wd w 3).toNat,
   (h.drop 0x10).take 48, (h.drop 0x40).take 32, (h.drop 0x60).take 48⟩

/-- The header bytes of an envelope the module produces. -/
def Envelope.bytes (e : Envelope) : List Byte :=
  leBytes 4 e.magic ++ leBytes 4 (e.kind * 2 ^ 24 + e.format * 2 ^ 16 + e.signer * 2 ^ 8) ++ leBytes 4 e.svn
    ++ leBytes 4 e.bodyLen ++ e.target ++ e.nonce ++ e.hash ++ List.replicate 0x70 0

/-- Bytes of a whole envelope: header, body padded to 16 bytes, both signatures. -/
def Envelope.size (e : Envelope) : Nat := 256 + 16 * cdiv e.bodyLen 16 + 384 + 16224

/-- The device ID (R487). -/
def deviceId : List Byte := sha384 (beBytes 384 Config.idRsaN ++ idSlh)

/-- The signer that may sign a kind (R482): 0 Colhafy, 1 owner. Log entry 164: DEDUCED. -/
def signerOf (lc kind : Nat) : Option Nat :=
  let own := if lc = 1 ∨ lc = 2 then 1 else 0
  match kind with
  | 1 => some 0
  | 2 => some own
  | 3 => some own
  | 4 => if lc = 1 ∨ lc = 2 then some 1 else none
  | 6 => some own
  | 7 => some 0
  | _ => none

/-- The RSA modulus and SLH-DSA key of a signer; the owner keys only while they hash to OWNER_HASH (R482). -/
def State.signerKeys (s : State) (signer : Nat) : Option (Nat × List Byte) :=
  if signer = 0 then some (Config.rootRsa, Config.rootSlh)
  else if beNat (sha384 (beBytes 384 s.sec.ownerRsa ++ s.sec.ownerSlh)) = s.rpb.ownerHash then
    some (s.sec.ownerRsa, s.sec.ownerSlh)
  else none

/-- A KEY descriptor (R490). Log entry 217: DEDUCED. -/
structure KeyDesc where
  slot : Nat
  use : Nat
  peer : Nat
  epoch : Nat
  fixed : Nat
  log2 : Nat
deriving DecidableEq, Repr

/-- NKEYS and the descriptors of a KEY body. -/
def keyDescs (body : List Byte) : Nat × List KeyDesc :=
  let n := (body.headD 0).toNat
  (n, (List.range n).map fun k =>
    let w := wordsOf 3 (body.drop (0x40 + 16 * k))
    ⟨bits (wd w 0) 31 26, bits (wd w 0) 25 24, bits (wd w 0) 23 20, bits (wd w 0) 15 0, (wd w 1).toNat, bits (wd w 2) 7 0⟩)

/-- The keys of a KEY body, blob by blob; none when a blob fails OAEP decoding or is of another length. -/
def keyBlobs (body : List Byte) (n : Nat) : Option (List Byte) :=
  (List.range (cdiv n 8)).foldl (fun a b =>
    match a with
    | none => none
    | some ks =>
      let c := beNat ((body.drop (0x240 + 384 * b)).take 384)
      let want := 32 * min 8 (n - 8 * b)
      match oaepDecode (beBytes 384 (powMod Config.idRsaN 3072 c idRsaD)) with
      | some m => if c < Config.idRsaN ∧ m.length = want then some (ks ++ m) else none
      | none => none) (some [])

/-- Is a KEY body valid (R490, R491)? Log entry 166: DEDUCED. -/
def keyBodyOk (body : List Byte) : Bool :=
  let (n, ds) := keyDescs body
  decide (1 ≤ n ∧ n ≤ 32) && decide (0x240 + 384 * cdiv n 8 ≤ body.length) &&
    ds.all (fun d => d.use != 2 && decide (d.log2 ≤ 63)) && (ds.map (·.slot)).Nodup && (keyBlobs body n).isSome

/-- The pairings of a TRANSITION (R501), with the signer already accepted: old and new state. -/
def transitionOk (lc : Nat) (body : List Byte) : Bool :=
  let t := (body.headD 0).toNat % 4
  decide (4 ≤ body.length) &&
    (((lc == 0 || lc == 3) && t == 1 && decide (4 + 384 + 48 ≤ body.length)) || (lc == 1 && t == 2)
      || ((lc == 1 || lc == 2) && t == 3))

/-- Is the body valid for its kind (R483, 0x87)? Log entry 166: DEDUCED. -/
def State.bodyOk (s : State) (e : Envelope) (body : List Byte) : Bool :=
  match e.kind with
  | 2 => decide (4 ≤ body.length)
  | 3 => decide (4 ≤ body.length) && leNat (body.take 4) == 2
  | 4 => keyBodyOk body
  | 6 => transitionOk s.rpb.lc body
  | 7 => body.length == 432
  | _ => true

/-- Has P3 entry begun? -/
def State.p3Begun (s : State) : Bool := s.pwr.p3From.isSome

/-- The first failed check of an object (R483); 0 when it is accepted. Log entries 164: DEDUCED, 165: DEDUCED. -/
def State.objectReason (s : State) (h : List Byte) (e : Envelope) (body sigs : List Byte) : Nat :=
  let special := e.kind == 3 || e.kind == 4
  if !(e.target == deviceId || (!special && e.target.all (· == 0))) then 0x81
  else if special && e.nonce != s.nonceBytes then 0x82
  else if signerOf s.rpb.lc e.kind ≠ some e.signer then 0x83
  else if (e.kind = 1 ∧ e.svn < s.rpb.fwSvn) ∨ (e.kind = 2 ∧ e.svn < s.rpb.cfgSvn) then 0x84
  else match s.signerKeys e.signer with
    | none => 0x85
    | some (rsa, slh) =>
      if !pssVerify rsa h (sigs.take 384) then 0x85
      else if !Config.slhVerify slh h ((sigs.drop 384).take 16224) then 0x86
      else if sha384 body != e.hash || !s.bodyOk e body then 0x87
      else if special && s.sec.dbg == 2 then 0x88
      else if s.p3Begun then 0x89
      else 0

/-- A write to the replay-protected block: its write counter rises (R479). -/
def State.writeRpb (s : State) (b : Rpb) : State := { s with rpb := { b with writes := s.rpb.writes + 1 } }

/-- The HMAC of a block under the block key (R479). Its layout in flash is not stated. Log entry 261: PRESUMED. -/
def rpbMac (b : Rpb) : List Byte :=
  hmac384 blockKey (leBytes 4 b.writes ++ leBytes 4 b.lc ++ leBytes 4 b.fwSvn ++ leBytes 4 b.cfgSvn ++ leBytes 4 b.d2History
    ++ beBytes 48 b.ownerHash)

/-- D2 entry (R503). -/
def State.enterD2 (s : State) : State :=
  let s := s.eraseSlots fun _ => true
  let s := if s.rpb.lc = 2 then s.writeRpb { s.rpb with d2History := min 255 (s.rpb.d2History + 1) } else s
  { s with sec := { s.sec with dbg := 2 } }.event pSec F.SEC_PG_EVT_D2_ENTERED

/-- A delivery loaded (R491). Log entry 217: DEDUCED. -/
def State.loadKeys (s : State) (body : List Byte) : State :=
  let (n, ds) := keyDescs body
  let ks := (keyBlobs body n).getD []
  let erase := (ds.filter (·.use == 3)).map (·.slot)
  let s := if erase.isEmpty then s else s.eraseSlots erase.contains
  let s := { s with zwk := { s.zwk with windows := s.zwk.windows.filter fun w => !(ds.any fun d => d.slot == w.slot) } }
  (ds.zipIdx).foldl (fun s d =>
    if d.1.use = 3 then s
    else s.setKey d.1.slot ⟨true, false, d.1.use, d.1.peer, d.1.epoch, d.1.fixed, if d.1.log2 = 0 then 32 else d.1.log2, 0,
                            (ks.drop (32 * d.2)).take 32⟩) s

/-- A TRANSITION takes effect (R501). -/
def State.transition (s : State) (body : List Byte) : State :=
  let t := (body.headD 0).toNat % 4
  let s := match t with
    | 1 =>
      let keys := (body.drop 4).take 432
      ({ s with sec := { s.sec with ownerRsa := beNat (keys.take 384), ownerSlh := keys.drop 384 } } : State).writeRpb
        { s.rpb with lc := 1, ownerHash := beNat (sha384 keys) }
    | 3 => (s.eraseSlots fun _ => true).writeRpb { s.rpb with lc := 3, ownerHash := 0 }
    | _ => s.writeRpb { s.rpb with lc := t }
  s.event pSec F.SEC_PG_EVT_LC_CHANGE

/-- What an accepted object does. FIRMWARE, CONFIG and certificate objects are stored by module firmware at the next
start and change no state of the running module. Log entry 161: DEDUCED. -/
def State.accept (s : State) (kind : Nat) (body : List Byte) : State :=
  match kind with
  | 3 => s.enterD2
  | 4 => s.loadKeys body
  | 6 => s.transition body
  | _ => s

/-- The local HBM offset of a SEC operation, and its length. -/
def State.opAddr (s : State) : Nat := (s.reg (pSec + 0x058)).toNat + 2 ^ 32 * s.fget pSec F.SEC_OP_ADDR_HI_ADDR_HI
def State.opLen (s : State) : Nat := (s.reg (pSec + 0x060)).toNat

/-- A read of local HBM only. Log entry 167: DEDUCED. -/
def State.hbmOnlyRead (s : State) (off n : Nat) : Res := if off + n ≤ hbmEnd then s.memRead off n else ⟨s, 0x0B, 0, []⟩

/-- The running SEC operation has its result. Log entry 169: DEDUCED. -/
def State.opResult (s : State) (status reason : Nat) (kind : Option Nat) : State :=
  match s.sec.op with
  | some o => { s with sec := { s.sec with op := some { o with result := some (status, reason), kind := kind.getD o.kind } } }
  | none => s

/-- Does a SEC operation wait for its effect? -/
def State.opDue (s : State) (op : Nat) : Bool :=
  match s.sec.op with
  | some o => o.op == op && o.result.isNone
  | none => false

/-- Bytes that a SEC operation reads are held (R277, R344): it waits. -/
def State.opHeld (s : State) : Bool := s.memHeld s.opAddr (max 32 s.opLen)

/-- R483: VERIFY checks the object at OP_ADDR and applies it. Log entries 161: DEDUCED, 165: DEDUCED, 167: DEDUCED. -/
def verify (s : State) : State :=
  if !s.opDue 1 || s.opHeld then s
  else if s.opLen < 256 then s.opResult 4 0x80 none
  else
    let rh := s.hbmOnlyRead s.opAddr 256
    if rh.status ≠ 0 then rh.st.opResult rh.status rh.detail none
    else
      let e := envelopeOf rh.data
      let s := rh.st
      if e.magic ≠ 0xCA795E0D ∨ e.format ≠ 1 ∨ e.kind = 0 ∨ 7 < e.kind ∨ 67108864 < e.bodyLen ∨ s.opLen < e.size then
        s.opResult 4 0x80 (some e.kind)
      else
        let rb := s.hbmOnlyRead (s.opAddr + 256) (e.size - 256)
        if rb.status ≠ 0 then rb.st.opResult rb.status rb.detail (some e.kind)
        else
          let body := rb.data.take e.bodyLen
          let r := rb.st.objectReason rh.data e body (rb.data.drop (16 * cdiv e.bodyLen 16))
          let special := e.kind == 3 || e.kind == 4
          if r = 0 then
            let s := rb.st.accept e.kind body
            (if special then s.newNonce else s).opResult 0 0 (some e.kind)
          else (if special && r == 0x89 then rb.st.newNonce else rb.st).opResult 4 r (some e.kind)

/-! ### Attestation (R488, R489) -/

/-- The attestation body (R489). -/
def State.attestBody (s : State) : List Byte :=
  let slots := (List.range 64).foldl (fun a n => a + b2n (s.key n).valid * 2 ^ n) 0
  leBytes 4 (s.fget pPwr F.PWR_STAT_STATE * 2 ^ 24 + s.rpb.d2History * 2 ^ 16 + s.sec.dbg * 2 ^ 8 + s.rpb.lc)
    ++ leBytes 4 s.rpb.fwSvn ++ leBytes 4 s.rpb.cfgSvn
    ++ leBytes 4 (Config.romId.toNat * 2 ^ 16 + s.fget pSumac F.SUMAC_STRAPS_FAULT * 2 ^ 12 + s.straps)
    ++ leBytes 8 s.now ++ leBytes 8 slots
    ++ beBytes 48 s.sec.fwHash ++ beBytes 48 (if s.fget pSec F.SEC_POLICY_CFG_VALID = 1 then s.sec.cfgHash else 0)
    ++ beBytes 48 s.rpb.ownerHash ++ leBytes 4 (s.reg (pSec + 0x04C)).toNat ++ List.replicate 12 0

/-- n bytes of a device signature over a header: the salt and the keys are not known. -/
def State.signBytes (s : State) (h : List Byte) (n : Nat) : List Byte × State :=
  ((List.range n).map (Config.signByte s.freeCtr h), { s with freeCtr := s.freeCtr + 1 })

/-- R488: ATTEST writes the attestation envelope and the DEVICE certificate. Log entry 168: DEDUCED. -/
def attest (s : State) : State :=
  if !s.opDue 2 || s.opHeld then s
  else if !s.sec.identityOk then s.opResult 4 0x87 none
  else if s.opLen < 34384 then s.opResult 0x0C 0 none
  else
    let r := s.hbmOnlyRead s.opAddr 32
    if r.status ≠ 0 then r.st.opResult r.status r.detail none
    else
      let s := r.st
      let body := s.attestBody
      let h := (Envelope.mk 0xCA795E0D 5 1 2 s.rpb.fwSvn 192 deviceId r.data (sha384 body)).bytes
      let (sig, s) := s.signBytes h 16608
      let w := s.memWrite s.opAddr (h ++ body ++ sig)
      let c := w.st.memWrite (s.opAddr + 17088) ((List.range 17296).map fun i => Config.certificate.getD i 0)
      let f := if w.status ≠ 0 then w else c
      c.st.opResult f.status f.detail none

/-- R484: NONCE_NEW. -/
def nonceNew (s : State) : State := if s.opDue 3 then s.newNonce.opResult 0 0 none else s

/-- R506: the operation ends: OP_STAT shows its status, reason and kind. Log entry 169: DEDUCED. -/
def opDone (s : State) : State :=
  match s.sec.op with
  | some ⟨_, some (st, why), kind⟩ =>
    let s := { s with sec := { s.sec with op := none } }
    let s := s.setReg (pSec + 0x064) (BitVec.ofNat 32 (st % 256 * 2 ^ 16 + why % 256 * 2 ^ 8 + kind % 256))
    s.event pSec F.SEC_PG_EVT_OP_DONE
  | _ => s

/-- A write of OP_CTRL starts an operation: reserved codes and writes while BUSY are ignored. -/
def State.opStart (s : State) (op : Nat) : State :=
  if s.sec.op.isSome || op == 0 || decide (op > 3) then s
  else
    { s with sec := { s.sec with op := some ⟨op, none, s.fget pSec F.SEC_OP_STAT_KIND⟩ } }.fset pSec F.SEC_OP_STAT_BUSY 1

/-! ### Lifecycle, debug level and the erase registers -/

/-- R502: D1 set or cleared from a host port; ignored while the level is D2. Log entry 92: DEDUCED. -/
def State.writeD1 (s : State) (rq : Requester) (v : Nat) : State :=
  if s.sec.dbg = 2 ∨ (rq ≠ .portA ∧ rq ≠ .portB) then s else { s with sec := { s.sec with dbg := v } }

/-- R502, R503: D2 ends; the level becomes D0. -/
def State.exitD2 (s : State) : State := if s.sec.dbg = 2 then { s with sec := { s.sec with dbg := 0 } } else s

/-- R485: both counters rise to the SVNs of what runs. -/
def State.raiseSvn (s : State) : State :=
  s.writeRpb { s.rpb with fwSvn := max s.rpb.fwSvn s.sec.fwRun, cfgSvn := max s.rpb.cfgSvn s.sec.cfgRun }

/-- The WO bits of a write of SEC.CTRL. -/
def State.secPulses (s : State) (v : Word) : State :=
  let s := if bit v 2 then s.raiseSvn else s
  if bit v 3 then s.exitD2 else s

/-- A write of SEC.SLOT_ERASE. -/
def State.writeErase (s : State) (v : Word) : State :=
  if bit v 31 then s.eraseSlots fun n => bit v 8 || n == bits v 5 0 else s

/-- A write of SEC.UNTR_REL. -/
def State.writeUntr (s : State) (v : Word) : State := if bit v 31 then s.untrFree (bits v 5 0) else s

/-- SEC.LC as it reads. -/
def State.secLc (s : State) : Word := BitVec.ofNat 32 (s.rpb.d2History * 2 ^ 24 + s.sec.dbg * 2 ^ 8 + s.rpb.lc)

/-- SEC.SLOT_STAT as it reads for the slot SLOT_IDX names. -/
def State.slotStat (s : State) : Word :=
  let k := s.key (s.fget pSec F.SEC_SLOT_IDX_SLOT)
  BitVec.ofNat 32 (b2n k.valid * 2 ^ 31 + b2n k.exhausted * 2 ^ 30 + k.use * 2 ^ 28 + k.peer * 2 ^ 24 + k.log2 * 2 ^ 16
    + k.epoch)

/-- The counter of the slot SLOT_IDX names. -/
def State.slotCtr (s : State) : Nat := (s.key (s.fget pSec F.SEC_SLOT_IDX_SLOT)).ctr

end Sys2Proof.Machine
end

