-- ==== Sys2Proof/Machine/Saffron.lean ====
section
/-! DEFINITION. The Saffron engines: jobs, invocations, the untrusted buffer header, completion records, self-test and
randomness (R493 to R500, R507). -/

namespace Sys2Proof.Machine

/-! ### Ring and job fields (R496, R507) -/

def State.jrBase (s : State) (n : Nat) : Nat :=
  s.fget (pSaf n) F.SAF_JR_BASE_LO_ADDR * 4096 + 2 ^ 32 * s.fget (pSaf n) F.SAF_JR_BASE_HI_ADDR_HI
def State.jrSize (s : State) (n : Nat) : Nat := 2 ^ s.fget (pSaf n) F.SAF_JR_SIZE_LOG2
def State.jrHead (s : State) (n : Nat) : Nat := (s.reg (pSaf n + 0x04C)).toNat
def State.jrTail (s : State) (n : Nat) : Nat := (s.reg (pSaf n + 0x050)).toNat
/-- The local offset of the job of an index. -/
def State.jobOff (s : State) (n idx : Nat) : Nat := s.jrBase n + 64 * (idx % s.jrSize n)

def jobOp (w : List Word) : Nat := bits (wd w 0) 31 28
def jobTag (w : List Word) : Nat := bits (wd w 0) 15 0
def jobLen (w : List Word) : Nat := (wd w 1).toNat
def jobAadLen (w : List Word) : Nat := bits (wd w 2) 15 0
/-- An address of a job: words i and i + 1 in the layouts of R175. -/
def State.jobAddr (s : State) (w : List Word) (i : Nat) : Nat := s.gaddr (addr56 w i) (bit (wd w (i + 1)) 31)
def State.jobSrc (s : State) (w : List Word) : Nat := s.jobAddr w 3
def State.jobDst (s : State) (w : List Word) : Nat := s.jobAddr w 5
def State.jobAad (s : State) (w : List Word) : Nat := s.jobAddr w 7
def State.jobTagBuf (s : State) (w : List Word) : Nat := s.jobAddr w 9
/-- The IV of a DECRYPT job. -/
def jobIv (w : List Word) : Nat := (wd w 11).toNat + 2 ^ 32 * (wd w 12).toNat + 2 ^ 64 * (wd w 13).toNat
def jobDecrypt (w : List Word) : Bool := jobOp w == 1

/-- The header of an untrusted buffer (R498). Log entry 173: DEDUCED. -/
def untrHeader (w : List Word) (status : Nat) (untrusted : Bool) (entry : Nat) : List Byte :=
  leBytes 4 (0xA5 * 2 ^ 24 + status * 2 ^ 16 + b2n untrusted * 2 ^ 15 + entry % 64) ++ leBytes 4 (jobLen w)
    ++ leBytes 4 (jobSlot w * 2 ^ 16 + jobTag w) ++ List.replicate 52 0

/-- A run of bytes as requests of the sizes of R294: 32 to 256 bytes inside a 256-byte block, single words elsewhere.
A piece shorter than a word has no request size and is refused at the tracker. fuel bounds the number of pieces. Log
entry 175: DESIGN CHOICE. -/
def requestCuts : Nat → Nat → Nat → List (Nat × Nat)
  | 0, _, _ => []
  | f + 1, a, n =>
    if n = 0 then [] else
    let m := if a % 32 = 0 ∧ 32 ≤ n then min (256 - a % 256) (n / 32 * 32) else min n (4 - a % 4)
    (a, m) :: requestCuts f (a + m) (n - m)

/-- The job of engine n changed. -/
def State.modJob (s : State) (n : Nat) (f : SafJob → SafJob) : State :=
  let x := s.safSt n
  match x.job with
  | some j => s.setSaf n { x with job := some (f j) }
  | none => s

/-- The first failing status stands. -/
def SafJob.fail (j : SafJob) (st det : Nat) : SafJob :=
  if st = 0 ∨ j.result.isSome then j else { j with result := some (st, det) }

/-- Bytes put at a place of a buffer. -/
def patch (buf : List Byte) (at_ : Nat) (bs : List Byte) : List Byte :=
  buf.take at_ ++ bs ++ buf.drop (at_ + bs.length)

/-- Bytes that a remote read starts below its first byte, so that it starts on a word. Log entry 175: DESIGN CHOICE.
-/
def State.lead (s : State) (g : Nat) : Nat := if s.isLocal g then 0 else g % 4

/-- The data of a read part put into the job: 0 SRC, 1 AAD, 2 the tag. -/
def SafJob.put (j : SafJob) (part place : Nat) (bs : List Byte) : SafJob :=
  match part with
  | 0 => { j with src := patch j.src place bs }
  | 1 => { j with aad := patch j.aad place bs }
  | _ => { j with tagIn := patch j.tagIn place bs }

/-- Is a run of bytes at a global address on this module and held (R277, R344, R548)? -/
def State.globHeld (s : State) (g n : Nat) : Bool := s.isLocal g && s.memHeld (g % 2 ^ 44) n

/-- Is a byte held that the start of a job of engine n reads, or writes as its header? -/
def State.startHeld (s : State) (n : Nat) (w : List Word) : Bool :=
  s.memHeld (s.jobOff n (s.jrHead n)) 64 || s.globHeld (s.jobSrc w) (jobLen w) || s.globHeld (s.jobAad w) (jobAadLen w)
    || (jobDecrypt w && (s.globHeld (s.jobTagBuf w) 16 || s.globHeld (s.jobDst w) 64))

/-- Is a byte held that the results of the job of engine n go to? -/
def State.resultHeld (s : State) (n : Nat) (j : SafJob) : Bool :=
  let w := j.words
  if jobDecrypt w then s.globHeld (s.jobDst w + 64) (jobLen w)
  else s.globHeld (s.jobDst w) (jobLen w) || s.globHeld (s.jobTagBuf w) 16 || s.memHeld (s.jobOff n j.idx) 64

/-- Is a byte held that the end of the job of engine n writes: its record, and the header of a DECRYPT? -/
def State.recHeld (s : State) (n : Nat) (j : SafJob) : Bool :=
  s.memHeld (s.jrBase n + 64 * s.jrSize n + 16 * (j.idx % s.jrSize n)) 16
    || (j.entry.isSome && s.globHeld (s.jobDst j.words) 64)

/-- A read of n bytes at a global address for the job of engine e: local bytes at once, remote bytes as class C2. -/
def State.jobRead (s : State) (e idx part g n : Nat) : State :=
  if n = 0 then s
  else if s.isLocal g then
    let r := s.engRead (g % 2 ^ 44) n
    r.st.modJob e fun j => (j.put part 0 r.data).fail r.status r.detail
  else
    let a := g - g % 4
    let m := 4 * cdiv (g % 4 + n) 4
    let s := s.modJob e fun j => j.put part 0 (List.replicate m 0)
    (requestCuts (m / 4 + 1) a m).foldl (fun s c =>
      match s.request opRD 2 c.1 c.2 [] none (.saf e idx part (c.1 - a)) with
      | (s, none) => s.modJob e fun j => { j with reads := j.reads + 1 }
      | (s, some f) => s.modJob e fun j => j.fail f.1 f.2) s

/-- A write for the job of engine e: local bytes at once, remote bytes as class C2. -/
def State.jobWrite (s : State) (e idx g : Nat) (bs : List Byte) : State :=
  if s.isLocal g then
    let r := s.memWrite (g % 2 ^ 44) bs
    r.st.modJob e fun j => j.fail r.status r.detail
  else
    (requestCuts (bs.length + 1) g bs.length).foldl (fun s c =>
      match s.request opWR 2 c.1 c.2 ((bs.drop (c.1 - g)).take c.2) none (.saf e idx 3 0) with
      | (s, none) => s.modJob e fun j => { j with writes := j.writes + 1 }
      | (s, some f) => s.modJob e fun j => j.fail f.1 f.2) s

/-- The job's data is processed once its reads have ended and nothing holds its results (R277, R344, R493, R495, R498). Log
entry 174: DEDUCED. -/
def State.jobForm (s : State) (n : Nat) : State :=
  match (s.safSt n).job with
  | none => s
  | some j =>
    if j.formed || j.reads != 0 || (j.result.isNone && s.resultHeld n j) then s
    else
      let s := s.modJob n fun j => { j with formed := true }
      if j.result.isSome then s
      else
        let w := j.words
        let src := (j.src.drop (s.lead (s.jobSrc w))).take (jobLen w)
        let aad := (j.aad.drop (s.lead (s.jobAad w))).take (jobAadLen w)
        let s := s.inc64 (pSaf n) F.SAF_BYTES_LO_COUNT (jobLen w)
        if jobDecrypt w then
          let (pt, ok) := gcmOpen j.key.key (jobIv w) aad src ((j.tagIn.drop (s.lead (s.jobTagBuf w))).take 16)
          let s := s.jobWrite n j.idx (s.jobDst w + 64) pt
          s.modJob n fun j => if ok then j else j.fail 0x0A 0
        else
          let iv := j.key.fixed * 2 ^ 64 + j.ctr
          let (ct, tag) := gcmSeal j.key.key iv aad src
          let s := s.jobWrite n j.idx (s.jobDst w) ct
          let s := s.jobWrite n j.idx (s.jobTagBuf w) tag
          let r := s.memWrite (s.jobOff n j.idx + 44) (leBytes 12 iv)
          r.st.modJob n fun j => j.fail r.status r.detail

/-- Does engine n start a job: enabled, not retired, not stalled, idle, and a job given? Log entry 174: DEDUCED. -/
def State.safReady (s : State) (n : Nat) : Bool :=
  let x := s.safSt n
  s.fget (pSaf n) F.SAF_CTRL_EN == 1 && !x.retired && !x.stalled && x.job.isNone && s.jrHead n != s.jrTail n

/-- May a DECRYPT write its buffer there: local HBM below C_n of its die (R497)? -/
def State.decryptDst (s : State) (w : List Word) : Bool :=
  let d := s.jobDst w
  let off := d % 2 ^ 44
  let n := 64 + jobLen w
  s.isLocal d && decide (off + n ≤ hbmEnd) && decide (off % dieSize + n ≤ s.dieCap (off / dieSize))

/-- The failed checks at the start of a job, lowest code first (R497, R494). Log entry 171: DEDUCED. -/
def State.jobReasons (s : State) (w : List Word) : List Nat :=
  let on := fun (b : Bool) (n : Nat) => if b then [n] else []
  let k := s.key (jobSlot w)
  on (!k.valid || k.use != 1) 0x8A
  ++ on (k.exhausted || k.ctr == 2 ^ k.log2) 0x8B
  ++ on (decide (jobOp w > 1) || (jobDecrypt w && !s.decryptDst w)) 0x8D

/-- The lowest free entry of the untrusted table. -/
def State.untrEntry (s : State) : Option Nat := (List.range 64).find? fun e => !(s.sec.untr.any fun x => x.1 == e)

/-- The job at the head of engine n's ring taken: JR_HEAD rises, and the job is the one that runs. -/
def State.takeJob (s : State) (n : Nat) (w : List Word) : State :=
  let i := s.jrHead n
  let s := s.setReg (pSaf n + 0x04C) (BitVec.ofNat 32 (i + 1))
  s.setSaf n { s.safSt n with job := some ⟨i, w, KeySlot.init, 0, none, [], [], [], 0, 0, false, none, false⟩ }

/-- The reads of a job that has started. -/
def State.jobReads (s : State) (n idx : Nat) (w : List Word) : State :=
  let s := s.jobRead n idx 0 (s.jobSrc w) (jobLen w)
  let s := s.jobRead n idx 1 (s.jobAad w) (jobAadLen w)
  let s := if jobDecrypt w then s.jobRead n idx 2 (s.jobTagBuf w) 16 else s
  s.jobForm n

/-- A job starts: its checks, its invocation (R494), and for a DECRYPT its untrusted entry and header (R498). Log
entry 171: DEDUCED. -/
def State.runJob (s : State) (n : Nat) (w : List Word) : State :=
  let i := s.jrHead n
  let s := s.takeJob n w
  let end_ := fun (s : State) (st det : Nat) => s.modJob n fun j => { j with result := some (st, det), formed := true }
  let sl := jobSlot w
  let k := s.key sl
  match s.jobReasons w with
  | 0x8B :: _ => end_ ((s.setKey sl { k with exhausted := true }).event pSec F.SEC_PG_EVT_EXHAUSTED) 4 0x8B
  | r :: _ => end_ s 4 r
  | [] =>
    let s := s.setKey sl { k with ctr := k.ctr + 1 }
    let s := s.modJob n fun j => { j with key := k, ctr := k.ctr }
    if jobDecrypt w then
      match s.untrEntry with
      | none => end_ s 0x0C 0
      | some e =>
        let s := { s with sec := { s.sec with untr := s.sec.untr ++ [(e, s.jobDst w % 2 ^ 44, 64 + jobLen w)] } }
        let s := s.modJob n fun j => { j with entry := some e }
        (s.jobWrite n i (s.jobDst w) (untrHeader w 0 true e)).jobReads n i w
    else s.jobReads n i w

/-- The job at the head of the ring, when engine n may start it; a failed read gives a job that ends CORRUPT. A job whose
bytes are held waits (R277, R344, R548). -/
def State.headJob (s : State) (n : Nat) : Option Res :=
  if !s.safReady n then none
  else
    let r := s.memRead (s.jobOff n (s.jrHead n)) 64
    if s.startHeld n (wordsOf 16 r.data) then none else some r

/-- R495, R496: an ENCRYPT job starts. Jobs with a reserved OP, and jobs that cannot be read, start here too. -/
def encrypt (n : SafId) (s : State) : State :=
  match s.headJob n with
  | none => s
  | some r =>
    if r.status ≠ 0 then
      (r.st.takeJob n []).modJob n fun j => { j with result := some (r.status, r.detail), formed := true }
    else
      let w := wordsOf 16 r.data
      if jobDecrypt w then s else r.st.runJob n w

/-- R498: a DECRYPT job starts. -/
def decrypt (n : SafId) (s : State) : State :=
  match s.headJob n with
  | none => s
  | some r =>
    let w := wordsOf 16 r.data
    if r.status = 0 ∧ jobDecrypt w then r.st.runJob n w else s

/-- An answer to a request of the job of engine e. -/
def State.safAnswered (s : State) (e idx part place status detail : Nat) (data : List Byte) : State :=
  match (s.safSt e).job with
  | none => s
  | some j =>
    if j.idx ≠ idx then s
    else if part = 3 then s.modJob e fun j => ({ j with writes := j.writes - 1 }).fail status detail
    else
      let s := s.modJob e fun j =>
        let j := ({ j with reads := j.reads - 1 }).fail status detail
        if status = 0 then j.put part place data else j
      s.jobForm e

/-- The record of a job, in the completion ring that follows the job ring (R496, R497): word 2 and 3 hold the CTR of
the invocation, free values where there was none; TAG is free where the job was not read. Log entry 172: DESIGN
CHOICE. -/
def State.jobRecord (s : State) (n idx : Nat) (w : List Word) (status detail : Nat) (ctr : Option Nat) : State :=
  let c := s.freeCtr
  let s := { s with freeCtr := c + 3 }
  let tag := if w.isEmpty then (Config.freeWord c).toNat % 65536 else jobTag w
  let w2 := match ctr with | some v => v % 2 ^ 32 | none => (Config.freeWord (c + 1)).toNat
  let w3 := match ctr with | some v => v / 2 ^ 32 | none => (Config.freeWord (c + 2)).toNat
  let det := if status = 4 ∨ status = 3 then detail else 0
  (s.memWrite (s.jrBase n + 64 * s.jrSize n + 16 * (idx % s.jrSize n)) (recBytes status 0 0 idx tag det w2 w3)).st

/-- Requests of a Saffron engine leave the tracker. -/
def State.dropSafReqs (s : State) (n : Nat) : State :=
  s.dropReqs fun r => match r.owner with | .saf e _ _ _ => e == n | _ => false

/-- A job ends with a status (R496 to R498): the untrusted buffer of a DECRYPT, the record, the count of refusals and
the signal. Log entry 173: DEDUCED. -/
def State.jobEnd (s : State) (n : Nat) (j : SafJob) (status detail : Nat) : State :=
  let w := j.words
  let s := match j.entry with
    | some e =>
      if status = 0 then
        ((s.memWrite (s.jobDst w % 2 ^ 44) (untrHeader w 0 false e)).st).untrFree e
      else
        let s := if status = 0x0A then s.finc (pSaf n) F.SAF_CNT_AUTH_FAIL else s
        (s.event (pSaf n) F.SAF_PG_EVT_AUTH_FAIL).event pSec F.SEC_PG_EVT_UNTRUSTED
    | none => s
  let s := if status = 4 then s.finc (pSaf n) F.SAF_CNT_REFUSED else s
  let sig := (wd w 14).toNat
  let (s, st) := if bit (wd w 0) 16 then s.signalCore (nbits sig 31 22) (nbits sig 21 16) (nbits sig 7 0) else (s, 0)
  let status := if status = 0 then st else status
  let s := s.jobRecord n j.idx w status detail (if j.key.valid then some j.ctr else none)
  (s.dropSafReqs n).setSaf n { s.safSt n with job := none }

/-- R496: the running job completes once its requests have ended; a job whose slot was erased is aborted, unless it had
failed before (R14, R497). A hold of the bytes it writes makes it wait (R277, R344). -/
def safJobComplete (n : SafId) (s : State) : State :=
  let x := s.safSt n
  match x.job with
  | none => s
  | some j =>
    if x.stalled ∨ s.recHeld n j then s
    else if j.erased ∨ (j.formed ∧ j.writes = 0 ∧ j.reads = 0) then
      let r := j.result.getD (0, 0)
      s.jobEnd n j r.1 r.2
    else s.jobForm n

/-- R493: a job stalled for 10 ms completes as TIMEOUT, or with the failure it met before (R14). -/
def safStallTimeout (n : SafId) (s : State) : State :=
  let x := s.safSt n
  match x.job with
  | some j =>
    if x.stalled ∧ !s.recHeld n j then
      let r := j.result.getD (9, 0)
      s.jobEnd n j r.1 r.2
    else s
  | none => s

/-- R493: the randomness health test fails: every engine stalls. -/
def rngFail (s : State) : State :=
  let s := (List.range 5).foldl (fun s n => s.setSaf n { s.safSt n with stalled := true }) s
  s.event pSec F.SEC_PG_EVT_RNG_FAIL

/-- R493: randomness is back: no engine is stalled. -/
def randomnessReturn (s : State) : State :=
  (List.range 5).foldl (fun s n => s.setSaf n { s.safSt n with stalled := false }) s

/-! ### Self-test and substitution (R500) -/

/-- The jobs given to engine n and not started complete as ABORTED. fuel bounds their number. Log entry 176: DEDUCED.
-/
def State.abortGiven : Nat → State → Nat → State
  | 0, s, _ => s
  | f + 1, s, n =>
    if s.jrHead n = s.jrTail n then s
    else
      let r := s.memRead (s.jobOff n (s.jrHead n)) 64
      let s := r.st.takeJob n (if r.status = 0 then wordsOf 16 r.data else [])
      let s := match (s.safSt n).job with | some j => s.jobEnd n j 2 0 | none => s
      State.abortGiven f s n

/-- The logical position that physical engine n holds in SEC.SAF_MAP. -/
def State.safPos (s : State) (n : Nat) : Option Nat :=
  (List.range 4).find? fun l => bits (s.reg (pSec + 0x0D0)) (3 * l + 2) (3 * l) == n

/-- Engine n retires. SAF4 takes its logical position when it serves in none, and the ring registers move to its page
(R500, R545). Log entry 177: DEDUCED. -/
def State.retireSaf (s : State) (n : Nat) : State :=
  let pos := s.safPos n
  let s := s.logRepair 0x0006 n 2 0x0040 (n + 2 ^ 32 * pos.getD 4)
  let s := s.setSaf n { s.safSt n with retired := true }
  let s := match pos with
    | some l =>
      if n ≠ 4 ∧ !(s.safSt 4).retired ∧ (s.safPos 4).isNone then
        let s := [0x040, 0x044, 0x048, 0x04C, 0x050, 0x058].foldl (fun (s : State) o =>
          (s.setReg (pSaf 4 + o) (s.reg (pSaf n + o))).setReg (pSaf n + o) (regRst (pSaf n + o))) s
        s.setReg (pSec + 0x0D0) (setBits (s.reg (pSec + 0x0D0)) (3 * l + 2) (3 * l) 4)
      else s
    | none => s
  s.refreshDeg

/-- R500: a known-answer self-test of engine n, and whether it failed. Log entry 176: DEDUCED. -/
def selfTest (n : SafId) (failed : Bool) (s : State) : State :=
  let x := s.safSt n
  if !failed || x.retired then s
  else
    let s := s.event (pSaf n) F.SAF_PG_EVT_SELFTEST_FAIL
    let s := match x.job with | some j => s.jobEnd n j 2 0 | none => s
    let s := State.abortGiven (sub32 (s.jrTail n) (s.jrHead n)) s n
    s.retireSaf n

end Sys2Proof.Machine
end

