-- ==== Sys2Proof/Machine/Reset.lean ====
section
/-! DEFINITION. What the module loses when its rails go off or it is reset, and what flash and the always-on domain keep
(R479, R515, R536, R542, R543). -/

namespace Sys2Proof.Machine

/-- Registers whose values lie in flash: CDM.BOOT_NUM and HBMn.PC_RETIRED (R280, R554). -/
def flashReg (a : Nat) : Bool :=
  a == pCdm + 0x044 || (decide (pHbm 0 ≤ a ∧ a < pHbm 32) && (a - pHbm 0) % 0x4000 == 0x04C)

/-- HBMn.PC_PENDING, which stays until the next map rebuild (R281, R285). -/
def pendReg (a : Nat) : Bool := decide (pHbm 0 ≤ a ∧ a < pHbm 32) && (a - pHbm 0) % 0x4000 == 0x050

/-- Every volatile part of the module lost, but for the registers that satisfy keep. Memory, the untrusted table, key
slots, the HBM controllers and what flash holds are treated by the callers. Log entry 216: DESIGN CHOICE. -/
def State.loseVolatile (s : State) (keep : Nat → Bool) : State :=
  { s with regs := s.regs.filter (fun e => keep e.1), shadows := Shadows.init, latches := [], idxAddr := [], cores := [],
           fab := Fab.init, units := Units.empty, slots := [], coll := ⟨[], [], [], []⟩, zwk := ZwkSt.init, held := [], bar2 := [], mctp := ⟨0⟩,
           wear := { s.wear with marks := [], running := Option.none, unrec := [],
                                 retired := s.wear.retired.filter fun c => !s.wear.unrec.contains c },
           sec := { s.sec with op := Option.none, saf := [], dbg := 0, identityOk := false } }

/-- Scratchpad contents lost: they read as unlisted addresses do. -/
def Mem.loseSp (m : Mem) : Mem :=
  { m with cells := m.cells.filter (fun c => decide (c.1 < spBase)), errs := m.errs.filter fun e => !isSp e.1 }

/-- P4: the rails go off, and only flash keeps its contents (R515). Key slots and the untrusted table are lost. Log
entry 221: DESIGN CHOICE. -/
def State.toP4 (s : State) : State :=
  let s := s.loseVolatile flashReg
  let s := { s with mem := Mem.init, hbm := [], pwr := PwrSt.init, time := TimeSt.init,
                    sec := { s.sec with keys := [], untr := [] },
                    boot := { s.boot with running := false, ready := false, loading := false, hostReady := 0, perst := 0,
                                          buffer := [], heartbeat := false, fault := false, status := 0, samples := [],
                                          waitSample := false, wake := false } }
  s.fset pPwr F.PWR_STAT_STATE 4

/-- FAULT_N is driven low, and the module enters P4 (R513, R514, R524, R525, R538). -/
def State.fatal (s : State) : State := (s.send (.pin 0 false)).toP4

end Sys2Proof.Machine
end

