-- ==== Sys2Proof/Machine/ZwkWire.lean ====
section
/-! DEFINITION. The Zwikai exchange on the wire: header bytes, erasure coding over GF(2^8), routes and gateways, keys and
sealing, sending, replay windows, round-trip times, groups and streams (R389, R395, R410 to R419). -/

namespace Sys2Proof

/-- The 48 bytes of a parcel header (R411). -/
def ParcelHdr.bytes (p : ParcelHdr) : List Byte :=
  Machine.leBytes 4 (2 ^ 28 + p.kind % 16 * 2 ^ 24 + p.src % 16 * 2 ^ 20 + p.dst % 16 * 2 ^ 16 + p.route % 4 * 2 ^ 14
      + p.skind % 4 * 2 ^ 12 + p.lid % 4096)
    ++ Machine.leBytes 4 (p.epoch % 65536 * 65536 + p.core % 1024) ++ Machine.leBytes 4 p.round
    ++ Machine.leBytes 4 (p.group % 2 ^ 24 * 256 + p.index % 256)
    ++ Machine.leBytes 4 (p.k % 64 * 2 ^ 26 + p.m % 32 * 2 ^ 21 + p.plen % 2 ^ 14) ++ Machine.leBytes 4 0
    ++ Machine.leBytes 8 p.sendTime ++ Machine.leBytes 8 p.ctr ++ Machine.leBytes 8 p.echo

/-- The header that 48 bytes spell (R411). -/
def ParcelHdr.ofBytes (b : List Byte) : ParcelHdr :=
  let w := fun (i : Nat) => BitVec.ofNat 32 (Machine.field b (4 * i) 4)
  ⟨Machine.bits (w 0) 27 24, Machine.bits (w 0) 23 20, Machine.bits (w 0) 19 16, Machine.bits (w 0) 15 14, Machine.bits (w 0) 13 12,
   Machine.bits (w 0) 11 0, Machine.bits (w 1) 31 16, Machine.bits (w 1) 9 0, (w 2).toNat, Machine.bits (w 3) 31 8,
   Machine.bits (w 3) 7 0, Machine.bits (w 4) 31 26, Machine.bits (w 4) 25 21, Machine.bits (w 4) 13 0,
   Machine.field b 24 8, Machine.field b 32 8, Machine.field b 40 8⟩

end Sys2Proof

namespace Sys2Proof.Machine

/-! ### GF(2^8) with field polynomial 0x11D (R415) -/

def gfMulAux : Nat → Nat → Nat → Nat
  | 0, _, _ => 0
  | f + 1, a, b =>
    let a2 := if a ≥ 128 then (2 * a) ^^^ 0x11D else 2 * a
    (if b % 2 = 1 then a else 0) ^^^ gfMulAux f a2 (b / 2)

def gfMul (a b : Nat) : Nat := gfMulAux 8 a b

/-- 1 ÷ a as a^254; 0 has none and gives 0. -/
def gfInv (a : Nat) : Nat :=
  ((List.range 7).foldl (fun (r : Nat × Nat) _ => (gfMul r.1 (gfMul r.2 r.2), gfMul r.2 r.2)) (1, a)).1

/-- C(i, t) of R415. -/
def rsCoeff (i t : Nat) : Nat := gfInv ((0x80 + i) ^^^ t)

def gfScale (c : Nat) (v : List Nat) : List Nat := v.map (gfMul c)
def gfAdd (a b : List Nat) : List Nat := (List.zip a b).map fun p => p.1 ^^^ p.2

/-- Parity parcel i of data parcels padded to one length. -/
def rsParity (i : Nat) (ds : List (List Nat)) (len : Nat) : List Nat :=
  (List.range ds.length).foldl (fun a t => gfAdd a (gfScale (rsCoeff i t) (ds.getD t []))) (List.replicate len 0)

/-- The solution of n linear equations over GF(2^8): coefficients and right side of each row. -/
def gfSolve : Nat → List (List Nat × List Nat) → List (List Nat)
  | 0, _ => []
  | n + 1, rows =>
    match rows.find? fun r => r.1.headD 0 != 0 with
    | none => []
    | some r =>
      let inv := gfInv (r.1.headD 0)
      let cs := gfScale inv r.1.tail
      let b := gfScale inv r.2
      let rest := (eraseFirst (fun x => x == r) rows).map fun x =>
        (gfAdd x.1.tail (gfScale (x.1.headD 0) cs), gfAdd x.2 (gfScale (x.1.headD 0) b))
      let xs := gfSolve n rest
      (List.zip cs xs).foldl (fun (a : List Nat) (p : Nat × List Nat) => gfAdd a (gfScale p.1 p.2)) b :: xs

/-- The data parcels of a group from any k of its parcels (R415, R417). -/
def rsDecode (k len : Nat) (ps : List (Nat × List Byte)) : List (List Byte) :=
  let val := fun (b : List Byte) => (b.map (·.toNat)) ++ List.replicate (len - b.length) 0
  let find := fun (i : Nat) => (ps.find? fun p => p.1 == i).map fun p => val p.2
  let missing := (List.range k).filter fun t => (find t).isNone
  let par := (ps.filter fun p => decide (k ≤ p.1)).take missing.length
  let rows := par.map fun p =>
    let i := p.1 - k
    (missing.map (rsCoeff i),
     (List.range k).foldl (fun a t => match find t with | some d => gfAdd a (gfScale (rsCoeff i t) d) | none => a) (val p.2))
  let sol : List (Nat × List Nat) := List.zip missing (gfSolve missing.length rows)
  (List.range k).map fun t =>
    let d : List Nat := match find t with
      | some d => d
      | none => ((sol.find? fun (x : Nat × List Nat) => x.1 == t).map fun x => x.2).getD []
    d.map (BitVec.ofNat 8)

/-! ### Ranges and exclusion lists (R395) -/

/-- A range put into an ascending list. -/
def insRange (r : Nat × Nat) : List (Nat × Nat) → List (Nat × Nat)
  | [] => [r]
  | x :: xs => if r.1 ≤ x.1 then r :: x :: xs else x :: insRange r xs

/-- Ascending ranges with those that touch joined. -/
def joinRanges : List (Nat × Nat) → List (Nat × Nat)
  | [] => []
  | r :: rs => match joinRanges rs with
    | [] => [r]
    | x :: xs => if x.1 ≤ r.2 then (r.1, max r.2 x.2) :: xs else r :: x :: xs

/-- The union of two sets of ranges. -/
def unionRanges (a b : Ranges) : Ranges :=
  match a, b with
  | some x, some y => some (joinRanges ((x ++ y).foldr insRange []))
  | _, _ => none

/-- The bytes of an exclusion list: more than 1,024 ranges exclude everything. -/
def rangesBytes (r : Ranges) : List Byte :=
  match r with
  | some l =>
    if l.length ≤ 1024 then leBytes 4 l.length ++ List.replicate 60 0 ++ l.flatMap fun x => leBytes 4 x.1 ++ leBytes 4 x.2
    else leBytes 4 0xFFFFFFFF ++ List.replicate 60 0
  | none => leBytes 4 0xFFFFFFFF ++ List.replicate 60 0

/-- More ranges than an exclusion list holds are the whole stream (R395). -/
def capRanges (r : Ranges) : Ranges := r.bind fun l => if l.length ≤ 1024 then some l else none

/-- Is nothing excluded? -/
def noRanges (r : Ranges) : Bool := r == some []

/-! ### Messages (R404, R420) -/

/-- The decision record: stream and list offsets in 4 KiB units by contribution. -/
def decisionBytes (d : Decision) (offs : List (Nat × Nat)) : List Byte :=
  let head := leBytes 4 d.round ++ leBytes 4 (d.epoch % 65536 * 65536 + d.members % 65536)
    ++ leBytes 4 (d.kind % 16 * 2 ^ 28 + d.decider % 16 * 2 ^ 24 + d.contribs.length % 256 * 65536 + d.drops.length % 256 * 256)
    ++ leBytes 4 d.n ++ leBytes 4 (d.observers % 65536) ++ List.replicate 36 0
  let drops := d.drops.flatMap fun x => leBytes 4 x.1 ++ leBytes 4 (x.2 % 16)
  let cs := (List.zip d.contribs offs).flatMap fun (x : Contribution × (Nat × Nat)) =>
    leBytes 4 x.1.round ++ leBytes 4 (x.1.site % 16 * 2 ^ 28 + x.1.tau % 16 * 2 ^ 24) ++ leBytes 4 x.1.weight
      ++ leBytes 4 (x.2.1 % 65536 * 65536 + x.2.2 % 65536)
  let body := drops ++ List.replicate (192 - drops.length) 0 ++ cs ++ List.replicate (512 - cs.length) 0
  head ++ leBytes 8 (crc64 (head ++ body)) ++ body

/-- CTYPE of a message (R420). -/
def ctypeOf : ZCtrl → Nat
  | .nak _ _ => 0x01
  | .complete => 0x02
  | .missing _ => 0x03
  | .final _ => 0x04
  | .ping => 0x05
  | .have_ _ _ _ => 0x10
  | .decide_ _ => 0x11
  | .dack _ => 0x12
  | .commit _ => 0x13
  | .beat _ _ _ _ _ => 0x14
  | .newEpoch _ _ _ => 0x15
  | .ledger _ _ _ => 0x16
  | .join _ => 0x17
  | .ready _ _ => 0x17

/-- The ranges of MISSING and FINAL: their number, and for each its first parcel and its END. -/
def packRanges (r : Ranges) : List Byte :=
  match r with
  | some l => leBytes 4 l.length ++ l.flatMap fun x => leBytes 3 (x.1 / 8192) ++ leBytes 4 x.2
  | none => leBytes 4 0xFFFFFFFF

/-- What a message says beyond CTYPE. Round and core of a stream's message are in the parcel header. -/
def zFields : ZCtrl → List Byte
  | .nak g m => leBytes 4 g ++ leBytes 6 m
  | .complete => []
  | .missing r => packRanges r
  | .final r => packRanges r
  | .ping => []
  | .have_ r held jump => leBytes 4 r ++ leBytes 4 jump ++ leBytes 4 held.length ++ held.flatMap fun x => leBytes 4 x.1 ++ leBytes 2 x.2
  | .decide_ d => decisionBytes d (d.contribs.map fun _ => (0, 0))
  | .dack r => leBytes 4 r
  | .commit r => leBytes 4 r
  | .beat e m st r f => leBytes 2 e ++ leBytes 2 m ++ leBytes 4 st ++ leBytes 4 r ++ leBytes 4 f
  | .newEpoch e m b => leBytes 2 e ++ leBytes 2 m ++ leBytes 4 b
  | .ledger f r n => leBytes 4 f ++ leBytes 4 r ++ leBytes 4 n
  | .join x => leBytes 2 x
  | .ready x r => leBytes 2 x ++ [1, 0] ++ leBytes 4 r

/-- The payload of a CTRL parcel: CTYPE in bits [31:24] of its first word (R420), then the message, at least the 16 bytes of
PLEN. Log entry 253: DESIGN CHOICE. -/
def zBytes (c : ZCtrl) : List Byte :=
  let b := leBytes 4 (ctypeOf c * 2 ^ 24) ++ zFields c
  b ++ List.replicate (16 - b.length) 0

/-! ### The module's place in the exchange -/

def State.setZwk (s : State) (f : ZwkSt → ZwkSt) : State := { s with zwk := f s.zwk }

def State.siteId (s : State) : Nat := s.fget pZwk F.ZWK_CFG_SITE_ID
def State.zEpoch (s : State) : Nat := s.fget pZwk F.ZWK_EPOCH_EPOCH
def State.zState (s : State) : Nat := s.fget pZwk F.ZWK_EPOCH_STATE
def State.zMembers (s : State) : Nat := s.fget pZwk F.ZWK_MEMB_MEMBERS
def State.zEnrolled (s : State) : Nat := s.fget pZwk F.ZWK_MEMB_ENROLLED
def State.zRound (s : State) : Nat := s.fget pZwk F.ZWK_ROUND_ROUND
def State.zFork (s : State) : Nat := s.fget pZwk F.ZWK_FORK_ROUND
/-- S; 0 is taken as 1. -/
def State.zS (s : State) : Nat := max 1 (s.fget pZwk F.ZWK_WIN_S)
def State.zOn (s : State) : Bool := s.fget pZwk F.ZWK_CFG_EN == 1

/-- The sites of a bitmap, ascending. -/
def sitesOf (m : Nat) : List Nat := (List.range 16).filter fun i => m.testBit i

/-- Rounds in order; 0xFFFF_FFFF, before the first round, comes first. -/
def rnd1 (r : Nat) : Nat := (r + 1) % 2 ^ 32

/-! ### Routes (R389, R416, R435) -/

def roundUp (g n : Nat) : Nat := cdiv n g * g

def routeKey (site route word : Nat) : Nat := (site * 4 + route) * 8 + word
def State.routeWord (s : State) (site route word : Nat) : Word := Tab.get 0 (routeKey site route word) s.zwk.routes
def State.setRouteWord (s : State) (site route word : Nat) (w : Word) : State :=
  s.setZwk fun z => { z with routes := Tab.set 0 (routeKey site route word) w z.routes }

/-- Valid routes to a site, ascending. -/
def State.validRoutes (s : State) (site : Nat) : List Nat :=
  (List.range 4).filter fun r => bit (s.routeWord site r 6) 31

def State.srtt (s : State) (site route : Nat) : Nat := bits (s.routeWord site route 7) 23 0

/-- Insertion by a key, for orders of at most four routes. -/
def insBy (f : Nat → Nat) (a : Nat) : List Nat → List Nat
  | [] => [a]
  | b :: l => if f a ≤ f b then a :: b :: l else b :: insBy f a l

/-- Valid routes in ascending SRTT. -/
def State.byRtt (s : State) (site : Nat) : List Nat := (s.validRoutes site).foldr (insBy (s.srtt site)) []

/-- The gateway of a route for this module (R389). -/
def State.gatewayOf (s : State) (route : Nat) : Nat :=
  let e := (s.lid + route) % (s.fget pZwk F.ZWK_CFG_NGW + 1)
  let w := s.reg (pZwk + 0x080 + 4 * (e / 2))
  if e % 2 = 1 then bits w 27 16 else bits w 11 0

/-- Is the module a gateway: CFG.GATEWAY is 1, and a site port is UP (R389)? -/
def State.isGateway (s : State) : Bool :=
  s.fget pZwk F.ZWK_CFG_GATEWAY == 1 && [0, 1].any fun n => s.fget (pSite n) F.SITE_LINK_STAT_STATE == 2

/-- The port of a route entry. -/
def State.routePort (s : State) (site route : Nat) : Nat := bits (s.routeWord site route 6) 29 29

/-- The MAC and IPv6 address of a site port (R436). -/
def State.siteMac (s : State) (n : Nat) : Nat := s.fget (pSite n) F.SITE_MAC_HI_ADDR * 2 ^ 32 + s.fget (pSite n) F.SITE_MAC_LO_ADDR
def State.siteIp (s : State) (n : Nat) : Nat :=
  (List.range 4).foldl (fun a i => a + (s.reg (pSite n + 0x050 + 4 * i)).toNat * 2 ^ (32 * i)) 0

/-- What a frame to a site on a route says, from the registers of its port and the route entry (R410, R435, R436). -/
def State.frameHdr (s : State) (n site route : Nat) : FrameHdr :=
  let w := s.routeWord site route
  ⟨bits (w 5) 15 0 * 2 ^ 32 + (w 4).toNat, s.siteMac n, if bit (w 6) 28 then some (bits (w 6) 27 25, bits (w 6) 11 0) else none,
   s.fget (pSite n) F.SITE_IPCFG_TCLASS, s.fget (pSite n) F.SITE_IPCFG_HOP_LIMIT, s.siteIp n,
   (List.range 4).foldl (fun a i => a + (w i).toNat * 2 ^ (32 * i)) 0, s.fget (pSite n) F.SITE_IPCFG_UDP_PORT⟩

/-- A frame counted in a register of a site port, which saturates (R435). -/
def State.countFrame (s : State) (n off : Nat) : State :=
  s.setReg (pSite n + off) (BitVec.ofNat 32 (sat 32 ((s.reg (pSite n + off)).toNat + 1)))

/-- A parcel leaves in a frame through a site port that is UP (R410). -/
def State.siteSend (s : State) (n site route : Nat) (bs : List Byte) : State :=
  if s.fget (pSite n) F.SITE_LINK_STAT_STATE = 2 then (s.countFrame n 0x068).send (.frame n ((s.frameHdr n site route).frame bs)) else s

/-- A packet of a parcel goes to a module; after one that ends at once no other is issued. -/
def State.parcelPart (s : State) (g id : Nat) (lost : Bool) (bs : List Byte) : State × Bool :=
  if lost then (s, true)
  else
    let len := roundUp 32 bs.length
    match s.request opMSG 2 (g * 2 ^ 44) len (bs ++ List.replicate (len - bs.length) 0) none (.zwk id) with
    | (s, none) => (s, false)
    | (s, some _) => (s, true)

/-- A parcel goes over the fabric to a module, as class C2 requests (R389). Log entry 254: DESIGN CHOICE. -/
def State.fabricParcel (s : State) (g : Nat) (bs : List Byte) : State :=
  let id := s.zwk.parcels + 1
  let r := (chunks 256 (cdiv bs.length 256) bs).foldl (fun (r : State × Bool) c => r.1.parcelPart g id r.2 c)
    (s.setZwk fun z => { z with parcels := id }, false)
  if r.2 then (r.1.dropWaiting fun o => decide (o = .zwk id)).1 else r.1

/-! ### Keys (R412, R491, R494) -/

/-- The key slot for a site and an epoch: the ZWK slot of that pair and epoch, else the pair's current key. Log entry
140: DEDUCED. -/
def State.zKey (s : State) (site epoch : Nat) : Option Nat :=
  let find := fun (e : Nat) => (List.range 64).find? fun n => let k := s.key n; k.valid && k.use == 0 && k.peer == site && k.epoch == e
  match find epoch with
  | some n => some n
  | none => find (Tab.get 0 site s.zwk.keyEpoch)

/-- One invocation of a key slot: its CTR is taken and rises; a slot at its limit refuses (R494). Log entry 142:
DEDUCED. -/
def State.invoke (s : State) (n : Nat) : State × Option (KeySlot × Nat) :=
  let k := s.key n
  if k.exhausted || !k.valid then (s, none)
  else if k.ctr = 2 ^ k.log2 then ((s.setKey n { k with exhausted := true }).event pSec F.SEC_PG_EVT_EXHAUSTED, none)
  else (s.setKey n { k with ctr := k.ctr + 1 }, some (k, k.ctr))

/-- The IV of a parcel (R412). Log entry 141: DESIGN CHOICE. -/
def parcelIv (src lid route port ctr : Nat) : Nat :=
  src % 16 * 2 ^ 92 + lid % 4096 * 2 ^ 80 + route % 4 * 2 ^ 78 + port % 2 * 2 ^ 77 + ctr % 2 ^ 64

/-! ### Sending (R410 to R412, R416, R419) -/

/-- The ECHO of a route to a site (R419); 0 before the peer's first parcel. -/
def State.echo (s : State) (site route : Nat) : Nat :=
  match s.zwk.echoes.find? fun e => e.1 == site * 4 + route with
  | some e => e.2.1 + (s.now - e.2.2)
  | none => 0

/-- The way of a parcel to a site on a route: its own site port, or the gateway. -/
def State.viaOf (s : State) (site route : Nat) : Sum Nat Nat :=
  let g := s.gatewayOf route
  if g = s.lid then .inl (s.routePort site route) else .inr g

/-- A parcel to a site on a route leaves by a way. Log entry 139: DESIGN CHOICE. -/
def State.viaSend (s : State) (via : Sum Nat Nat) (site route : Nat) (bs : List Byte) : State :=
  match via with
  | .inl n => s.siteSend n site route bs
  | .inr g => s.fabricParcel g bs

/-- The header fields that every parcel to a site on a route carries. -/
def State.baseHdr (s : State) (site route kind skind core round : Nat) : ParcelHdr :=
  ⟨kind, s.siteId, site, route, skind, s.lid, s.zEpoch, core, round, 0, 0, 0, 0, 0, s.now, 0, s.echo site route⟩

/-- A parcel sealed and sent (R412); a key that refuses sends nothing. -/
def State.sendParcel (s : State) (h : ParcelHdr) (body : List Byte) : State :=
  match s.zKey h.dst h.epoch with
  | none => s
  | some n =>
    match s.invoke n with
    | (s, none) => s
    | (s, some (k, ctr)) =>
      let h := { h with ctr := ctr, plen := body.length }
      let (ct, tag) := gcmSeal k.key (parcelIv h.src h.lid h.route (s.routePort h.dst h.route) ctr) h.bytes body
      s.viaSend (s.viaOf h.dst h.route) h.dst h.route (h.bytes ++ ct ++ tag)

/-- A CTRL parcel on one route. -/
def State.sendCtrl1 (s : State) (site route core round : Nat) (skind : Nat) (body : ZCtrl) : State :=
  s.sendParcel (s.baseHdr site route 3 skind core round) (zBytes body)

/-- A message between modules of one plan position: on the valid route of the lowest SRTT. Log entry 144: DEDUCED. -/
def State.sendPeer (s : State) (site core round skind : Nat) (body : ZCtrl) : State :=
  match s.byRtt site with
  | r :: _ => s.sendCtrl1 site r core round skind body
  | [] => s

/-- A message between conveners: on every valid route at once (R420). -/
def State.sendConv (s : State) (site round : Nat) (body : ZCtrl) : State :=
  (s.validRoutes site).foldl (fun s r => s.sendCtrl1 site r 0 round 3 body) s

/-- A message to every site of a bitmap but this one. -/
def State.sendSites (s : State) (m round : Nat) (body : ZCtrl) : State :=
  (sitesOf m).foldl (fun s x => if x = s.siteId then s else s.sendConv x round body) s

/-- The data parcels of a stream: 8,192 bytes each, the last shorter, of at least the 16 bytes of PLEN. Log entry 144:
DEDUCED. -/
def dataParcels (bs : List Byte) : List (List Byte) :=
  (chunks 8192 (cdiv bs.length 8192) bs).map fun c => c ++ List.replicate (16 - c.length) 0

/-- The data parcels of group g of a stream. -/
def StreamOut.groupData (x : StreamOut) (g : Nat) : List (List Byte) := ((dataParcels x.data).drop (g * x.k)).take x.k

/-- Groups of a stream. -/
def StreamOut.groups (x : StreamOut) : Nat := cdiv (cdiv x.data.length 8192) x.k

/-- Parcel t of group g sent to a site on a route. -/
def State.sendOne (s : State) (x : StreamOut) (site g t route : Nat) : State :=
  let ds := x.groupData g
  let k := ds.length
  let h := { s.baseHdr site route (if t < k then 1 else 2) x.skind x.core x.round with group := g, index := t, k := k, m := x.m }
  let len := (ds.map List.length).foldl max 0
  let body := if t < k then ds.getD t [] else
    (rsParity (t - k) (ds.map fun d => (d.map (·.toNat)) ++ List.replicate (len - d.length) 0) len).map (BitVec.ofNat 8)
  s.sendParcel h body

/-- A group sent to a site: parcel t on route t mod R (R416). -/
def State.sendGroup (s : State) (x : StreamOut) (site g : Nat) : State :=
  let rs := s.validRoutes site
  if rs.isEmpty then s
  else (List.range ((x.groupData g).length + x.m)).foldl (fun s t => s.sendOne x site g t (rs.getD (t % rs.length) 0)) s

/-- A whole stream sent to each of its sites. Log entry 145: DESIGN CHOICE. -/
def State.sendStream (s : State) (x : StreamOut) : State :=
  (List.range x.groups).foldl (fun s g => x.targets.foldl (fun s t => s.sendGroup x t g) s) s

/-! ### Receiving: replay and round trips (R413, R419) -/

/-- The replay verdict of a CTR in its window: true when it is discarded. -/
def State.replayed (s : State) (lid route slot ctr : Nat) : Bool :=
  match s.zwk.windows.find? fun w => w.lid == lid && w.route == route && w.slot == slot with
  | some w => w.seen.contains ctr || decide (ctr + 1024 ≤ w.high)
  | none => false

/-- A CTR accepted into its window. -/
def State.windowAccept (s : State) (lid route slot ctr : Nat) : State :=
  let same := fun (w : Window) => w.lid == lid && w.route == route && w.slot == slot
  let w := (s.zwk.windows.find? same).getD ⟨lid, route, slot, 0, []⟩
  let high := max w.high ctr
  let w := { w with high := high, seen := (w.seen ++ [ctr]).filter fun c => decide (high < c + 1024) }
  s.setZwk fun z => { z with windows := z.windows.filter (fun x => !same x) ++ [w] }

/-- A round-trip sample of a route to a site; a longer jump is a number of µs for the convener (R419). An ECHO of 0
carries no time. Log entry 143: DEDUCED. -/
def State.sample (s : State) (site route echo : Nat) : State × Nat :=
  if echo = 0 ∨ s.now < echo then (s, 0)
  else
    let x := (s.now - echo) / 1000
    let old := s.srtt site route
    let d : Int := (x : Int) - old
    if s.fget pZwk F.ZWK_TMO_ROUTE_JUMP < d.natAbs then
      let s := s.setRouteWord site route 7 (BitVec.ofNat 32 (x % 2 ^ 24))
      let s := s.setRouteWord site route 6 (setBits (s.routeWord site route 6) 30 30 1)
      let s := (s.finc pZwk F.ZWK_CNT3_REROUTES).event pZwk F.ZWK_PG_EVT_REROUTE
      (s, if old < x then x - old else 0)
    else (s.setRouteWord site route 7 (BitVec.ofNat 32 ((old : Int) + Int.tdiv d 8).toNat), 0)

/-- The times that an accepted parcel brings. -/
def State.timed (s : State) (h : ParcelHdr) : State × Nat :=
  let key := h.src * 4 + h.route
  let s := s.setZwk fun z => { z with echoes := z.echoes.filter (fun e => e.1 != key) ++ [(key, h.sendTime, s.now)] }
  s.sample h.src h.route h.echo

/-! ### Streams being received (R417, R418) -/

def StreamIn.is (x : StreamIn) (site core skind round : Nat) : Bool :=
  x.site == site && x.core == core && x.skind == skind && x.round == round

def State.streamIn (s : State) (site core skind round : Nat) : Option StreamIn :=
  s.zwk.ins.find? fun x => x.is site core skind round

def State.modIn (s : State) (site core skind round : Nat) (f : StreamIn → StreamIn) : State :=
  s.setZwk fun z => { z with ins := modFirst (fun x => x.is site core skind round) f z.ins }

/-- The data of group g when it is decoded. -/
def StreamIn.groupData (x : StreamIn) (g : Nat) : Option (List Byte) := (x.groups.find? fun y => y.group == g).bind (·.data)

/-- Stream length, from the header in group 0 (R394). -/
def StreamIn.bytes (x : StreamIn) : Option Nat := (x.groupData 0).map fun d => field d 8 4

/-- Groups of the stream, once its length is known. -/
def StreamIn.count (x : StreamIn) : Option Nat := x.bytes.map fun b => max 1 (cdiv (cdiv b 8192) (max 1 x.k))

/-- Is every group held? -/
def StreamIn.whole (x : StreamIn) : Bool :=
  match x.count with
  | some n => (List.range n).all fun g => (x.groupData g).isSome
  | none => false

/-- The byte ranges of the groups not held (R418); the whole stream while its length is unknown. -/
def StreamIn.missing (x : StreamIn) : Ranges :=
  match x.count, x.bytes with
  | some n, some b =>
    let size := max 1 x.k * 8192
    some (joinRanges (((List.range n).filter fun g => (x.groupData g).isNone).map fun g => (g * size, min ((g + 1) * size) b)))
  | _, _ => none

/-- The stream's bytes; groups that are not held read as zeros. -/
def StreamIn.stream (x : StreamIn) : List Byte :=
  let n := x.count.getD 0
  let size := max 1 x.k * 8192
  let all := (List.range n).flatMap fun g => match x.groupData g with
    | some d => d ++ List.replicate (size - d.length) 0
    | none => List.replicate size 0
  all.take (x.bytes.getD 0)

/-- Does a range of excluded bytes hold group g wholly or in part, so that the group need not be held? -/
def StreamIn.excused (x : StreamIn) (r : Ranges) (g : Nat) : Bool :=
  let size := max 1 x.k * 8192
  match r with
  | none => true
  | some l => l.any fun y => decide (y.1 ≤ g * size ∧ min ((g + 1) * size) (x.bytes.getD 0) ≤ y.2)

/-- The receiver holds the contribution: FINAL has come, and every group that is not excluded is held (R418). -/
def StreamIn.isHeld (x : StreamIn) : Bool :=
  match x.final with
  | none => false
  | some none => true
  | some r => match x.count with
    | some n => (List.range n).all fun g => (x.groupData g).isSome || x.excused r g
    | none => false

/-- A stream comes in, if it is not known yet. -/
def State.newStream (s : State) (h : ParcelHdr) : State :=
  if (s.streamIn h.src h.core h.skind h.round).isSome then s else
    s.setZwk fun z => { z with ins := z.ins ++ [⟨h.src, h.core, h.skind, h.round, [], 0, none, false, false⟩] }

/-- A group of a stream, or an empty one. -/
def StreamIn.groupOf (x : StreamIn) (h : ParcelHdr) : GroupIn :=
  (x.groups.find? fun y => y.group == h.group).getD ⟨h.group, h.k, h.m, [], none, []⟩

/-- The group of a parcel takes a new value. -/
def StreamIn.setGroup (x : StreamIn) (g : GroupIn) : StreamIn :=
  { x with groups := (x.groups.filter fun y => y.group != g.group) ++ [g] }

/-- The reassembly buffer of a DATA or PARITY parcel takes the untrusted bit (R413). -/
def State.untrust (s : State) (h : ParcelHdr) : State :=
  if h.kind = 3 then s
  else (s.newStream h).modIn h.src h.core h.skind h.round fun x =>
    let g := x.groupOf h
    if g.data.isSome || g.parcels.any fun p => p.1 == h.index then x
    else x.setGroup { g with untrusted := h.index :: g.untrusted.filter (· != h.index) }

/-- A parcel's plaintext put into its group, which is decoded at its k-th parcel (R417). -/
def State.putParcel (s : State) (h : ParcelHdr) (body : List Byte) : State :=
  let s := s.newStream h
  match s.streamIn h.src h.core h.skind h.round with
  | none => s
  | some x =>
    let g := x.groupOf h
    let g := { g with untrusted := g.untrusted.filter (· != h.index) }
    if g.data.isSome || (g.parcels.any fun p => p.1 == h.index) || decide (g.k + g.m ≤ h.index) then s
    else
      let ps := g.parcels ++ [(h.index, body)]
      let full := g.k ≤ ps.length
      let len := (ps.map fun p => p.2.length).foldl max 0
      let g' := if full then { g with parcels := [], untrusted := [], data := some ((rsDecode g.k len ps).flatMap id) } else { g with parcels := ps }
      let s := if full && (ps.any fun p => decide (g.k ≤ p.1)) then s.finc pZwk F.ZWK_CNT0_RECOVERED else s
      s.modIn h.src h.core h.skind h.round fun x => { x.setGroup g' with k := max x.k h.k }

end Sys2Proof.Machine
end

