-- ==== Sys2Proof/Machine/Exchange.lean ====
section
/-! DEFINITION. The exchanging module: the ZWK descriptors, parcels and messages between modules of one plan position, what
a commit does to a module, and what a module tells its convener (R387 to R389, R401 to R407, R413 to R419, R423). -/

namespace Sys2Proof.Machine

/-! ### Messages to and from the convener (R388, R389) -/

/-- Is this module its site's convener? -/
def State.isConvener (s : State) : Bool := s.lid == s.fget pZwk F.ZWK_CFG_CONVENER

def State.setConv (s : State) (f : Convener → Convener) : State := s.setZwk fun z => { z with conv := f z.conv }

/-- An entry of a list without repeats. -/
def addNew {α : Type} [DecidableEq α] (a : α) (l : List α) : List α := if a ∈ l then l else l ++ [a]

/-- A report of module x as its convener holds it. -/
def Convener.note (c : Convener) (x : Nat) (b : ConvBody) : Convener :=
  match b with
  | .sent core round => { c with sent := addNew (x, core, round) c.sent }
  | .finalSent core round => { c with finals := addNew (x, core, round) c.finals }
  | .holds site round => { c with holds := addNew (x, site, round) c.holds }
  | .jump us => { c with jump := max c.jump us }
  | .applied round => { c with applied := addNew (x, round) c.applied }
  | .commit _ => c
  | .epoch .. => c
  | .late _ => c

/-- A class C0 MSG of KIND 0xA to a module of the site (R389). A message to oneself is taken at once. -/
def State.convMsg (s : State) (lid : Nat) (b : ConvBody) : State :=
  let (bs, s) := s.drawBytes 60
  match s.request opMSG 0 (lid * 2 ^ 44) 64 (leBytes 4 0xA0000000 ++ bs) none (.zwk 0) with
  | (s, none) => s.send (.conv lid b)
  | (s, some _) => s

/-- A report to the convener. -/
def State.toConv (s : State) (b : ConvBody) : State :=
  if s.isConvener then s.setConv fun c => c.note s.lid b else s.convMsg (s.fget pZwk F.ZWK_CFG_CONVENER) b

/-- Logical cores of this module that have issued a SEND: its exchanging cores of the plan. Log entry 146: DEDUCED. -/
def State.exCores (s : State) : List Nat := s.zwk.lastSend.map (·.1)

/-- Does this module hold the contribution of a site for a round (R421)? For a round, the streams of every core that
sent for the round; for a catch-up, those of every core of the plan. Log entry 146: DEDUCED. -/
def State.holdsFrom (s : State) (site round skind : Nat) : Bool :=
  let own := if skind = 0 then (s.zwk.outs.filter fun x => x.skind == 0 && x.round == round).map (·.core) else s.exCores
  !own.isEmpty && own.all fun c => match s.streamIn site c skind round with
    | some x => x.isHeld
    | none => false

/-- Reports that are due: contributions that this module holds and that its convener does not know of. -/
def State.tellHeld (s : State) : State :=
  s.zwk.ins.foldl (fun s x =>
    if x.skind ≥ 2 || (match s.streamIn x.site x.core x.skind x.round with | some y => y.held | none => true)
        || !s.holdsFrom x.site x.round x.skind then s
    else
      let s := s.setZwk fun z => { z with ins := z.ins.map fun y =>
        if y.site == x.site && y.skind == x.skind && y.round == x.round then { y with held := true } else y }
      s.toConv (.holds x.site x.round)) s

/-! ### Regions of a COLLECT (R403, R404) -/

/-- FP32 code of a rational number m ÷ k. -/
def f32Ratio (m k : Nat) : Nat := (F32.rne (.val false (.rat m k 0)) false 0).code

/-- The stream and the final exclusion list of a contribution for a core; a stream that the module does not retain is
excluded whole. Log entry 155: DEDUCED. -/
def State.contribution (s : State) (core : Nat) (d : Decision) (c : Contribution) : List Byte × Ranges :=
  let sk := if d.kind = 1 then 1 else 0
  if c.site = s.siteId then
    match s.zwk.outs.find? fun x => x.core == core && x.skind == sk && x.round == c.round with
    | some x => (x.data, x.final.getD none)
    | none => ([], none)
  else
    match s.streamIn c.site core sk c.round with
    | some x => (x.stream, x.final.getD none)
    | none => ([], none)

/-- The writes of a region: offset and bytes of each, and the region's length. Log entry 155: DEDUCED. -/
def State.region (s : State) (core : Nat) (d : Decision) : List (Nat × List Byte) × Nat :=
  let cs := d.contribs.map (s.contribution core d)
  let (ws, offs, top) := cs.foldl (fun (a : List (Nat × List Byte) × List (Nat × Nat) × Nat) (c : List Byte × Ranges) =>
    let l := a.2.2 + roundUp 4096 c.1.length
    let bs := rangesBytes c.2
    (a.1 ++ [(a.2.2, c.1), (l, bs)], a.2.1 ++ [(a.2.2 / 4096, l / 4096)], l + roundUp 4096 bs.length))
    (([] : List (Nat × List Byte)), ([] : List (Nat × Nat)), 4096)
  ((0, decisionBytes d offs) :: ws, top)

/-! ### ZWK descriptors (R401 to R407) -/

structure ZwkD where
  op : Nat
  peer : Nat
  round : Nat
  buf : Loc
  bytes : Nat
  list : Loc
deriving DecidableEq, Repr

def zwkD (w : List Word) : ZwkD :=
  ⟨bits (wd w 2) 31 28, bits (wd w 2) 27 24, (wd w 3).toNat, locOf w 4, (wd w 6).toNat, locOf w 7⟩

/-- The end of the memory a place lies in. -/
def Loc.limit (l : Loc) : Nat := if l.sp then spSize else hbmEnd

/-- Does an OP send a stream? -/
def ZwkD.sends (d : ZwkD) : Bool := d.op == 0 || d.op == 2 || d.op == 4

/-- Sites that a stream of an OP goes to: SEND to the other members and to the observers of the last decision (R434);
CATCHUP to the other sites of the two sides (R432); a snapshot to its peer. Log entry 152: DEDUCED. -/
def State.zTargets (s : State) (d : ZwkD) : List Nat :=
  let others := fun (m : Nat) => (sitesOf m).filter (· != s.siteId)
  match d.op with
  | 0 => others (s.zMembers ||| (match s.zwk.decisions.getLast? with | some d => d.observers | none => 0))
  | 4 => others (s.zMembers ||| s.zwk.other)
  | _ => [d.peer]

/-- No valid route leads to another member, though there is one. A site alone in its epoch has no other member to
reach. Log entry 149: DEDUCED. -/
def State.cutOff (s : State) : Bool :=
  let others := (sitesOf s.zMembers).filter (· != s.siteId)
  !others.isEmpty && others.all fun x => (s.validRoutes x).isEmpty

/-- The checks of R407 but for the stream header; the lowest code that applies. -/
def State.zwkCheck (s : State) (ph core : Nat) (d : ZwkD) : Option Nat :=
  let badBuf := d.buf.off % 4096 != 0 || decide (d.buf.limit < d.buf.off + d.bytes)
  let badList := (d.op == 0 || d.op == 4) && (d.list.off % 4096 != 0 || decide (d.list.limit < d.list.off + 64))
  let prev := s.zwk.outs.any fun x => x.phys == ph && x.skind == 0 && x.final.isNone && (s.infl ph x.idx).isSome
  if 4 < d.op || badBuf || badList then some 0x70
  else if !s.zOn || s.cutOff then some 0x71
  else if d.op == 0 && (decide (d.round < Tab.get 0 core s.zwk.lastSend) || prev) then some 0x72
  else if (d.op == 0 && s.zState == 3) || (d.op == 4 && s.zState != 3) then some 0x75
  else none

/-- Report of a stream's FINAL to the convener. -/
def State.tellFinal (s : State) (x : StreamOut) : State := if x.skind < 2 then s.toConv (.finalSent x.core x.round) else s

/-- A stream of this module changed. -/
def State.modOut (s : State) (x : StreamOut) (f : StreamOut → StreamOut) : State :=
  let same := fun (y : StreamOut) => y.core == x.core && y.skind == x.skind && y.round == x.round && y.idx == x.idx
  s.setZwk fun z => { z with outs := modFirst same f z.outs }

/-- Does a range touch group g of a stream sent? -/
def StreamOut.touched (x : StreamOut) (r : Ranges) (g : Nat) : Bool :=
  match r with
  | none => true
  | some l => l.any fun y => decide (y.1 < (g + 1) * x.k * 8192 ∧ g * x.k * 8192 < y.2)

/-- The receiving members of a stream: a site that is neither a member nor an observer any more counts no longer
(R418). Log entry 150: DEDUCED. -/
def State.receivers (s : State) (x : StreamOut) : List Nat :=
  if x.skind ≠ 0 then x.targets
  else
    let m := s.zMembers ||| (match s.zwk.decisions.getLast? with | some d => d.observers | none => 0)
    x.targets.filter m.testBit

/-- FINAL of a SEND or CATCHUP (R402, R418): the union of what was reported and the whole stream for a member that was
silent goes to every receiving member and to LIST, and the descriptor completes. Log entry 147: DEDUCED. -/
def State.finishSend (s : State) (x : StreamOut) : State :=
  let to_ := s.receivers x
  let un := capRanges (to_.foldl (fun r t => unionRanges r (match x.reports.find? fun p => p.1 == t with
    | some p => p.2
    | none => none)) (some []))
  let s := s.finc pZwk F.ZWK_CNT1_LOST ((List.range x.groups).filter (x.touched un)).length
  let s := s.modOut x fun y => { y with final := some un }
  let s := to_.foldl (fun s t => s.sendPeer t x.core x.round x.skind (.final un)) s
  let s := s.tellFinal x
  match s.infl x.phys x.idx with
  | none => s
  | some e =>
    let (s, st) := s.locWrite x.phys (zwkD e.words).list (rangesBytes un)
    let bitmap := (x.reports.filter fun p => to_.contains p.1 && !noRanges p.2).foldl (fun a p => a ||| 2 ^ p.1) 0
    s.complete x.phys e (if st ≠ 0 then Rec.ofOutcome st else if noRanges un then Rec.of 0 else ⟨1, 0, 0, bitmap, some 0⟩)

/-- Every receiving member has reported, and the SEND runs. -/
def State.reported (s : State) (x : StreamOut) : Bool :=
  x.started && x.final.isNone && (s.receivers x).all fun t => x.reports.any fun p => p.1 == t

/-- The decision that a COLLECT of a round takes: a FIXUP before the round's own. Log entry 156: DEDUCED. -/
def State.decisionOf (s : State) (round : Nat) : Option Decision :=
  match s.zwk.decisions.find? fun d => d.round == round && d.kind == 2 with
  | some d => some d
  | none => s.zwk.decisions.find? fun d => d.round == round

/-- A joiner holds the streams of a decision for a core: a member holds them when it commits, an observer receives them
after (R434). -/
def State.joinerHolds (s : State) (core : Nat) (d : Decision) : Bool :=
  s.zState != 0 || d.contribs.all fun c => match s.streamIn c.site core 0 c.round with
    | some x => x.isHeld
    | none => false

/-- A running COLLECT looks for its decision (R403); at a joiner it waits for the streams too. Log entries 154: DESIGN
CHOICE, 255: DEDUCED. -/
def State.collectNow (s : State) (ph core : Nat) (e : Infl) : State :=
  let d := zwkD e.words
  match s.decisionOf d.round with
  | some x =>
    if !s.joinerHolds core x then s else
    let (ws, top) := s.region core x
    let full := decide (d.bytes < top)
    let (s, st) := (if full then ws.take 1 else ws).foldl (fun (a : State × Nat) w =>
      let r := a.1.locWrite ph (d.buf.add w.1) w.2
      (r.1, if a.2 = 0 then r.2 else a.2)) (s, 0)
    let s := s.complete ph e (Rec.ofOutcome (if st ≠ 0 then st else if full then 0x0C else 0))
    s.toConv (.applied d.round)
  | none =>
    if s.zRound ≠ 0xFFFFFFFF ∧ d.round ≤ s.zRound then s.complete ph e (Rec.of 5) else s

/-- A running SNAP_RECV whose stream is whole writes it (R405). -/
def State.snapNow (s : State) (ph core : Nat) (e : Infl) : State :=
  let d := zwkD e.words
  match s.streamIn d.peer core 2 d.round with
  | some x =>
    if !x.whole then s
    else
      let bs := x.stream
      let s := s.setZwk fun z => { z with ins := eraseFirst (fun y => y.is d.peer core 2 d.round) z.ins }
      if d.bytes < bs.length then s.complete ph e (Rec.of 0x0C)
      else let (s, st) := s.locWrite ph d.buf bs; s.complete ph e (Rec.ofOutcome st)
  | none => s

/-- The first ZWK descriptor of a core acts: it starts, or looks again for what it waits for; when it ends, the next
follows (R149). Log entries 145: DESIGN CHOICE, 151: DEDUCED. -/
def State.zwkRun : Nat → State → Nat → Nat → State
  | 0, s, _, _ => s
  | f + 1, s, ph, core =>
    match s.queue ph tZWK with
    | [] => s
    | e :: _ =>
      let d := zwkD e.words
      let s := if e.prog == .queued then s.modInfl ph e.idx fun x => { x with prog := .sync 0 none } else s
      let t :=
        if d.sends then
          match s.zwk.outs.find? fun x => x.phys == ph && x.idx == e.idx with
          | some x =>
            let s := if x.started then s else
              let s := s.modOut x fun y => { y with started := true }
              let s := s.sendStream x
              if x.skind = 2 then s else s.toConv (.sent x.core x.round)
            let x := { x with started := true }
            if x.skind ≠ 2 && s.reported x then s.finishSend x else s
          | none => s
        else if d.op = 1 then s.collectNow ph core e
        else s.snapNow ph core e
      if (t.queue ph tZWK).length < (s.queue ph tZWK).length then State.zwkRun f t ph core else t

/-- The ZWK queue of every core that has one acts, and reports that are due go to the convener. -/
def State.zwkAll (s : State) : State :=
  let s := s.physCores.foldl (fun s ph => if (s.queue ph tZWK).isEmpty then s else
    s.zwkRun 5 ph ((s.logical ph).getD 0)) s
  s.tellHeld

/-- Has this module sent a stream for a round? -/
def State.sentFor (s : State) (round : Nat) : Bool := s.zwk.outs.any fun x => x.skind == 0 && x.round == round

/-- This module's contribution of a round became late: counted once (R426, R429). -/
def State.lateHere (s : State) (round : Nat) : State :=
  if !s.sentFor round || s.zwk.late.contains round then s
  else ((s.finc pZwk F.ZWK_CNT2_LATE).event pZwk F.ZWK_PG_EVT_LATE).setZwk fun z => { z with late := round :: z.late }

/-- Has this site committed a round? -/
def State.committed (s : State) (round : Nat) : Bool := s.zRound != 0xFFFFFFFF && decide (round ≤ s.zRound)

/-- A ZWK descriptor whose OP satisfies p issues (R148, R407): the lowest code, of which 0x70 needs the stream's header; a
stream is copied as it issues (R402), and one whose round is committed is late (R426). Log entry 151: DEDUCED. -/
def State.zwkIssue (s : State) (n : Nat) (p : Nat → Bool) : State :=
  s.onCore n fun s ph =>
    match s.issuable ph (fun w => hType w == tZWK && p (zwkD w).op) with
    | none => s
    | some f =>
      let d := zwkD f.words
      match s.zwkCheck ph n d with
      | some 0x70 => s.issueDone ph f (Rec.refused 0x70)
      | chk =>
        if !d.sends then
          match chk with
          | some r => s.issueDone ph f (Rec.refused r)
          | none => (s.issue ph f .queued).zwkAll
        else
          let g := s.locRead ph d.buf d.bytes
          if g.status ≠ 0 then g.st.issueDone ph f (match chk with
            | some r => Rec.refused r
            | none => Rec.ofOutcome g.status)
          else if field g.data 8 4 ≠ d.bytes then g.st.issueDone ph f (Rec.refused 0x70)
          else match chk with
            | some r => g.st.issueDone ph f (Rec.refused r)
            | none =>
              let s := g.st
              let sk := if d.op = 0 then 0 else if d.op = 4 then 1 else 2
              let x : StreamOut := ⟨n, ph, f.idx, sk, d.round, false, g.data, max 1 (s.fget pZwk F.ZWK_RS_K),
                                    s.fget pZwk F.ZWK_RS_M, s.zTargets d, [], none⟩
              let s := s.setZwk fun z => { z with
                outs := z.outs ++ [x],
                lastSend := if d.op = 0 then Tab.set 0 n (d.round + 1) z.lastSend else z.lastSend }
              let s := if d.op = 0 ∧ s.committed d.round then s.lateHere d.round else s
              (s.issue ph f .queued).zwkAll

/-! ### Parcels that arrive (R389, R411 to R413, R417) -/

/-- A frame that a site port is given (R414): its payload, counted as accepted; none is discarded and counted. A port that
is not UP receives nothing. -/
def State.rxFrame (s : State) (n : Nat) (bs : List Byte) : State × Option (List Byte) :=
  if s.fget (pSite n) F.SITE_LINK_STAT_STATE ≠ 2 then (s, none)
  else match frameIn (s.siteMac n) (s.fget (pSite n) F.SITE_IPCFG_UDP_PORT) bs with
    | some p => (s.countFrame n 0x06C, some p)
    | none => (s.countFrame n 0x064, none)

/-- The packets of a parcel arrive over the fabric (R389): each is answered, and one that is turned away loses the parcel.
Log entry 254: DESIGN CHOICE. -/
def State.rxPackets (s : State) (ps : List Arrival) : State × Option (List Byte) :=
  if ps.isEmpty ∨ !(ps.all fun a => a.pkt.op == opMSG && a.pkt.cls == 2 && s.consumes a.pkt) then (s, none)
  else
    let r := ps.foldl (fun (r : State × Bool) a => match r.1.turnAway a with
      | some t => (t, false)
      | none => (r.1.respond a.pkt 0 0 [], r.2)) (s, true)
    (r.1, if r.2 then some (ps.flatMap (·.pkt.payload)) else none)

/-- The bytes of a parcel that comes in. -/
def State.receive (s : State) : ParcelIn → State × Option (List Byte)
  | .frame n bs => s.rxFrame n bs
  | .fabric ps => s.rxPackets ps

/-- A parcel as its bytes give it (R410, R411): the header and its bytes, ciphertext and tag. -/
structure Parcel where
  hdr : ParcelHdr
  head : List Byte
  cipher : List Byte
  tag : List Byte
deriving DecidableEq, Repr

/-- The parcel that bytes spell; one of a reserved KIND, of another version or of a PLEN beyond R411 is discarded. Log entry
256: DEDUCED. -/
def parcelOf (bs : List Byte) : Option Parcel :=
  let h := ParcelHdr.ofBytes bs
  if bs.length < 48 ∨ field bs 3 1 / 16 ≠ 1 ∨ h.kind = 0 ∨ 3 < h.kind ∨ h.plen < 16 ∨ 8192 < h.plen ∨ bs.length < 64 + h.plen then none
  else some ⟨h, bs.take 48, (bs.drop 48).take h.plen, (bs.drop (48 + h.plen)).take 16⟩

/-- A parcel for another module or site: a gateway sends one that comes from a site port over the fabric to its module, and
one that comes over the fabric for another site through the port of its route (R389). Log entry 256: DEDUCED. -/
def State.onward (s : State) (p : ParcelIn) (x : Parcel) : State :=
  let bs := x.head ++ x.cipher ++ x.tag
  if !s.isGateway then s
  else if x.hdr.dst = s.siteId then s.fabricParcel x.hdr.lid bs
  else match p with
    | .frame _ _ => s
    | .fabric _ => s.siteSend (s.routePort x.hdr.dst x.hdr.route) x.hdr.dst x.hdr.route bs

/-- The parcel for this module that comes in; while EN is 0 it is discarded. -/
def State.arriveParcel (s : State) (p : ParcelIn) : State × Option Parcel :=
  match s.receive p with
  | (s, none) => (s, none)
  | (s, some bs) =>
    match parcelOf bs with
    | none => (s, none)
    | some x =>
      if x.hdr.dst = s.siteId ∧ x.hdr.lid = s.lid then (s, if s.zOn then some x else none)
      else (s.onward p x, none)

/-- The checks of a parcel before it is opened: its key slot, and replay. Log entry 140: DEDUCED. -/
def State.parcelKey (s : State) (h : ParcelHdr) : State × Option Nat :=
  match s.zKey h.src h.epoch with
  | none => (s, none)
  | some n =>
    if s.replayed h.lid h.route n h.ctr then (s.finc pZwk F.ZWK_CNT3_REPLAYS, none) else (s, some n)

/-- A parcel that does not authenticate is an erasure, and its buffer is untrusted (R413). Log entry 160: DEDUCED. -/
def State.parcelBad (s : State) (h : ParcelHdr) : State :=
  ((s.untrust h).finc pZwk F.ZWK_CNT1_UNTRUSTED).event pZwk F.ZWK_PG_EVT_UNTRUSTED

/-- A parcel that authenticates: its CTR enters the window, its times make a sample, and at a convener its site's convener
is reachable (R428). -/
def State.parcelGood (s : State) (h : ParcelHdr) (slot : Nat) : State :=
  let (s, jump) := (s.windowAccept h.lid h.route slot h.ctr).timed h
  let s := if s.isConvener then s.setConv fun c => { c with unreach := c.unreach - (c.unreach &&& 2 ^ (h.src % 16)) } else s
  if jump = 0 then s else s.toConv (.jump jump)

/-- A parcel opened under the key that its header selects (R412, R413): its plaintext, where it authenticates. The egress
port in the IV is not in the header, so the tag is tried under either of its values. Log entries 141: DESIGN CHOICE, 142:
DEDUCED. -/
def State.openParcel (s : State) (x : Parcel) : State × Option (List Byte) :=
  match s.parcelKey x.hdr with
  | (s, none) => (s, none)
  | (s, some n) =>
    match s.invoke n with
    | (s, none) => (s, none)
    | (s, some (k, _)) =>
      let try_ := fun (port : Nat) => gcmOpen k.key (parcelIv x.hdr.src x.hdr.lid x.hdr.route port x.hdr.ctr) x.head x.cipher x.tag
      let r := if (try_ 0).2 then try_ 0 else try_ 1
      if r.2 then (s.parcelGood x.hdr n, some r.1) else (s.parcelBad x.hdr, none)

/-- What follows parcels and FINALs of a stream: COMPLETE when it is whole, and descriptors that waited. -/
def State.streamStep (s : State) (h : ParcelHdr) : State :=
  match s.streamIn h.src h.core h.skind h.round with
  | none => s
  | some x =>
    let s := if x.whole && !x.told then
        (s.modIn h.src h.core h.skind h.round fun y => { y with told := true }).sendPeer h.src h.core h.round h.skind .complete
      else s
    s.zwkAll

/-- A parcel of a KIND, DATA or PARITY, comes in and is stored in its group. -/
def State.parcel (s : State) (p : ParcelIn) (kind : Nat) : State :=
  match s.arriveParcel p with
  | (s, none) => s
  | (s, some x) =>
    if x.hdr.kind ≠ kind then s
    else match s.openParcel x with
      | (s, some body) => (s.putParcel x.hdr body).streamStep x.hdr
      | (s, none) => s

/-- A CTRL parcel comes in, and its message acts when it is what the plaintext spells. Log entries 160: DEDUCED, 253: DESIGN
CHOICE. -/
def State.ctrl (s : State) (p : CtrlIn) (act : ParcelHdr → State → State) : State :=
  match s.arriveParcel p.carrier with
  | (s, none) => s
  | (s, some x) =>
    if x.hdr.kind ≠ 3 then s
    else match s.openParcel x with
      | (s, some body) => if body = zBytes p.body then act x.hdr s else s
      | (s, none) => s

/-! ### Messages between modules (R417 to R419) -/

/-- The stream of this module that a message names. -/
def State.outFor (s : State) (h : ParcelHdr) : Option StreamOut :=
  s.zwk.outs.find? fun x => x.core == h.core && x.skind == h.skind && x.round == h.round && x.started
    && x.targets.contains h.src

/-- Parcels of a group sent again on the valid routes in ascending SRTT. Log entry 157: DEDUCED. -/
def State.resend (s : State) (x : StreamOut) (site g : Nat) (ts : List Nat) : State :=
  let rs := s.byRtt site
  if rs.isEmpty then s else
  let ts := ts.filter fun t => decide (t < (x.groupData g).length + x.m)
  (ts.zipIdx).foldl (fun s t => s.sendOne x site g t.1 (rs.getD (t.2 % rs.length) 0)) s

/-- R417: a NAK. -/
def State.nak (s : State) (h : ParcelHdr) (g bitmap : Nat) : State :=
  match s.outFor h with
  | some x => (s.resend x h.src g ((List.range 48).filter bitmap.testBit)).finc pZwk F.ZWK_CNT0_NAKS
  | none => s

/-- A member's report on a stream, COMPLETE or MISSING (R405, R418). Log entry 157: DEDUCED. -/
def State.report (s : State) (h : ParcelHdr) (r : Ranges) : State :=
  match s.outFor h with
  | none => s
  | some x =>
    if x.skind = 2 then
      if noRanges r then
        let s := s.setZwk fun z => { z with outs := eraseFirst (· == x) z.outs }
        match s.infl x.phys x.idx with
        | some e => (s.complete x.phys e (Rec.of 0)).zwkAll
        | none => s
      else ((List.range x.groups).filter (x.touched r)).foldl (fun s g => s.sendGroup x h.src g) s
    else if x.final.isSome || x.reports.any fun p => p.1 == h.src then s
    else (s.modOut x fun y => { y with reports := y.reports ++ [(h.src, r)] }).zwkAll

/-- R418: FINAL at a receiving module. -/
def State.finalIn (s : State) (h : ParcelHdr) (r : Ranges) : State :=
  ((s.newStream h).modIn h.src h.core h.skind h.round fun x => if x.final.isSome then x else { x with final := some r }).zwkAll

/-! ### What a commit and a new epoch do to a module (R412, R423, R426 to R430) -/

/-- The pairs move to their next keys at an epoch change (R412). -/
def State.switchKeys (s : State) (e : Nat) : State :=
  (List.range 16).foldl (fun s site =>
    let ks := (List.range 64).filter fun n => let k := s.key n; k.valid && k.use == 0 && k.peer == site
    if ks.isEmpty then s
    else if ks.any fun n => (s.key n).epoch == e then
      let s := s.setZwk fun z => { z with keyEpoch := Tab.set 0 site e z.keyEpoch }
      s.fset pZwk F.ZWK_KEYS_KEY_STALE (s.fget pZwk F.ZWK_KEYS_KEY_STALE - (s.fget pZwk F.ZWK_KEYS_KEY_STALE &&& 2 ^ site))
    else
      (s.fset pZwk F.ZWK_KEYS_KEY_STALE (s.fget pZwk F.ZWK_KEYS_KEY_STALE ||| 2 ^ site)).event pZwk F.ZWK_PG_EVT_KEY_NEEDED) s

/-- ZWK.KEYS as it reads: NEXT_READY shows the pairs with a key above their current one. -/
def State.zKeysWord (s : State) : Word :=
  let ready := (List.range 16).foldl (fun a site => a ||| (if (List.range 64).any fun n =>
    let k := s.key n
    k.valid && k.use == 0 && k.peer == site && decide (Tab.get 0 site s.zwk.keyEpoch < k.epoch) then 2 ^ site else 0)) 0
  BitVec.ofNat 32 (ready * 65536 + s.fget pZwk F.ZWK_KEYS_KEY_STALE)

/-- The lowest site of a bitmap. -/
def lowest (m : Nat) : Nat := (sitesOf m).headD 0

/-- Epoch, members, enrolled sites, state and fork round as this module holds them from now on. -/
def State.setEpoch (s : State) (e m enrolled st fork : Nat) : State :=
  let changed := s.zEpoch ≠ e ∨ s.zMembers ≠ m
  let s := s.setReg (pZwk + 0x058) (BitVec.ofNat 32 (e % 65536 * 65536 + lowest m * 4096 + st % 4))
  let s := s.setReg (pZwk + 0x054) (BitVec.ofNat 32 (enrolled % 65536 * 65536 + m % 65536))
  let s := s.setReg (pZwk + 0x060) (BitVec.ofNat 32 fork)
  if changed then (s.event pZwk F.ZWK_PG_EVT_MEMBERSHIP).switchKeys e else s

/-- The decisions and streams that stay: the last S + 1 committed rounds', the fork round's, and streams not yet decided. -/
def State.prune (s : State) : State :=
  let keep := s.zS + 1
  let fork := s.zFork
  let rounds := s.zwk.decisions.filter (·.kind != 2)
  let last := rounds.drop (rounds.length - keep)
  let ds := s.zwk.decisions.filter fun d => last.contains d || (fork != 0xFFFFFFFF && (d.round == fork || d.kind == 2))
  let live := fun (site round : Nat) => decide (s.zRound < round + keep) || s.zRound == 0xFFFFFFFF
    || ds.any fun d => d.contribs.any fun c => c.site == site && c.round == round
  s.setZwk fun z => { z with
    decisions := ds
    outs := z.outs.filter fun x => x.final.isNone || live s.siteId x.round
    ins := z.ins.filter fun x => x.skind == 2 || live x.site x.round }

/-- The streams of this module that a decision includes go to the observers that do not have them yet, with their FINAL
(R434). Log entry 152: DEDUCED. -/
def State.serveObservers (s : State) (d : Decision) : State :=
  (s.zwk.outs.filter fun x => x.skind == 0 && d.contribs.any fun c => c.site == s.siteId && c.round == x.round).foldl (fun s x =>
    let new := (sitesOf d.observers).filter fun o => o != s.siteId && !x.targets.contains o
    let s := s.modOut x fun y => { y with targets := y.targets ++ new }
    new.foldl (fun s o =>
      let s := (List.range x.groups).foldl (fun s g => s.sendGroup x o g) s
      match x.final with
      | some r => s.sendPeer o x.core x.round x.skind (.final r)
      | none => s) s) s

/-- R423: a decision commits at this module. -/
def State.commitHere (s : State) (d : Decision) : State :=
  if d.kind = 2 then (s.setZwk fun z => { z with decisions := z.decisions ++ [d] }).zwkAll
  else
    let own := s.siteId
    let s := if d.kind = 1 then
        let whole := s.zEnrolled &&& d.members == s.zEnrolled
        s.setEpoch d.epoch d.members s.zEnrolled (if whole then 1 else 2) (if whole then 0xFFFFFFFF else s.zFork)
      else s
    let s := (s.setReg (pZwk + 0x05C) (BitVec.ofNat 32 d.round)).event pZwk F.ZWK_PG_EVT_COMMIT
    let s := if d.kind = 0 && !(d.contribs.any fun c => c.site == own && c.round == d.round) then s.lateHere d.round else s
    let s := d.drops.foldl (fun s x => if x.2 = own && s.sentFor x.1 then
        (s.finc pZwk F.ZWK_CNT2_DROPPED).event pZwk F.ZWK_PG_EVT_DROPPED
      else s) s
    let s := s.setZwk fun z => { z with
      decisions := z.decisions ++ [d]
      routes := (List.range 64).foldl (fun t k => Tab.set 0 (k * 8 + 6) (setBits (Tab.get 0 (k * 8 + 6) t) 30 30 0) t) z.routes }
    (s.serveObservers d).zwkAll.prune

end Sys2Proof.Machine
end

