-- ==== Sys2Proof/Machine/Convener.lean ====
section
/-! DEFINITION. The convener of a site: HAVEs, decisions, commits, beats, epochs, partition and rejoin, late joiners; and
the commands of the Zwikai exchange (R420 to R434). -/

namespace Sys2Proof.Machine

/-! ### What a convener knows -/

/-- The round after the last committed one: the one this site is in. Log entry 153: DEDUCED. -/
def State.zNext (s : State) : Nat := rnd1 s.zRound

/-- Is this module the decider of its epoch? -/
def State.isDecider (s : State) : Bool := s.isConvener && s.siteId == lowest s.zMembers && s.zMembers != 0

/-- The module acts as a convener. -/
def State.convening (s : State) : Bool := s.zOn && s.isConvener

/-- EXCH.COUNT; 0 is taken as 1. -/
def State.zCount (s : State) : Nat := max 1 (s.fget pZwk F.ZWK_EXCH_COUNT)

/-- Does this site hold a contribution (R421)? Its own, once every sender has sent FINAL. -/
def State.siteHolds (s : State) (x r : Nat) : Bool :=
  let c := s.zwk.conv
  if x = s.siteId then
    let sent := c.sent.filter fun y => y.2.2 == r
    let mods := (sent.map (·.1)).eraseDups
    decide (s.zCount ≤ mods.length) && sent.all fun y => y ∈ c.finals
  else decide (s.zCount ≤ (c.holds.filter fun y => y.2.1 == x && y.2.2 == r).length)

/-- The sites whose contribution of a round this site holds, as a bitmap. -/
def State.heldMap (s : State) (r : Nat) : Nat :=
  (List.range 16).foldl (fun a x => if s.siteHolds x r then a + 2 ^ x else a) 0

/-- What a site's HAVEs have shown for a round. -/
def Convener.shown (c : Convener) (site r : Nat) : Nat :=
  (c.haves.filter fun h => h.1 == site && h.2.1 == r).foldl (fun a h => a ||| h.2.2) 0

/-- A HAVE recorded. -/
def Convener.have_ (c : Convener) (site : Nat) (held : List (Nat × Nat)) (jump : Nat) : Convener :=
  { c with haves := held.foldl (fun l h => addNew (site, h.1, h.2) l) c.haves, jump := max c.jump jump }

/-- The other side of a partition, by the last BEATs of enrolled sites outside the epoch: members, largest epoch number,
last committed round and fork round. -/
def State.otherSide (s : State) : Option (Nat × Nat × Nat × Nat) :=
  let out := s.zwk.conv.beats.filter fun b => s.zEnrolled.testBit b.site && !s.zMembers.testBit b.site
  match out with
  | [] => none
  | b :: _ =>
    let m := out.foldl (fun a x => a ||| (if x.epoch = b.epoch ∧ x.members = b.members then x.members else 0)) b.members
    some (m, b.epoch, (out.map (fun x => rnd1 x.round)).foldl max 0, b.fork)

/-- The rejoin round (R432): one above the larger last committed round. -/
def State.rejoinRound (s : State) : Nat :=
  match s.otherSide with
  | some (_, _, r1, _) => max s.zNext r1
  | none => s.zNext

/-- The site that leads a rejoin: the lower decider (R431). -/
def State.leader (s : State) : Nat :=
  match s.otherSide with
  | some (m, _) => lowest (s.zMembers ||| m)
  | none => lowest s.zMembers

/-! ### HAVE (R421) -/

/-- The round of the HAVE that is next, and the sites it waits for. Log entry 153: DEDUCED. -/
def State.haveNext (s : State) : Nat × Nat :=
  if s.zState = 3 then
    (s.rejoinRound, match s.otherSide with
      | some (m, _) => 2 ^ lowest s.zMembers + 2 ^ lowest m
      | none => 0)
  else (s.zNext, s.zMembers)

/-- HAVE for a round goes to the decider, or to the leader of a rejoin. -/
def State.sendHave (s : State) (r : Nat) : State :=
  let held := (List.range 9).filterMap fun i => if i ≤ r then some (r - i, s.heldMap (r - i)) else none
  let to_ := if s.zState = 3 then s.leader else lowest s.zMembers
  if to_ = s.siteId then s.setConv fun c => c.have_ s.siteId held c.jump
  else s.sendConv to_ r (.have_ r held s.zwk.conv.jump)

/-! ### Commits at the convener (R423, R429) -/

/-- Modules of the site that have reported to this convener, itself left out. Log entry 154: DESIGN CHOICE. -/
def State.zModules (s : State) : List Nat :=
  ((s.zwk.conv.sent.map (·.1)) ++ (s.zwk.conv.holds.map (·.1))).eraseDups.filter (· != s.lid)

/-- A message to every module of the site. -/
def State.tellModules (s : State) (b : ConvBody) : State := s.zModules.foldl (fun s m => s.convMsg m b) s

/-- Members of the other side of a rejoin, as this convener knows them. -/
def State.otherMembers (s : State) : Nat :=
  match s.otherSide with
  | some (m, _) => m
  | none => 0

/-- Epoch and state pass to the modules of the site, and the other side of a rejoin (R432). -/
def State.tellEpoch (s : State) : State :=
  let m := s.otherMembers
  (s.setZwk fun z => { z with other := m }).tellModules (.epoch s.zEpoch s.zMembers s.zEnrolled s.zState s.zFork m)

/-- Does the decision wait for a commit of this site? -/
def State.fits (s : State) (d : Decision) : Bool :=
  if d.kind = 1 then s.zState == 3
  else d.kind == 0 && (s.zState == 0 || (d.epoch == s.zEpoch && d.round == s.zNext))

/-- DACK for a decision that this site holds and whose predecessor it has committed. -/
def State.dack (s : State) (d : Decision) : State :=
  if !s.fits d ∨ s.zState = 0 then s
  else if d.decider = s.siteId then s.setConv fun c => { c with dacks := addNew s.siteId c.dacks }
  else s.sendConv d.decider d.round (.dack d.round)

/-- A decision commits at this site: at the convener and at its modules. -/
def State.convCommit (s : State) (d : Decision) : State :=
  let s := s.setConv fun c => { c with
    held := (c.held.filter fun x => !(x.round == d.round && x.kind == d.kind)) ++ [d]
    done := c.done ++ (d.contribs.map fun x => (x.round, x.site)) ++ d.drops
    jump := 0, draft := none, dacks := []
    ledger := if d.kind = 1 then none else c.ledger, ledgerSent := if d.kind = 1 then false else c.ledgerSent }
  let s := (s.commitHere d).tellModules (.commit d)
  match s.zwk.conv.held.find? fun x => s.fits x with
  | some x => s.dack x
  | none => s

/-- A member that has not committed BASE commits it from the decisions it holds (R429). -/
def State.commitTo : Nat → State → Nat → State
  | 0, s, _ => s
  | f + 1, s, base =>
    if rnd1 base ≤ rnd1 s.zRound then s
    else match s.zwk.conv.held.find? fun d => d.kind == 0 && d.epoch == s.zEpoch && d.round == s.zNext with
      | some d => State.commitTo f (s.convCommit d) base
      | none => s

/-! ### Decisions (R422, R426) -/

/-- The weight of a contribution that is τ rounds late (R426). -/
def State.staleWeight (s : State) (tau : Nat) : Nat :=
  if tau = 0 then f32Ratio 1 1
  else if s.fget pZwk F.ZWK_CFG_TABLE_EN = 1 then (s.reg (pZwk + 0x0A0 + 4 * (tau - 1))).toNat
  else f32Ratio 1 (1 + tau)

/-- The contributions of the last S + 1 rounds that no decision has included or dropped: site and age, in the order of
R422. One of a void round is late (R429). -/
def State.openContribs (s : State) (r : Nat) : List (Nat × Nat) :=
  (sitesOf s.zMembers).flatMap fun x =>
    ((List.range (s.zS + 1)).reverse.filter fun tau =>
      decide (tau ≤ r) && !(r - tau, x) ∈ s.zwk.conv.done && !(tau == 0 && (r, x) ∈ s.zwk.conv.lates)).map fun tau => (x, tau)

/-- The decision of a round from the HAVEs that the decider holds. -/
def State.formDecision (s : State) (r : Nat) : Decision × List (Nat × Nat × Nat) :=
  let c := s.zwk.conv
  let members := sitesOf s.zMembers
  let all := fun (x q : Nat) => members.all fun y => (c.shown y q).testBit x
  let some_ := fun (x q : Nat) => members.any fun y => (c.shown y q).testBit x
  let cs := ((s.openContribs r).filter fun p => all p.1 (r - p.2)).take 32
  let inn := cs.map fun p => (⟨r - p.2, p.1, p.2, s.staleWeight p.2⟩ : Contribution)
  let fresh := (cs.filter fun p => p.2 == 0).length
  let drops := ((s.openContribs r).filter fun p => p.2 == s.zS && some_ p.1 (r - p.2) && !p ∈ cs).take 8
  let by_ := drops.flatMap fun p => (members.filter fun y => !(c.shown y (r - p.2)).testBit p.1).map fun y => (p.1, y, r)
  let obs := if c.observers ≠ 0 ∧ rnd1 c.joinAfter < rnd1 r then c.observers else 0
  (⟨r, s.zEpoch, s.zMembers, 0, s.siteId, inn, drops.map fun p => (r - p.2, p.1), f32Ratio (max 1 fresh) 1, obs⟩, by_)

/-- The decision of a rejoin (R432): one contribution per side, weighted by its members. -/
def State.rejoinDecision (s : State) (m epoch : Nat) : Decision :=
  let a := (lowest s.zMembers, popcount s.zMembers)
  let b := (lowest m, popcount m)
  let sides := if a.1 ≤ b.1 then [a, b] else [b, a]
  let j := s.rejoinRound
  ⟨j, max s.zEpoch epoch + 1, s.zMembers ||| m, 1, s.siteId,
   sides.map fun x => ⟨j, x.1, 0, f32Ratio x.2 1⟩, [], f32Ratio (a.2 + b.2) 1, 0⟩

/-- The decider issues a decision. -/
def State.decide_ (s : State) (d : Decision) (by_ : List (Nat × Nat × Nat)) : State :=
  let s := s.setConv fun c => { c with
    draft := some d, dacks := [], dropBy := c.dropBy ++ by_
    held := (c.held.filter fun x => !(x.round == d.round && x.kind == d.kind)) ++ [d] }
  (s.sendSites (d.members ||| d.observers) d.round (.decide_ d)).dack d

/-- Is the round of the decider open: has any SEND of it been reported at this site, or any HAVE? -/
def State.roundOpen (s : State) : Bool :=
  (s.zwk.conv.sent.any fun x => x.2.2 == s.zNext) || s.zwk.conv.haves.any fun h => h.2.1 == s.zNext && h.2.2 != 0

/-- The decider closes its round. -/
def State.closeRound (s : State) : State :=
  if !s.isDecider ∨ s.zwk.conv.draft.isSome then s
  else
    let s := s.setConv fun c => c.have_ s.siteId ((List.range 9).filterMap fun i =>
      if i ≤ s.zNext then some (s.zNext - i, s.heldMap (s.zNext - i)) else none) c.jump
    let (d, by_) := s.formDecision s.zNext
    s.decide_ d by_

/-! ### Epochs (R427 to R429) -/

/-- Decisions of rounds after BASE that this site has not committed (R429). -/
def State.voidNow (s : State) (base : Nat) : List Decision :=
  s.zwk.conv.held.filter fun d => decide (rnd1 base < rnd1 d.round) && decide (rnd1 s.zRound < rnd1 d.round)

/-- The contributions of void decisions become late: at the convener, and at the modules of their site (R429). -/
def State.voidLate (s : State) (ds : List Decision) : State :=
  let cs := ds.flatMap fun d => d.contribs.map fun c => (c.round, c.site)
  let s := s.setConv fun c => { c with lates := c.lates ++ cs }
  (cs.filter fun x => x.2 == s.siteId).foldl (fun s x => (s.lateHere x.1).tellModules (.late x.1)) s

/-- A new epoch at this site. -/
def State.adoptEpoch (s : State) (e m base : Nat) : State :=
  let s := s.commitTo 3 base
  let void := s.voidNow base
  let s := s.voidLate void
  let s := s.setConv fun c => { c with
    voided := c.voided ++ void
    held := c.held.filter fun d => !void.contains d
    draft := none, dacks := [], ledger := none, ledgerSent := false, haveSent := []
    observers := c.observers - (c.observers &&& m) }
  let st := s.zState
  let enrolled := if st = 0 then m else s.zEnrolled ||| m
  let omits := s.zEnrolled &&& m != s.zEnrolled
  let st' := if st = 0 then 1 else if st = 1 then (if omits then 2 else 1) else 2
  let fork := if st = 1 && omits then base else s.zFork
  (s.setEpoch e m enrolled st' fork).tellEpoch.zwkAll

/-- The decider of a new epoch: NEWEPOCH to its members and to this site. -/
def State.newEpoch (s : State) (m : Nat) : State :=
  let base1 := (s.zwk.conv.beats.filter fun b => m.testBit b.site).foldl (fun a b => max a (rnd1 b.round)) s.zNext
  let base := (base1 + 0xFFFFFFFF) % 2 ^ 32
  let e := (s.zEpoch + 1) % 65536
  (s.sendSites m base (.newEpoch e m base)).adoptEpoch e m base

/-- NEWEPOCH received from a site: it counts when it names this site and changes the epoch, and comes from the decider of
this epoch or of the one it names; a joiner knows no decider. While REJOINING it has no row (R427). Log entry 258: DEDUCED. -/
def State.epochIn (s : State) (src e m base : Nat) : State :=
  if !m.testBit s.siteId ∨ (s.zEpoch = e ∧ s.zMembers = m) ∨ s.zState = 3
      ∨ (s.zState ≠ 0 ∧ src ≠ lowest s.zMembers ∧ src ≠ lowest m) then s
  else s.adoptEpoch e m base

/-- Members whose contribution was dropped in two consecutive rounds because another does not hold it, and that other: the
higher ID leaves (R428). -/
def State.toRemove (s : State) : Nat :=
  let l := s.zwk.conv.dropBy
  l.foldl (fun a x => if l.any (fun y => y.1 == x.1 && y.2.1 == x.2.1 && y.2.2 == x.2.2 + 1) then
    a ||| 2 ^ max x.1 x.2.1 else a) 0 &&& s.zMembers

/-- A site is unreachable (R428); REJOINING has no row for it (R427). -/
def State.lose (s : State) (site : Nat) : State :=
  let s := s.setConv fun c => { c with unreach := c.unreach ||| 2 ^ site }
  let reach := s.zMembers - (s.zMembers &&& s.zwk.conv.unreach)
  let d := lowest s.zMembers
  if !s.zMembers.testBit site ∨ s.zState = 3 then s
  else if d = s.siteId then s.newEpoch reach
  else if s.zwk.conv.unreach.testBit d then
    let s := if s.zState = 1 then (s.setEpoch s.zEpoch s.zMembers s.zEnrolled 2 s.zRound).tellEpoch else s
    if lowest reach = s.siteId then s.newEpoch reach else s
  else s

/-! ### Rejoin (R431, R432) -/

/-- A side applies the decision of round F to its fork tiles when its fork round is F − 1 (R431). Log entry 158:
DESIGN CHOICE. -/
def State.fixup (s : State) (otherFork : Nat) : State :=
  let c := s.zwk.conv
  if s.zState ≠ 3 ∨ s.zFork = 0xFFFFFFFF ∨ rnd1 s.zFork ≠ otherFork then s
  else if s.zwk.decisions.any fun d => d.kind == 2 && d.round == otherFork then s
  else match (c.held ++ c.voided).find? fun d => d.kind == 0 && d.round == otherFork && decide (d.epoch < s.zEpoch) with
    | some d => (s.commitHere { d with kind := 2 }).tellModules (.commit { d with kind := 2 })
    | none => s

/-- The decider enters REJOINING and closes its open round. -/
def State.enterRejoin (s : State) : State :=
  let s := if s.roundOpen then s.closeRound else s
  ((s.setEpoch s.zEpoch s.zMembers s.zEnrolled 3 s.zFork).setConv fun c => { c with ledgerSent := false }).tellEpoch

/-- READY goes to the donor (R434). -/
def State.sendReady (s : State) (last : Nat) : State := s.sendConv (s.fget pZwk F.ZWK_CFG_DONOR) last (.ready s.siteId last)

/-! ### What is due after a command -/

/-- One act of a convener that is due, in the order of R421 to R434. -/
def State.convStep (s : State) : State :=
  let c := s.zwk.conv
  let (r, need) := s.haveNext
  if s.zState = 0 then
    let last := s.zRound
    if last ≠ 0xFFFFFFFF ∧ c.readyFor ≠ some last
        ∧ s.zCount ≤ ((c.applied.filter fun a => a.2 == last).map (·.1)).eraseDups.length then
      (s.setConv fun c => { c with readyFor := some last }).sendReady last
    else s
  else if need ≠ 0 ∧ !c.haveSent.contains r ∧ s.heldMap r &&& need = need then
    (s.setConv fun c => { c with haveSent := addNew r c.haveSent }).sendHave r
  else match c.draft with
    | some d =>
      if (sitesOf d.members).all fun x => c.dacks.contains x then
        (s.sendSites (d.members ||| d.observers) d.round (.commit d.round)).convCommit d
      else s
    | none =>
      if s.zState = 3 then
        match s.otherSide with
        | none => s
        | some (m, epoch, _) =>
          let j := s.rejoinRound
          let both := 2 ^ lowest s.zMembers + 2 ^ lowest m
          if s.isDecider ∧ !c.ledgerSent then
            (s.setConv fun c => { c with ledgerSent := true }).sendConv (lowest m) s.zRound
              (.ledger s.zFork s.zRound (popcount s.zMembers))
          else if s.leader = s.siteId ∧ c.ledger.isSome ∧ (sitesOf (s.zMembers ||| m)).all fun x => c.shown x j &&& both == both then
            s.decide_ (s.rejoinDecision m epoch) []
          else s
      else if s.isDecider && s.toRemove != 0 then
        let m := s.zMembers - s.toRemove
        (s.setConv fun c => { c with dropBy := [] }).newEpoch m
      else if s.isDecider && s.zMembers != 0 && ((sitesOf s.zMembers).all fun x =>
          c.shown x s.zNext &&& s.zMembers == s.zMembers) then s.closeRound
      else s

/-- A convener does what is due; reports that are due have gone to it. -/
def State.convSettle (s : State) : State :=
  if s.convening then (List.range 4).foldl (fun s _ => s.convStep) s else s

/-! ### Enabling (R434, R435) -/

/-- JOIN goes to the donor. -/
def State.sendJoin (s : State) : State := s.sendConv (s.fget pZwk F.ZWK_CFG_DONOR) s.zRound (.join s.siteId)

/-- EN set to 1: JOINING with CFG.JOIN, else ACTIVE with the enrolled sites as members. Log entry 148: DEDUCED. -/
def State.zEnable (s : State) : State :=
  if s.fget pZwk F.ZWK_CFG_JOIN = 1 then
    let s := s.fset pZwk F.ZWK_EPOCH_STATE 0
    if s.isConvener then s.sendJoin else s
  else
    let m := s.zEnrolled
    s.setReg (pZwk + 0x058) (BitVec.ofNat 32 (s.zEpoch * 65536 + lowest m * 4096 + 1)) |>.fset pZwk F.ZWK_MEMB_MEMBERS m

/-! ### The commands -/

/-- R402: SEND; a reserved OP is refused here. -/
def zwkSend (n : CoreId) (s : State) : State := (s.zwkIssue n fun op => op == 0 || decide (4 < op)).convSettle
def zwkCollect (n : CoreId) (s : State) : State := (s.zwkIssue n (· == 1)).convSettle
def zwkSnapSend (n : CoreId) (s : State) : State := (s.zwkIssue n (· == 2)).convSettle
def zwkSnapRecv (n : CoreId) (s : State) : State := (s.zwkIssue n (· == 3)).convSettle
def zwkCatchup (n : CoreId) (s : State) : State := (s.zwkIssue n (· == 4)).convSettle

/-- R413: a DATA parcel arrives. -/
def dataParcel (p : ParcelIn) (s : State) : State := (s.parcel p 1).convSettle
/-- R415: a PARITY parcel arrives. -/
def parityParcel (p : ParcelIn) (s : State) : State := (s.parcel p 2).convSettle

/-- R414: a site port discards a frame that it does not accept. -/
def frameDrop (f : FrameIn) (s : State) : State :=
  match s.rxFrame f.site f.bytes with
  | (t, none) => t
  | (_, some _) => s

/-- R417: a NAK arrives. -/
def zwkNak (p : CtrlIn) (s : State) : State :=
  match p.body with
  | .nak g m => (s.ctrl p fun h s => s.nak h g m).convSettle
  | _ => s

/-- R418: a COMPLETE arrives. -/
def complete (p : CtrlIn) (s : State) : State :=
  match p.body with
  | .complete => (s.ctrl p fun h s => s.report h (some [])).convSettle
  | _ => s

/-- R418: a MISSING arrives. -/
def missing (p : CtrlIn) (s : State) : State :=
  match p.body with
  | .missing r => (s.ctrl p fun h s => s.report h r).convSettle
  | _ => s

/-- R418: a FINAL arrives. -/
def finalMsg (p : CtrlIn) (s : State) : State :=
  match p.body with
  | .final r => (s.ctrl p fun h s => s.finalIn h r).convSettle
  | _ => s

/-- R419: a PING arrives. -/
def ping (p : CtrlIn) (s : State) : State :=
  match p.body with
  | .ping => (s.ctrl p fun _ s => s).convSettle
  | _ => s

/-- Has this convener acted on a copy of a message (R420)? Log entry 259: DEDUCED. -/
def State.isCopy (s : State) (h : ParcelHdr) (b : ZCtrl) : Bool :=
  s.zwk.copies.any fun c => c.1 == h.src && c.2.2 == b && decide (h.sendTime ≤ c.2.1)

/-- The message is one that this convener has acted on. -/
def State.noteCopy (s : State) (h : ParcelHdr) (b : ZCtrl) : State :=
  s.setZwk fun z => { z with copies := (h.src, h.sendTime, b) :: z.copies.filter fun c => !(c.1 == h.src && c.2.2 == b) }

/-- A message between conveners acts at a convener, in its first copy (R420). -/
def State.convCtrl (s : State) (p : CtrlIn) (act : ParcelHdr → State → State) : State :=
  (s.ctrl p fun h s => if !s.isConvener || s.isCopy h p.body then s else act h (s.noteCopy h p.body)).convSettle

/-- R421: a HAVE arrives at the decider. -/
def haveMsg (p : CtrlIn) (s : State) : State :=
  match p.body with
  | .have_ _ held jump => s.convCtrl p fun h s => s.setConv fun c => c.have_ h.src held jump
  | _ => s

/-- A decision that comes from its decider is held until its commit; DACK when it is next (R422, R423). -/
def State.takeDecision (s : State) (src : Nat) (d : Decision) : State :=
  if d.decider ≠ src ∨ !(s.fits d || (d.kind == 0 && d.epoch == s.zEpoch && decide (rnd1 s.zRound < rnd1 d.round))) then s
  else (s.setConv fun c => { c with
    held := (c.held.filter fun x => !(x.round == d.round && x.kind == d.kind)) ++ [d] }).dack d

/-- R422: a DECIDE arrives. -/
def zwkDecide (p : CtrlIn) (s : State) : State :=
  match p.body with
  | .decide_ d => s.convCtrl p fun h s => s.takeDecision h.src d
  | _ => s

/-- A member's DACK of a round counts for the open decision of that round. -/
def State.takeDack (s : State) (src r : Nat) : State :=
  match s.zwk.conv.draft with
  | some d => if d.round = r then s.setConv fun c => { c with dacks := addNew src c.dacks } else s
  | none => s

/-- R423: a DACK arrives. -/
def dack (p : CtrlIn) (s : State) : State :=
  match p.body with
  | .dack r => s.convCtrl p fun h s => s.takeDack h.src r
  | _ => s

/-- COMMIT of a round from its decider. -/
def State.takeCommit (s : State) (src r : Nat) : State :=
  match s.zwk.conv.held.find? fun d => d.round == r && s.fits d && d.decider == src with
  | some d => s.convCommit d
  | none => s

/-- R423: a COMMIT arrives. -/
def zwkCommit (p : CtrlIn) (s : State) : State :=
  match p.body with
  | .commit r => s.convCtrl p fun h s => s.takeCommit h.src r
  | _ => s

/-- A site's BEAT. One that shows REJOINING takes a member of its epoch there that is ISOLATED: from the decider, or at the
decider, as a report (R431). In REJOINING it may show the other side's fork round to a member, and its members. -/
def State.takeBeat (s : State) (b : Beat) : State :=
  let s := s.setConv fun c => { c with beats := c.beats.filter (fun x => x.site != b.site) ++ [b] }
  let mine := b.epoch = s.zEpoch ∧ b.members = s.zMembers
  let s := if s.zState = 2 ∧ b.state = 3 ∧ mine ∧ (b.site = lowest s.zMembers ∨ (s.isDecider ∧ s.otherSide.isSome)) then s.enterRejoin else s
  let s := if s.zState = 3 ∧ s.otherMembers ≠ s.zwk.other then s.tellEpoch else s
  if b.members ≠ s.zMembers ∧ !s.isDecider then s.fixup b.fork else s

/-- R420, R431: a BEAT arrives. Log entries 158: DESIGN CHOICE, 159: DEDUCED. -/
def beat (p : CtrlIn) (s : State) : State :=
  match p.body with
  | .beat e m st r f => s.convCtrl p fun h s => s.takeBeat ⟨h.src, e, m, st, r, f⟩
  | _ => s

/-- R427: a NEWEPOCH arrives. -/
def newepoch (p : CtrlIn) (s : State) : State :=
  match p.body with
  | .newEpoch e m base => s.convCtrl p fun h s => s.epochIn h.src e m base
  | _ => s

/-- The LEDGER of the other side's decider (R431). -/
def State.takeLedger (s : State) (src f r n : Nat) : State :=
  if !s.isDecider ∨ s.zState < 2 then s
  else
    let s := if s.zState = 2 then s.enterRejoin else s
    (s.setConv fun c => { c with ledger := some (src, f, r, n) }).fixup f

/-- R431: a LEDGER arrives at the decider of the other side. -/
def ledger (p : CtrlIn) (s : State) : State :=
  match p.body with
  | .ledger f r n => s.convCtrl p fun h s => s.takeLedger h.src f r n
  | _ => s

/-- A message for the decider goes on to it. -/
def State.toDecider (s : State) (round : Nat) (b : ZCtrl) : State :=
  if s.zMembers = 0 then s else s.sendConv (lowest s.zMembers) round b

/-- A JOIN: the donor forwards it; a decider that is not ACTIVE refuses it with a BEAT; an ACTIVE one names the next round
(R434). -/
def State.takeJoin (s : State) (x : Nat) : State :=
  if !s.isDecider then s.toDecider s.zRound (.join x)
  else if s.zState ≠ 1 then s.sendConv x s.zRound (.beat s.zEpoch s.zMembers s.zState s.zRound s.zFork)
  else if s.zMembers.testBit x || s.zwk.conv.observers.testBit x then s
  else s.setConv fun c => { c with observers := c.observers ||| 2 ^ (x % 16), joinAfter := s.zNext }

/-- R434: a JOIN arrives at the donor, or at the decider. Log entry 159: DEDUCED. -/
def zwkJoin (p : CtrlIn) (s : State) : State :=
  match p.body with
  | .join x => s.convCtrl p fun _ s => s.takeJoin x
  | _ => s

/-- A READY: the donor forwards it; the decider takes the joiner in between two decisions, when it has applied the last
committed round (R434). Log entry 260: DESIGN CHOICE. -/
def State.takeReady (s : State) (x r : Nat) : State :=
  if !s.isDecider then s.toDecider r (.ready x r)
  else if s.zState = 1 ∧ s.zwk.conv.observers.testBit x ∧ r = s.zRound ∧ s.zwk.conv.draft = none then
    s.newEpoch (s.zMembers ||| 2 ^ (x % 16))
  else s

/-- R434: a READY arrives at the donor, or at the decider. -/
def ready (p : CtrlIn) (s : State) : State :=
  match p.body with
  | .ready x r => s.convCtrl p fun _ s => s.takeReady x r
  | _ => s

/-- R417: a group is short of k parcels NAK_T after its first: NAK. -/
def nakTimeout (site : Fin 16) (core : CoreId) (skind : Fin 4) (round group : Nat) (s : State) : State :=
  match s.streamIn site core skind round with
  | none => s
  | some x =>
    match x.groups.find? fun g => g.group == group with
    | none => s
    | some g =>
      let excused := match x.final with
        | some r => x.excused r group
        | none => false
      if g.data.isSome || g.parcels.isEmpty || excused || !s.zOn then s
      else s.sendPeer site core round skind
        (.nak group (((List.range (min 48 (g.k + g.m))).filter fun t => !(g.parcels.any fun p => p.1 == t)).foldl (fun a t => a + 2 ^ t) 0))

/-- R418: T0 + W ÷ 2 + E: MISSING for the groups that are not held; for a snapshot, as often as it is due (R405). -/
def missingTime (site : Fin 16) (core : CoreId) (skind : Fin 4) (round : Nat) (s : State) : State :=
  match s.streamIn site core skind round with
  | none => s
  | some x =>
    if x.told || x.whole || !s.zOn then s
    else (s.modIn site core skind round fun y => { y with told := skind.val != 2 }).sendPeer site core round skind
      (.missing (capRanges x.missing))

/-- R418: T0 + 3W ÷ 4 + E: FINAL. -/
def finalTime (n : CoreId) (s : State) : State :=
  (s.onCore n fun s ph =>
    match s.zwk.outs.find? fun x => x.phys == ph && x.skind != 2 && x.started && x.final.isNone && (s.infl ph x.idx).isSome with
    | some x => (s.finishSend x).zwkAll
    | none => s).convSettle

/-- R421: T_r + W + E: HAVE again. -/
def haveTime (s : State) : State :=
  if s.convening ∧ s.zState ≠ 0 then (s.sendHave s.haveNext.1).convSettle else s

/-- R422: T_r + W + E at the decider: it closes the round. -/
def roundClose (s : State) : State :=
  if s.convening ∧ (s.zState = 1 ∨ s.zState = 2) ∧ s.roundOpen then s.closeRound.convSettle else s

/-- R423: DECIDE again to each member that has not sent DACK. -/
def zwkDecideResend (s : State) : State :=
  match s.zwk.conv.draft with
  | some d =>
    if s.convening then
      (sitesOf d.members).foldl (fun s x => if x = s.siteId ∨ s.zwk.conv.dacks.contains x then s else s.sendConv x d.round (.decide_ d)) s
    else s
  | none => s

/-- R419: 100 ms: PING on each valid route to each other site. -/
def pingTimer (s : State) : State :=
  if !s.zOn ∨ !(s.isConvener || !s.exCores.isEmpty) then s
  else (List.range 16).foldl (fun s x => if x = s.siteId then s else
    (s.validRoutes x).foldl (fun s r => s.sendCtrl1 x r 0 s.zRound 3 .ping) s) s

/-- R420: 100 ms: BEAT to every enrolled convener. -/
def beatTimer (s : State) : State :=
  if s.convening then s.sendSites s.zEnrolled s.zRound (.beat s.zEpoch s.zMembers s.zState s.zRound s.zFork) else s

/-- R428: an enrolled site is unreachable. -/
def unreachable (site : Fin 16) (s : State) : State :=
  if s.convening ∧ site.val ≠ s.siteId ∧ s.zEnrolled.testBit site ∧ s.zState ≠ 0 then (s.lose site).convSettle else s

/-- R431: BEATs of an outside site have come for REJOIN_HOLD: the decider enters REJOINING; another convener reports to its
decider, by a BEAT that shows REJOINING. Log entry 158: DESIGN CHOICE. -/
def rejoinHold (site : Fin 16) (s : State) : State :=
  if s.convening ∧ s.zState = 2 ∧ s.zEnrolled.testBit site ∧ !s.zMembers.testBit site
      ∧ (s.zwk.conv.beats.any fun b => b.site == site) then
    if s.isDecider then s.enterRejoin.convSettle
    else s.toDecider s.zRound (.beat s.zEpoch s.zMembers 3 s.zRound s.zFork)
  else s

/-- R427: the rejoin round is not committed in time: NEWEPOCH with epoch + 1 and the old members, which each convener of the
side takes at its own time. -/
def rejoinTimeout (s : State) : State :=
  if !s.convening ∨ s.zState ≠ 3 then s
  else if s.isDecider then (s.newEpoch s.zMembers).convSettle
  else (s.adoptEpoch ((s.zEpoch + 1) % 65536) s.zMembers s.zRound).convSettle

/-- R434: the joiner repeats JOIN, and a READY that has not been answered. Log entry 260: DESIGN CHOICE. -/
def joinRetry (s : State) : State :=
  if s.convening ∧ s.zState = 0 ∧ s.fget pZwk F.ZWK_CFG_JOIN = 1 then
    match s.zwk.conv.readyFor with
    | some r => s.sendJoin.sendReady r
    | none => s.sendJoin
  else s

/-- R405: a snapshot has not completed after 10 × W. -/
def snapTimeout (n : CoreId) (s : State) : State :=
  (s.onCore n fun s ph =>
    match s.queue ph tZWK with
    | e :: _ =>
      let d := zwkD e.words
      if (d.op = 2 ∨ d.op = 3) ∧ e.prog ≠ .queued then
        let s := s.setZwk fun z => { z with outs := z.outs.filter fun x => !(x.phys == ph && x.idx == e.idx && x.skind == 2) }
        (s.complete ph e (Rec.of 9)).zwkAll
      else s
    | [] => s).convSettle

/-- R421: a message of KIND 0xA arrives: a module's report at the convener, or the convener's word at a module. -/
def convenerMsg (m : ConvIn) (s : State) : State :=
  if m.pkt.op ≠ opMSG ∨ m.pkt.cls ≠ 0 ∨ !s.consumes m.pkt ∨ leNat (m.pkt.payload.take 4) / 2 ^ 28 ≠ 0xA then s
  else match s.turnAway ⟨0, m.pkt, 0⟩ with
  | some t => t
  | none =>
    let s := s.respond m.pkt 0 0 []
    if !s.zOn then s
    else if s.isConvener then (s.setConv fun c => c.note m.pkt.src m.body).convSettle
    else if m.pkt.src ≠ s.fget pZwk F.ZWK_CFG_CONVENER then s
    else match m.body with
      | .commit d => s.commitHere d
      | .epoch e mm en st f o => ((s.setZwk fun z => { z with other := o }).setEpoch e mm en st f).zwkAll
      | .late r => s.lateHere r
      | _ => s

end Sys2Proof.Machine
end

