-- ==== Sys2Proof/Machine/Power.lean ====
section
/-! DEFINITION. The power manager: effective limit, duty, throttle, temperatures, input voltage, power states and the
reference clock (R512 to R525, R531, R532). -/

namespace Sys2Proof.Machine

/-! ### The effective limit (R519) -/

def State.pState (s : State) : Nat := s.fget pPwr F.PWR_STAT_STATE
def State.duty (s : State) : Nat := s.fget pPwr F.PWR_P1_STAT_DUTY
def State.throttled (s : State) : Bool := s.fget pPwr F.PWR_STAT_THR == 1
/-- The 10 µs and 1 ms averages of the last tick, in W. -/
def State.peakW (s : State) : Nat := s.fget pPwr F.PWR_IN_P_PEAK_W
def State.avgW (s : State) : Nat := s.fget pPwr F.PWR_IN_P_AVG_W

/-- The strapped class in W (R519, R532). -/
def State.classW (s : State) : Nat := 3600 - 600 * s.fget pPwr F.PWR_STAT_CLASS

/-- CAP and FLOOR lie from 900 W to the class. -/
def State.clampW (s : State) (w : Nat) : Nat := min (max w 900) s.classW

def State.floorW (s : State) : Nat := s.clampW (s.fget pPwr F.PWR_THR_CFG_FLOOR)

/-- The terms of R519 with their LIMITER numbers. Log entry 178: DEDUCED. -/
def State.limits (s : State) : List (Nat × Nat) :=
  let on := fun (b : Bool) (x : Nat × Nat) => if b then [x] else []
  let cap := s.fget pPwr F.PWR_CAP_WATTS
  [(1, s.classW)] ++ on (cap != 0) (2, s.clampW cap) ++ on s.throttled (3, s.floorW)
    ++ on s.pwr.ioHot (4, 1800) ++ on s.pwr.vLimit (5, 1800)

/-- The effective limit L. -/
def State.limitW (s : State) : Nat := (s.limits.map (·.2)).foldl min 3600

/-- LIMITER: the smallest term, the lowest number among equals; 0 when L is 3,600 W. -/
def State.limiter (s : State) : Nat :=
  let l := s.limitW
  if l = 3600 then 0 else ((s.limits.find? fun x => x.2 == l).map (·.1)).getD 0

/-- D_open(P): the largest D for which 850 + D ÷ 64 × 2,450 ≤ 0.95 × P (R521). -/
def dOpen (p : Nat) : Nat := min 64 ((95 * p * 64 - 5440000) / 245000)

/-! ### Duty and power states -/

/-- STAT.STATE changed. -/
def State.setP (s : State) (n : Nat) : State :=
  if s.pState = n then s else (s.fset pPwr F.PWR_STAT_STATE n).event pPwr F.PWR_PG_EVT_STATE

/-- P0 or P1, whichever the limit, the throttle and the duty give (R516). -/
def State.runState (s : State) : Nat := if s.limitW < 3600 ∨ s.throttled ∨ s.duty < 64 then 1 else 0

/-- The rows of R516 between P0 and P1. -/
def State.pwrUpdate (s : State) : State :=
  if s.pState = 0 then (if s.limitW < 3600 ∨ s.throttled then s.setP 1 else s)
  else if s.pState = 1 then (if s.runState = 0 then s.setP 0 else s)
  else s

/-- D takes a value; a fall below 64 sets LIMIT. -/
def State.setDuty (s : State) (d : Nat) : State :=
  let old := s.duty
  let s := s.fset pPwr F.PWR_P1_STAT_DUTY d
  let s := if old = 64 ∧ d < 64 then s.event pPwr F.PWR_PG_EVT_LIMIT else s
  s.pwrUpdate

/-- D lowered to at most a value. -/
def State.cutDuty (s : State) (d : Nat) : State := if d < s.duty then s.setDuty d else s.pwrUpdate

/-- Is every in-service core HALTED? -/
def State.allHalted (s : State) : Bool := s.physCores.all s.halted

/-- P2 is entered: array clocks are gated (R516). -/
def State.enterP2 (s : State) : State := if s.pState ≤ 1 ∧ s.allHalted then s.setP 2 else s

/-- A core's HALT cleared: P2 is left (R516). -/
def State.leaveP2 (s : State) : State := if s.pState = 2 then s.setP s.runState else s

/-- Does the module run in P0, P1 or P2? -/
def State.powered (s : State) : Bool := decide (s.pState ≤ 2)

/-! ### Power ticks and the throttle (R522, R523) -/

/-- R522: the averages are formed and the input energy adds up; above L, D falls to D_open(L) at once. Log entry 178:
DEDUCED. -/
def powerTick (peak avg mj : Nat) (s : State) : State :=
  if !s.powered then s
  else
    let s := s.fset pPwr F.PWR_IN_P_PEAK_W (min peak 65535)
    let s := s.fset pPwr F.PWR_IN_P_AVG_W (min avg 65535)
    let s := s.inc64 pPwr F.PWR_ENERGY_LO_MJ mj
    if s.limitW < s.peakW then
      let low := decide (dOpen s.limitW < s.duty)
      let s := s.cutDuty (dOpen s.limitW)
      if low then { s with pwr := { s.pwr with ramp := false } } else s
    else s

/-- R522: the second rule at a 10 µs tick, suspended under the throttle and during the ramp. -/
def dutyStep (s : State) : State :=
  if !s.powered ∨ s.throttled ∨ s.pwr.ramp ∨ s.limitW < s.peakW then s
  else if 97 * s.limitW < 100 * s.avgW then s.setDuty (s.duty - 1)
  else if 100 * s.avgW < 95 * s.limitW ∧ s.duty < 64 then s.setDuty (s.duty + 1)
  else s

/-- THROTTLE_ACK takes a level. -/
def State.setAck (s : State) (n : Nat) : State := s.fset pPwr F.PWR_STAT_ACK n

/-- R523: a filtered assertion, sensed from RUN on (R558). In P2 and P3 THROTTLE_ACK follows the input. -/
def throttleAssert (s : State) : State :=
  if s.throttled ∨ s.pState = 4 ∨ s.fget pSumac F.SUMAC_PHASE_PHASE < 2 then s
  else
    let s := s.fset pPwr F.PWR_STAT_THR 1
    if s.pState = 3 then s.setAck 1
    else
      let s := { s with pwr := { s.pwr with ramp := false } }
      let s := s.cutDuty (dOpen s.floorW)
      let s := s.event pPwr F.PWR_PG_EVT_THR
      if s.pState = 2 then s.setAck 1 else s

/-- R523: THROTTLE_ACK rises at the first sample at or below FLOOR. -/
def throttleAck (s : State) : State :=
  if s.powered ∧ s.throttled ∧ s.fget pPwr F.PWR_STAT_ACK = 0 ∧ s.peakW ≤ s.floorW then s.setAck 1 else s

/-- R523: the check every 10 µs from the rise of THROTTLE_ACK. -/
def throttleCheck (s : State) : State :=
  if !s.powered ∨ !s.throttled ∨ s.fget pPwr F.PWR_STAT_ACK = 0 then s
  else if 100 * s.peakW ≤ 98 * s.floorW then s.setDuty (min 64 (s.duty + 1))
  else if s.floorW < s.peakW then s.cutDuty (dOpen s.floorW)
  else s

/-- R523: a filtered release: THROTTLE_ACK falls and the ramp starts. -/
def throttleRelease (s : State) : State :=
  if !s.throttled ∨ s.pState = 4 then s
  else
    let s := (s.fset pPwr F.PWR_STAT_THR 0).setAck 0
    let s := { s with pwr := { s.pwr with ramp := decide (s.duty < 64) && s.powered, thrLong := false } }
    s.pwrUpdate

/-- R523: every 2 µs of the ramp D rises by 1; at 64 the ramp ends. -/
def throttleRamp (s : State) : State :=
  if !s.pwr.ramp ∨ !s.powered then s
  else
    let d := min 64 (s.duty + 1)
    { s with pwr := { s.pwr with ramp := decide (d < 64) } }.setDuty d

/-- R514: the throttle was held beyond LONG_S. -/
def thrLong (s : State) : State :=
  if s.throttled ∧ s.powered ∧ s.fget pPwr F.PWR_THR_CFG_LONG_S ≠ 0 ∧ !s.pwr.thrLong then
    { s with pwr := { s.pwr with thrLong := true } }.event pPwr F.PWR_PG_EVT_THR_LONG
  else s

/-! ### Temperatures (R524) -/

/-- The thermal duty that the table of R524 holds for a die. -/
def State.thermalRaw (s : State) (n : Nat) : Nat := Tab.get 64 n s.pwr.thermal

/-- The thermal duty of a die: 0 while it cools down from 105 °C, at most 32 under a sensor fault. -/
def State.thermalDuty (s : State) (n : Nat) : Nat :=
  if s.pwr.hard.testBit n then 0 else min (s.thermalRaw n) (if Tab.get 0 n s.pwr.sensorRun = 0 then 64 else 32)

/-- THERM_DIES: dies whose thermal duty is below D. -/
def State.thermDies (s : State) : Nat := (List.range 8).foldl (fun a n => a + b2n (decide (s.thermalDuty n < s.duty)) * 2 ^ n) 0

/-- The temperature byte of a sensor: dies 0 to 7, I/O die 8. -/
def tempField (n : Nat) : FRef := if n = 8 then ⟨0x070, 7, 0⟩ else ⟨0x068 + 4 * (n / 4), 8 * (n % 4) + 7, 8 * (n % 4)⟩

/-- The last temperature of a sensor in °C. -/
def State.tempOf (s : State) (n : Nat) : Int := (s.fget pPwr (tempField n) : Int) - 64

/-- Does a stack of die n lie at 100 °C or above, or at 98 °C or above? The stack's own window is shifted by 5 °C. -/
def State.stackAt (s : State) (n : Nat) (c : Int) : Bool :=
  (List.range 4).any fun k => (s.hbmc (4 * n + k)).st == .active && decide (c ≤ (s.hbmc (4 * n + k)).temp)

/-- A bit of a mask set or cleared. -/
def putBit (m n : Nat) (b : Bool) : Nat := if b then m ||| 2 ^ n else m - (m &&& 2 ^ n)

/-- A sensor in range, or at fault until three readings lie in range. Log entries 180: DEDUCED, 181: DEDUCED. -/
def State.sensor (s : State) (n : Nat) (t : Int) : State :=
  let ok := decide (-40 ≤ t ∧ t ≤ 150)
  if ok then
    let k := Tab.get 0 n s.pwr.sensorRun - 1
    let s := { s with pwr := { s.pwr with sensorRun := Tab.set 0 n k s.pwr.sensorRun } }
    let s := if k = 0 then s.fset pPwr ⟨0x070, 8 + n, 8 + n⟩ 0 else s
    s.fset pPwr (tempField n) (t + 64).toNat
  else
    let s := { s with pwr := { s.pwr with sensorRun := Tab.set 0 n 3 s.pwr.sensorRun } }
    (s.fset pPwr ⟨0x070, 8 + n, 8 + n⟩ 1).event pPwr F.PWR_PG_EVT_SENSOR

/-- The thermal rules of a compute die at an in-range reading t. Log entry 181: DEDUCED. -/
def State.dieTemp (s : State) (n : Nat) (old t : Int) : State :=
  if 105 ≤ t then
    let was := s.pwr.hard.testBit n
    let s := { s with pwr := { s.pwr with hard := putBit s.pwr.hard n true, thermal := Tab.set 64 n 0 s.pwr.thermal } }
    if was then s else s.event pPwr F.PWR_PG_EVT_THERM_HARD
  else
    let s := if t < 100 then { s with pwr := { s.pwr with hard := putBit s.pwr.hard n false } } else s
    let d := s.thermalRaw n
    let hot := decide (95 ≤ t) || s.stackAt n 100
    let d := if hot then d - 1 else if t < 93 ∧ !s.stackAt n 98 then min 64 (d + 1) else d
    let s := { s with pwr := { s.pwr with thermal := Tab.set 64 n d s.pwr.thermal } }
    if 95 ≤ t ∧ old < 95 then s.event pPwr F.PWR_PG_EVT_THERM_SOFT else s

/-- The rules of the I/O die at an in-range reading. -/
def State.ioTemp (s : State) (t : Int) : State :=
  { s with pwr := { s.pwr with ioHot := if 105 ≤ t then true else if t < 100 then false else s.pwr.ioHot } }.pwrUpdate

/-- R524: the temperatures of the dies, dies 0 to 7 first and the I/O die ninth, in °C. A trip is logged and leads to
P4. -/
def dieTempRead (ts : List Int) (s : State) : State :=
  if !s.powered then s
  else
    let step := fun (s : State) (x : Int × Nat) =>
      if s.pState = 4 then s
      else
        let old := s.tempOf x.2
        let s := s.sensor x.2 x.1
        if !decide (-40 ≤ x.1 ∧ x.1 ≤ 150) then s
        else if 115 ≤ x.1 then (s.logEvent 0x0008 0 3 0x0050 (x.2 + 2 ^ 32 * x.1.toNat)).fatal
        else if x.2 = 8 then s.ioTemp x.1
        else s.dieTemp x.2 old x.1
    ((ts.take 9).zipIdx).foldl step s

/-! ### Input voltage, rails, PLLs, reference clock -/

/-- R525: a sample of the input, in mV and units of 10 mA. Ten samples make 100 µs, two make 20 µs and a hundred make
1 ms. An input below 38 V is not logged (R538). Log entry 179: DEDUCED. -/
def voltageSample (mv i10 : Nat) (s : State) : State :=
  if !s.powered then s
  else
    let s := (s.fset pPwr F.PWR_IN_V_MV (min mv 65535)).fset pPwr F.PWR_IN_I_I10MA (min i10 65535)
    let ok := decide (40000 ≤ mv ∧ mv ≤ 60000)
    let far := decide (mv < 38000 ∨ 62000 < mv)
    let p := s.pwr
    let vOut := if ok then 0 else p.vOut + 1
    let vFar := if far then p.vFar + 1 else 0
    let vBack := if ok then p.vBack + 1 else 0
    let lim := if ok then p.vLimit && decide (vBack < 100) else p.vLimit || decide (10 ≤ vOut)
    let s := { s with pwr := { p with vOut := vOut, vFar := vFar, vBack := vBack, vLimit := lim } }
    let s := if lim ∧ !p.vLimit then s.event pPwr F.PWR_PG_EVT_V_RANGE else s
    let s := s.pwrUpdate
    if 2 ≤ vFar then
      (if mv < 38000 then s else s.logEvent 0x0008 0 3 0x0051 (2 ^ 32 * mv)).fatal
    else s

/-- R514: a point-of-load rail was out of range for 50 µs. Log entry 180: DEDUCED. -/
def railFault (rail mv : Nat) (s : State) : State :=
  if s.pState = 4 then s else (s.logEvent 0x0008 0 3 0x0052 (rail % 2 ^ 32 + 2 ^ 32 * (mv % 2 ^ 32))).fatal

/-- R513: a PLL lost lock. -/
def pllUnlock (pll : Fin 15) (s : State) : State :=
  if !s.powered then s else (s.logEvent 0x0009 0 3 0x0053 pll.val).fatal

/-- R514: PWR_OK fell. -/
def pwrOkLow (s : State) : State :=
  let s := { s with boot := { s.boot with pwrOk := false } }
  if s.pState = 4 then s else s.fatal

/-- R512: a 1 ms window of REFCLK ended with a frequency in Hz. -/
def refclkWindow (hz : Nat) (s : State) : State :=
  if !s.powered then s
  else
    let s := s.fset pClk F.CLK_REF_HZ_HZ (hz / 1000 * 1000)
    if 99970000 ≤ hz ∧ hz ≤ 100030000 then { s with pwr := { s.pwr with refBad := 0 } }
    else
      let s := s.finc pClk F.CLK_REF_BAD_CNT_COUNT
      let k := s.pwr.refBad + 1
      let s := { s with pwr := { s.pwr with refBad := k } }
      if k = 2 ∧ s.fget pClk F.CLK_STAT_REF_SRC = 0 then
        let s := s.event pClk F.CLK_PG_EVT_REFCLK_BAD
        let s := s.logEvent 0x0009 0 2 0x0054 hz
        let s := s.fset pClk F.CLK_STAT_REF_SRC 1
        (s.event pClk F.CLK_PG_EVT_REF_SWITCH).refreshDeg
      else s

/-! ### Requests, P2 and P3 (R516, R517) -/

/-- A write of REQ takes effect (R516, R541): P3 and P4 requests before BS14 wait for it. -/
def State.request3 (s : State) : State :=
  if s.powered ∧ s.pwr.p3From.isNone then { s with pwr := { s.pwr with p3From := some s.pState } } else s

/-- Log entry 190: DEDUCED. -/
def State.reqWritten (s : State) (r : Nat) : State :=
  match r with
  | 2 => s.enterP2
  | 3 => if s.boot.ready then s.request3 else { s with pwr := { s.pwr with later := some 3 } }
  | 4 => if s.boot.ready then s.toP4 else { s with pwr := { s.pwr with later := some 4 } }
  | _ => s

/-- R516: with AUTO_P2 the cores have been HALTED for PWR.IDLE. -/
def idleTimeout (s : State) : State := if s.fget pPwr F.PWR_CTRL_AUTO_P2 = 1 then s.enterP2 else s

/-- The first condition of P3 entry that is not met; 0 when all are (R517). -/
def State.p3Unmet (s : State) : Nat :=
  if (List.range 16).any fun n => (s.slot n).st != .free then 1
  else if !s.allHalted then 2
  else if (List.range 5).any fun n => (s.safSt n).job.isSome || s.jrHead n != s.jrTail n then 3
  else 0

/-- Registers of the AON domain, which P3 keeps (R515, R532), with those in flash, what is pending for the map, the
latched straps and the phase of the pins. Log entry 215: DESIGN CHOICE. -/
def aonReg (a : Nat) : Bool :=
  flashReg a || pendReg a || a == pPwr + 0x080 || a == pTime + 0x048 || a == pTime + 0x04C || a == pSumac + 0x040
    || a == pSumac + 0x048

/-- R517: entry completes: D2 ends, slots are erased or retained, HBM goes to self-refresh and the rails go off; the class
stays the strapped one (R32). Log entries 204: DEDUCED, 215: DESIGN CHOICE. -/
def p3Entry (s : State) : State :=
  if s.pwr.p3From.isNone ∨ s.p3Unmet ≠ 0 ∨ !s.powered then s
  else
    let keep := s.sec.dbg == 0 && s.fget pSec F.SEC_POLICY_RETAIN_KEYS == 1
    let s := if keep then s else s.eraseSlots fun _ => true
    let held := s.fget pTime F.TIME_STAT_STATE == 2 || s.fget pTime F.TIME_STAT_STATE == 3
    let dbg := if s.sec.dbg = 2 then 0 else s.sec.dbg
    let sr := fun (h : HbmCtl) =>
      if h.st = .active then { HbmCtl.init with st := .selfRefresh, inMap := h.inMap, keep := true, scrub := h.scrub }
      else { HbmCtl.init with st := h.st, inMap := h.inMap }
    let thr := s.throttled
    let cls := s.fget pPwr F.PWR_STAT_CLASS
    let s := (List.range 32).foldl (fun s n => s.setHbmc n (sr (s.hbmc n))) { s with mem := s.mem.loseSp }
    let s := s.loseVolatile aonReg
    let s := { s with sec := { s.sec with dbg := dbg },
                      pwr := { PwrSt.init with retained := true, timeHeld := held },
                      time := { TimeSt.init with expect := s.time.expect },
                      boot := { s.boot with running := false, ready := false, hostReady := 0, heartbeat := false, status := 0 } }
    let s := (s.fset pPwr F.PWR_STAT_STATE 3).fset pPwr F.PWR_STAT_CLASS cls
    let s := if thr then (s.fset pPwr F.PWR_STAT_THR 1).setAck 1 else s
    s.finc pPwr F.PWR_AON_STAT_P3_COUNT

/-- R517: P3_TMO elapsed with a condition unmet: the module returns to the state it left. -/
def p3Timeout (s : State) : State :=
  if s.pwr.p3From.isNone ∨ s.p3Unmet = 0 then s
  else
    let s := s.fset pPwr F.PWR_AON_STAT_REFUSE s.p3Unmet
    { s with pwr := { s.pwr with p3From := none } }.newNonce.event pPwr F.PWR_PG_EVT_P3_REFUSED

end Sys2Proof.Machine
end

