-- ==== Sys2Proof/Machine/TimeUnit.lean ====
section
/-! DEFINITION. The time unit: its count, pulses, slots, slewing and trim (R526 to R530, R533). -/

namespace Sys2Proof.Machine

def State.timeState (s : State) : Nat := s.fget pTime F.TIME_STAT_STATE
def State.setTimeState (s : State) (n : Nat) : State := s.fset pTime F.TIME_STAT_STATE n

/-- A 64-bit count in a _LO, _HI pair. -/
def State.pair64 (s : State) (a : Nat) : Nat := (s.reg a).toNat + 2 ^ 32 * (s.reg (a + 4)).toNat
def State.setPair64 (s : State) (a v : Nat) : State :=
  (s.setReg a (BitVec.ofNat 32 v)).setReg (a + 4) (BitVec.ofNat 32 (v / 2 ^ 32))

def aNow : Nat := pTime + 0x048
def aNext : Nat := pTime + 0x050
def aEdge : Nat := pTime + 0x058
def aTrim : Nat := pTime + 0x064

/-- TRIM in ppb. -/
def State.trim (s : State) : Int := sint 32 (s.reg aTrim).toNat

/-- The limits of TRIM. -/
def clampTrim (v : Int) : Int := max (-500000) (min 500000 v)

/-- A slew that removes e over a number of cycles; it replaces one that runs. Log entry 182: DESIGN CHOICE. -/
def State.startSlew (s : State) (e : Int) (cycles : Nat) : State :=
  { s with time := { s.time with slew := e, span := cycles, total := cycles, slewAcc := 0 } }

/-- The adjustment a running slew makes in this cycle: 0 ns steps for e > 0, 2 ns steps for e < 0 (R529). Log entry
182: DESIGN CHOICE. -/
def TimeSt.slewStep (t : TimeSt) : TimeSt × Int :=
  if t.span = 0 then (t, 0)
  else
    let a := t.slewAcc + t.slew.natAbs
    let hit := decide (t.total ≤ a)
    ({ t with span := t.span - 1, slewAcc := if hit then a - t.total else a },
     if hit then (if 0 < t.slew then -1 else 1) else 0)

/-- The trim adjustment that falls on this cycle, at |TRIM| in 1,000,000,000 cycles. -/
def TimeSt.trimStep (t : TimeSt) (trim : Int) : TimeSt × Int :=
  let a := t.trimAcc + trim.natAbs
  let hit := decide (1000000000 ≤ a)
  ({ t with trimAcc := if hit then a - 1000000000 else a }, if hit then (if 0 < trim then 1 else -1) else 0)

/-- One TCLK cycle: the count rises by 1, or by 0 or 2 in a cycle with an adjustment; a trim adjustment that meets a slew
adjustment moves on (R526, R529). In P3 one AON cycle adds 40 ns. In P4 nothing runs. -/
def State.tick (s : State) : State :=
  if s.pState = 4 then s
  else if s.pState = 3 then s.setPair64 aNow ((s.pair64 aNow + 40) % 2 ^ 64)
  else
    let (t, a) := s.time.slewStep
    let (t, b) := t.trimStep s.trim
    let want := t.deferred + b
    let use := if a ≠ 0 then 0 else if 0 < want then 1 else if want < 0 then -1 else 0
    let t := { t with deferred := want - use }
    let d : Int := 1 + a + use
    { s with time := t }.setPair64 aNow ((s.pair64 aNow + d.toNat) % 2 ^ 64)

/-- What the module does when no command waits: one TCLK cycle passes (the model's tick), and a P2 request whose
condition has come about is taken (R516, R526). Log entry 1: DESIGN CHOICE. -/
def State.idle (s : State) : State :=
  if s.boot.resetLow then s
  else
    let s := s.tick
    if s.fget pPwr F.PWR_CTRL_REQ = 2 then s.enterP2 else s

/-- An accepted pulse at time t of the slot with expected time e0 (R529). -/
def State.discipline (s : State) (t e0 : Nat) : State :=
  let e : Int := (t : Int) - e0
  let s := s.setPair64 aEdge e0
  let s := s.setReg aTrim (BitVec.ofNat 32 (ofSint 32 (clampTrim (s.trim - e.tdiv 4))))
  let s := s.setReg (pTime + 0x060) (BitVec.ofNat 32 (ofSint 32 e))
  let s := s.finc pTime F.TIME_CNT_ACCEPTED
  let s := s.fset pTime F.TIME_STAT_REJ_RUN 0
  { s.startSlew e 1000000 with time := { (s.startSlew e 1000000).time with expect := e0 + 1000000000 } }

/-- R527, R528: a rising edge on PPS_IN followed by a number of ns high, at the present count. Log entry 183: DEDUCED.
-/
def ppsPulse (high : Nat) (s : State) : State :=
  if high < 50 ∨ !s.powered then s
  else
    let t := s.now
    let st := s.timeState
    if s.fget pTime F.TIME_CTRL_ARM = 1 then
      let n := s.pair64 aNext
      let s := (s.setPair64 aNow n).setPair64 aEdge n
      let s := (s.fset pTime F.TIME_CTRL_ARM 0).fset pTime F.TIME_STAT_REJ_RUN 0
      let s := { s with time := { TimeSt.init with expect := n + 1000000000 } }
      (s.setTimeState 1).event pTime F.TIME_PG_EVT_STEP
    else if st = 1 then
      let e0 := s.pair64 aEdge
      let iv := t - e0
      if 999500000 ≤ iv ∧ iv ≤ 1000500000 then
        let e : Int := (iv : Int) - 1000000000
        let s := s.setReg aTrim (BitVec.ofNat 32 (ofSint 32 (-e)))
        let s := (s.setPair64 aEdge (e0 + 1000000000)).startSlew e 500000000
        let s := { s with time := { s.time with expect := e0 + 2000000000 } }
        (s.setTimeState 2).event pTime F.TIME_PG_EVT_LOCK
      else (s.setTimeState 0).event pTime F.TIME_PG_EVT_ACQ_FAIL
    else if st = 2 ∨ st = 3 then
      let e0 := s.time.expect
      if e0 ≤ t + 2000 ∧ t ≤ e0 + 2000 then
        let s := s.discipline t e0
        if st = 3 then (s.setTimeState 2).event pTime F.TIME_PG_EVT_LOCK else s
      else s
    else s

/-- R527, R528: the running slot ends without an accepted pulse. Log entry 183: DEDUCED. -/
def slotEnd (s : State) : State :=
  let st := s.timeState
  if !s.powered ∨ (st ≠ 2 ∧ st ≠ 3) then s
  else
    let s := { s with time := { s.time with expect := s.time.expect + 1000000000 } }
    let s := s.finc pTime F.TIME_CNT_REJECTED
    let r := s.fget pTime F.TIME_STAT_REJ_RUN
    if st = 3 then s
    else if r < 2 then (s.fset pTime F.TIME_STAT_REJ_RUN (r + 1)).event pTime F.TIME_PG_EVT_REJECT
    else ((s.fset pTime F.TIME_STAT_REJ_RUN 3).setTimeState 3).event pTime F.TIME_PG_EVT_UNLOCK

/-- R528: no pulse by 1,000,500,000 ns in ACQUIRE. -/
def acquireTimeout (s : State) : State :=
  if s.powered ∧ s.timeState = 1 then (s.setTimeState 0).event pTime F.TIME_PG_EVT_ACQ_FAIL else s

/-- R530: the count passes a whole multiple of 1,000,000,000 while LOCKED or HOLDOVER: PPS_ECHO goes high. -/
def ppsEcho (s : State) : State :=
  if s.powered ∧ 2 ≤ s.timeState then s.send (.pin 7 true) else s

end Sys2Proof.Machine
end

