-- ==== Sys2Proof/Machine/Hbm.lean ====
section
/-! DEFINITION. The HBM controllers: refresh, patrol scrub, temperature, row repair, training, failure and map rebuild
(R272 to R290). -/

namespace Sys2Proof.Machine

/-- R286: one refresh of the banks of a stack, which runs in ACTIVE at either interval. Log entry 232: DESIGN CHOICE.
-/
def hbmRefresh (n : HbmId) (s : State) : State :=
  if (s.hbmc n).st = .active then s.modHbmc n fun h => { h with refreshes := h.refreshes + 1 } else s

/-- The HBM offset of stripe j of stack n, when it lies below C_n (R265 inverted). Log entry 184: DESIGN CHOICE. -/
def State.stripeOff (s : State) (n j : Nat) : Option Nat :=
  let st := s.stacks (n / 4)
  match st.findIdx? (· == n) with
  | none => none
  | some i =>
    let y := (j / 16 * st.length + i) * 4096 + j % 16 * 256
    if y < s.dieCap (n / 4) then some (n / 4 * dieSize + y) else none

/-- R275: the scrub reads the next slot of a stack, unless a repair holds its bank (R277). hbm and sp name the errors that
memory has taken since the last command, anywhere. Log entries 13: DESIGN CHOICE, 184: DESIGN CHOICE, 245: DESIGN CHOICE. -/
def patrolScrub (n : HbmId) (hbm : List HbmHit) (sp : List SpHit) (s : State) : State :=
  let s := { s with mem := sp.foldl Mem.takeSp (hbm.foldl Mem.takeHbm s.mem) }
  let h := s.hbmc n
  if h.st ≠ .active ∨ s.fget (pHbm n) F.HBM_RAS_CFG_SCRUB_H = 0 then s
  else
    let at_ := match s.stripeOff n h.scrub with
      | some x => some (h.scrub, x)
      | none => (s.stripeOff n 0).map fun x => (0, x)
    match at_ with
    | none => s
    | some (j, x) =>
      if s.memHeld x 256 then s
      else
        let m := s.mem
        let s := s.modHbmc n fun h => { h with scrub := j + 1 }
        let s := (m.corrected x 256).foldl (fun t k => ({ t with mem := t.mem.heal k }).hbmCe k) s
        (m.failing x 256).foldl (fun t k => t.hbmUe k false) s

/-- R286, R287: a temperature reading in °C. -/
def hbmTempRead (n : HbmId) (t : Int) (s : State) : State :=
  let h := s.hbmc n
  let p := pHbm n
  if h.st = .off ∨ !s.powered then s
  else if -20 ≤ t ∧ t ≤ 130 then
    let run := h.tempRun - 1
    let s := s.setHbmc n { h with tempRun := run, temp := t, fast := decide (85 < t) || run != 0 }
    let s := (s.fset p F.HBM_TEMP_SENSOR_FAULT 0).fset p F.HBM_TEMP_DEG_C (t + 64).toNat
    if 100 ≤ t then
      let s := s.event p F.HBM_PG_EVT_HOT
      if h.temp < 100 then s.event pPwr F.PWR_PG_EVT_THERM_SOFT else s
    else s
  else
    let s := s.setHbmc n { h with tempRun := 3, fast := true }
    (s.fset p F.HBM_TEMP_SENSOR_FAULT 1).event p F.HBM_PG_EVT_SENSOR

/-- The pseudo-channel of a row key. -/
def rowPc (row : Nat) : Nat := row / 2 ^ 48

/-- A bit of PC_PENDING set by hardware (R278, R280). Log entry 185: DEDUCED. -/
def State.pendPc (s : State) (n pc : Nat) : State :=
  (s.setReg (pHbm n + 0x050) (s.reg (pHbm n + 0x050) ||| maskBits pc pc)).event (pHbm n) F.HBM_PG_EVT_RETIRE_PEND

/-- R277, R278: the repair of the oldest candidate row starts, or its bank has no repair row left. Log entry 185:
DEDUCED. -/
def softPpr (n : HbmId) (spare : Bool) (s : State) : State :=
  let h := s.hbmc n
  match h.candidates with
  | [] => s
  | row :: rest =>
    if h.st ≠ .active ∨ h.repairing.isSome then s
    else if spare then
      let s := s.logRepair 0x0011 n 1 0x0011 row
      s.setHbmc n { h with candidates := rest, repairing := some row }
    else
      let s := s.setHbmc n { h with candidates := rest }
      let s := s.finc (pHbm n) F.HBM_PPR_NOSPARE
      (s.event (pHbm n) F.HBM_PG_EVT_NOSPARE).pendPc n (rowPc row)

/-- Does the burst at a key lie on a row of a stack? -/
def State.onRow (s : State) (n row k : Nat) : Bool :=
  let pl := s.hbmPlace k
  pl.1 == n && rowKey pl == row

/-- R277: a repair completes and is in force (R279); what the code could correct is written back correct. Held accesses are
released by the caller. -/
def State.spprEnd (s : State) (n : Nat) : State :=
  let h := s.hbmc n
  match h.repairing with
  | none => s
  | some row =>
    let fixed := fun (e : Nat × Nat) => !isSp e.1 && s.mem.isSoft e.1 && s.onRow n row e.1
    let s := { s with mem := { s.mem with errs := s.mem.errs.filter fun e => !fixed e } }
    let s := s.setHbmc n { h with repairing := none, softRows := h.softRows ++ [row] }
    (s.finc (pHbm n) F.HBM_PPR_SPPR).event (pHbm n) F.HBM_PG_EVT_SPPR_DONE

/-- A controller enters FAILED (R282, R289). -/
def State.hbmFail (s : State) (n : Nat) (old : Nat) : State :=
  let s := s.modHbmc n fun h => { h with st := .failed, tries := 0, repairing := none }
  let s := s.event (pHbm n) F.HBM_PG_EVT_FAILED
  (s.logEvent 0x0011 n 2 0x0013 old).refreshDeg

/-- R282: no answer for 10 µs while ACTIVE. -/
def stackNoAnswer (n : HbmId) (s : State) : State := if (s.hbmc n).st = .active then s.hbmFail n 2 else s

/-- R288: in P2 an idle pseudo-channel enters self-refresh. -/
def pcSelfRefresh (n : HbmId) (pc : Fin 32) (s : State) : State :=
  if s.pState = 2 ∧ (s.hbmc n).st = .active ∧ s.fget (pHbm n) F.HBM_HC_CFG_PARTIAL_SR_EN = 1 then
    s.modHbmc n fun h => { h with pcSr := h.pcSr ||| 2 ^ pc.val }
  else s

/-- R289: a training attempt ends; none runs while MOD_RESET_N is low. The third failure makes the controller FAILED. -/
def State.trained (s : State) (n : Nat) (ok : Bool) : State :=
  let h := s.hbmc n
  if h.st ≠ .training ∨ s.boot.resetLow then s
  else if ok then s.setHbmc n { h with st := .active, tries := 0 }
  else if 2 ≤ h.tries then s.hbmFail n 1
  else s.setHbmc n { h with tries := h.tries + 1 }

def hbmTrainingDone (n : HbmId) (ok : Bool) (s : State) : State := s.trained n ok

/-- R283: the map rebuild of a die. Log entry 227: DEDUCED. -/
def State.rebuildMap (s : State) (d : Nat) : State :=
  let one := fun (s : State) (n : Nat) =>
    let pend := s.reg (pHbm n + 0x050) &&& ~~~ s.reg (pHbm n + 0x04C)
    let s := (List.range 32).foldl (fun s p => if bit pend p then s.logRepair 0x0011 n 2 0x0012 p else s) s
    let s := (s.setReg (pHbm n + 0x04C) (s.reg (pHbm n + 0x04C) ||| pend)).setReg (pHbm n + 0x050) 0
    s.modHbmc n fun h => { h with inMap := h.st == .active, scrub := 0 }
  let ns := (List.range 4).map (· + 4 * d)
  let s := ns.foldl one s
  let lo := d * dieSize
  let out := fun (e : Nat × Nat) => !decide (lo ≤ e.1 ∧ e.1 < lo + dieSize)
  let m := s.mem.wipe lo dieSize
  let s := { s with mem := { m with errs := m.errs.filter out },
                    sec := { s.sec with untr := s.sec.untr.filter fun e => e.2.1 / dieSize != d } }
  (ns.foldl (fun s n => s.event (pHbm n) F.HBM_PG_EVT_REBUILT) s).refreshDeg

/-- Does every core of a die read HALTED? -/
def State.dieHalted (s : State) (d : Nat) : Bool := (s.physCores.filter fun ph => ph / 136 == d).all s.halted

/-- R283, R549: the run-time rebuild of the die that a SPARE_OP names, only while its cores are HALTED. Log entry 227:
DEDUCED. -/
def mapRebuild (d : DieId) (s : State) : State :=
  match s.wear.running with
  | some o =>
    if o.op = 3 ∧ o.die = d ∧ s.dieHalted d then { s.rebuildMap d with wear := { s.wear with running := some { o with spare := 1 } } } else s
  | none => s

end Sys2Proof.Machine
end

