-- ==== Sys2Proof/Machine/Links.lean ====
section
/-! DEFINITION. The links: fabric ports and their lanes, site ports and host ports (R296 to R301, R309, R332, R436, R437,
R474). -/

namespace Sys2Proof.Machine

/-- The state of a fabric port takes a value; a change sets PG_EVT.STATE (R332). -/
def State.setFp (s : State) (n st : Nat) : State :=
  if s.fpState n = st then s
  else ((s.fset (pFp n) F.FP_LINK_STAT_STATE st).event (pFp n) F.FP_PG_EVT_STATE).refreshDeg

/-- Lanes that REPAIR records as failed: they are left out of every later training (R545). -/
def State.badLanes (s : State) (n : Nat) : Nat :=
  s.logs.repairs.foldl (fun m e => if e.block = 0x000D ∧ e.inst = n ∧ e.code = 0x0020 then m ||| 2 ^ (e.detail % 9) else m) 0

/-- The lowest w lanes of a mask. -/
def lowLanes (m w : Nat) : Nat := (((List.range 9).filter fun l => m.testBit l).take w).foldl (fun a l => a + 2 ^ l) 0

/-- Width, rate and lanes that training chooses (R300); none when it fails, with the lanes that passed at 112 Gb/s. -/
def chooseLanes (cap : Bool) (g224 g112 : Nat) : Option (Nat × Nat × Nat) :=
  let pick := fun (m rate : Nat) =>
    if 8 ≤ popcount m then some (8, rate, lowLanes m 8) else if popcount m = 7 then some (7, rate, m) else none
  match (if cap then none else pick g224 2) with
  | some x => some x
  | none => pick g112 1

/-- Training or a retrain ends as FAILED: the replay buffer is discarded, and the rate and width tried are logged. Log
entries 188: DEDUCED, 189: DEDUCED. -/
def State.fpFail (s : State) (n good : Nat) : State :=
  let p := pFp n
  let s := s.setLink n { s.link n with unacked := [] }
  let s := s.logEvent 0x000D n 2 0x0021 (1 + 2 ^ 32 * good)
  let s := (s.fset p F.FP_LINK_STAT_WIDTH 0).fset p F.FP_LINK_STAT_RATE 0
  (s.fset p F.FP_LANE_MAP_ACTIVE 0).setFp n 4

/-- The TRAINING rules of R300; a port that becomes ACTIVE sends what it kept and held. -/
def State.fpTrained (s : State) (n : Nat) (t : TrainResult) : State :=
  let p := pFp n
  let ok := fun (m : BitVec 9) => m.toNat - (m.toNat &&& (s.badLanes n ||| s.fget p F.FP_LANE_MAP_FAILED))
  match chooseLanes (s.fget p F.FP_LINK_CTRL_RATE_CAP == 1) (ok t.pass224) (ok t.pass112) with
  | none => s.fpFail n (popcount (ok t.pass112))
  | some (w, r, m) =>
    let s := (s.fset p F.FP_LINK_STAT_WIDTH w).fset p F.FP_LINK_STAT_RATE r
    let s := s.fset p F.FP_LANE_MAP_ACTIVE m
    let s := s.setReg (p + 0x04C) (BitVec.ofNat 32 (2 ^ 31 + t.peerPort.val * 4096 + t.peerLid.toNat))
    (s.setFp n 2).replayAll n

/-- A write of LINK_CTRL takes effect: EN set to 1 trains a DOWN port, which tells its peer the module's LID, 0 while it
has none, and its own number; EN set to 0 takes it DOWN, with the flits held and unacknowledged discarded (R300). Log
entry 188: DEDUCED. -/
def State.fpCtrl (s : State) (n : Nat) (en : Nat) : State :=
  let p := pFp n
  let st := s.fpState n
  if en = 1 ∧ st = 0 then
    let s := ((s.fset p F.FP_LANE_MAP_FAILED 0).fset p F.FP_PEER_VALID 0).setFp n 1
    s.send (.train n (if s.fget pOgs F.OGS_MOD_ID_VALID = 1 then s.lid else 0))
  else if en = 0 ∧ 2 ≤ st then
    let s := s.setLink n LinkSt.init
    let s := (s.fset p F.FP_LINK_STAT_WIDTH 0).fset p F.FP_LINK_STAT_RATE 0
    (s.fset p F.FP_LANE_MAP_ACTIVE 0).setFp n 0
  else s

/-- R300: training of a port ends. -/
def portTraining (n : FpId) (t : TrainResult) (s : State) : State := if s.fpState n = 1 then s.fpTrained n t else s

/-- R300: 100 ms of training elapsed. -/
def trainingTimeout (n : FpId) (s : State) : State := if s.fpState n = 1 then s.fpFail n 0 else s

/-- R299: an active lane fails: recorded, it carries no more flits, and the port enters RETRAIN. -/
def laneFailure (n : FpId) (lane : Fin 9) (s : State) : State :=
  let p := pFp n
  if s.fpState n ≠ 2 ∨ !(s.fget p F.FP_LANE_MAP_ACTIVE).testBit lane then s
  else
    let s := s.logRepair 0x000D n 1 0x0020 lane
    let s := s.fset p F.FP_LANE_MAP_FAILED (s.fget p F.FP_LANE_MAP_FAILED ||| 2 ^ lane.val)
    let s := s.fset p F.FP_LANE_MAP_ACTIVE (s.fget p F.FP_LANE_MAP_ACTIVE - 2 ^ lane.val)
    (s.finc p F.FP_LINK_CNT1_RETRAINS).setFp n 3

/-- R300: a retrain ends. -/
def retrainDone (n : FpId) (t : TrainResult) (s : State) : State := if s.fpState n = 3 then s.fpTrained n t else s

/-- R300: 50 µs of retraining elapsed. -/
def retrainTimeout (n : FpId) (s : State) : State := if s.fpState n = 3 then s.fpFail n 0 else s

/-! ### Site and host links -/

/-- The state of a site port takes a value (R436). -/
def State.setSite (s : State) (n st rate : Nat) : State :=
  let old := s.fget (pSite n) F.SITE_LINK_STAT_STATE
  let s := (s.fset (pSite n) F.SITE_LINK_STAT_STATE st).fset (pSite n) F.SITE_LINK_STAT_RATE rate
  if old = st then s else (s.event (pSite n) F.SITE_PG_EVT_LINK).refreshDeg

/-- A write of SITEn.LINK_CTRL takes effect: EN trains the port, or takes it down. -/
def State.siteCtrl (s : State) (n en : Nat) : State :=
  if en = 0 then s.setSite n 0 0
  else if s.fget (pSite n) F.SITE_LINK_STAT_STATE = 0 then s.setSite n 1 0
  else s

/-- The RATE of a port that trains at SPEED, of which 3 is taken as 2 (R436). -/
def State.siteRate (s : State) (n : Nat) : Nat := 3 - min 2 (s.fget (pSite n) F.SITE_LINK_CTRL_SPEED)

/-- R436: a site port trained. It trains at SPEED, so that another rate cannot come up. Log entry 257: DESIGN CHOICE. -/
def siteLinkUp (n : SiteId) (rate : Fin 4) (s : State) : State :=
  if s.fget (pSite n) F.SITE_LINK_STAT_STATE = 1 ∧ rate.val = s.siteRate n then s.setSite n 2 rate.val else s

/-- R436: a site port is not UP 1 s after EN. -/
def siteLinkFailed (n : SiteId) (s : State) : State :=
  if s.fget (pSite n) F.SITE_LINK_STAT_STATE = 1 then s.setSite n 3 0 else s

/-- The number of a host port in the masks of the start-up state. -/
def HostPort.ix : HostPort → Nat
  | .a => 0
  | .b => 1

/-- LINK_STAT of a host port takes the values of its link. -/
def State.setHostLink (s : State) (p : HostPort) (l : HostLink) : State :=
  let v := if l.up then l.width % 32 * 2 ^ 16 + l.rate % 16 * 2 ^ 8 + 1 else 0
  if (s.reg (pHp p + 0x040)).toNat = v then s
  else ((s.setReg (pHp p + 0x040) (BitVec.ofNat 32 v)).event (pHp p) F.HP_PG_EVT_LINK).refreshDeg

/-- R437, R474: the link of an enabled host port changed; a port held in reset has no link. -/
def hostLinkChange (p : HostPort) (l : HostLink) (s : State) : State :=
  if !s.hostOn p ∨ !s.powered ∨ (s.boot.perst.testBit (HostPort.ix p) ∧ l.up) then s else s.setHostLink p l

end Sys2Proof.Machine
end

