-- ==== Sys2Proof/Machine/Sparing.lean ====
section
/-! DEFINITION. Run-time sparing: CORE, BANK and HBM_REBUILD operations of CDM.SPARE_OP (R545 to R549). -/

namespace Sys2Proof.Machine

/-- SPARE_STAT with a result (R547, R554), and the event. -/
def State.spareResult (s : State) (op status reason : Nat) : State :=
  (s.setReg (pCdm + 0x064) (BitVec.ofNat 32 (status * 2 ^ 16 + reason * 2 ^ 8 + op % 16))).event pCdm F.CDM_PG_EVT_SPARE_DONE

/-- Is a physical core free to serve as a spare? -/
def State.spareFree (s : State) (i : Nat) : Bool :=
  !(s.units.replaced.any fun r => r.2 == i) && !s.wear.retired.contains i && !s.wear.cores.contains i

/-- The lowest free spare core of a die: physical cores 128 to 135 of it. Log entry 186: DESIGN CHOICE. -/
def State.findSpare (s : State) (d : Nat) : Option Nat :=
  ((List.range 8).map fun i => d * 136 + 128 + i).find? s.spareFree

/-- The check of a CORE or BANK operation on the core: HALTED, and its matrix engine IDLE. -/
def State.spareReady (s : State) (ph : Nat) : Bool := s.halted ph && (s.mx ph).st == .idle

/-- A write of SPARE_OP that is not ignored (R547). Log entry 187: DEDUCED. -/
def State.spareOp (s : State) (v : Word) : State :=
  let op := bits v 31 28
  let n := bits v 25 16
  let bank := bits v 14 12
  let d := bits v 2 0
  let kept := decide (s.logs.repairs.length < 2048)
  let start := fun (s : State) (o : SpareOp) =>
    ({ s with wear := { s.wear with running := some o } } : State).setReg (pCdm + 0x064) (BitVec.ofNat 32 (2 ^ 31 + op))
  match op with
  | 1 =>
    match s.phys n with
    | none => s.spareResult op 4 0x92
    | some ph =>
      if !s.spareReady ph then s.spareResult op 4 0x90
      else match s.findSpare (ph / 136) with
        | none => s.spareResult op 4 0x91
        | some sp => start (s.logRepair 0x0013 n 2 0x0030 (ph + 2 ^ 32 * sp)) ⟨op, n, 0, ph / 136, sp, kept⟩
  | 2 =>
    match s.phys n with
    | none => s.spareResult op 4 0x92
    | some ph =>
      if !s.spareReady ph then s.spareResult op 4 0x90
      else if s.fget (pCore ph) F.SP_BANKMAP_RETIRED ≠ 0xF then s.spareResult op 4 0x91
      else start (s.logRepair 0x0013 n 1 0x0031 (n + 2 ^ 32 * bank)) ⟨op, n, bank, ph / 136, 0, kept⟩
  | 3 =>
    if !s.units.dies.testBit d then s.spareResult op 4 0x92
    else if !s.dieHalted d then s.spareResult op 4 0x90
    else start s ⟨op, 0, 0, d, 0, false⟩
  | _ => s.spareResult op 4 0x92

/-- A write of CDM.SPARE_OP: ignored while an operation runs. -/
def State.writeSpareOp (s : State) (v : Word) : State := if s.wear.running.isSome then s else s.spareOp v

/-- The scratchpad of one physical core moved to another, whose own contents it replaces. Log entry 187: DEDUCED. -/
def Mem.moveSp (m : Mem) (src dst : Nat) : Mem :=
  let lo := spKey src 0
  let off := spKey dst 0
  let mine := fun (a : Nat) => decide (lo ≤ a ∧ a < lo + spSize)
  let old := fun (a : Nat) => decide (off ≤ a ∧ a < off + spSize)
  { m with cells := (m.cells.filter fun c => mine c.1).foldl (fun t c => Tab.set Mem.blank (c.1 - lo + off) c.2 t)
                      (m.cells.filter fun c => !mine c.1 && !old c.1),
           errs := (m.errs.filter fun e => mine e.1 || !old e.1).map fun e => if mine e.1 then (e.1 - lo + off, e.2) else e }

/-- Every RW field of the core page copied from one physical core to another; the rest of the page starts at its reset
values (R548). -/
def State.copyCoreRegs (s : State) (src dst : Nat) : State :=
  let offs := (hdrRegs ++ coreRegs).flatMap fun r => (List.range r.n).map fun i => r.off + i * r.stride
  (offs ++ [0x014]).foldl (fun s o =>
    let m := accMask (Block.pcore.fieldsAt o) .rw
    s.setReg (pCore dst + o) ((s.reg (pCore src + o) &&& m) ||| (regRst (pCore dst + o) &&& ~~~ m))) s

/-- The position of a serving core taken by a spare. -/
def Units.replace (u : Units) (pos spare : Nat) : Units :=
  { u with replaced := (u.replaced.filter fun r => r.1 != pos) ++ [(pos, spare)] }

/-- A core leaves service, with the spare that serves in its place, recorded in REPAIR or not (R543, R546, R548). -/
def Wear.retire (w : Wear) (old : Nat) (spare : Option Nat) (kept : Bool) : Wear :=
  { w with retired := w.retired ++ [old], unrec := if kept then w.unrec else w.unrec ++ [old],
           repl := match spare with
             | some sp => if kept then w.repl ++ [(old, sp)] else w.repl
             | none => w.repl,
           cores := w.cores.filter (· != old), banks := w.banks.filter fun b => b.1 != old }

/-- A CORE replacement ends (R548). -/
def State.coreReplaced (s : State) (o : SpareOp) : State :=
  match s.phys o.core, s.units.posOf o.core with
  | some old, some pos =>
    let s := { s with mem := s.mem.moveSp old o.spare }
    let s := s.copyCoreRegs old o.spare
    let s := s.fset (pCore o.spare) F.SQ_CTRL_HALT 1
    let c := s.core old
    let s := s.setCore o.spare { CoreSt.init with anchors := c.anchors, attach := c.attach, fails := c.fails,
                                                  fetchNext := (s.reg (pCore old + 0x054)).toNat }
    let s := (s.setCore old CoreSt.init)
    { s with units := s.units.replace pos o.spare,
             wear := s.wear.retire old (some o.spare) o.kept }
  | _, _ => s

/-- A BANK replacement ends (R549): the spare bank serves in the place of the bank. -/
def State.bankReplaced (s : State) (o : SpareOp) : State :=
  match s.phys o.core with
  | some ph =>
    let s := s.fset (pCore ph) F.SP_BANKMAP_RETIRED o.bank
    { s with wear := { s.wear with banks := s.wear.banks.filter (· != (ph, o.bank)),
                                   bankReps := if o.kept then s.wear.bankReps ++ [(ph, o.bank)] else s.wear.bankReps,
                                   marks := s.wear.marks.filter fun m => !(m.1 == ph && m.2.1 == 1 + o.bank) } }
  | none => s

/-- R547: the running SPARE_OP ends as DONE. A rebuild that has not come about waits until the die's cores are HALTED
(R283). -/
def State.spareEnd (s : State) : State :=
  match s.wear.running with
  | none => s
  | some o =>
    if o.op = 3 ∧ o.spare = 0 ∧ !s.dieHalted o.die then s else
    let s := match o.op with
      | 1 => s.coreReplaced o
      | 2 => s.bankReplaced o
      | _ => if o.spare = 0 then s.rebuildMap o.die else s
    ({ s with wear := { s.wear with running := none } } : State).spareResult o.op 0 0


end Sys2Proof.Machine
end

