-- ==== Sys2Proof/Machine/Registers.lean ====
section
/-! DEFINITION. Register accesses: views, access codes, shadows, latches, what a register reads as, and what a write or a
read of it does (R1 to R7, R450 to R475, and the chapters that own the registers). -/

namespace Sys2Proof.Machine

/-! ### Requesters -/

/-- The number of a requester in PG_ERRINFO.SRC; HSEM.OWNER uses the same numbers (R464, R467). -/
def rqNo : Requester → Nat
  | .portA => 1
  | .portB => 2
  | .firmware => 3
  | .fabric => 4

/-- The port of host software. -/
def rqPort : Requester → Option HostPort
  | .portA => some .a
  | .portB => some .b
  | _ => none

/-- The HP page of a requester that is host software. -/
def rqHp (rq : Requester) : Option Nat := (rqPort rq).map pHp

/-! ### What a register reads as -/

/-- The pages of the cores of a die under which an event shows in INT_SUM. -/
def State.coreInt (s : State) (p : Nat → Bool) : Bool :=
  s.regs.any fun e => match coreOfAddr e.1 with
    | some (i, o) => o == 0x010 && p i && s.intOf (pCore i)
    | none => false

/-- GCTL.INT_SUM (R466). -/
def State.intSum (s : State) : Nat :=
  let io := [pGctl, pHp .a, pHp .b, pMbx .a, pMbx .b, pCdm, pSec, 0, pTime, pPwr, pClk, pSumac, pZwk, pSite 0, pSite 1, pOgs,
             pClv, pColl]
  let bitOf := fun (k p : Nat) => if k = 7 then (List.range 5).any fun n => s.intOf (pSaf n) else s.intOf p
  let a := (io.zipIdx).foldl (fun a (x : Nat × Nat) => a + b2n (bitOf x.2 x.1) * 2 ^ (8 + x.2)) 0
  let die := fun (n : Nat) => s.intOf (pDie n) || s.coreInt (fun i => i / 136 == n)
    || ((List.range 4).any fun k => s.intOf (pHbm (4 * n + k))) || s.intOf (pFp (2 * n)) || s.intOf (pFp (2 * n + 1))
  a + (List.range 8).foldl (fun a n => a + b2n (die n) * 2 ^ n) 0

/-- PG_STAT.IN_SERVICE (R567). -/
def State.inService (s : State) (b : Block) (i : Nat) : Bool :=
  match b with
  | .pcore => (s.units.posOfPhys i).isSome
  | .die => s.units.dies.testBit i
  | .hbm => s.units.dies.testBit (i / 4) && (s.hbmc i).st != .off && (s.hbmc i).st != .failed
  | .fp => s.units.dies.testBit (i / 2) && s.fpState i != 4
  | .site => s.fget (pSite i) F.SITE_LINK_STAT_STATE != 3
  | .hp | .mbx => s.hostOn (if i = 0 then .a else .b)
  | .saf => ([F.SEC_SAF_MAP_L0, F.SEC_SAF_MAP_L1, F.SEC_SAF_MAP_L2, F.SEC_SAF_MAP_L3].any fun f => s.fget pSec f == i)
      && !(s.safSt i).retired
  | _ => true

/-- PG_STAT.DEGRADED (R550). -/
def State.pageDegraded (s : State) (b : Block) (i : Nat) : Bool :=
  match b with
  | .die => decide (s.units.ofDie i < 128)
  | .hbm => s.stackDegraded i
  | .fp => s.fpDegraded i
  | .site => s.siteFailed i
  | .hp => s.hpDegraded (if i = 0 then .a else .b)
  | .sec => decide (s.safCount < 4)
  | .clk => s.fget pClk F.CLK_STAT_REF_SRC == 1
  | _ => false

/-- PG_SPARE_MAP (R551). -/
def State.spareMap (s : State) (b : Block) (i : Nat) : Nat :=
  match b with
  | .die => (List.range 8).foldl (fun a k => a + b2n (s.units.replaced.any fun r => r.2 == i * 136 + 128 + k) * 2 ^ k) 0
  | .core | .pcore => b2n (s.fget (pCore i) F.SP_BANKMAP_RETIRED != 0xF)
  | .fp => b2n (s.fget (pFp i) F.FP_LANE_MAP_ACTIVE &&& 0x100 != 0)
  | .sec => b2n ([F.SEC_SAF_MAP_L0, F.SEC_SAF_MAP_L1, F.SEC_SAF_MAP_L2, F.SEC_SAF_MAP_L3].any fun f => s.fget pSec f == 4)
  | _ => 0

/-- The pages of one page hold a written shadow. -/
def State.written (s : State) (p : Nat) : Bool := s.shadows.words.any fun x => x.1 / 0x4000 == p / 0x4000

/-- PG_PEND (R464). -/
def State.pgPend (s : State) (p : Nat) : Nat := 2 * b2n (s.shadows.strobed.contains p) + b2n (s.written p)

/-- CDM.ALERT_SRC (R554). -/
def State.alertSrc (s : State) : Nat :=
  b2n (s.fget pClk F.CLK_STAT_REF_SRC == 1) + 2 * b2n (s.timeState == 3) + 4 * b2n (s.pwr.hard != 0) + 8 * b2n s.pwr.ioHot
    + 16 * b2n s.pwr.vLimit + 32 * b2n s.pwr.thrLong + 64 * b2n (s.wear.cores.length + s.wear.banks.length != 0)
    + 128 * b2n (s.fget pCdm F.CDM_DEG_BITS != 0) + 256 * s.fget pCdm ⟨0x054, 8, 8⟩

/-- SPARE_READY (R309). Log entry 226: DESIGN CHOICE. -/
def State.spareReadyPin (s : State) : Bool :=
  s.fget pOgs F.OGS_MOD_ID_VALID == 0 && s.fget pOgs F.OGS_CFG_EN == 1 && (List.range 16).any fun n => s.fpState n == 2

/-- SUMAC.PIN_IN in RUN and DEBUG (R538, R557): STEP_MARK, PPS_ECHO and the JTAG pins have no level of their own in
the state and are free. Log entry 88: DESIGN CHOICE. -/
def State.pinsIn (s : State) (free : Nat) : Nat :=
  let ph := s.fget pSumac F.SUMAC_PHASE_PHASE
  if ph < 2 then s.boot.samples.headD 0
  else
    let debug := ph == 3
    b2n (!s.boot.fault) + 2 * b2n (!s.throttled) + 4 * s.fget pPwr F.PWR_STAT_ACK
      + 8 * b2n (s.alertSrc &&& (0x1FF - s.fget pCdm F.CDM_ALERT_MASK_MASK) == 0) + 16 * b2n s.spareReadyPin
      + 32 * b2n s.boot.heartbeat + 64 * nbits free 6 6 + 128 * (if 2 ≤ s.timeState then nbits free 7 7 else 0)
      + 256 * (if debug then nbits free 11 8 else s.boot.status % 16)

/-- The 32 bytes of a log entry (R543). -/
def LogRec.bytes (e : LogRec) : List Byte :=
  let b := leBytes 8 e.time ++ leBytes 4 (e.block % 65536 * 65536 + e.inst % 65536)
    ++ leBytes 4 (e.sev % 256 * 2 ^ 24 + e.code % 65536) ++ leBytes 8 e.detail ++ leBytes 4 (e.count % 65536 * 65536 + e.boot % 65536)
  b ++ leBytes 4 (crc64 b)

/-- An entry of a section of the log (R542, R543): its bytes; none when nothing was written there. -/
def State.logEntryAt (s : State) (sect idx : Nat) : Option (List Byte) :=
  match sect with
  | 0 =>
    let n := s.logs.events.length
    (List.range n).findSome? fun k =>
      if (s.logs.eventNext - n + k) % 8192 = idx then (s.logs.events[k]?).map LogRec.bytes else none
  | 1 => (s.logs.repairs[idx]?).map LogRec.bytes
  | 2 => (s.logs.journal[idx]?).map fun ws => ws.flatMap (leBytes 4)
  | _ => some (List.replicate 32 0)

/-- The word that LOG_IDX names; a word that was never written is free. Log entry 87: DESIGN CHOICE. -/
def State.logWord (s : State) (free : Word) : Word :=
  let sect := s.fget pCdm F.CDM_LOG_IDX_SECTION
  match s.logEntryAt sect (s.fget pCdm F.CDM_LOG_IDX_ENTRY) with
  | some bs => BitVec.ofNat 32 (field bs (4 * s.fget pCdm F.CDM_LOG_IDX_WORD) 4)
  | none => free

/-- An OGS route entry as RT_DATA shows it. -/
def routeBits (r : Route) : Nat := b2n r.valid * 2 ^ 31 + b2n r.vc * 256 + r.port % 16

def HbmState.code : HbmState → Nat
  | .off => 0
  | .training => 1
  | .active => 2
  | .selfRefresh => 3
  | .failed => 4

def MxState.code : MxState → Nat
  | .idle => 0
  | .issue => 1
  | .paused => 2
  | .saving => 3
  | .saved => 4
  | .restoring => 5

def SlotState.code : SlotState → Nat
  | .free => 0
  | .opened => 1
  | .prepared => 2
  | .applying => 3
  | .ended => 4

/-- CLV.SLOT_STAT (R355). Log entry 106: DEDUCED. -/
def State.clvStat (s : State) (n : Nat) : Nat :=
  let x := s.slot n
  x.st.code * 2 ^ 28 + x.cause % 16 * 2 ^ 24 + b2n x.step * 2 ^ 23 + b2n x.hall * 2 ^ 22 + b2n x.isCoord * 2 ^ 21
    + (match x.outcome with | some .committed => 1 | some .skipped | some .aborted => 2 | some .conflict => 3 | none => 0) * 2 ^ 19
    + x.coord % 4096

/-- The count of logical cores of die k in byte k mod 4 of CORES0 or CORES1. -/
def State.coresWord (s : State) (lo : Nat) : Nat :=
  (List.range 4).foldl (fun a k => a + s.units.ofDie (lo + k) * 256 ^ k) 0

/-- A register as it reads: page of block b and number i, base address p of the page where it is kept, offset; n is
the number under which the page is addressed. free: a free word, for what has no value of its own. Log entries 9:
DEDUCED, 23: DEDUCED, 87: DESIGN CHOICE. -/
def State.regValue (s : State) (b : Block) (n i p off : Nat) (free : Word) : Word :=
  let nat := BitVec.ofNat 32
  let stored := s.reg (p + off)
  match off with
  | 0x000 => nat (b.info.2.1 * 65536 + n)
  | 0x00C => nat (8 * b2n (s.pgPend p != 0) + 4 * b2n (s.intOf p) + 2 * b2n (s.pageDegraded b i) + b2n (s.inService b i))
  | 0x018 => 0
  | 0x020 => nat (s.pgPend p)
  | 0x038 => nat (s.spareMap b i)
  | _ =>
    match b with
    | .gctl =>
      if off = 0x040 then 0
      else if off = 0x044 then
        nat (s.shadows.strobed.foldl (fun a q => a ||| 2 ^ s.fget q F.PG_UGRP_GROUP) 0)
      else if off = 0x048 then nat s.intSum
      else if off = 0x100 ∨ off = 0x104 ∨ off = 0x108 then s.orOfCores off fun _ => true
      else stored
    | .die => if off = 0x100 ∨ off = 0x104 ∨ off = 0x108 then s.orOfCores off fun c => c / 136 == i else stored
    | .cdm =>
      match off with
      | 0x048 => nat (s.coresWord 0)
      | 0x04C => nat (s.coresWord 4)
      | 0x054 => nat s.alertSrc
      | 0x05C => nat (sat 16 s.wear.cores.length * 65536 + sat 16 s.wear.banks.length)
      | 0x060 => 0
      | 0x06C => nat (s.logs.repairs.length * 65536 + (if s.logs.eventNext = 0 then 0 else (s.logs.eventNext - 1) % 8192))
      | 0x074 => s.logWord free
      | _ => stored
    | .sec =>
      match off with
      | 0x040 => s.secLc
      | 0x044 => nat s.rpb.fwSvn
      | 0x048 => nat s.rpb.cfgSvn
      | 0x050 => nat (b2n (s.sec.dbg == 1))
      | 0x054 => 0
      | 0x0D8 => s.slotStat
      | 0x0DC => nat (s.key (s.fget pSec F.SEC_SLOT_IDX_SLOT)).ctr
      | 0x0E0 => nat ((s.key (s.fget pSec F.SEC_SLOT_IDX_SLOT)).ctr / 2 ^ 32)
      | 0x0E4 => 0
      | 0x0E8 => nat s.sec.untr.length
      | 0x0EC => 0
      | _ => if 0x0A0 ≤ off ∧ off < 0x0D0 then nat (field deviceId (off - 0x0A0) 4) else stored
    | .saf =>
      if off = 0x054 then
        let x := s.safSt i
        nat ((s.jrTail i + 2 ^ 32 - s.jrHead i) % 2 ^ 32 % 65536 * 65536 + b2n x.job.isSome * 65536 + 4 * b2n x.retired
          + 2 * b2n x.stalled + b2n x.job.isNone)
      else stored
    | .pwr => if off = 0x058 then nat (s.duty * 65536 + s.limiter * 256 + s.thermDies) else stored
    | .sumac => if off = 0x044 then nat (s.pinsIn free.toNat) else stored
    | .zwk =>
      if off = 0x068 then
        s.routeWord (s.fget pZwk F.ZWK_RT_IDX_SITE) (s.fget pZwk F.ZWK_RT_IDX_ROUTE) (s.fget pZwk F.ZWK_RT_IDX_WORD)
      else if off = 0x06C then s.zKeysWord
      else stored
    | .ogs =>
      if off = 0x04C then nat (b2n s.fab.fill * 2 ^ 31)
      else if off = 0x054 then nat (routeBits (Tab.get Route.init (s.fget pOgs F.OGS_RT_IDX_ID) s.fab.routes))
      else if 0x060 ≤ off ∧ off < 0x070 then nat (s.inUse ((off - 0x060) / 4))
      else stored
    | .clv =>
      if off = 0x048 then nat (cdiv s.logUse 0x100000)
      else if off = 0x054 then 0
      else if 0x100 ≤ off ∧ off < 0x180 then
        let k := (off - 0x100) / 8
        if off % 8 = 0 then nat (s.clvStat k) else nat ((s.slot k).seq % 65536 * 65536 + sat 13 (s.slot k).actions)
      else stored
    | .hbm =>
      if off = 0x040 then nat (s.dieUnits (i / 4) % 256 * 65536
        + (if (s.hbmc i).inMap then s.pcs i else 0) * 256 + (s.hbmc i).st.code) else stored
    | .core | .pcore =>
      if off = 0x044 then
        setBits (nat (((s.core i).inflight.length % 65536) * 65536 + (stored.toNat &&& 0xE))) 0 0 (b2n (s.halted i))
      else if off = 0x144 then
        let m := s.mx i
        nat (256 * b2n m.saveErr + 128 * b2n ((m.pass.map (·.swapped)).getD false) + 64 * b2n ((m.pass.map (·.shallow)).getD false)
          + m.st.code)
      else stored
    | _ => stored

/-! ### Where an access goes -/

/-- A register access: the block and number that its address names, the number and the base address of the page where the
register is kept, offset and view (R452, R563). -/
structure RegAt where
  blk : Block
  num : Nat
  inst : Nat
  page : Nat
  off : Nat
  view : Nat
deriving DecidableEq, Repr

/-- The register at a BAR0 address; none where no page lies (R453). -/
def State.regLoc (s : State) (a : Nat) : Option RegAt :=
  let off := a % 0x400 / 4 * 4
  let view := a / 0x1000 % 4
  match pageOf a with
  | none => none
  | some (.core, n) => match s.phys n with
    | some ph => some ⟨.core, n, ph, pCore ph, off, view⟩
    | none => none
  | some (b, i) => some ⟨b, i, i, b.page i, off, view⟩

/-- Offsets whose register name ends in _LO (R456). -/
def Block.los : Block → List Nat
  | .core | .pcore => [0x030, 0x048, 0x05C, 0x150, 0x1B0]
  | .hp => [0x030, 0x048]
  | .sec => [0x030, 0x058, 0x0DC]
  | .saf => [0x030, 0x040, 0x060]
  | .time => [0x030, 0x048, 0x050, 0x058]
  | .pwr => [0x030, 0x074]
  | .site => [0x030, 0x048]
  | _ => [0x030]

/-! ### Captures and errors -/

/-- The access captured in PG_ERRADDR and PG_ERRINFO while VALID is 0 (R464). Log entry 83: DEDUCED. -/
def State.capture (s : State) (r : RegAt) (a rq kind : Nat) (wr : Bool) : State :=
  if s.fget r.page F.PG_ERRADDR_VALID = 1 then s
  else
    (s.setReg (r.page + 0x024) (BitVec.ofNat 32 (2 ^ 31 + a % 0x4000 / 4 * 4))).setReg (r.page + 0x028)
      (BitVec.ofNat 32 (rq * 2 ^ 28 + kind * 2 ^ 24 + b2n wr))

/-! ### Doorbells (R472) -/

/-- F2H_DB or its mask changed: vector 32 + k for each bit that rises unmasked or is unmasked. -/
def State.f2hRing (s : State) (p : HostPort) (old oldMask : Word) : State :=
  let v := s.reg (pMbx p + 0x0D0) &&& ~~~ (s.reg (pMbx p + 0x0D4))
  let was := old &&& ~~~ oldMask
  (List.range 32).foldl (fun s k => if bit v k && !bit was k then s.send (.msix p (32 + k)) else s) s

/-- H2F_DB or its mask changed: module firmware is interrupted in the same way. -/
def State.h2fRing (s : State) (p : HostPort) (old oldMask : Word) : State :=
  let v := s.reg (pMbx p + 0x0C8) &&& ~~~ (s.reg (pMbx p + 0x0CC))
  let was := old &&& ~~~ oldMask
  (List.range 32).foldl (fun s k => if bit v k && !bit was k then s.send (.fwDoorbell p k) else s) s

/-! ### Reads -/

/-- The RC fields of a register cleared by a read (R457). -/
def State.clearRc (s : State) (r : RegAt) : State :=
  let m := accMask (r.blk.fieldsAt r.off) .rc
  if m = 0 then s else s.setReg (r.page + r.off) (s.reg (r.page + r.off) &&& ~~~ m)

/-- The effects that a read of a register has besides its value (R455, R456, R467, R469, R470, R554). -/
def State.readEffect (s : State) (rq : Requester) (r : RegAt) : State :=
  let s := s.clearRc r
  match r.blk with
  | .gctl =>
    if 0x080 ≤ r.off ∧ r.off < 0x0C0 ∧ s.reg (r.page + r.off) = 0 then s.setReg (r.page + r.off) (BitVec.ofNat 32 (rqNo rq)) else s
  | .mbx =>
    let k := r.off % 0x40 / 4
    if 0x040 ≤ r.off ∧ r.off < 0x080 ∧ rq = .firmware then
      s.setReg (r.page + 0x0C0) (setBits (s.reg (r.page + 0x0C0)) k k 0)
    else if 0x080 ≤ r.off ∧ r.off < 0x0C0 ∧ (rqPort rq).isSome then
      s.setReg (r.page + 0x0C4) (setBits (s.reg (r.page + 0x0C4)) k k 0)
    else s
  | .cdm =>
    if r.off = 0x074 then
      let last := if s.fget pCdm F.CDM_LOG_IDX_SECTION = 2 then 3 else 7
      let w := s.fget pCdm F.CDM_LOG_IDX_WORD
      if w < last then s.fset pCdm F.CDM_LOG_IDX_WORD (w + 1)
      else (s.fset pCdm F.CDM_LOG_IDX_WORD 0).fset pCdm F.CDM_LOG_IDX_ENTRY ((s.fget pCdm F.CDM_LOG_IDX_ENTRY + 1) % 8192)
    else s
  | _ => s

/-- A read of a register by a requester: its value, or the latched value of a _HI register, and its effects. -/
def State.readLoc (s : State) (rq : Requester) (r : RegAt) : State × Word :=
  let me := rqNo rq
  let hit := s.latches.find? fun l => l.1 == me && l.2.1 == r.page + r.off
  let (ctr, s) := s.draw
  let free := Config.freeWord ctr
  let v := match hit with
    | some l => l.2.2
    | none => s.regValue r.blk r.num r.inst r.page r.off free
  let s := if hit.isSome then { s with latches := eraseFirst (fun l => l.1 == me && l.2.1 == r.page + r.off) s.latches } else s
  let s := if r.blk.los.contains r.off then
      let hi := s.regValue r.blk r.num r.inst r.page (r.off + 4) free
      { s with latches := s.latches.filter (fun l => !(l.1 == me && l.2.1 == r.page + r.off + 4)) ++ [(me, r.page + r.off + 4, hi)] }
    else s
  (s.readEffect rq r, v)

/-- A read of a BAR0 address other than IDX_ADDR and IDX_DATA. -/
def State.regRead1 (s : State) (rq : Requester) (a : Nat) : State × Word :=
  match s.regLoc a with
  | none => (s, 0)
  | some r => s.readLoc rq r

/-- The offsets of the compatibility pair (R463). -/
def aIdxAddr : Nat := 0x3F8
def aIdxData : Nat := 0x3FC

/-- Does an address name the compatibility pair, in any view or alias? -/
def isIdx (a off : Nat) : Bool := a / 0x4000 == 0 && a % 0x400 / 4 * 4 == off

/-- IDX_ADDR of a requester. -/
def State.idxOf (s : State) (rq : Requester) : Nat := Tab.get 0 (rqNo rq) s.idxAddr

def State.setIdx (s : State) (rq : Requester) (v : Nat) : State := { s with idxAddr := Tab.set 0 (rqNo rq) (v % 0x4000000 / 4 * 4) s.idxAddr }

/-- A read of any BAR0 address. -/
def State.regRead (s : State) (rq : Requester) (a : Nat) : State × Word :=
  if isIdx a aIdxAddr then (s, BitVec.ofNat 32 (s.idxOf rq))
  else if isIdx a aIdxData then
    let t := s.idxOf rq
    let r := if isIdx t aIdxAddr || isIdx t aIdxData then (s, 0) else s.regRead1 rq (t / 0x4000 * 0x4000 + t % 0x400)
    (r.1.setIdx rq (t + 4), r.2)
  else s.regRead1 rq a

/-! ### Writes -/

/-- The bytes that byte enables select, as a mask. -/
def beMask (be : BitVec 4) : Word :=
  (List.range 4).foldl (fun m k => if be.getLsbD k then m ||| maskBits (8 * k + 7) (8 * k) else m) 0

/-- The bits of a mask as a write through a view leaves them (R454). Log entry 222: DEDUCED. -/
def viewPut (view : Nat) (old m mask en : Word) : Word :=
  match view with
  | 0 => (old &&& ~~~ (mask &&& en)) ||| (m &&& mask)
  | 1 => old ||| (m &&& mask)
  | 2 => old &&& ~~~ (m &&& mask)
  | _ => old ^^^ (m &&& mask)

/-- The plain write: RW bits by the view, W1C bits through the normal view, shadows of RWS bits (R454, R457, R458).
Log entries 9: DEDUCED, 222: DEDUCED. -/
def State.plainWrite (s : State) (r : RegAt) (m en : Word) : State :=
  let fs := r.blk.fieldsAt r.off
  let a := r.page + r.off
  let old := s.reg a
  let w := viewPut r.view old m (accMask fs .rw) en
  let w := if r.view = 0 then w &&& ~~~ (m &&& accMask fs .w1c) else w
  let s := s.setReg a w
  let rws := accMask fs .rws
  if rws = 0 then s
  else
    let sh := match s.shadows.words.find? fun x => x.1 == a with
      | some x => x.2
      | none => old
    let sh := viewPut r.view sh m rws en
    { s with shadows := { s.shadows with words := s.shadows.words.filter (fun x => x.1 != a) ++ [(a, sh)] } }

/-- The common header: PG_EVT resends its vector while INT stays 1, PG_EVT_EN may raise INT, PG_EVT_INJ sets events,
and PG_CNT_SEL clears the count (R464, R465). none: not a header register with an effect of its own. Log entry 229:
DEDUCED. -/
def State.headerWrite (s : State) (r : RegAt) (m en : Word) : Option State :=
  let p := r.page
  match r.off with
  | 0x010 =>
    let t := s.plainWrite r m en
    some (if t.intOf p then t.sendInt p else t)
  | 0x014 => some (s.withInt p fun t => t.plainWrite r m en)
  | 0x018 =>
    if r.view ≠ 0 then some s
    else some ((List.range 32).foldl (fun s k => if bit m k && r.blk.evtMask.testBit k then s.raise p k else s) s)
  | 0x02C => some (((s.plainWrite r m en).setReg (p + 0x030) 0).setReg (p + 0x034) 0)
  | _ => none

/-- A write of GCTL.UPD_STROBE: the pages of the named groups whose shadows hold a write are strobed (R459). -/
def State.strobe (s : State) (groups : Word) : State :=
  let pages := [pHp .a, pHp .b].filter fun p => s.written p && bit groups (s.fget p F.PG_UGRP_GROUP) && !s.shadows.strobed.contains p
  { s with shadows := { s.shadows with strobed := s.shadows.strobed ++ pages } }

/-- Writes of the GCTL page. Log entry 85: DEDUCED. -/
def State.gctlWrite (s : State) (rq : Requester) (r : RegAt) (m en : Word) : State :=
  match r.off with
  | 0x040 => if r.view = 0 then s.strobe m else s
  | 0x100 | 0x104 | 0x108 => if r.view = 0 then s.clearInCores [r.off] (m &&& 0xF) fun _ => true else s
  | 0x1C0 => if s.fget pGctl F.GCTL_STEP_STAT_OPEN = 1 then s else s.plainWrite r m en
  | 0x1C8 =>
    if s.fget pGctl F.GCTL_STEP_STAT_OPEN = 1 then s.plainWrite r (m &&& ~~~ maskBits 7 0) (en &&& ~~~ maskBits 7 0)
    else s.plainWrite r m en
  | off =>
    if 0x080 ≤ off ∧ off < 0x0C0 then
      let owner := s.fget pGctl ⟨off, 1, 0⟩
      let zero := r.view = 0 ∧ bit en 0 ∧ m &&& 3 = 0
      if zero ∧ (rq = .firmware ∨ owner = rqNo rq) then s.setReg (pGctl + off) 0 else s
    else s.plainWrite r m en

/-- Writes of an MBX page of a port (R469 to R472); false: an error response. Log entry 84: DESIGN CHOICE. -/
def State.mbxWrite (s : State) (rq : Requester) (p : HostPort) (r : RegAt) (a : Nat) (m en : Word) : State × Bool :=
  let k := r.off % 0x40 / 4
  if 0x040 ≤ r.off ∧ r.off < 0x080 then
    match rqHp rq with
    | none => (s, true)
    | some hp =>
      if bit (s.reg (r.page + 0x0C0)) k then
        let s := (s.finc hp F.HP_ERR_CNT0_MBX_REJ).event hp F.HP_PG_EVT_MBX_REJ
        let s := s.capture r a (rqNo rq) 2 true
        ((match rqPort rq with | some q => s.send (.aer q true) | none => s), true)
      else ((s.plainWrite r m en).setReg (r.page + 0x0C0) (s.reg (r.page + 0x0C0) ||| maskBits k k), true)
  else if 0x080 ≤ r.off ∧ r.off < 0x0C0 then
    if rq ≠ .firmware then (s, true)
    else if bit (s.reg (r.page + 0x0C4)) k then (s.capture r a 3 2 true, false)
    else
      let s := (s.plainWrite r m en).setReg (r.page + 0x0C4) (s.reg (r.page + 0x0C4) ||| maskBits k k)
      (s.event r.page F.MBX_PG_EVT_F2H_WORD, true)
  else if r.off = 0x0C8 ∨ r.off = 0x0CC then
    ((s.plainWrite r m en).h2fRing p (s.reg (r.page + 0x0C8)) (s.reg (r.page + 0x0CC)), true)
  else if r.off = 0x0D0 ∨ r.off = 0x0D4 then
    ((s.plainWrite r m en).f2hRing p (s.reg (r.page + 0x0D0)) (s.reg (r.page + 0x0D4)), true)
  else (s.plainWrite r m en, true)

/-- Writes of the SEC page. -/
def State.secWrite (s : State) (rq : Requester) (r : RegAt) (m en : Word) : State :=
  match r.off with
  | 0x050 =>
    let d1 := viewPut r.view (BitVec.ofNat 32 (b2n (s.sec.dbg == 1))) m 1 en
    let s := s.writeD1 rq (bits d1 0 0)
    if r.view ≠ 0 then s else s.secPulses m
  | 0x054 => if r.view = 0 then s.opStart (bits m 3 0) else s
  | 0x0E4 => if r.view = 0 then s.writeErase m else s
  | 0x0EC => if r.view = 0 then s.writeUntr m else s
  | _ => s.plainWrite r m en

/-- LOG2 of a ring size that a write would leave outside 4 to 16: the write is ignored. Log entry 223: DEDUCED. -/
def State.sizeWrite (s : State) (r : RegAt) (m en : Word) : State :=
  let t := s.plainWrite r m en
  let v := bits (t.reg (r.page + r.off)) 4 0
  if 4 ≤ v ∧ v ≤ 16 then t else s

/-- Writes of a SAF page (R507): JR_BASE and JR_SIZE ignore writes while EN is 1. Log entry 89: DEDUCED. -/
def State.safWrite (s : State) (r : RegAt) (m en : Word) : State :=
  let on := s.fget r.page F.SAF_CTRL_EN == 1
  match r.off with
  | 0x040 | 0x044 => if on then s else s.plainWrite r m en
  | 0x048 => if on then s else s.sizeWrite r m en
  | _ => s.plainWrite r m en

/-- HALT changed by a write: P2 is left or may be entered (R516). Log entry 190: DEDUCED. -/
def State.haltEffect (s : State) (old new : Nat) : State :=
  if old = 1 ∧ new = 0 then s.leaveP2
  else if new = 1 ∧ s.fget pPwr F.PWR_CTRL_REQ = 2 then s.enterP2
  else s

/-- Writes of a core page (R100, R119, R147, R156, R160, R161, R193). Log entry 16: DESIGN CHOICE. -/
def State.coreWrite (s : State) (r : RegAt) (m en : Word) : State :=
  let ph := r.inst
  match r.off with
  | 0x040 =>
    let old := s.fget r.page F.SQ_CTRL_HALT
    let t := s.plainWrite r m en
    let t := t.haltEffect old (t.fget r.page F.SQ_CTRL_HALT)
    if r.view = 0 ∧ bit m 1 then t.coreReset ph else t
  | 0x048 | 0x04C | 0x05C | 0x060 => if s.halted ph then s.plainWrite r m en else s
  | 0x050 => if s.halted ph then s.sizeWrite r m en else s
  | 0x054 =>
    if !s.halted ph then s
    else
      let s := s.plainWrite r m en
      s.modCore ph fun c => { c with fetched := [], fetchNext := (s.reg (r.page + 0x054)).toNat }
  | 0x140 =>
    let old := s.fget r.page F.MX_CTRL_PREEMPT
    let s := s.plainWrite r m en
    s.preemptWrite ph old (s.fget r.page F.MX_CTRL_PREEMPT)
  | 0x158 =>
    let s := s.plainWrite r m en
    if r.view = 0 ∧ bit m 8 then s.clearAnchors ph else s
  | _ => s.plainWrite r m en

/-- A write of PWR.CTRL: REQ values 1 and 5 to 7 are ignored (R516). -/
def State.pwrCtrl (s : State) (r : RegAt) (m en : Word) : State :=
  let old := s.fget pPwr F.PWR_CTRL_REQ
  let s := s.plainWrite r m en
  let new := s.fget pPwr F.PWR_CTRL_REQ
  if new = 1 ∨ 5 ≤ new then s.fset pPwr F.PWR_CTRL_REQ old
  else if !bit en 0 ∨ (r.view ≠ 0 ∧ m &&& 7 = 0) then s
  else s.reqWritten new

/-- Writes of the ZWK page (R435). -/
def State.zwkWrite (s : State) (r : RegAt) (m en : Word) : State :=
  let on := s.zOn
  match r.off with
  | 0x040 =>
    let en := if on then en &&& 0x5 else en
    let t := s.plainWrite r (m &&& en) en
    if !on && t.zOn then t.zEnable else t
  | 0x044 =>
    let t := s.plainWrite r m en
    if 48 < t.fget pZwk F.ZWK_RS_K + t.fget pZwk F.ZWK_RS_M then s else t
  | 0x054 => if on then s else s.plainWrite r m en
  | 0x068 =>
    let site := s.fget pZwk F.ZWK_RT_IDX_SITE
    let route := s.fget pZwk F.ZWK_RT_IDX_ROUTE
    let w := s.fget pZwk F.ZWK_RT_IDX_WORD
    let mask : Word := match w with
      | 5 => 0xFFFF
      | 6 => 0xBE000FFF
      | 7 => 0
      | _ => 0xFFFFFFFF
    let s := s.setRouteWord site route w (viewPut r.view (s.routeWord site route w) m mask en)
    s.fset pZwk F.ZWK_RT_IDX_WORD ((w + 1) % 8)
  | _ => s.plainWrite r m en

/-- Writes of the OGS page (R305, R308). -/
def State.ogsWrite (s : State) (r : RegAt) (m en : Word) : State :=
  match r.off with
  | 0x04C => if r.view = 0 ∧ bit m 0 ∧ !s.fab.fill then { s with fab := { s.fab with fill := true } } else s
  | 0x054 =>
    let id := s.fget pOgs F.OGS_RT_IDX_ID
    let old := BitVec.ofNat 32 (routeBits (Tab.get Route.init id s.fab.routes))
    let w := viewPut r.view old m (accMask (r.blk.fieldsAt r.off) .rw) en
    let s := { s with fab := { s.fab with routes := Tab.set Route.init id ⟨bits w 3 0, bit w 8, bit w 31⟩ s.fab.routes } }
    s.fset pOgs F.OGS_RT_IDX_ID ((id + 1) % 4096)
  | _ => s.plainWrite r m en

/-- Writes of the CLV page (R353, R355). -/
def State.clvWrite (s : State) (r : RegAt) (m en : Word) : State :=
  match r.off with
  | 0x040 => if (List.range 16).any fun n => (s.slot n).st != .free then s else s.plainWrite r m en
  | 0x044 => if s.fget pClv F.CLV_CFG_EN = 1 then s else s.plainWrite r m en
  | 0x054 => if r.view = 0 then s.force (bits m 9 8) (bits m 3 0) else s
  | _ => s.plainWrite r m en

/-- A write of a register by a requester; false: an error response on the internal bus. -/
def State.writeLoc (s : State) (rq : Requester) (r : RegAt) (a : Nat) (m en : Word) : State × Bool :=
  match s.headerWrite r m en with
  | some t => (t, true)
  | none =>
    match r.blk with
    | .gctl => (s.gctlWrite rq r m en, true)
    | .mbx => s.mbxWrite rq (if r.inst = 0 then .a else .b) r a m en
    | .cdm => (if r.off = 0x060 ∧ r.view = 0 then s.writeSpareOp m else s.plainWrite r m en, true)
    | .sec => (s.secWrite rq r m en, true)
    | .saf => (s.safWrite r m en, true)
    | .pwr => (if r.off = 0x040 then s.pwrCtrl r m en else (s.plainWrite r m en).pwrUpdate, true)
    | .zwk => (s.zwkWrite r m en, true)
    | .site =>
      let t := s.plainWrite r m en
      (if r.off = 0x040 then t.siteCtrl r.inst (t.fget r.page F.SITE_LINK_CTRL_EN) else t, true)
    | .fp =>
      let t := s.plainWrite r m en
      (if r.off = 0x040 then t.fpCtrl r.inst (t.fget r.page F.FP_LINK_CTRL_EN) else t, true)
    | .ogs => (s.ogsWrite r m en, true)
    | .clv => (s.clvWrite r m en, true)
    | .die =>
      (if (r.off = 0x100 ∨ r.off = 0x104 ∨ r.off = 0x108) then
         (if r.view = 0 then s.clearInCores [r.off] (m &&& 0xF) (fun c => c / 136 == r.inst) else s)
       else s.plainWrite r m en, true)
    | .core | .pcore => (s.coreWrite r m en, true)
    | _ => (s.plainWrite r m en, true)

/-- Does a page take writes at all? Not the pages of a disabled host port (R438), nor a core page out of service (R563). -/
def State.pageWritable (s : State) (r : RegAt) : Bool :=
  match r.blk with
  | .hp | .mbx => s.hostOn (if r.inst = 0 then .a else .b)
  | .pcore => (s.units.posOfPhys r.inst).isSome
  | _ => true

/-- A write of a BAR0 address other than IDX_ADDR and IDX_DATA. -/
def State.regWrite1 (s : State) (rq : Requester) (a : Nat) (be : BitVec 4) (v : Word) : State × Bool :=
  match s.regLoc a with
  | none => (s, true)
  | some r => if s.pageWritable r then s.writeLoc rq r a (v &&& beMask be) (beMask be) else (s, true)

/-- A write of any BAR0 address. -/
def State.regWrite (s : State) (rq : Requester) (a : Nat) (be : BitVec 4) (v : Word) : State × Bool :=
  if isIdx a aIdxAddr then
    (s.setIdx rq (viewPut (a / 0x1000 % 4) (BitVec.ofNat 32 (s.idxOf rq)) (v &&& beMask be) (maskBits 25 2) (beMask be)).toNat, true)
  else if isIdx a aIdxData then
    let t := s.idxOf rq
    if isIdx t aIdxAddr || isIdx t aIdxData then (s.setIdx rq (t + 4), true)
    else
      let r := s.regWrite1 rq (t / 0x4000 * 0x4000 + t % 0x400) be v
      (if r.2 then r.1.setIdx rq (t + 4) else r.1, r.2)
  else s.regWrite1 rq a be v

/-! ### Accesses of requesters -/

/-- Does the module take register accesses: its rails are on and it is not held in reset. Log entry 90: DEDUCED. -/
def State.live (s : State) : Bool := s.powered && s.boot.running

/-- The address an access acts on: IDX_DATA stands for the address in IDX_ADDR. Log entry 86: DEDUCED. -/
def State.regTarget (s : State) (rq : Requester) (a : Nat) : Nat := if isIdx a aIdxData then s.idxOf rq else a

/-- May a fabric request reach a page (R295, R468)? Local requests of core programs reach the SAF pages too (R178).
Log entry 82: DEDUCED. -/
def State.fabricMay (a : Nat) (remote : Bool) : Bool :=
  match pageOf a with
  | some (b, _) => !(b == .cdm || b == .sec || b == .sumac || b == .pwr || b == .clk || b == .mbx || (remote && b == .saf)
      || (b == .gctl && (let o := a % 0x400 / 4 * 4; decide (0x080 ≤ o ∧ o < 0x0C0) || o == aIdxAddr || o == aIdxData)))
  | none => true

/-- An access that its page denies to the fabric, captured (R464); R468 lets it change nothing on its pages. Log entry
83: DEDUCED. -/
def State.regDeny (s : State) (a : Nat) (wr : Bool) : State :=
  match s.regLoc a with
  | some l => if l.blk == .mbx || l.blk == .gctl then s else s.capture l a 4 3 wr
  | none => s

/-- Can a requester reach the module: the port of host software is enabled and out of reset (R438, R449). -/
def State.rqLive (s : State) (rq : Requester) : Bool :=
  s.live && (match rqPort rq with
    | some p => s.hostOn p && !s.boot.perst.testBit (HostPort.ix p)
    | none => true)

/-- The port that load mode serves: the lowest-numbered enabled one (R540). -/
def State.loadPort (s : State) : HostPort := if s.hostOn .a then .a else .b

/-- Does load mode serve a requester (R540)? Log entry 202: DEDUCED. -/
def State.loadLive (s : State) (rq : Requester) : Bool :=
  s.boot.loading && s.powered && rqPort rq == some s.loadPort && !s.boot.perst.testBit (HostPort.ix s.loadPort)

/-- The pages of BAR0 in load mode (R540). -/
def loadPage (a : Nat) : Bool :=
  match pageOf a with
  | some (b, _) => b == .gctl || b == .mbx || b == .cdm
  | none => false

/-- A read by host software, module firmware or the fabric, answered with its data. -/
def State.readAcc (s : State) (r : RegRd) : State :=
  if s.loadLive r.rq then
    let (s, v) := if loadPage (s.regTarget r.rq r.addr) then s.regRead r.rq r.addr else (s, 0)
    s.send (.regData r.rq (some v))
  else if !s.rqLive r.rq then s
  else if r.rq = .fabric ∧ !(State.fabricMay r.addr true && s.fget pOgs F.OGS_CFG_REG_REMOTE == 1) then
    (s.regDeny r.addr false).send (.regData r.rq none)
  else if s.regHeld (s.regTarget r.rq r.addr) then { s with held := s.held ++ [.regRead r] }
  else
    let (s, v) := s.regRead r.rq r.addr
    s.send (.regData r.rq (some v))

/-- A write by host software, module firmware or the fabric. -/
def State.writeAcc (s : State) (w : RegWr) : State :=
  if s.loadLive w.rq then
    if loadPage (s.regTarget w.rq w.addr) then
      let (s, ok) := s.regWrite w.rq w.addr w.be w.val
      if ok then s else s.send (.regData w.rq none)
    else s
  else if !s.rqLive w.rq then s
  else if w.rq = .fabric ∧ !(State.fabricMay w.addr true && s.fget pOgs F.OGS_CFG_REG_REMOTE == 1) then
    (s.regDeny w.addr true).send (.regData w.rq none)
  else if s.regHeld (s.regTarget w.rq w.addr) then { s with held := s.held ++ [.regWrite w] }
  else
    let (s, ok) := s.regWrite w.rq w.addr w.be w.val
    if ok then s else s.send (.regData w.rq none)

end Sys2Proof.Machine
end

