-- ==== Sys2Proof/Machine/Move.lean ====
section
/-! DEFINITION. The move engine and the fingerprint engine: pieces and parts, local and remote accesses, register moves and
their completion (R175 to R178, R189 to R192, R294, R325 to R329, R338, R499). -/

namespace Sys2Proof.Machine

/-! ### Accesses of an engine by local offset -/

/-- Does a local offset lie in the register window (R292)? -/
def inRegs (off : Nat) : Bool := decide (regBase ≤ off ∧ off < regBase + 0x4000000)

/-- Is an access by local offset held? -/
def State.endHeld (s : State) (off n : Nat) : Bool :=
  if inRegs off then s.regHeld (s.regTarget .fabric (off - regBase)) else s.memHeld off n

/-- A local read by an engine: register, covered bytes (R499), or memory. Log entry 82: DEDUCED. -/
def State.engineRead (s : State) (off n : Nat) : Res :=
  if inRegs off then
    let a := off - regBase
    if n ≠ 4 ∨ off % 4 ≠ 0 then ⟨s, 0x0B, 0, []⟩
    else if !State.fabricMay a false then ⟨s.regDeny a false, 0x0B, 0, []⟩
    else
      let r := s.regRead .fabric a
      ⟨r.1, 0, 0, leBytes 4 r.2.toNat⟩
  else if s.covered off n then ⟨s, 4, 0x8C, []⟩
  else s.memRead off n

/-- A local write by an engine. -/
def State.engineWrite (s : State) (off : Nat) (bs : List Byte) : Res :=
  if inRegs off then
    let a := off - regBase
    if bs.length ≠ 4 ∨ off % 4 ≠ 0 then ⟨s, 0x0B, 0, []⟩
    else if !State.fabricMay a false then ⟨s.regDeny a true, 0x0B, 0, []⟩
    else
      let r := s.regWrite .fabric a 0xF (BitVec.ofNat 32 (leNat bs))
      ⟨r.1, if r.2 then 0 else 9, 0, []⟩
  else s.memWrite off bs

/-- A local write of a transaction, logged (R338 to R340); one to a register goes through its normal view (R333). -/
def State.txnWrite (s : State) (t off : Nat) (bs : List Byte) : State × Nat × Nat :=
  if inRegs off then
    if s.regDenied (off - regBase) then (s, 0x0B, 0)
    else s.logEntry t (.reg (regAlias (off - regBase)) (BitVec.ofNat 32 (leNat bs)))
  else match s.place off bs.length with
    | .denied => (s, 0x0B, 0)
    | _ => s.logEntry t (.mem off bs)

/-! ### Checks of a MOVE (R176 to R178) -/

def State.moveSrc (s : State) (d : MoveD) : Nat := s.gaddr d.src d.srcLocal
def State.moveDst (s : State) (d : MoveD) : Nat := s.gaddr d.dst d.dstLocal

/-- Does a run of bytes touch a register window? -/
def touchesRegs (g n : Nat) : Bool := decide (g % 2 ^ 44 < regBase + 0x4000000 ∧ regBase < g % 2 ^ 44 + n)

/-- Where the scale bytes of the 4,096-byte block at global address g lie: by R171 in a scratchpad window, with the
SP_SCALE_BASE of the core that owns it, else contiguous from base (R176). Log entry 75: DESIGN CHOICE. -/
def State.scaleEnd (s : State) (g base i : Nat) : Nat :=
  let o := g % 2 ^ 44
  if spBase ≤ o ∧ o < spBase + 0x400000000 then
    let c := (o - spBase) / 0x1000000
    let win := if s.isLocal g then (match s.phys c with | some ph => s.fget (pCore ph) F.SP_SCALE_BASE_BASE | none => 0)
      else (Config.remoteScaleBase (g / 2 ^ 44) c).toNat
    g / 2 ^ 44 * 2 ^ 44 + spBase + c * 0x1000000 + win * 4096 + (o - spBase) % 0x1000000 / 4096 * 128
  else base + 128 * i

/-- The ends of the scale bytes of block w of row r. -/
def State.scaleEnds (s : State) (d : MoveD) (r w : Nat) : Nat × Nat :=
  let i := (r * d.rowBytes + 4096 * w) / 4096
  (s.scaleEnd (s.moveSrc d + r * d.srcStride + 4096 * w) (s.gaddr d.scaleSrc d.scaleSrcLocal) i,
   s.scaleEnd (s.moveDst d + r * d.dstStride + 4096 * w) (s.gaddr d.scaleDst d.scaleDstLocal) i)

/-- Does a MOVE, its scale bytes included, touch a register window? -/
def State.moveTouches (s : State) (d : MoveD) : Bool :=
  (List.range d.rows).any fun r =>
    touchesRegs (s.moveSrc d + r * d.srcStride) d.rowBytes || touchesRegs (s.moveDst d + r * d.dstStride) d.rowBytes
    || (d.scales && (List.range (d.rowBytes / 4096)).any fun w =>
      let e := s.scaleEnds d r w; touchesRegs e.1 128 || touchesRegs e.2 128)

/-- Is a MOVE a register MOVE that meets R178? -/
def State.isRegMove (s : State) (d : MoveD) : Bool :=
  s.moveTouches d && d.rows == 1 && d.rowBytes == 4 && !d.scales && s.moveSrc d % 4 == 0 && s.moveDst d % 4 == 0

/-- Do source and destination share a byte? Log entry 71: DEDUCED. -/
def State.moveOverlap (s : State) (d : MoveD) : Bool :=
  (List.range d.rows).any fun i => (List.range d.rows).any fun j =>
    let a := s.moveSrc d + i * d.srcStride
    let b := s.moveDst d + j * d.dstStride
    decide (a < b + d.rowBytes ∧ b < a + d.rowBytes)

/-- The failed checks of a MOVE, lowest reason first (R177). The addresses that SCALES = 1 wants at multiples of 4,096 are
SRC and DST. Log entry 243: DEDUCED. -/
def State.moveReasons (s : State) (d : MoveD) : List Nat :=
  let isReg := s.isRegMove d
  let un := fun (n x : Nat) => x % n != 0
  let bad := (!isReg && (un 64 d.rowBytes || un 64 d.srcStride || un 64 d.dstStride))
    || (d.scales && (un 4096 (s.moveSrc d) || un 4096 (s.moveDst d) || un 4096 d.rowBytes || un 4096 d.srcStride
        || un 4096 d.dstStride))
    || d.cls == 3 || (s.moveTouches d && !isReg)
  (if s.moveOverlap d then [0x1C] else []) ++ (if bad then [0x1D] else [])

/-! ### Pieces and parts (R294, R325) -/

/-- Bytes of a part of a transfer of b bytes. -/
def partSize (b : Nat) : Nat := max 256 (256 * cdiv b 16384)

/-- n bytes from a to b, at place t of the transfer, cut at 256-byte blocks of both ends and at parts of size p; fuel
bounds the number of pieces. Log entry 73: DESIGN CHOICE. -/
def cutRow (p : Nat) : Nat → Nat → Nat → Nat → Nat → List Piece
  | 0, _, _, _, _ => []
  | f + 1, t, a, b, n =>
    if n = 0 then [] else
    let k := min (min n (p - t % p)) (min (256 - a % 256) (256 - b % 256))
    ⟨a % 2 ^ 56, b % 2 ^ 56, k, t / p⟩ :: cutRow p f (t + k) (a + k) (b + k) (n - k)

/-- The scale pieces of one row: a scale byte belongs to the part of the 32 bytes it scales (R325). -/
def State.scalePieces (s : State) (d : MoveD) (p r : Nat) : List Piece :=
  (List.range (d.rowBytes / 4096)).flatMap fun w =>
    let e := s.scaleEnds d r w
    cutRow (p / 32) 128 ((r * d.rowBytes + 4096 * w) / 32) e.1 e.2 128

/-- A piece whose remote end is no size of R294 goes in 4-byte requests where its addresses allow. Log entry 73:
DESIGN CHOICE. -/
def State.legalise (s : State) (p : Piece) : List Piece :=
  let bad := fun (g : Nat) => !s.isLocal g && !fabricSize (g % 2 ^ 44) p.len
  if (bad p.src || bad p.dst) && p.src % 4 == 0 && p.dst % 4 == 0 && p.len % 4 == 0 then
    (List.range (p.len / 4)).map fun i => { p with src := p.src + 4 * i, dst := p.dst + 4 * i, len := 4 }
  else [p]

/-- The pieces of a MOVE in the order of its data, each row followed by its scale bytes. Log entry 74: DEDUCED. -/
def State.movePieces (s : State) (d : MoveD) : List Piece :=
  let p := partSize (d.rows * d.rowBytes)
  let ps := (List.range d.rows).flatMap fun r =>
    cutRow p d.rowBytes (r * d.rowBytes) (s.moveSrc d + r * d.srcStride) (s.moveDst d + r * d.dstStride) d.rowBytes
      ++ (if d.scales then s.scalePieces d p r else [])
  ps.flatMap s.legalise

/-- A set of parts as a bitmap. -/
def partsOf (l : List Nat) : Nat := l.foldl (fun a p => a ||| 2 ^ p) 0

/-! ### Progress -/

def MoveSt.init : MoveSt := ⟨[], 0, 0, 0, none, false, false, [], none⟩

def State.setMove (s : State) (ph idx : Nat) (m : MoveSt) : State := s.modInfl ph idx fun e => { e with prog := .move m }

/-- A request or access of a part failed (R326, R328, R329): what the descriptor and the module note of it. -/
def State.moveFail (s : State) (ph : Nat) (txn : Option Nat) (m : MoveSt) (part g cls st det : Nat) : State × MoveSt :=
  let s := s.captureFail st det part cls ((s.logical ph).getD 0) (g / 2 ^ 44 % 4096)
  let m := { m with failed := m.failed ||| 2 ^ part, first := if m.first.isSome then m.first else some (st, det),
                    stopped := m.stopped || st == 3 || txn.isSome }
  ((match txn with | some t => s.slotAbort t 4 | none => s), m)

/-- The record of a MOVE or FPRINT under R326 and R328. -/
def MoveSt.record (m : MoveSt) (txn : Bool) : Rec :=
  let dig := m.digest.getD 0
  match m.first with
  | none =>
    if m.degraded then Rec.of 0xF
    else ⟨0, 0, 0, dig % 2 ^ 32, if m.digest.isSome then some (dig / 2 ^ 32) else none⟩
  | some f =>
    if txn || m.failed == m.full then ⟨f.1, 0, f.2, 0, none⟩
    else ⟨1, 0, 0, m.failed % 2 ^ 32, some (m.failed / 2 ^ 32)⟩

/-- Is a request a part of a descriptor of the move or fingerprint engine? -/
def Owner.ofMove (ph idx : Nat) : Owner → Option Nat
  | .move c i part _ _ => if c = ph ∧ i = idx then some part else none
  | _ => none

/-- A stopped MOVE: what it has not issued, and what waits at the tracker, is never issued and its parts fail. Log
entry 78: DEDUCED. -/
def State.moveStop (s : State) (ph idx : Nat) (m : MoveSt) : State × MoveSt :=
  if !m.stopped then (s, m)
  else
    let (s, os) := s.dropWaiting fun o => (o.ofMove ph idx).isSome
    let gone := os.filterMap fun o => o.ofMove ph idx
    let rest := m.pieces.map (·.part) ++ m.got.map fun x => x.1 / 2 ^ 56
    (s, { m with
      pieces := [], got := [], waiting := m.waiting - gone.length, failed := m.failed ||| partsOf (gone ++ rest) })

/-- Data of a piece written to its destination: locally, or by a request; a LOCAL transaction writes to no other module
(R335, R337). -/
def State.movePut (s : State) (ph idx : Nat) (txn : Option Nat) (cls : Nat) (m : MoveSt) (g part : Nat) (bs : List Byte) :
    State × MoveSt :=
  if m.stopped then (s, { m with failed := m.failed ||| 2 ^ part })
  else if s.isLocal g then
    let off := g % 2 ^ 44
    match txn with
    | some t =>
      let (s, st, det) := s.txnWrite t off bs
      if st = 0 then (s, m) else s.moveFail ph txn m part g cls st det
    | none =>
      if s.endHeld off bs.length then (s, { m with got := m.got ++ [(part * 2 ^ 56 + g, bs)] })
      else
        let r := s.engineWrite off bs
        if r.status = 0 then (r.st, m) else r.st.moveFail ph txn m part g cls r.status r.detail
  else if s.outOfScope txn then s.moveFail ph txn m part g cls 4 0x55
  else match s.request opWR cls g bs.length bs txn (.move ph idx part none 0) with
    | (s, none) => (s, { m with waiting := m.waiting + 1 })
    | (s, some f) => s.moveFail ph txn m part g cls f.1 f.2

/-- One piece begun: read and written, or sent as a request. A piece with a held local end stays. Log entry 76:
DEDUCED. -/
def State.movePiece (s : State) (ph idx : Nat) (txn : Option Nat) (cls : Nat) (m : MoveSt) (p : Piece) : State × MoveSt :=
  if m.stopped then (s, { m with failed := m.failed ||| 2 ^ p.part })
  else if s.isLocal p.src then
    if s.endHeld (p.src % 2 ^ 44) p.len || (s.isLocal p.dst && txn.isNone && s.endHeld (p.dst % 2 ^ 44) p.len) then
      (s, { m with pieces := m.pieces ++ [p] })
    else
      let r := s.engineRead (p.src % 2 ^ 44) p.len
      if r.status = 0 then r.st.movePut ph idx txn cls m p.dst p.part r.data
      else r.st.moveFail ph txn m p.part p.src cls r.status r.detail
  else match s.request opRD cls p.src p.len [] txn (.move ph idx p.part (some p.dst) 0) with
    | (s, none) => (s, { m with waiting := m.waiting + 1 })
    | (s, some f) => s.moveFail ph txn m p.part p.src cls f.1 f.2

/-- What a descriptor may still do without an outside event is done; it completes when nothing is left. -/
def State.moveSettle (s : State) (ph idx : Nat) (txn : Option Nat) (m : MoveSt) : State :=
  let (s, m) := s.moveStop ph idx m
  let s := s.setMove ph idx m
  match s.infl ph idx with
  | none => s
  | some e =>
    if m.waiting = 0 ∧ m.pieces.isEmpty ∧ m.got.isEmpty then s.complete ph e (m.record txn.isSome)
    else if (m.pieces.isEmpty && m.got.isEmpty) || s.held.contains (.piece ph idx) then s
    else { s with held := s.held ++ [.piece ph idx] }

/-- Does a MOVE read a covered byte of this module (R499)? Log entry 77: DEDUCED. -/
def State.readsCovered (s : State) (ps : List Piece) : Bool :=
  !s.sec.untr.isEmpty && ps.any fun p => s.isLocal p.src && s.covered (p.src % 2 ^ 44) p.len

/-- The pieces and the data that wait are gone through in order. Log entry 72: DESIGN CHOICE. -/
def State.moveRun (s : State) (ph idx : Nat) : State :=
  match s.infl ph idx with
  | none => s
  | some e =>
    match e.prog with
    | .move m =>
      let cls := (moveD e.words).cls + 1
      let a := m.got.foldl (fun (a : State × MoveSt) x => a.1.movePut ph idx e.txn cls a.2 (x.1 % 2 ^ 56) (x.1 / 2 ^ 56) x.2)
        (s, { m with pieces := [], got := [] })
      let a := m.pieces.foldl (fun (a : State × MoveSt) p => a.1.movePiece ph idx e.txn cls a.2 p) a
      a.1.moveSettle ph idx e.txn a.2
    | _ => s

/-- An issued MOVE starts: with a remote end its requests are issued; else its accesses await their end. -/
def State.moveStart (s : State) (ph idx : Nat) (d : MoveD) : State :=
  let ps := s.movePieces d
  let s := s.setMove ph idx { MoveSt.init with pieces := ps, full := partsOf (ps.map (·.part)) }
  if ps.all fun p => s.isLocal p.src && s.isLocal p.dst then s
  else if s.readsCovered ps then
    (match s.infl ph idx with | some e => s.complete ph e (Rec.refused 0x8C) | none => s)
  else s.moveRun ph idx

/-- A MOVE at the head issues: refused, beyond its slot's actions, nothing to copy, or started (R148, R176, R177, R334,
R340). Log entry 70: DEDUCED. -/
def State.moveIssue (s : State) (ph : Nat) (f : Fetched) : State :=
  let d := moveD f.words
  let none_ := d.rows = 0 ∨ d.rowBytes = 0
  match if none_ then [] else s.moveReasons d with
  | r :: _ => s.issueDone ph f (Rec.refused r)
  | [] =>
    let txn := (s.core ph).attach
    let s := s.issue ph f .queued
    let (s, ok) := match txn with | some t => s.countActions t 1 | none => (s, true)
    if !ok then s.complete ph ⟨f.idx, f.words, .queued, txn⟩ (Rec.of 0x0C)
    else if none_ then s.complete ph ⟨f.idx, f.words, .queued, txn⟩ (Rec.of 0)
    else s.moveStart ph f.idx d

/-- R176: a MOVE other than a register MOVE issues. -/
def move (n : Nat) (s : State) : State :=
  s.onCore n fun s ph =>
    match s.issuable ph fun w => hType w == tMOVE && !s.isRegMove (moveD w) with
    | some f => s.moveIssue ph f
    | none => s

/-- R178: a register MOVE issues as one 4-byte request. -/
def registerMove (n : Nat) (s : State) : State :=
  s.onCore n fun s ph =>
    match s.issuable ph fun w => hType w == tMOVE && s.isRegMove (moveD w) with
    | some f => s.moveIssue ph f
    | none => s

/-! ### Fingerprints (R189 to R192) -/

/-- The failed check of an FPRINT (R192). -/
def fprintBad (d : FprintD) : Bool :=
  d.recBytes == 0 || d.fieldBytes == 0 || decide (16 < d.fieldBytes) || decide (d.recBytes < d.fieldOff + d.fieldBytes)

def State.fprintSrc (s : State) (d : FprintD) : Nat := s.gaddr d.src d.srcLocal
def State.fprintDst (s : State) (d : FprintD) : Nat := s.gaddr d.dst d.dstLocal

/-- The part size of an FPRINT, and the first field byte of record j of slice i. -/
def FprintD.part (d : FprintD) : Nat := partSize (d.slices * 4096 * d.fieldBytes)
def FprintD.at_ (d : FprintD) (i j : Nat) : Nat := (i * 4096 + j) * d.fieldBytes

/-- The address of the field of record j of slice i. -/
def State.fieldAddr (s : State) (d : FprintD) (i j : Nat) : Nat :=
  (s.fprintSrc d + i * d.stride + j * d.recBytes + d.fieldOff) % 2 ^ 56

/-- The parts of the field bytes of a record. -/
def FprintD.parts (d : FprintD) (i j : Nat) : List Nat :=
  ((List.range d.fieldBytes).map fun k => (d.at_ i j + k) / d.part).eraseDups

/-- The words that the remote reads of one field take, with their parts. -/
def FprintD.words (d : FprintD) (i j a : Nat) : List (Nat × Nat) :=
  ((List.range d.fieldBytes).map fun k => ((d.at_ i j + k) / d.part, (a + k) / 4 * 4)).eraseDups

/-- Every record of an FPRINT: slice and record. -/
def FprintD.records (d : FprintD) : List (Nat × Nat) :=
  (List.range d.slices).flatMap fun i => (List.range 4096).map fun j => (i, j)

/-- How the bytes of a field were read: their bytes, CORRUPT, or failed. -/
inductive FieldRead where
  | bytes (bs : List Byte)
  | corrupt
  | failed
deriving DecidableEq, Repr

/-- A field from the words that reads of another module brought; a word that came CORRUPT is held empty. -/
def fieldFrom (got : List (Nat × List Byte)) (a n : Nat) : FieldRead :=
  let w := (List.range n).map fun k => (got.find? fun x => x.1 == (a + k) / 4 * 4).map fun x => (x.2.drop ((a + k) % 4)).take 1
  if w.any (· == some []) then .corrupt
  else if w.any (·.isNone) then .failed
  else .bytes (w.flatMap fun x => x.getD [])

/-- The field of a record read: from this module, or from what came from another. -/
def State.fieldRead (s : State) (ph : Nat) (m : MoveSt) (d : FprintD) (i j : Nat) : State × MoveSt × FieldRead :=
  let a := s.fieldAddr d i j
  if s.isLocal a then
    let r := s.engineRead (a % 2 ^ 44) d.fieldBytes
    if r.status = 0 then (r.st, m, .bytes r.data)
    else if r.status = 7 then
      let (s, m) := r.st.moveFail ph none m ((d.parts i j).headD 0) a 1 7 0
      (s, m, .corrupt)
    else
      let (s, m) := r.st.moveFail ph none m ((d.parts i j).headD 0) a 1 r.status r.detail
      (s, { m with failed := m.failed ||| partsOf (d.parts i j) }, .failed)
  else (s, m, fieldFrom m.got a d.fieldBytes)

/-- The fingerprint of slice i written: locally, or by two 4-byte requests. -/
def State.fprintWrite (s : State) (ph idx : Nat) (m : MoveSt) (d : FprintD) (i v : Nat) : State × MoveSt :=
  let g := (s.fprintDst d + 8 * i) % 2 ^ 56
  let part := (d.at_ i 4095 + d.fieldBytes - 1) / d.part
  if s.isLocal g then
    let r := s.engineWrite (g % 2 ^ 44) (leBytes 8 v)
    if r.status = 0 then (r.st, m) else r.st.moveFail ph none m part g 1 r.status r.detail
  else
    [0, 1].foldl (fun (a : State × MoveSt) k =>
      match a.1.request opWR 1 (g + 4 * k) 4 (leBytes 4 (v / 2 ^ (32 * k))) none (.move ph idx part none 0) with
      | (s, none) => (s, { a.2 with waiting := a.2.waiting + 1 })
      | (s, some f) => s.moveFail ph none a.2 part g 1 f.1 f.2) (s, m)

/-- One slice: its fields in order, then its fingerprint. Nothing follows a slice that ended CORRUPT. Log entry 80:
DEDUCED. -/
def State.fprintSlice (s : State) (ph idx : Nat) (d : FprintD) (m : MoveSt) (fps : List Byte) (i : Nat) :
    State × MoveSt × List Byte :=
  if m.stopped then (s, m, fps)
  else
    let (s, m, r) := (List.range 4096).foldl (fun (a : State × MoveSt × FieldRead) j =>
      match a.2.2 with
      | .corrupt => a
      | acc =>
        let (s, m, x) := a.1.fieldRead ph a.2.1 d i j
        (s, m, match x, acc with
          | .corrupt, _ => .corrupt
          | .bytes b, .bytes c => .bytes (c ++ b)
          | _, _ => .failed)) (s, m, .bytes [])
    match r with
    | .corrupt => (s, { m with stopped := true, failed := m.full }, fps)
    | .failed => (s, m, fps)
    | .bytes bs =>
      let v := crc64 bs
      let (s, m) := s.fprintWrite ph idx m d i v
      (s, m, fps ++ leBytes 8 v)

/-- Does an FPRINT meet a held access of this module? -/
def State.fprintHeld (s : State) (d : FprintD) : Bool :=
  (d.records.any fun x => let a := s.fieldAddr d x.1 x.2; s.isLocal a && s.endHeld (a % 2 ^ 44) d.fieldBytes)
  || (List.range d.slices).any fun i => let g := (s.fprintDst d + 8 * i) % 2 ^ 56; s.isLocal g && s.endHeld (g % 2 ^ 44) 8

/-- Does an FPRINT read a covered byte of this module? Log entry 77: DEDUCED. -/
def State.fprintCovered (s : State) (d : FprintD) : Bool :=
  !s.sec.untr.isEmpty && d.records.any fun x =>
    let a := s.fieldAddr d x.1 x.2; s.isLocal a && s.covered (a % 2 ^ 44) d.fieldBytes

/-- The record of an FPRINT: a failed read fails every part, and the status met first stands (R14, R192). Log entry 80: DEDUCED. -/
def MoveSt.fprintRec (m : MoveSt) : Rec := m.record false

/-- An FPRINT with nothing outstanding completes. -/
def State.fprintSettle (s : State) (ph idx : Nat) (m : MoveSt) : State :=
  let s := s.setMove ph idx m
  match s.infl ph idx with
  | none => s
  | some e => if m.waiting = 0 then s.complete ph e m.fprintRec else s

/-- The fingerprints are formed once every read from another module has ended. Log entry 79: DESIGN CHOICE. -/
def State.fprintForm (s : State) (ph idx : Nat) : State :=
  match s.infl ph idx with
  | none => s
  | some e =>
    match e.prog with
    | .move m =>
      let d := fprintD e.words
      if m.waiting ≠ 0 ∨ m.digest.isSome then s
      else if s.fprintHeld d then (if s.held.contains (.piece ph idx) then s else { s with held := s.held ++ [.piece ph idx] })
      else if s.fprintCovered d then s.complete ph e (Rec.refused 0x8C)
      else
        let a := (List.range d.slices).foldl (fun (a : State × MoveSt × List Byte) i => a.1.fprintSlice ph idx d a.2.1 a.2.2 i)
          (s, m, [])
        a.1.fprintSettle ph idx { a.2.1 with digest := some (crc64 a.2.2), got := [] }
    | _ => s

/-- Has an FPRINT an end on another module? -/
def State.fprintRemote (s : State) (d : FprintD) : Bool :=
  (d.records.any fun x => !s.isLocal (s.fieldAddr d x.1 x.2))
  || (List.range d.slices).any fun i => !s.isLocal ((s.fprintDst d + 8 * i) % 2 ^ 56)

/-- The remote reads of an FPRINT issued. Log entry 79: DESIGN CHOICE. -/
def State.fprintReads (s : State) (ph idx : Nat) (d : FprintD) (m : MoveSt) : State × MoveSt :=
  d.records.foldl (fun (a : State × MoveSt) x =>
    let g := a.1.fieldAddr d x.1 x.2
    if a.1.isLocal g then a
    else (d.words x.1 x.2 g).foldl (fun (a : State × MoveSt) w =>
      match a.1.request opRD 1 w.2 4 [] none (.move ph idx w.1 none w.2) with
      | (s, none) => (s, { a.2 with waiting := a.2.waiting + 1 })
      | (s, some f) => s.moveFail ph none a.2 w.1 w.2 1 f.1 f.2) a) (s, m)

/-- The fingerprint engine takes its next queued FPRINT (R149); fuel bounds those that end at once. -/
def State.fprintNext : Nat → State → Nat → State
  | 0, s, _ => s
  | fuel + 1, s, ph =>
    match s.queue ph tFPRINT with
    | [] => s
    | e :: _ =>
      if e.prog ≠ .queued then s
      else
        let d := fprintD e.words
        if d.slices = 0 then State.fprintNext fuel (s.complete ph e ⟨0, 0, 0, 0, some 0⟩) ph
        else
          let full := partsOf (d.records.flatMap fun x => d.parts x.1 x.2)
          let (s, m) := s.fprintReads ph e.idx d { MoveSt.init with full := full }
          let s := s.setMove ph e.idx m
          if s.fprintRemote d then State.fprintNext fuel (s.fprintForm ph e.idx) ph else s

/-- R190, R192: an FPRINT issues. -/
def fprint (n : Nat) (s : State) : State :=
  s.onCore n fun s ph =>
    match s.issuable ph fun w => hType w == tFPRINT with
    | none => s
    | some f =>
      if fprintBad (fprintD f.words) then s.issueDone ph f (Rec.refused 0x1E)
      else (s.issue ph f .queued).fprintNext 3 ph

/-! ### Ends of accesses -/

/-- What waits for a hold goes on (R344). -/
def State.pieceGo (s : State) (ph idx : Nat) : State :=
  match s.infl ph idx with
  | none => s
  | some e => if hType e.words = tFPRINT then (s.fprintForm ph idx).fprintNext 3 ph else s.moveRun ph idx

/-- R326: the last local access of the descriptor at place k among the MOVEs and FPRINTs of a core ends. Log entry 72:
DESIGN CHOICE. -/
def localMoveDone (n : Nat) (k : Nat) (s : State) : State :=
  s.onCore n fun s ph =>
    match ((s.core ph).inflight.filter fun e => hType e.words == tMOVE || hType e.words == tFPRINT)[k]? with
    | none => s
    | some e =>
      match e.prog with
      | .move m =>
        if hType e.words == tMOVE && s.readsCovered m.pieces then s.complete ph e (Rec.refused 0x8C)
        else if s.held.contains (.piece ph e.idx) then s
        else s.pieceGo ph e.idx
      | _ => s

/-- A request of a MOVE or FPRINT ends (R325 to R329). -/
def State.moveDone (s : State) (r : Req) (ph idx part : Nat) (dst : Option Nat) (fieldAt status detail : Nat) (degraded : Bool)
    (data : List Byte) : State :=
  match s.infl ph idx with
  | none => s
  | some e =>
    match e.prog with
    | .move m =>
      let m := { m with waiting := m.waiting - 1, degraded := m.degraded || degraded }
      let g := r.dst * 2 ^ 44
      if hType e.words = tFPRINT then
        let (s, m) := if status = 0 then (s, if r.op = opRD then { m with got := m.got ++ [(fieldAt, data)] } else m)
          else
            let (s, m) := s.moveFail ph none m part g r.cls status detail
            (s, if r.op = opRD ∧ status = 7 then { m with got := m.got ++ [(fieldAt, [])] } else m)
        if m.digest.isSome then (s.fprintSettle ph idx m).fprintNext 3 ph
        else ((s.setMove ph idx m).fprintForm ph idx).fprintNext 3 ph
      else
        let (s, m) := if status ≠ 0 then s.moveFail ph e.txn m part g r.cls status detail
          else match dst with
            | some d => s.movePut ph idx e.txn r.cls m d part data
            | none => (s, m)
        s.moveSettle ph idx e.txn m
    | _ => s

end Sys2Proof.Machine
end

