-- ==== Sys2Proof/Machine/Bar2.lean ====
section
/-! DEFINITION. BAR2: accesses of host software to module memory and to the global space (R442 to R446). -/

namespace Sys2Proof.Machine

/-- The requester that a port is. -/
def portRq : HostPort → Requester
  | .a => .portA
  | .b => .portB

/-- The class in which BAR2 requests travel (R474). -/
def State.b2Class (s : State) (p : HostPort) : Nat :=
  match s.fget (pHp p) F.HP_B2_CFG_CLASS with
  | 0 => 1
  | 2 => 3
  | _ => 2

/-- BASE of a port. -/
def State.b2Base (s : State) (p : HostPort) : Nat :=
  s.fget (pHp p) F.HP_B2_BASE_LO_ADDR * 4096 + 2 ^ 32 * s.fget (pHp p) F.HP_B2_BASE_HI_ADDR_HI

/-- Does BAR2 of a port reach the global space? -/
def State.b2Ogs (s : State) (p : HostPort) : Bool := s.fget (pHp p) F.HP_B2_CFG_OGS_EN == 1

/-- Where BAR2 offset o leads: a local offset of this module, or a global address of another (R442). -/
inductive B2Place where
  | here (off : Nat)
  | there (g : Nat)
deriving DecidableEq, Repr

/-- The place of BAR2 offset o. -/
def State.b2Place (s : State) (p : HostPort) (o : Nat) : B2Place :=
  if s.b2Ogs p then
    let g := (s.b2Base p + o) % 2 ^ 56
    if s.isLocal g then .here (g % 2 ^ 44) else .there g
  else .here (s.b2Base p % 2 ^ 44 + o)

/-- The runs of enabled bytes of a write, by place. -/
def enabledRuns : Nat → List Byte → List Bool → List (Nat × List Byte)
  | _, [], _ => []
  | _, _, [] => []
  | i, b :: bs, e :: es =>
    let rest := enabledRuns (i + 1) bs es
    if !e then rest
    else match rest with
      | (j, r) :: t => if j = i + 1 then (i, b :: r) :: t else (i, [b]) :: (j, r) :: t
      | [] => [(i, [b])]

/-- A run cut into what one request or one local access takes: words where a word is broken or in the register window,
32-byte blocks and blocks of 256 bytes else (R294). Log entry 193: DEDUCED. -/
def b2Cut (a : Nat) (bs : List Byte) : List (Nat × List Byte) :=
  (cutAt 256 (bs.length + 1) a bs).flatMap fun c =>
    if fabricSize (c.1 % 2 ^ 44) c.2.length && !inRegs (c.1 % 2 ^ 44) then [c]
    else (cutAt 32 (c.2.length + 1) c.1 c.2).flatMap fun w =>
      if w.2.length = 32 ∧ !inRegs (w.1 % 2 ^ 44) then [w] else cutAt 4 (w.2.length + 1) w.1 w.2

/-! ### The list of accesses -/

def State.modB2 (s : State) (id : Nat) (f : Bar2Acc → Bar2Acc) : State :=
  { s with bar2 := modFirst (fun x => x.id == id) f s.bar2 }

def State.getB2 (s : State) (id : Nat) : Option Bar2Acc := s.bar2.find? fun x => x.id == id

/-- A number that no access has. -/
def State.nextB2 (s : State) : Nat := s.bar2.foldl (fun a x => max a (x.id + 1)) 0

/-- A failure of an access: what it has not yet sent or performed is dropped (R444). -/
def State.b2Fail (s : State) (id : Nat) : State :=
  let (s, os) := s.dropWaiting fun o => match o with | .bar2 i _ => i == id | _ => false
  s.modB2 id fun x => { x with failed := true, todo := [], waiting := x.waiting - os.length }

/-- One local access of a read or write: a register access of the port, or memory (R268). Log entry 193: DEDUCED. -/
def State.b2Local (s : State) (x : Bar2Acc) (off : Nat) (bs : List Byte) : Res :=
  if inRegs off then
    let a := (off - regBase) / 4 * 4
    if x.isWrite then
      let k := off % 4
      let be := BitVec.ofNat 4 ((2 ^ bs.length - 1) * 2 ^ k)
      let r := s.regWrite (portRq x.port) a be (BitVec.ofNat 32 (leNat bs * 2 ^ (8 * k)))
      ⟨r.1, if r.2 then 0 else 9, 0, []⟩
    else
      let r := s.regRead (portRq x.port) a
      ⟨r.1, 0, 0, (leBytes 4 r.2.toNat).drop (off % 4)⟩
  else if x.isWrite then s.memWrite off bs
  else s.memRead off bs.length

/-- The local accesses that are due and not held are performed. -/
def State.b2Go (s : State) (id : Nat) : State :=
  match s.getB2 id with
  | none => s
  | some x =>
    let s := s.modB2 id fun x => { x with todo := [] }
    x.todo.foldl (fun s w =>
      match s.getB2 id with
      | none => s
      | some y =>
        if y.failed then s
        else if s.endHeld w.2.1 w.2.2.length then s.modB2 id fun x => { x with todo := x.todo ++ [w] }
        else
          let r := s.b2Local y w.2.1 w.2.2
          if r.status = 0 then r.st.modB2 id fun x => { x with got := if x.isWrite then x.got else x.got ++ [(w.1, r.data)] }
          else r.st.b2Fail id) s

/-- A read begins: its local accesses are listed and its requests sent. A request to another module takes whole words;
its place is counted from 4 bytes before the access. -/
def State.b2Read (s : State) (x : Bar2Acc) : State :=
  let s := s.modB2 x.id fun y => { y with started := true }
  let cuts := (List.range (cdiv (x.addr % 256 + x.len) 256)).filterMap fun i =>
    let lo := max x.addr (x.addr / 256 * 256 + 256 * i)
    let hi := min (x.addr + x.len) (x.addr / 256 * 256 + 256 * (i + 1))
    if lo < hi then some (lo, hi - lo) else none
  cuts.foldl (fun s c =>
    match s.b2Place x.port c.1 with
    | .here off =>
      (b2Cut off (List.replicate c.2 0)).foldl (fun s w =>
        s.modB2 x.id fun y => { y with todo := y.todo ++ [(c.1 - x.addr + (w.1 - off) + 4, w.1, w.2)] }) s
    | .there g =>
      let lead := g % 4
      let n := cdiv (lead + c.2) 4 * 4
      (b2Cut (g - lead) (List.replicate n 0)).foldl (fun s w =>
        let pl := c.1 - x.addr + (w.1 - (g - lead)) + 4 - lead
        match s.request opRD (s.b2Class x.port) w.1 w.2.length [] none (.bar2 x.id pl) with
        | (s, none) => s.modB2 x.id fun y => { y with waiting := y.waiting + 1 }
        | (s, some _) => s.b2Fail x.id) s) s

/-- Byte k of a read, from what came in. -/
def b2Byte (got : List (Nat × List Byte)) (k : Nat) : Byte :=
  match got.find? fun g => decide (g.1 ≤ k + 4 ∧ k + 4 < g.1 + g.2.length) with
  | some g => g.2.getD (k + 4 - g.1) 0
  | none => 0

/-- An access ends: a read's completion, and the failure that R444 reports. -/
def State.b2End (s : State) (x : Bar2Acc) : State :=
  let s := { s with bar2 := s.bar2.filter fun y => y.id != x.id }
  let s := if x.failed then (s.finc (pHp x.port) F.HP_ERR_CNT1_B2_FAIL).event (pHp x.port) F.HP_PG_EVT_B2_FAIL else s
  if x.isWrite then (if x.failed then s.send (.aer x.port true) else s)
  else if x.failed then (s.send (.bar2Data x.port none)).send (.aer x.port true)
  else s.send (.bar2Data x.port (some ((List.range x.len).map (b2Byte x.got))))

/-- Has a read an earlier write of its port before it (R443)? -/
def State.b2Behind (s : State) (x : Bar2Acc) : Bool :=
  (s.bar2.takeWhile fun y => y.id != x.id).any fun y => y.port == x.port && y.isWrite

/-- One access goes as far as it can. -/
def State.b2Step (s : State) (id : Nat) : State :=
  match s.getB2 id with
  | none => s
  | some x =>
    let s := if !x.isWrite && !x.started && !s.b2Behind x then (s.b2Read x).b2Go id else s
    match s.getB2 id with
    | none => s
    | some x =>
      if !(x.isWrite || x.started) then s
      else if x.waiting = 0 ∧ x.todo.isEmpty then s.b2End x
      else if x.todo.isEmpty || s.held.contains (.bar2 id) then s
      else { s with held := s.held ++ [.bar2 id] }

/-- Every access, in order. -/
def State.b2Settle (s : State) : State := (s.bar2.map (·.id)).foldl State.b2Step s

/-- An access whose hold has ended goes on. -/
def State.b2Release (s : State) (id : Nat) : State := (s.b2Go id).b2Settle

/-- An answer to a request of a BAR2 access. -/
def State.b2Done (s : State) (id place status : Nat) (data : List Byte) : State :=
  let s := s.modB2 id fun x => { x with waiting := x.waiting - 1, got := if x.isWrite then x.got else x.got ++ [(place, data)] }
  (if status = 0 then s else s.b2Fail id).b2Settle

/-- Bytes of the image buffer of load mode (R540). -/
def State.bufferBytes (s : State) (o len : Nat) : List Byte := (List.range len).map fun k => Tab.get Mem.blank (o + k) s.boot.buffer

/-- A write of the image buffer, which has 64 MiB. -/
def State.bufferWrite (s : State) (o : Nat) (data : List Byte) (be : List Bool) : State :=
  let b := (data.zip be).zipIdx.foldl (fun (t : List Host.Cell) x =>
    if x.1.2 && decide (o + x.2 < 0x4000000) then Tab.set Mem.blank (o + x.2) x.1.1 t else t) s.boot.buffer
  { s with boot := { s.boot with buffer := b } }

/-- R443: a BAR2 read of len bytes at offset o; in load mode, of the image buffer. -/
def bar2Read (p : HostPort) (o len : Nat) (s : State) : State :=
  if s.loadLive (portRq p) then s.send (.bar2Data p (some (s.bufferBytes o len)))
  else if !s.rqLive (portRq p) then s
  else ({ s with bar2 := s.bar2 ++ [⟨s.nextB2, p, false, o, len, false, [], 0, false, []⟩] } : State).b2Settle

/-- One run of a write: performed here, or sent to another module; a broken word fails there (R444). -/
def State.b2Run (s : State) (id : Nat) (p : HostPort) (o : Nat) (bs : List Byte) : State :=
  (cutAt 256 (bs.length + 1) o bs).foldl (fun s c =>
    match s.getB2 id with
    | none => s
    | some x =>
      if x.failed then s
      else match s.b2Place p c.1 with
        | .here off =>
          ((b2Cut off c.2).foldl (fun s w => s.modB2 id fun y => { y with todo := y.todo ++ [(0, w.1, w.2)] }) s).b2Go id
        | .there g =>
          if g % 4 ≠ 0 ∨ c.2.length % 4 ≠ 0 then s.b2Fail id
          else (b2Cut g c.2).foldl (fun s w =>
            match s.getB2 id with
            | none => s
            | some x =>
              if x.failed then s
              else match s.request opWR (s.b2Class p) w.1 w.2.length w.2 none (.bar2 id 0) with
                | (s, none) => s.modB2 id fun y => { y with waiting := y.waiting + 1 }
                | (s, some _) => s.b2Fail id) s) s

/-- R442: a BAR2 write of bytes with their enables at offset o; in load mode, of the image buffer. -/
def bar2Write (p : HostPort) (o : Nat) (data : List Byte) (be : List Bool) (s : State) : State :=
  if s.loadLive (portRq p) then s.bufferWrite o data be
  else if !s.rqLive (portRq p) then s
  else
    let id := s.nextB2
    let s : State := { s with bar2 := s.bar2 ++ [⟨id, p, true, o, data.length, true, [], 0, false, []⟩] }
    ((enabledRuns 0 data be).foldl (fun s r => s.b2Run id p (o + r.1) r.2) s).b2Settle

/-- R445: a poisoned TLP is dropped. -/
def poisonedTlp (p : HostPort) (s : State) : State :=
  if !s.rqLive (portRq p) then s
  else (s.send (.aer p false)).finc (pHp p) F.HP_ERR_CNT1_B2_FAIL

end Sys2Proof.Machine
end

