-- ==== Sys2Proof/Machine/CollData.lean ====
section
/-! DEFINITION. The data of collectives: the COLL descriptor, segments and chunks, the signature, summaries and anchors,
the chunk as it stands in a staging slot, and how a member's own elements enter the chain (R359 to R365, R370 to R378). -/

namespace Sys2Proof.Machine

/-- Words 2 to 15 of a COLL descriptor (R362). LOG2_CHUNK and DEPTH have their defaults applied. -/
structure CollD where
  op : Nat
  red : Nat
  dtype : Nat
  outFmt : Nat
  carry : Bool
  /-- MODE is STREAM -/
  direct : Bool
  dlEn : Bool
  staleEn : Bool
  abortStep : Bool
  relEn : Bool
  pol : Nat
  rnd : Nat
  cslot : Nat
  count : Nat
  group : Nat
  seq : Nat
  root : Nat
  depth : Nat
  log2 : Nat
  src : Loc
  dst : Loc
  relTok : Nat
  stage : Nat
  deadline : Nat
  stale : Nat
  step : Nat
  tensor : Nat
  stream : Nat
deriving DecidableEq, Repr

def collD (w : List Word) : CollD :=
  let dep := bits (wd w 5) 19 16
  let lg := bits (wd w 5) 8 4
  { op := bits (wd w 2) 31 28, red := bits (wd w 2) 27 26, dtype := bits (wd w 2) 25 22, outFmt := bits (wd w 2) 21 18,
    carry := bit (wd w 2) 17, direct := bit (wd w 2) 16, dlEn := bit (wd w 2) 15, staleEn := bit (wd w 2) 14,
    abortStep := bit (wd w 2) 13, relEn := bit (wd w 2) 12, pol := bits (wd w 2) 11 11, rnd := bits (wd w 2) 10 8,
    cslot := bits (wd w 2) 7 4, count := (wd w 3).toNat, group := bits (wd w 4) 31 24, seq := bits (wd w 4) 15 0,
    root := bits (wd w 5) 31 20, depth := if dep = 0 then 4 else dep, log2 := if lg = 0 then 16 else lg,
    src := locOf w 6, dst := locOf w 8, relTok := bits (wd w 10) 29 24, stage := bits (wd w 10) 23 0,
    deadline := bits (wd w 11) 23 0, stale := bits (wd w 12) 23 0, step := (wd w 13).toNat,
    tensor := bits (wd w 14) 31 8, stream := bits (wd w 14) 7 0 }

/-- RAW input. -/
def CollD.raw (d : CollD) : Bool := d.dtype == 8
/-- ALLREDUCE or REDUCE_SCATTER. -/
def CollD.reduces (d : CollD) : Bool := d.op == 1 || d.op == 2
/-- CARRY EXACT in force: SUM only. -/
def CollD.exact (d : CollD) : Bool := d.reduces && d.red == 0 && d.carry
/-- CARRY FP32 in force. -/
def CollD.fp (d : CollD) : Bool := d.reduces && d.red == 0 && !d.carry

/-- Bytes of an element of a format in a vector; RAW elements stand in slots. -/
def elemBytes (fmt : Nat) : Nat := fmtBytes fmt

/-- Carried bytes per element (R371 to R373). -/
def CollD.es (d : CollD) : Nat := if d.exact then 8 else if d.fp then 4 else max 1 (elemBytes d.dtype)

def CollD.chunk (d : CollD) : Nat := 2 ^ d.log2
/-- Elements of a full chunk. -/
def CollD.per (d : CollD) : Nat := d.chunk / d.es
def CollD.grain (d : CollD) : Nat := if d.raw then 4096 else 64

/-- The first element of segment s of P (R360). -/
def CollD.segStart (d : CollD) (p s : Nat) : Nat := min (s * cdiv d.count d.grain / p * d.grain) d.count
def CollD.segLen (d : CollD) (p s : Nat) : Nat := d.segStart p (s + 1) - d.segStart p s

/-- Elements of part s of what travels: a segment, the vector of a BROADCAST, or a block of an ALLTOALL. -/
def CollD.partLen (d : CollD) (p s : Nat) : Nat := if d.op = 4 ∨ d.op = 5 then d.count else d.segLen p s

/-- Where part s starts in the whole vector (R361). -/
def CollD.partStart (d : CollD) (p s : Nat) : Nat := if d.op = 4 then 0 else if d.op = 5 then s * d.count else d.segStart p s

/-- Chunks of part s (R377). -/
def CollD.nch (d : CollD) (p s : Nat) : Nat := cdiv (d.partLen p s * d.es) d.chunk

/-- Elements of chunk c of part s. -/
def CollD.chLen (d : CollD) (p s c : Nat) : Nat := min d.per (d.partLen p s - c * d.per)

/-- The number of chunk c of segment s among all chunks of the vector. -/
def CollD.chNum (d : CollD) (p s c : Nat) : Nat := (List.range s).foldl (fun a i => a + d.nch p i) c

/-- Chunks of the whole vector. -/
def CollD.chunks (d : CollD) (p : Nat) : Nat := d.chNum p p 0

/-- Bytes of a staging slot (R377). -/
def CollD.z (d : CollD) : Nat := 4096 + d.chunk + (if d.exact then d.chunk / 16 else 0)

/-- Where the pre-pass area starts (R377). -/
def CollD.prepass (d : CollD) : Nat := d.stage + d.depth * d.z

/-! ### The signature (R365) -/

/-- The eight words of a signature of a member in a group of n ranks with a table digest. -/
def CollD.signature (d : CollD) (n digest : Nat) : List Word :=
  [BitVec.ofNat 32 (d.op * 2 ^ 28 + d.red * 2 ^ 26 + d.dtype * 2 ^ 22 + d.outFmt * 2 ^ 18 + b2n d.carry * 2 ^ 17
      + b2n d.direct * 2 ^ 16 + b2n d.dlEn * 2 ^ 15 + d.rnd * 2 ^ 12 + d.pol * 2 ^ 11 + d.cslot * 2 ^ 7 + d.log2 * 4),
   BitVec.ofNat 32 d.count, BitVec.ofNat 32 (d.group * 2 ^ 24 + d.seq), BitVec.ofNat 32 (n * 2 ^ 19 + d.root * 2 ^ 7),
   BitVec.ofNat 32 d.step, BitVec.ofNat 32 (d.tensor * 256 + d.stream), BitVec.ofNat 32 d.deadline,
   BitVec.ofNat 32 digest]

/-- The fields of R365 in the order of their numbers: word and bits. -/
def sigFields : List (Nat × Nat × Nat) :=
  [(0, 31, 28), (0, 27, 26), (0, 25, 22), (0, 21, 18), (0, 17, 17), (0, 16, 16), (0, 15, 15), (0, 14, 12), (0, 11, 11),
   (0, 10, 7), (0, 6, 2), (1, 31, 0), (2, 31, 24), (2, 15, 0), (3, 31, 19), (3, 18, 7), (4, 31, 0), (5, 31, 8), (5, 7, 0),
   (6, 23, 0), (7, 31, 0)]

/-- The lowest-numbered field in which two signatures differ (R366). -/
def sigDiff (a b : List Word) : Option Nat :=
  (findIdx (fun f : Nat × Nat × Nat => bits (wd a f.1) f.2.1 f.2.2 != bits (wd b f.1) f.2.1 f.2.2) sigFields).map (· + 1)

/-! ### Anchors of CARRY EXACT (R373, R374) -/

/-- A summary or agreed word: t and the smallest anchor, 0x7FFF for none. Log entry 136: DEDUCED. -/
def sumWord (t a : Int) : Word := BitVec.ofNat 32 (ofSint 16 t * 65536 + ofSint 16 a)
def sumT (w : Word) : Int := sint 16 (bits w 31 16)
def sumA (w : Word) : Int := sint 16 (bits w 15 0)

/-- The largest t and the smallest anchor of two words. Log entry 119: DESIGN CHOICE. -/
def sumMerge (x y : Word) : Word := sumWord (max (sumT x) (sumT y)) (min (sumA x) (sumA y))

/-- ⌈log2 p⌉ -/
def clog2 (p : Nat) : Nat := if p ≤ 1 then 0 else (p - 1).log2 + 1

/-- The chunk anchor a_c (R373). -/
def chunkAnchor (p : Nat) (w : Word) : Int :=
  let low := sumT w + clog2 p - 61
  if sumT w = -32768 then (if sumA w = 0x7FFF then 0 else sumA w)
  else if sumA w = 0x7FFF then low else max (sumA w) low

/-- The anchor a_out of a RAW result slot (R374). -/
def outAnchor (p : Nat) (w : Word) : Int :=
  let ac := chunkAnchor p w
  if ac - sumA w ≤ 63 then sumA w else ac

/-! ### A chunk in a staging slot (R377, R378) -/

/-- Carried elements: the code or the integer of each with its side nibble, the anchor, and one ERR per RAW tile. -/
structure Carried where
  xs : List (Int × Nat)
  anchor : Int
  errs : List Nat
deriving DecidableEq, Repr

/-- The names that a chunk header bears: phase, sender, segment, chunk index. -/
structure ChunkId where
  phase : Nat
  sender : Nat
  seg : Nat
  cidx : Nat
deriving DecidableEq, Repr

/-- Zero bytes up to a multiple of 32: requests carry whole 32-byte units (R294). Log entry 123: DEDUCED. -/
def pad32 (bs : List Byte) : List Byte := bs ++ List.replicate ((32 - bs.length % 32) % 32) 0

/-- Header bytes 0x00 to 0x37 of a chunk. -/
def CollD.chunkHdr (d : CollD) (i : ChunkId) (special : Bool) (len : Nat) (anchor : Int) : List Byte :=
  leBytes 4 (i.phase * 2 ^ 28 + b2n special * 2 ^ 23 + d.seq) ++ leBytes 4 (d.group * 2 ^ 24 + i.sender * 2 ^ 12 + i.seg)
    ++ leBytes 4 (i.cidx % 65536 * 65536) ++ leBytes 4 len ++ leBytes 4 (ofSint 16 anchor) ++ leBytes 36 0

/-- The writes that put a chunk into a slot: offset and bytes, the CRC formed. Log entry 123: DEDUCED. -/
def CollD.chunkWrites (d : CollD) (i : ChunkId) (x : Carried) : List (Nat × List Byte) :=
  let special := d.exact && x.xs.any (fun e => e.2 != 0)
  let body := x.xs.flatMap fun e => leBytes d.es (ofSint (8 * d.es) e.1)
  let side := nibBytes (x.xs.map (·.2))
  let errs := if d.exact && d.raw then x.errs.flatMap (leBytes 8) else []
  let h := d.chunkHdr i special body.length (if d.exact then x.anchor else 0)
  let crc := crc64 (h ++ errs ++ body ++ if special then side else [])
  [(0, h ++ leBytes 8 crc)] ++ (if errs.isEmpty then [] else [(0x40, pad32 errs)]) ++ [(4096, pad32 body)]
    ++ (if d.exact then [(4096 + d.chunk, pad32 side)] else [])

/-- The regions of a slot that a chunk of n elements covers. -/
def CollD.slotRegion (d : CollD) (slot n : Nat) : Region :=
  let b := d.stage + slot * d.z
  [(b, 64), (b + 0x40, if d.exact && d.raw then 8 * cdiv n 4096 else 0), (b + 4096, n * d.es),
   (b + 4096 + d.chunk, if d.exact then cdiv n 2 else 0)]

/-- A chunk read from a slot: its elements when every check of R379 passes. -/
def State.chunkAt (s : State) (ph : Nat) (d : CollD) (slot : Nat) (i : ChunkId) (n : Nat) : State × Option Carried :=
  let b := d.stage + slot * d.z
  let rd := fun (o k : Nat) => s.mem.read (spKey ph (b + o)) k
  let w := wordsOf 16 (rd 0 64)
  let special := bit (wd w 0) 23
  let len := min (wd w 3).toNat d.chunk
  let errs := if d.exact && d.raw then rd 0x40 (8 * cdiv n 4096) else []
  let side := if d.exact then rd (4096 + d.chunk) (cdiv n 2) else []
  let crc := crc64 (rd 0 56 ++ errs ++ rd 4096 len ++ if special then side else [])
  let ok := bits (wd w 0) 15 0 == d.seq && bits (wd w 1) 31 24 == d.group && bits (wd w 1) 23 12 == i.sender
    && bits (wd w 1) 11 0 == i.seg && bits (wd w 2) 31 16 == i.cidx % 65536
    && (wd w 14).toNat + 2 ^ 32 * (wd w 15).toNat == crc
  let (s', ue) := s.touch ph (d.slotRegion slot n)
  if ue || !ok then (s', none)
  else
    let body := rd 4096 (n * d.es)
    let nib := fun (k : Nat) => if special then (let x := (side.getD (k / 2) 0).toNat; if k % 2 = 0 then x % 16 else x / 16) else 0
    let code := fun (k : Nat) => field body (k * d.es) d.es
    (s', some ⟨(List.range n).map fun k => (if d.exact then sint 64 (code k) else (code k : Int), nib k),
               sint 16 (bits (wd w 4) 15 0), (chunks 8 (cdiv n 4096) errs).map leNat⟩)

/-! ### A member's own elements -/

/-- n elements of SRC from element p on, as codes of DTYPE with the scale byte of every 32 of a block-scaled format, or the
RAW slots that hold them. -/
inductive Own where
  | codes (xs scales : List Nat)
  | slots (ts : List RawTile) (n : Nat)
deriving DecidableEq, Repr

/-- The scale byte of the block of 32 elements at a place of a scratchpad (R171). Log entry 125: DESIGN CHOICE. -/
def State.scalePlace (s : State) (ph : Nat) (l : Loc) : Loc := ⟨true, s.scaleBase ph + l.off / 32⟩

/-- Has a vector of a format scale bytes in this collective: one that is converted on its way (R371, R373)? MAX, MIN and
the operations that only move data carry codes alone. Log entry 125: DESIGN CHOICE. -/
def CollD.scaled (d : CollD) (fmt : Nat) : Bool := isBlock fmt && (d.exact || d.fp)

/-- The scale bytes of n elements of SRC from element p on: those of the scratchpad, free values for a vector in HBM, where
none has a place. Log entry 125: DESIGN CHOICE. -/
def State.collScales (s : State) (ph : Nat) (d : CollD) (p n : Nat) : State × Nat × List Nat :=
  if !d.scaled d.dtype then (s, 0, [])
  else if d.src.sp then
    let g := s.locRead ph (s.scalePlace ph (d.src.add p)) (cdiv n 32)
    (g.st, g.status, g.data.map (·.toNat))
  else
    let (bs, s) := s.drawBytes (cdiv n 32)
    (s, 0, bs.map (·.toNat))

/-- SRC read from element p on (R360); a slot or byte that cannot be read gives its outcome. Log entry 124: DEDUCED. -/
def State.collSrc (s : State) (ph : Nat) (d : CollD) (p n : Nat) : State × Nat × Own :=
  if d.raw then
    (List.range (cdiv n 4096)).foldl (fun (a : State × Nat × Own) k =>
      match a.2.2 with
      | .slots ts m =>
        if a.2.1 ≠ 0 then a else
        match a.1.readSlot ph (d.src.off + (p / 4096 + k) * rawSlot) with
        | (s, some t) => (s, 0, .slots (ts ++ [t]) m)
        | (s, none) => (s, 7, .slots ts m)
      | _ => a) (s, 0, .slots [] n)
  else
    let e := elemBytes d.dtype
    let g := s.locRead ph (d.src.add (p * e)) (n * e)
    let (s, st, sc) := g.st.collScales ph d p n
    (s, if g.status = 0 then st else g.status, .codes ((chunks e (g.data.length / max 1 e) g.data).map leNat) sc)

/-- The operand a DTYPE code spells. -/
def CollD.num (d : CollD) (code : Nat) : Num := match fmtOf d.dtype with | some f => f.decode code | none => .nan

/-- The operands of n codes under their scale bytes (R38). -/
def CollD.nums (d : CollD) (cs scales : List Nat) : List Num :=
  if scales.isEmpty then cs.map d.num else (cs.zipIdx).map fun c => (d.num c.1).scale (scales.getD (c.2 / 32) 127)

/-- A member's summary of a chunk: t over its non-zero finite elements, and the smallest anchor of its slots (R373). -/
def CollD.summary (d : CollD) (x : Own) : Word :=
  match x with
  | .codes cs sc =>
    let ts := (d.nums cs sc).filterMap fun x => match x with | .fin _ m e => if m = 0 then none else some ((m.log2 : Int) + e) | _ => none
    sumWord (ts.foldl max (-32768)) 0x7FFF
  | .slots tiles n =>
    let ts := (List.range n).filterMap fun k =>
      match tiles[k / 4096]? with
      | some t =>
        let v := t.v (k % 4096)
        if v = 0 ∨ t.nib (k % 4096) % 8 ≠ 0 then none else some ((v.natAbs.log2 : Int) + t.hdr.anchor)
      | none => none
    sumWord (ts.foldl max (-32768)) ((tiles.map (·.hdr.anchor)).foldl min 0x7FFF)

/-- Is every slot of a chunk FIXED? One bit per slot (R374). -/
def Own.fixedBits : Own → List Bool
  | .slots ts _ => ts.map fun t => !t.hdr.anchored
  | .codes _ _ => []

/-- A member's own elements as they enter the chain, with the flags raised: FP32 codes, DTYPE codes, or integers at the
agreed anchor with nibbles and ERR terms (R371 to R374). A value changed at the anchor raises INX unless the result is
RAW, whose ERR records it (DEDUCED from R66). -/
def CollD.enter (d : CollD) (p : Nat) (w : Word) (x : Own) : Carried × Nat :=
  let ac := chunkAnchor p w
  match x with
  | .codes cs sc =>
    if d.exact then
      let ys := (d.nums cs sc).map fun x => match x with
        | .nan => (((0 : Int), 4), false)
        | .inf n => ((0, if n then 2 else 1), false)
        | .fin n m e => let r := rneMult (if n then -(m : Int) else m) e ac; ((r.1, 0), r.2)
      (⟨ys.map (·.1), ac, []⟩, if ys.any (·.2) then flINX else 0)
    else if d.fp then
      let ys := (d.nums cs sc).map fun x => fmtFP32.convert 0 0 0 x.toX
      (⟨ys.map fun y => ((y.1 : Int), 0), 0, []⟩, ys.foldl (fun a y => a ||| y.2) 0)
    else (⟨cs.map fun (c : Nat) => ((c : Int), 0), 0, []⟩, 0)
  | .slots ts n =>
    let ao := outAnchor p w
    let xs := (List.range n).map fun k =>
      match ts[k / 4096]? with
      | some t => ((rneMult (t.v (k % 4096)) t.hdr.anchor ac).1, t.nib (k % 4096))
      | none => (0, 0)
    (⟨xs, ac, ts.map fun t =>
        min (scaleUp t.hdr.err (t.hdr.anchor - ao) + (if t.hdr.anchor < ac then 2 ^ (ac - ao).toNat else 0)) (2 ^ 64 - 1)⟩, 0)

/-- The partial of the predecessor combined with a member's own elements (R371 to R373). -/
def CollD.combine (d : CollD) (part own : Carried) : Carried × Nat :=
  if d.exact then
    (⟨(List.zip part.xs own.xs).map fun e => (e.1.1 + e.2.1, e.1.2 ||| e.2.2), part.anchor,
      (List.zip part.errs own.errs).map fun e => min (e.1 + e.2) (2 ^ 64 - 1)⟩, 0)
  else if d.fp then
    let ys := (List.zip part.xs own.xs).map fun e => (F32.of e.1.1.toNat).add (F32.of e.2.1.toNat)
    (⟨ys.map fun y => ((y.code : Int), 0), 0, []⟩, ys.foldl (fun a y => a ||| y.fl) 0)
  else
    let f := fmtOf d.dtype
    let ys := (List.zip part.xs own.xs).map fun e =>
      let a := d.num e.1.1.toNat
      let b := d.num e.2.1.toNat
      match f with
      | some f => (f.convert 0 0 0 (if d.red = 1 then a.larger b else a.smaller b).toX).1
      | none => 0
    (⟨ys.map fun y => ((y : Int), 0), 0, []⟩, 0)

/-! ### Results -/

/-- The scale bytes of a result chunk of a block-scaled OUT_FMT: one for every 32 elements (R40). -/
def CollD.outScales (d : CollD) (vs : List XVal) : List Nat :=
  match fmtOf d.outFmt with
  | some f => if d.scaled d.outFmt then (List.range (cdiv vs.length 32)).map fun b => blockScale f ((vs.drop (32 * b)).take 32) else []
  | none => []

/-- The element codes of a result chunk whose first element lies at position pos of the vector, the flags of their
conversion (R371, R372, R374), and the scale bytes of a block-scaled result (R40). Log entries 125: DESIGN CHOICE, 126:
DEDUCED. -/
def CollD.codes (d : CollD) (x : Carried) (pos : Nat) : List Nat × Nat × List Nat :=
  if !d.exact && !d.fp then (x.xs.map fun e => e.1.toNat, 0, [])
  else
    let key := srKey d.step d.tensor d.stream
    let vs := x.xs.map fun e => if d.exact then rawValue e.1 e.2 x.anchor else ((F32.of e.1.toNat).num.toX, false)
    let sc := d.outScales (vs.map (·.1))
    let ys := (vs.zipIdx).map fun v =>
      match fmtOf d.outFmt with
      | some f =>
        let r := f.convert d.rnd d.pol (if d.rnd = 4 then srR key (pos + v.2) else 0)
          (if sc.isEmpty then v.1.1 else v.1.1.shift (127 - (sc.getD (v.2 / 32) 127 : Int)))
        (r.1, r.2 ||| if v.1.2 then flINV else 0)
      | none => (0, 0)
    (ys.map (·.1), ys.foldl (fun a y => a ||| y.2) 0, sc)

/-- The RAW result slots of a chunk (R374); elements beyond COUNT are 0. Log entry 127: DEDUCED. -/
def resultTiles (p : Nat) (w : Word) (fixed : List Bool) (x : Carried) : List RawTile :=
  let ac := chunkAnchor p w
  let ao := outAnchor p w
  (List.range (cdiv x.xs.length 4096)).map fun k =>
    let es := (x.xs.drop (k * 4096)).take 4096
    let es := es ++ List.replicate (4096 - es.length) (0, 0)
    let h : RawHdr := ⟨0, false, false, !(fixed.getD k false && ao == -32), ao, x.errs.getD k 0, 0, 0, 0, 0, 0⟩
    mkRaw h (es.map fun e => e.1 * (2 ^ (ac - ao).toNat : Nat)) (es.map (·.2))

/-- A zero slot at the anchor of a result slot (R368). Log entry 127: DEDUCED. -/
def zeroLike (t : RawTile) : RawTile := mkRaw { t.hdr with err := 0 } (List.replicate 4096 0) (List.replicate 4096 0)

/-! ### The chunks a member receives (R370) -/

/-- The ring: phase, segment and chunk of everything that comes from the predecessor, in the order of its sends. The
order of segments on a link follows the steps of R370; chunks of a segment follow in order (DESIGN CHOICE: R377 fixes
the slot of chunk k of a link, not which chunk that is). Log entry 120: DESIGN CHOICE. -/
def CollD.plan (d : CollD) (p me : Nat) : List (Nat × Nat × Nat) :=
  let seg := fun (ph s : Nat) => (List.range (d.nch p s)).map fun c => (ph, s, c)
  let reduce := (List.range (p - 1)).flatMap fun j => seg 1 ((me + 2 * p - 2 - j) % p)
  let gather := (List.range (p - 1)).flatMap fun j => seg 2 ((me + p - 1 - j) % p)
  match d.op with
  | 1 => reduce ++ gather
  | 2 => reduce
  | 3 => gather
  | _ => []

end Sys2Proof.Machine
end

