-- ==== Sys2Proof/Machine/Collectives.lean ====
section
/-! DEFINITION. Collectives: issue and checks, entry, START and its deadlines, the engine of a member, the leader, COMMIT
and STREAM, exclusion, and the messages between them (R356 to R386). -/

namespace Sys2Proof

/-- SUB of a message (R369). -/
def CollBody.sub : CollBody → Nat
  | .enter .. => 0 | .start .. => 1 | .pre .. => 2 | .go .. => 3 | .chunk => 4
  | .free => 5 | .report .. => 6 | .stop => 7 | .verdict .. => 8 | .excluded => 9

end Sys2Proof

namespace Sys2Proof.Machine

/-! ### The group table and the checks of issue (R356, R357, R363) -/

/-- The table of group g up to its LAST bit: status of the read, and the module and core of each rank with the bytes;
none where no LAST bit stands within 4,096 entries. Log entry 128: DEDUCED. -/
def State.collTable (s : State) (g : Nat) : State × Nat × Option (List (Nat × Nat) × List Byte) :=
  let base := s.fget pColl F.COLL_GTAB_BASE_BASE * 2 ^ 22 + g * 16384
  let r := (List.range 64).foldl (fun (a : State × Nat × List Byte × Bool) k =>
    if a.2.1 ≠ 0 ∨ a.2.2.2 then a else
    let t := a.1.memRead1 (base + 256 * k) 256
    let ws := wordsOf 64 t.data
    match findIdx (fun w => bit w 0) ws with
    | some i => (t.st, t.status, a.2.2.1 ++ t.data.take (4 * (i + 1)), t.status == 0)
    | none => (t.st, t.status, a.2.2.1 ++ t.data, false)) (s, 0, [], false)
  (r.1, r.2.1,
    if r.2.2.2 then
      some ((wordsOf (r.2.2.1.length / 4) r.2.2.1).map (fun w => (bits w 31 20, bits w 19 10)), r.2.2.1)
    else none)

/-- Bytes of n elements of a vector of a format. -/
def vecBytes (fmt n : Nat) : Nat := if fmt = 8 then cdiv n 4096 * rawSlot else n * elemBytes fmt

/-- Do n bytes of local HBM from an offset lie below the capacity of their dies (R266)? -/
def State.hbmHolds (s : State) (off n : Nat) : Bool :=
  decide (off + n ≤ hbmEnd) && (List.range 8).all fun d =>
    decide (off + n ≤ d * dieSize ∨ (d + 1) * dieSize ≤ off ∨ min (off + n) ((d + 1) * dieSize) ≤ d * dieSize + s.dieCap d)

/-- A vector, an empty one too, is aligned to its element size, RAW slots to 4,096, and lies in its memory, RAW in the
accumulator buffer. Log entry 129: DEDUCED. -/
def State.vecOk (s : State) (ph : Nat) (l : Loc) (fmt n : Nat) : Bool :=
  let size := vecBytes fmt n
  let buf := s.accBuf ph
  if fmt = 8 then l.sp && l.off % 4096 == 0 && inside [(l.off, size)] buf.1 buf.2
  else l.off % max 1 (elemBytes fmt) == 0 && (if l.sp then decide (l.off + size ≤ spSize) else s.hbmHolds l.off size)

/-- Elements of SRC and of DST of the member of a rank in a group of n. -/
def CollD.sizes (d : CollD) (n rank : Nat) : Nat × Nat :=
  match d.op with
  | 0 => (0, 0)
  | 2 => (d.count, d.segLen n rank)
  | 3 => (d.segLen n rank, d.count)
  | 4 => (if rank = d.root then d.count else 0, d.count)
  | 5 => (n * d.count, n * d.count)
  | _ => (d.count, d.count)

/-- The format fields that R363 rejects: reserved codes, PAIR, Q4 and Q8. -/
def collFmtBad (f : Nat) : Bool := f == 7 || decide (f > 8)

/-- Is CSLOT taken by another than the collectives of this module that use it in turn (R337, R363)? Log entry 130: DEDUCED. -/
def State.cslotTaken (s : State) (ph : Nat) (d : CollD) : Bool :=
  let x := s.slot d.cslot
  x.st != .free && !(x.coll.isSome && (x.seq == d.seq || (s.core ph).inflight.any fun e =>
    hType e.words == tCOLL && !(collD e.words).direct && (collD e.words).cslot == d.cslot))

/-- The vectors of an operation: has it a SRC and a DST at the member of a rank (R359)? -/
def CollD.has (d : CollD) (rank : Nat) : Bool × Bool := (d.op != 0 && (d.op != 4 || rank == d.root), d.op != 0)

/-- The failed checks of a COLL, lowest first (R172, R363). Of the BEGIN checks CLV.CFG.EN and a FREE slot are tested at
issue. Log entry 130: DEDUCED. -/
def State.collReasons (s : State) (ph : Nat) (d : CollD) (tab : Option (List (Nat × Nat))) : List Nat :=
  let on := fun (b : Bool) (n : Nat) => if b then [n] else []
  let t := tab.getD []
  let me := (s.lid, (s.logical ph).getD 1024)
  let n := max 1 t.length
  let rank := (findIdx (fun x => x == me) t).getD 0
  let sz := d.sizes n rank
  let parts := if d.op = 5 then n * d.nch n 0 else if d.op = 4 then d.nch n 0 else if d.op = 0 then 0 else d.chunks n
  let buf := s.accBuf ph
  let win := s.scaleWin ph
  let blocks := fun (l : Loc) (fmt k : Nat) => l.sp && d.scaled fmt && overlaps [(l.off, vecBytes fmt k)] win
  on (blocks d.src d.dtype sz.1 || blocks d.dst d.outFmt sz.2) 0x1A
  ++ on (!d.direct && s.cslotTaken ph d) 0x51
  ++ on (!d.direct && s.fget pClv F.CLV_CFG_EN == 0) 0x56
  ++ on (decide (d.op > 5) || d.red == 3 || decide (d.log2 < 12 ∨ 20 < d.log2) || (d.op == 0 && d.count != 0)
      || collFmtBad d.dtype || collFmtBad d.outFmt || d.depth == 1 || decide (d.rnd > 4)
      || (d.raw && !(d.exact && d.outFmt == 8)) || (d.outFmt == 8 && !d.raw) || (d.raw && d.carry && decide (d.log2 < 15))
      || ((!d.reduces || d.red != 0) && d.outFmt != d.dtype)) 0x60
  ++ on (tab.isNone || (t.filter fun x => x == me).length != 1 || decide (d.root ≥ n)) 0x61
  ++ on ((d.dlEn && !(d.op == 1 && d.red == 0)) || (d.staleEn && (!d.dlEn || !d.raw))) 0x62
  ++ on (((d.has rank).1 && !s.vecOk ph d.src d.dtype sz.1) || ((d.has rank).2 && !s.vecOk ph d.dst d.outFmt sz.2)
      || (d.staleEn && (d.stale % 4096 != 0 || !inside [(d.stale, vecBytes 8 d.count)] buf.1 buf.2))
      || d.stage % 4096 != 0 || decide (spSize < d.prepass + 4 * parts)) 0x63
  ++ on (s.fget pColl F.COLL_CFG_EN == 0) 0x64

/-! ### The COLL that a core's engine runs -/

/-- The running COLL of a core. -/
def State.collHead (s : State) (ph : Nat) : Option (Infl × CollSt) :=
  match s.queue ph tCOLL with
  | e :: _ => match e.prog with
    | .coll c => if c.phase = .queued then none else some (e, c)
    | _ => none
  | [] => none

def State.setColl (s : State) (ph idx : Nat) (c : CollSt) : State := s.modInfl ph idx fun e => { e with prog := .coll c }

/-- The running COLL changed. -/
def State.modColl (s : State) (ph : Nat) (f : CollSt → CollSt) : State :=
  match s.collHead ph with
  | some (e, c) => s.setColl ph e.idx (f c)
  | none => s

/-- The leader's side of a core's running COLL changed. -/
def State.modLead (s : State) (ph : Nat) (f : CollLead → CollLead) : State :=
  s.modColl ph fun c => { c with lead := c.lead.map f }

/-- GROUP and SEQ of a member's signature (R365). -/
def Entrant.name (x : Entrant) : Nat × Nat := (bits (wd x.sig 2) 31 24, bits (wd x.sig 2) 15 0)

/-- GROUP and SEQ that a member gave when it entered this leader's collective; with equal signatures, the leader's
own. Log entry 117: DESIGN CHOICE. -/
def CollSt.nameOf (c : CollSt) (lid core : Nat) : Option (Nat × Nat) :=
  match c.lead with
  | some l => (l.entered.find? fun x => x.peer.lid == lid && x.peer.core == core).map Entrant.name
  | none => none

/-- The running COLL of a core when it is the collective that a message names: by its own GROUP and SEQ, or, at a
leader, by those of the member that sent it. Log entry 117: DESIGN CHOICE. -/
def State.collFor (s : State) (m : CollMsg) : Option (Nat × Infl × CollSt) :=
  match s.phys m.core with
  | some ph => match s.collHead ph with
    | some (e, c) =>
      let d := collD e.words
      if (d.group = m.group ∧ d.seq = m.seq) ∨ c.nameOf m.fromLid m.fromCore = some (m.group, m.seq) then some (ph, e, c)
      else none
    | none => none
  | none => none

def CollSt.p (c : CollSt) : Nat := c.peers.length

/-! ### Messages (R369) -/

/-- A failure at a member, recorded once; in COMMIT mode its module's slot takes cause 4 (R380, R382). Log entry 135:
DEDUCED. -/
def State.collFail (s : State) (ph status detail : Nat) : State :=
  match s.collHead ph with
  | some (e, c) =>
    if c.fail.isSome ∨ c.reported then s
    else
      let s := s.setColl ph e.idx { c with fail := some (status, detail) }
      if c.txn then s.slotAbort (collD e.words).cslot 4 else s
  | none => s

/-- A message to a core, under the GROUP and SEQ by which that member entered: between members of this module it is
under way; to another module it leaves as a class C0 MSG packet, whose content after word 0 has no stated layout. A
request that fails at once is a failure of the sender. Log entries 116: DESIGN CHOICE, 118: DESIGN CHOICE. -/
def State.collSend (s : State) (ph : Nat) (d : CollD) (lid core : Nat) (body : CollBody) : State :=
  let name := match s.collHead ph with | some (_, c) => (c.nameOf lid core).getD (d.group, d.seq) | none => (d.group, d.seq)
  let m : CollMsg := ⟨s.lid, (s.logical ph).getD 0, lid, core, name.1, name.2, body⟩
  if lid = s.lid then { s with coll := { s.coll with msgs := s.coll.msgs ++ [m] } }
  else
    let (bs, s) := s.drawBytes 60
    let idx := match s.collHead ph with | some (e, _) => e.idx | none => 0
    match s.request opMSG 0 (lid * 2 ^ 44) 64 (leBytes 4 (0x80000000 + body.sub * 2 ^ 24) ++ bs) none (.coll ph idx 0 0) with
    | (s, none) => s.send (.coll m)
    | (s, some f) => s.collFail ph f.1 f.2

/-- A message from the running COLL of a core to its leader. -/
def State.collToLead (s : State) (ph : Nat) (e : Infl) (c : CollSt) (body : CollBody) : State :=
  s.collSend ph (collD e.words) c.leadLid c.leadCore body

/-- A message to each of a list of members. -/
def State.collToAll (s : State) (ph : Nat) (d : CollD) (ps : List Peer) (f : Nat → CollBody) : State :=
  (List.range ps.length).foldl (fun s k => match ps[k]? with
    | some q => s.collSend ph d q.lid q.core (f k)
    | none => s) s

/-! ### Entry and closing at the leader (R364 to R368) -/

/-- The key of a leader core and a member in the counts of R364. -/
def pairKey (lead lid core : Nat) : Nat := lead * 2 ^ 22 + lid * 2 ^ 10 + core

/-- A verdict is reached: it goes to every included member. -/
def State.collVerdict (s : State) (ph : Nat) (e : Infl) (v : CollEnd) : State :=
  let s := s.modLead ph fun l => { l with verdict := some v }
  match s.collHead ph with
  | some (_, c) => match c.lead with
    | some l => s.collToAll ph (collD e.words) l.incl fun _ => .verdict v.status v.bitmap v.field v.rank
    | none => s
  | none => s

/-- Excluded members counted and captured (R368). Log entry 132: DEDUCED. -/
def State.countExcluded (s : State) (d : CollD) (ex : List Nat) : State :=
  let s := s.finc pColl F.COLL_CNT1_EXCLUSIONS ex.length
  if s.fget pColl F.COLL_EXCL_VALID = 1 then s
  else s.setReg (pColl + 0x05C) (BitVec.ofNat 32 (2 ^ 31 + d.group * 65536 + ex.headD 0 % 4096))

/-- Entry closes (R364): MISMATCH, STOP, exclusion or START. -/
def State.collClose (s : State) (ph : Nat) : State :=
  match s.collHead ph with
  | some (e, c) => match c.lead with
    | some l =>
      if l.closed then s
      else
        let d := collD e.words
        let ranks := List.range l.table.length
        let ins := ranks.filterMap fun r => l.entered.find? fun x => x.peer.rank == r
        let incl := ins.map (·.peer)
        let out := ranks.filter fun r => !(incl.any fun q => q.rank == r)
        let chunks := if d.exact then d.chunks incl.length else 0
        let s := s.modLead ph fun l => { l with closed := true, incl := incl, sums := List.replicate chunks (sumWord (-32768) 0x7FFF) }
        match ins.findSome? fun x => (sigDiff x.sig c.sig).map fun f => (f, x.peer.rank) with
        | some (f, r) => s.collVerdict ph e ⟨6, 0, f, r⟩
        | none =>
          if out.isEmpty then s.collToAll ph d incl fun k => .start k incl
          else if !d.dlEn then
            (s.modLead ph fun l => { l with verdict := some ⟨9, 0, 0, 0⟩ }).collToAll ph d incl fun _ => .stop
          else
            let s := s.event pColl F.COLL_PG_EVT_EXCLUDED
            if s.fget pColl F.COLL_CFG_EXCL_MAX < out.length then s.collVerdict ph e ⟨9, 0, 0, 0⟩
            else ((s.countExcluded d out).modLead ph fun l => { l with excluded := out }).collToAll ph d incl fun k => .start k incl
    | none => s
  | none => s

/-- The running collective of a leader takes an ENTER whose turn is its own. The answer says whether the ENTER is done
with: taken, or of a collective that is over. Log entry 134: DEDUCED. -/
def State.collTake (s : State) (ph turn : Nat) (x : Entrant) : State × Bool :=
  match s.collHead ph with
  | some (e, c) => match c.lead with
    | some l =>
      let r := x.peer.rank
      if l.table.getD r (4096, 0) ≠ (x.peer.lid, x.peer.core) then (s, true)
      else
        let mine := l.turn.getD r 0
        if turn < mine then (s, true) else if mine < turn then (s, false)
        else if !l.closed then
          if l.entered.any fun y => y.peer.rank == r then (s, true)
          else
            let s := s.modLead ph fun l => { l with entered := l.entered ++ [x] }
            (if l.entered.length + 1 = l.table.length then s.collClose ph else s, true)
        else if l.excluded.contains r && !l.lateOver && !(l.late.any fun q => q.rank == r) then
          ((s.modLead ph fun l => { l with entered := l.entered ++ [x], late := l.late ++ [x.peer] }).collSend ph (collD e.words) x.peer.lid x.peer.core .excluded, true)
        else (s, true)
    | none => (s, false)
  | none => (s, false)

/-- An ENTER reaches a leader core (R364): it counts as the next of its member, and is taken or kept. Log entry 134:
DEDUCED. -/
def State.collEnter (s : State) (ph lead : Nat) (x : Entrant) : State :=
  let key := pairKey lead x.peer.lid x.peer.core
  let turn := Tab.get 0 key s.coll.enters
  let s := { s with coll := { s.coll with enters := Tab.set 0 key (turn + 1) s.coll.enters } }
  let r := s.collTake ph turn x
  if r.2 then r.1 else { r.1 with coll := { r.1.coll with early := r.1.coll.early ++ [(lead, turn, x)] } }

/-- The COLL engine of a core takes its next COLL (R149): it enters, and a leader opens its collective and takes the
ENTERs that came before. -/
def State.collNext (s : State) (ph : Nat) : State :=
  match s.queue ph tCOLL with
  | [] => s
  | e :: _ => match e.prog with
    | .coll c =>
      if c.phase ≠ .queued then s
      else
        let d := collD e.words
        let core := (s.logical ph).getD 0
        let table := match c.lead with | some l => l.table | none => []
        let turns := table.map fun q => Tab.get 0 (pairKey core q.1 q.2) s.coll.lists
        let lists := table.foldl (fun t q =>
          let k := pairKey core q.1 q.2
          Tab.set 0 k (Tab.get 0 k t + 1) t) s.coll.lists
        let c := { c with phase := .entered, lead := c.lead.map fun l => { l with turn := turns } }
        let s := { s.setColl ph e.idx c with coll := { s.coll with lists := lists } }
        let at_ := fun (l : Loc) => s.lid * 2 ^ 44 + (if l.sp then spBase + core * 0x1000000 + l.off else l.off)
        let me : Peer := ⟨s.lid, core, c.rank, at_ ⟨true, d.stage⟩, d.depth, at_ d.dst⟩
        let s := s.collToLead ph e c (.enter c.sig me)
        let old := s.coll.early
        let s := { s with coll := { s.coll with early := [] } }
        old.foldl (fun s x =>
          let keep := fun (s : State) => { s with coll := { s.coll with early := s.coll.early ++ [x] } }
          if x.1 ≠ core then keep s
          else let r := s.collTake ph x.2.1 x.2.2; if r.2 then r.1 else keep r.1) s
    | _ => s

/-- A collective that ends here counts, and one that fails with ABORT_STEP gives the open step transaction cause 4 (R384,
R386). -/
def State.collCount (s : State) (d : CollD) (status : Nat) : State :=
  let s := if status = 0 then s.finc pColl F.COLL_CNT0_DONE else s.finc pColl F.COLL_CNT0_FAILED
  if d.abortStep && !good status then
    (List.range 16).foldl (fun s n => if (s.slot n).st = .opened ∧ (s.slot n).step then s.slotAbort n 4 else s) s
  else s

/-- A COLL of an OP issues: it is refused, or its engine takes it when it is free (R149, R363). -/
def State.collIssue (s : State) (ph : Nat) (f : Fetched) : State :=
  let d := collD f.words
  let (s, st, tab) := s.collTable d.group
  let fail := fun (s : State) (r : Rec) => (s.collCount d r.status).issueDone ph f r
  if st ≠ 0 then fail s (Rec.ofOutcome st)
  else match s.collReasons ph d (tab.map (·.1)) with
    | r :: _ => fail s (Rec.refused r)
    | [] =>
      let t := (tab.getD ([], [])).1
      let me := (s.lid, (s.logical ph).getD 0)
      let rank := (findIdx (fun x => x == me) t).getD 0
      let top := t.headD (0, 0)
      let lead : CollLead := ⟨t, [], [], false, [], [], [], [], [], none, false, false, none, [], [], [], none, [], false⟩
      let c : CollSt := ⟨.queued, rank, t.length, top.1, top.2, d.signature t.length (crc64 ((tab.getD ([], [])).2) % 2 ^ 32),
        0, [], [], [], [], false, false, [], [], [], 0, 0, [], [], [], none, false, false, false, 0, none,
        if rank = 0 then some lead else none⟩
      (s.issue ph f (.coll c)).collNext ph

/-- A COLL at the head of a core's ring, with an OP that satisfies p. -/
def State.collective (s : State) (n : Nat) (p : Nat → Bool) : State :=
  s.onCore n fun s ph =>
    match s.issuable ph fun w => hType w == tCOLL && p (collD w).op with
    | some f => s.collIssue ph f
    | none => s

/-! ### Writing results (R368, R380, R381) -/

/-- The local offset of a place of a core. -/
def State.locOff (s : State) (ph : Nat) (l : Loc) : Nat :=
  if l.sp then spBase + (s.logical ph).getD 0 * 0x1000000 + l.off else l.off

/-- Bytes of a result written to a place: directly in STREAM mode, logged under CSLOT in COMMIT mode. -/
def State.collPut (s : State) (ph : Nat) (d : CollD) (l : Loc) (bs : List Byte) : State × Nat × Nat :=
  if d.direct then let r := s.locWrite ph l bs; (r.1, r.2 % 256, r.2 / 256)
  else s.logEntry d.cslot (.mem (s.locOff ph l) bs)

/-- A final chunk, elements pos on of the vector, lands at element o of DST, with the scale bytes of a block-scaled result in
a scratchpad (R40, R171); its flags are raised, a STREAM release is
signalled, and the stale area gets its zero slots. Log entry 124: DEDUCED. -/
def State.collOutput (s : State) (ph : Nat) (d : CollD) (pos o : Nat) (w : Word) (x : Carried) : State :=
  match s.collHead ph with
  | none => s
  | some (e, c) =>
    let sc := d.dst.add o
    let res : List (Loc × List Byte) × Nat × List RawTile :=
      if d.outFmt = 8 then
        let ts := resultTiles c.p w (c.fixed.drop (pos / 4096)) x
        ((List.range ts.length).flatMap fun k => match ts[k]? with
          | some t => t.writes.map fun wr => (d.dst.add ((o / 4096 + k) * rawSlot + wr.1), wr.2)
          | none => [], 0, ts)
      else
        let r := d.codes x pos
        let eb := elemBytes d.outFmt
        ([(d.dst.add (o * eb), r.1.flatMap (leBytes eb))]
          ++ (if d.dst.sp && !r.2.2.isEmpty then [(s.scalePlace ph sc, r.2.2.map (BitVec.ofNat 8))] else []), r.2.1, [])
    let (s, st, det) := res.1.foldl (fun (a : State × Nat × Nat) wr =>
      if a.2.1 ≠ 0 then a else a.1.collPut ph d wr.1 wr.2) (s, 0, 0)
    let s := s.raiseFlags (pColl + 0x100) res.2.1
    let s := s.setColl ph e.idx { c with flags := c.flags ||| res.2.1, consumed := c.consumed || (d.direct && st == 0) }
    if st ≠ 0 then s.collFail ph st det
    else
      let s := if d.direct && d.relEn then s.signal ph d.relTok 1 else s
      if d.staleEn then
        (List.range res.2.2.length).foldl (fun s k => match res.2.2[k]? with
          | some t => s.putRaw ph (d.stale + (pos / 4096 + k) * rawSlot) (zeroLike t)
          | none => s) s
      else s

/-! ### The engine of a member (R370 to R379) -/

/-- Flags of the engine's own arithmetic (R376). Log entry 126: DEDUCED. -/
def State.collFlags (s : State) (ph fl : Nat) : State :=
  (s.raiseFlags (pColl + 0x100) fl).modColl ph fun c => { c with flags := c.flags ||| fl }

/-- A chunk made ready to send to an included member. Log entry 120: DESIGN CHOICE. -/
def State.collReady (s : State) (ph : Nat) (d : CollD) (dst : Nat) (i : ChunkId) (x : Carried) : State :=
  s.modColl ph fun c => { c with ready := c.ready ++ [⟨dst, d.chunkWrites i x⟩] }

/-- A member's own elements of chunk ch of part part, entered into the chain; a failed read is a failure. -/
def State.collOwn (s : State) (ph : Nat) (d : CollD) (c : CollSt) (part ch : Nat) : State × Option Carried :=
  let at_ := ch * d.per + (if d.op = 3 then 0 else d.partStart c.p part)
  let r := s.collSrc ph d at_ (d.chLen c.p part ch)
  if r.2.1 ≠ 0 then (r.1.collFail ph (r.2.1 % 256) (r.2.1 / 256), none)
  else
    let x := d.enter c.p (wd c.agreed (if d.exact then d.chNum c.p part ch else 0)) r.2.2
    (r.1.collFlags ph x.2, some x.1)

/-- What a member does with its own elements of a part when the data phase begins: send them, deliver them, or both. -/
def State.collStartPart (s : State) (ph : Nat) (d : CollD) (part phase : Nat) (dst : Option Nat) (out : Option Nat) : State :=
  match s.collHead ph with
  | none => s
  | some (_, c) =>
    (List.range (d.nch c.p part)).foldl (fun s ch =>
      match s.collOwn ph d c part ch with
      | (s, none) => s
      | (s, some x) =>
        let s := match dst with
          | some k => s.collReady ph d k ⟨phase, if phase = 2 then part else c.me, part, ch⟩ x
          | none => s
        match out with
        | some o => s.collOutput ph d (d.partStart c.p part + ch * d.per) (o + ch * d.per)
            (wd c.agreed (if d.exact then d.chNum c.p part ch else 0)) x
        | none => s) s

/-- The included index of a BROADCAST's root. -/
def CollSt.rootIdx (c : CollSt) (d : CollD) : Nat := (findIdx (fun q => q.rank == d.root) c.peers).getD 0

/-- The data phase begins (R370). -/
def State.collBegin (s : State) (ph : Nat) (d : CollD) (c : CollSt) : State :=
  let p := c.p
  let nx := (c.me + 1) % p
  let s := s.modColl ph fun c => { c with begun := true }
  match d.op with
  | 0 => s
  | 3 => s.collStartPart ph d c.me 2 (if p = 1 then none else some nx) (some (d.segStart p c.me))
  | 4 => if c.me = c.rootIdx d then s.collStartPart ph d 0 3 (if p = 1 then none else some nx) (some 0) else s
  | 5 =>
    let s := s.collStartPart ph d c.me 4 none (some (c.me * d.count))
    (List.range (p - 1)).foldl (fun s j =>
      let t := (c.me + j + 1) % p
      s.collStartPart ph d t 4 (some t) none) s
  | _ => if p = 1 then s.collStartPart ph d 0 1 none (some 0) else s.collStartPart ph d ((c.me + p - 1) % p) 1 (some nx) none

/-- What comes as the k-th chunk from a sender: phase, part, chunk and the sender named in the header; none when no
further chunk is due. Log entry 121: DEDUCED. -/
def CollSt.expect (c : CollSt) (d : CollD) (src k : Nat) : Option (Nat × Nat × Nat × Nat) :=
  let pred := (c.me + c.p - 1) % c.p
  match d.op with
  | 4 => if src = pred ∧ c.me ≠ c.rootIdx d ∧ k < d.nch c.p 0 then some (3, 0, k, c.rootIdx d) else none
  | 5 => if src ≠ c.me ∧ k < d.nch c.p c.me then some (4, c.me, k, src) else none
  | _ => if src ≠ pred then none else match (d.plan c.p c.me)[k]? with
    | some (ph, seg, ch) => some (ph, seg, ch, if ph = 2 then seg else pred)
    | none => none

/-- Chunks that a member receives in all. -/
def CollSt.due (c : CollSt) (d : CollD) : Nat :=
  match d.op with
  | 4 => if c.me = c.rootIdx d then 0 else d.nch c.p 0
  | 5 => (c.p - 1) * d.nch c.p c.me
  | _ => (d.plan c.p c.me).length

/-- A staged chunk is taken in order (R377 to R379): checked, its slot released, combined or delivered, and sent on.
Log entry 121: DEDUCED. -/
def State.collConsume (s : State) (ph : Nat) (e : Infl) (c : CollSt) (from_ : Nat × Nat) : State :=
  let d := collD e.words
  let src := (findIdx (fun q => (q.lid, q.core) == from_) c.peers).getD c.me
  let k := Tab.get 0 src c.taken
  let slot := k % d.depth
  let s := s.setColl ph e.idx { c with arrived := c.arrived.drop 1 }
  match c.expect d src k with
  | none => s
  | some (phase, part, ch, name) =>
    let n := d.chLen c.p part ch
    let nx := (c.me + 1) % c.p
    let w := wd c.agreed (if d.exact then d.chNum c.p part ch else 0)
    match s.chunkAt ph d slot ⟨phase, name, part, ch⟩ n with
    | (s, none) => s.collFail ph 7 0
    | (s, some x) =>
      let s := s.modColl ph fun c => { c with taken := Tab.set 0 src (k + 1) c.taken, busy := c.busy.erase slot }
      let s := match c.peers[src]? with | some q => s.collSend ph d q.lid q.core .free | none => s
      let pos := d.partStart c.p part + ch * d.per
      match phase with
      | 1 =>
        match s.collOwn ph d c part ch with
        | (s, none) => s
        | (s, some own) =>
          let (y, fl) := d.combine x own
          let s := s.collFlags ph fl
          if part ≠ c.me then s.collReady ph d nx ⟨1, c.me, part, ch⟩ y
          else
            let s := if d.op = 1 then s.collReady ph d nx ⟨2, c.me, part, ch⟩ y else s
            s.collOutput ph d pos (if d.op = 2 then ch * d.per else pos) w y
      | 2 =>
        let s := if part ≠ nx then s.collReady ph d nx ⟨2, part, part, ch⟩ x else s
        s.collOutput ph d pos pos w x
      | 3 =>
        let s := if nx ≠ c.rootIdx d then s.collReady ph d nx ⟨3, name, 0, ch⟩ x else s
        s.collOutput ph d pos pos w x
      | _ => s.collOutput ph d (src * d.count + ch * d.per) (src * d.count + ch * d.per) w x

/-- The running COLL of a core of this module that belongs to the same collective. -/
def State.collMate (s : State) (d : CollD) (q : Peer) : Option (Nat × Infl × CollSt) :=
  s.collFor ⟨0, 0, q.lid, q.core, d.group, d.seq, .free⟩

/-- May the chunk at the front of a member's sends go (R377)? Log entry 122: DESIGN CHOICE. -/
def State.collCanSend (s : State) (d : CollD) (c : CollSt) : Bool :=
  match c.ready with
  | [] => false
  | x :: _ =>
    match c.peers[x.dst]? with
    | none => false
    | some q =>
      let k := Tab.get 0 x.dst c.sent
      c.waiting == 0 && decide (k < Tab.get 0 x.dst c.freed + q.depth) &&
      (if q.lid = s.lid then match s.collMate d q with
        | some (_, _, r) => !r.busy.contains (k % q.depth)
        | none => true
      else true)

/-- The slot is written: to a member of this module at once, to another module by WRs whose answers come first (R377).
Log entry 122: DESIGN CHOICE. -/
def State.collSendChunk (s : State) (ph : Nat) (e : Infl) (c : CollSt) : State :=
  let d := collD e.words
  match c.ready with
  | [] => s
  | x :: rest =>
    match c.peers[x.dst]? with
    | none => s
    | some q =>
      let k := Tab.get 0 x.dst c.sent
      let base := q.stage + (k % q.depth) * d.z
      let c := { c with ready := rest }
      if q.lid = s.lid then
        let s := s.setColl ph e.idx { c with sent := Tab.set 0 x.dst (k + 1) c.sent }
        let s := x.writes.foldl (fun s w => (s.memWrite (base % 2 ^ 44 + w.1) w.2).st) s
        let s := match s.collMate d q with
          | some (rp, re, r) => s.setColl rp re.idx { r with busy := r.busy ++ [k % q.depth] }
          | none => s
        s.collSend ph d q.lid q.core .chunk
      else
        let cuts := x.writes.flatMap fun w => cutAt 256 (w.2.length + 1) (base + w.1) w.2
        let r := cuts.foldl (fun (a : State × Nat × Option (Nat × Nat)) w =>
          match a.1.request opWR 1 w.1 w.2.length w.2 none (.coll ph e.idx 1 0) with
          | (s, none) => (s, a.2.1 + 1, a.2.2)
          | (s, some f) => (s, a.2.1, if a.2.2.isSome then a.2.2 else some f)) (s, 0, none)
        let s := r.1.setColl ph e.idx { c with waiting := r.2.1, target := x.dst }
        match r.2.2 with
        | some f => s.collFail ph f.1 f.2
        | none => s

/-- A member's summaries of every chunk, with the FIXED bits of its slots (R373). -/
def State.collSummaries (s : State) (ph : Nat) (d : CollD) (c : CollSt) : State × Nat × List Word × List Bool :=
  (List.range c.p).foldl (fun a part => (List.range (d.nch c.p part)).foldl (fun (a : State × Nat × List Word × List Bool) ch =>
    if a.2.1 ≠ 0 then a else
    let r := a.1.collSrc ph d (d.partStart c.p part + ch * d.per) (d.chLen c.p part ch)
    (r.1, r.2.1, a.2.2.1 ++ [d.summary r.2.2], a.2.2.2 ++ r.2.2.fixedBits)) a) (s, 0, [], [])

/-- A run of bytes as writes of the sizes of R294: up to 256 bytes in multiples of 32, then words. -/
def wordCuts (g : Nat) (bs : List Byte) : List (Nat × List Byte) :=
  let n := bs.length / 32 * 32
  cutAt 256 (n + 1) g (bs.take n) ++ cutAt 4 (bs.length - n + 1) (g + n) (bs.drop n)

/-- A member whose summaries stand in the leader's pre-pass area sends PRE (R373 step 2). -/
def State.collSummed (s : State) (ph : Nat) (e : Infl) (c : CollSt) : State :=
  (s.setColl ph e.idx { c with phase := .summed }).collToLead ph e c (.pre c.agreed c.fixed)

/-- A member's summaries written into the leader's pre-pass area, one word per chunk, by WRs when the leader is on another
module; PRE follows their answers (R373 steps 1 and 2). Log entry 119: DESIGN CHOICE. -/
def State.collPutSums (s : State) (ph : Nat) (e : Infl) (c : CollSt) : State :=
  let d := collD e.words
  match c.peers.head? with
  | none => s
  | some q =>
    let base := q.stage + q.depth * d.z
    let bs := bytesOfWords c.agreed
    if bs.isEmpty then s.collSummed ph e c
    else if q.lid = s.lid then
      let r := s.memWrite (base % 2 ^ 44) bs
      if r.status ≠ 0 then (r.st.setColl ph e.idx c).collFail ph r.status r.detail else r.st.collSummed ph e c
    else
      let r := (wordCuts base bs).foldl (fun (a : State × Nat × Option (Nat × Nat)) w =>
        match a.1.request opWR 1 w.1 w.2.length w.2 none (.coll ph e.idx 1 0) with
        | (s, none) => (s, a.2.1 + 1, a.2.2)
        | (s, some f) => (s, a.2.1, if a.2.2.isSome then a.2.2 else some f)) (s, 0, none)
      let s := r.1.setColl ph e.idx { c with waiting := r.2.1, phase := .summing }
      match r.2.2 with
      | some f => s.collFail ph f.1 f.2
      | none => s

/-- The agreed words read from the leader (R373 step 4). Log entry 136: DEDUCED. -/
def State.collReadAgreed (s : State) (ph : Nat) (e : Infl) (c : CollSt) : State :=
  let d := collD e.words
  match c.peers.head? with
  | none => s
  | some q =>
    let base := q.stage + q.depth * d.z
    let n := d.chunks c.p
    if q.lid = s.lid then
      let r := s.memRead (base % 2 ^ 44) (4 * n)
      if r.status ≠ 0 then r.st.collFail ph r.status r.detail
      else r.st.setColl ph e.idx { c with agreed := wordsOf n r.data, phase := .data }
    else
      let cuts := (List.range (cdiv (4 * n) 32)).map fun k => 32 * k
      let r := cuts.foldl (fun (a : State × Nat × Option (Nat × Nat)) o =>
        match a.1.request opRD 1 (base + o) 32 [] none (.coll ph e.idx 1 o) with
        | (s, none) => (s, a.2.1 + 1, a.2.2)
        | (s, some f) => (s, a.2.1, if a.2.2.isSome then a.2.2 else some f)) (s, 0, none)
      let s := r.1.setColl ph e.idx { c with waiting := r.2.1, phase := if n = 0 then .data else .anchors }
      match r.2.2 with
      | some f => s.collFail ph f.1 f.2
      | none => s

/-- SRC and, in STREAM mode, DST hold no locked burst (R344). -/
def State.collFree (s : State) (ph : Nat) (d : CollD) (c : CollSt) : Bool :=
  let sz := d.sizes c.p c.me
  !s.locLocked ph d.src (vecBytes d.dtype sz.1) && !(d.direct && s.locLocked ph d.dst (vecBytes d.outFmt sz.2))
    && !s.spLocked ph [(d.stage, d.depth * d.z)]

/-- A member reports once (R382): DONE, its failure, or ABORTED when it was stopped. Log entry 128: DEDUCED. -/
def State.collReport (s : State) (ph : Nat) (e : Infl) (c : CollSt) (status : Nat) : State :=
  let d := collD e.words
  let s := s.setColl ph e.idx { c with reported := true }
  let s := if c.txn then
      if status = 0 then s.modSlot d.cslot fun x => { x with coll := x.coll.map (· - 1) } else s.slotAbort d.cslot 4
    else s
  s.collToLead ph e c (.report status c.consumed)

/-- One move of a member's engine; the Boolean says whether it can go on. -/
def State.collStep (s : State) (ph : Nat) : State × Bool :=
  match s.collHead ph with
  | none => (s, false)
  | some (e, c) =>
    let d := collD e.words
    if c.phase = .entered ∨ c.phase = .queued ∨ c.phase = .late ∨ c.reported then (s, false)
    else if c.stopped ∨ c.fail.isSome then
      (s.collReport ph e c (match c.fail with | some f => f.1 | none => 2), false)
    else if !s.collFree ph d c then (s, false)
    else match c.phase with
    | .begun =>
      if !d.exact then (s.setColl ph e.idx { c with phase := .data }, true)
      else
        let (s, st, ws, fx) := s.collSummaries ph d c
        if st ≠ 0 then (s.collFail ph (st % 256) (st / 256), true)
        else (s.collPutSums ph e { c with agreed := ws, fixed := fx }, false)
    | .data =>
      if !c.begun then (s.collBegin ph d c, true)
      else match c.arrived with
        | a :: _ => (s.collConsume ph e c a, true)
        | [] =>
          if s.collCanSend d c then (s.collSendChunk ph e c, true)
          else if c.ready.isEmpty && c.waiting == 0 && (c.taken.foldl (fun n t => n + t.2) 0) == c.due d then
            (s.collReport ph e c 0, false)
          else (s, false)
    | _ => (s, false)

/-- A member's engine goes on as far as it can. -/
def State.collRun : Nat → State → Nat → State
  | 0, s, _ => s
  | fuel + 1, s, ph => let r := s.collStep ph; if r.2 then State.collRun fuel r.1 ph else r.1

/-- Moves a member can make in a row. -/
def CollSt.fuel (c : CollSt) (d : CollD) : Nat := 2 * c.due d + c.ready.length + (c.p + 1) * (d.nch c.p 0 + 1) + 8

/-! ### COMMIT: the slot (R380) -/

/-- The lowest-ranked included member of this module BEGINs the slot, and the cores of its other members attach; the
first START that comes to the module does it. Gives the reason of a failed check. Log entries 130: DEDUCED, 131:
DEDUCED. -/
def State.collTxnBegin (s : State) (d : CollD) (c : CollSt) (peers : List Peer) : State × Option Nat :=
  if c.txn then (s, none)
  else if (s.slot d.cslot).st ≠ .free then (s, some 0x51)
  else if s.fget pClv F.CLV_CFG_EN = 0 then (s, some 0x56)
  else
    let mine := peers.filter fun q => q.lid == s.lid
    let isCo := c.leadLid == s.lid
    let x := { Slot.init with st := .opened, seq := d.seq, hall := true, coord := c.leadLid, isCoord := isCo,
                              members := (peers.map (·.lid)).eraseDups.length, coll := some mine.length }
    let s := s.setSlot d.cslot x
    let s := if isCo then s else s.cloveSend d.cslot c.leadLid kJOIN 0
    let s := (mine.drop 1).foldl (fun s q => match s.phys q.core with
      | some ph => s.modCore ph fun k => { k with attach := some d.cslot }
      | none => s) s
    (mine.foldl (fun s q => match s.collMate d q with
      | some (rp, re, r) => s.setColl rp re.idx { r with txn := true }
      | none => s) s, none)

/-! ### What a delivered message does -/

/-- START reaches a member (R367). Log entry 131: DEDUCED. -/
def State.collStart (s : State) (m : CollMsg) (index : Nat) (peers : List Peer) : State :=
  match s.collFor m with
  | some (ph, e, c) =>
    if c.phase ≠ .entered ∨ c.verdict.isSome then s
    else
      let d := collD e.words
      let s := s.setColl ph e.idx { c with phase := .begun, me := index, peers := peers }
      if d.direct then s
      else match s.collTxnBegin d c peers with
        | (s, none) => s
        | (s, some r) => s.collFail ph 4 r
  | none => s

/-- PRE reaches the leader: its merged summaries stand in the pre-pass area, and after the last PRE, GO goes out
(R373). Log entry 119: DESIGN CHOICE. -/
def State.collPre (s : State) (m : CollMsg) (sums : List Word) (fixed : List Bool) : State :=
  match s.collFor m with
  | some (ph, e, c) => match c.lead with
    | some l =>
      let d := collD e.words
      match findIdx (fun q => q.lid == m.fromLid && q.core == m.fromCore) l.incl with
      | none => s
      | some i =>
        if l.pres.contains i then s
        else
          let ws := (List.zip l.sums sums).map fun x => sumMerge x.1 x.2
          let fx := if l.pres.isEmpty then fixed else (List.zip l.fixed fixed).map fun x => x.1 && x.2
          let s := s.modLead ph fun l => { l with pres := l.pres ++ [i], sums := ws, fixed := fx }
          let s := if ws.isEmpty then s else (s.spWrite ph d.prepass (bytesOfWords ws)).st
          if l.pres.length + 1 = l.incl.length then s.collToAll ph d l.incl fun _ => .go fx else s
    | none => s
  | none => s

/-- GO reaches a member. -/
def State.collGo (s : State) (m : CollMsg) (fixed : List Bool) : State :=
  match s.collFor m with
  | some (ph, e, c) =>
    if c.phase = .summed ∧ c.fail.isNone ∧ !c.stopped then s.collReadAgreed ph e { c with fixed := fixed } else s
  | none => s

/-- The included index of a message's sender. -/
def CollSt.sender (c : CollSt) (m : CollMsg) : Option Nat :=
  findIdx (fun q => q.lid == m.fromLid && q.core == m.fromCore) c.peers

/-- CHUNK reaches a receiver: its slot waits to be taken, before START too. -/
def State.collChunk (s : State) (m : CollMsg) : State :=
  match s.collFor m with
  | some (ph, e, c) => s.setColl ph e.idx { c with arrived := c.arrived ++ [(m.fromLid, m.fromCore)] }
  | none => s

/-- FREE reaches a sender. -/
def State.collFreed (s : State) (m : CollMsg) : State :=
  match s.collFor m with
  | some (ph, e, c) => match c.sender m with
    | some i => s.setColl ph e.idx { c with freed := Tab.set 0 i (Tab.get 0 i c.freed + 1) c.freed }
    | none => s
  | none => s

/-- REPORT reaches the leader (R368, R382): of an included member, whose first failure stops the rest, or of a late one. Log
entry 244: DESIGN CHOICE. -/
def State.collReported (s : State) (m : CollMsg) (status : Nat) (consumed : Bool) : State :=
  match s.collFor m with
  | some (ph, e, c) => match c.lead with
    | some l =>
      let d := collD e.words
      match l.incl.find? fun q => q.lid == m.fromLid && q.core == m.fromCore with
      | some q =>
        if l.verdict.isSome ∨ (l.reports.any fun r => r.1 == q.rank) then s
        else
          let status := tableStatus status
          let bad := status ≠ 0 ∧ l.fail.isNone
          let s := s.modLead ph fun l => { l with reports := l.reports ++ [(q.rank, status, consumed)],
                                                  fail := if bad then some status else l.fail, stopSent := l.stopSent || bad }
          if bad then s.collToAll ph d l.incl fun _ => .stop else s
      | none =>
        match l.late.find? fun q => q.lid == m.fromLid && q.core == m.fromCore with
        | some q => s.modLead ph fun l => { l with lateReady := l.lateReady ++ [q.rank] }
        | none => s
    | none => s
  | none => s

/-- The record of a COLL with the counts and captures of R366, R384 and R386; the engine takes its next COLL. Log
entries 132: DEDUCED, 137: DEDUCED. -/
def State.collEnd (s : State) (ph : Nat) (e : Infl) (c : CollSt) (v : CollEnd) (detail : Nat) : State :=
  let d := collD e.words
  let s := if v.status = 6 then
      let s := s.event pColl F.COLL_PG_EVT_MISMATCH
      if s.fget pColl F.COLL_MISM0_VALID = 1 then s
      else (s.setReg (pColl + 0x054) (BitVec.ofNat 32 (2 ^ 31 + v.field % 32 * 65536 + v.rank % 4096))).setReg (pColl + 0x058)
        (BitVec.ofNat 32 (d.group * 2 ^ 24 + d.seq))
    else s
  let s := s.collCount d v.status
  let r : Rec := if v.status = 8 then ⟨8, c.flags, 0, v.bitmap % 2 ^ 32, some (v.bitmap / 2 ^ 32)⟩ else ⟨v.status, c.flags, detail, 0, none⟩
  (s.complete ph e r).collNext ph

/-- STOP reaches a member (R367, R382): before START it completes as TIMEOUT, later it stops and reports. -/
def State.collStop (s : State) (m : CollMsg) : State :=
  match s.collFor m with
  | some (ph, e, c) =>
    if c.phase = .entered then s.collEnd ph e c ⟨9, 0, 0, 0⟩ 0
    else s.setColl ph e.idx { c with stopped := true }
  | none => s

/-- VERDICT reaches a member. Log entry 244: DESIGN CHOICE. -/
def State.collVerdictAt (s : State) (m : CollMsg) (v : CollEnd) : State :=
  match s.collFor m with
  | some (ph, e, c) => s.setColl ph e.idx { c with verdict := some { v with status := tableStatus v.status }, stopped := true }
  | none => s

/-- EXCLUDED reaches a late member (R368): it copies its SRC slots to its stale area and reports. Log entry 133:
DEDUCED. -/
def State.collExcluded (s : State) (m : CollMsg) : State :=
  match s.collFor m with
  | some (ph, e, c) =>
    if c.phase ≠ .entered then s
    else
      let d := collD e.words
      let s := s.setColl ph e.idx { c with phase := .late }
      let (s, st) := if !d.staleEn then (s, 0) else
        let n := vecBytes 8 d.count
        let r := s.locRead ph d.src n
        let w := if r.status ≠ 0 then (r.st, r.status) else r.st.locWrite ph ⟨true, d.stale⟩ r.data
        (w.1, w.2 % 256)
      (s.setColl ph e.idx { c with phase := .late, reported := true, fail := if st = 0 then none else some (st, 0) }).collToLead
        ph e c (.report st false)
  | none => s

/-! ### The leader's verdict and late members (R368, R380, R382, R383) -/

/-- The bitmap of R383. -/
def CollLead.bitmap (l : CollLead) : Nat :=
  l.reports.foldl (fun a r => if r.2.2 then a ||| 2 ^ (r.1 % 64) else a) 0

/-- The verdict that a leader can send now. Log entry 133: DEDUCED. -/
def State.collJudge (s : State) (d : CollD) (c : CollSt) (l : CollLead) : Option CollEnd :=
  if l.verdict.isSome ∨ l.incl.isEmpty ∨ !(l.reports.length == l.incl.length || l.stopOver) then none
  else if d.direct then
    match l.fail with
    | none => some ⟨0, 0, 0, 0⟩
    | some f => some (if l.bitmap ≠ 0 then ⟨8, l.bitmap, 0, 0⟩ else ⟨f, 0, 0, 0⟩)
  else if !c.txn then l.fail.map fun f => ⟨f, 0, 0, 0⟩
  else match (s.slot d.cslot).outcome with
    | some .committed => some ⟨0, 0, 0, 0⟩
    | some .conflict => some ⟨0x10, 0, 0, 0⟩
    | some _ => some ⟨match l.fail with | some f => f | none => 2, 0, 0, 0⟩
    | none => none

/-- Is the leader's own result in place (R368)? -/
def State.collSettled (s : State) (d : CollD) : Bool :=
  d.direct || ((s.slot d.cslot).st != .prepared && (s.slot d.cslot).st != .applying)

/-- VERDICT to a late member. -/
def State.collServed (s : State) (ph : Nat) (d : CollD) (q : Peer) (v : CollEnd) : State :=
  (s.modLead ph fun l => { l with served := l.served ++ [q.rank], serving := none }).collSend ph d q.lid q.core
    (.verdict v.status v.bitmap v.field v.rank)

/-- The leader serves a late member that has reported: the result from its own DST, then VERDICT. -/
def State.collServe (s : State) (ph : Nat) (e : Infl) (l : CollLead) (v : CollEnd) : State :=
  let d := collD e.words
  match l.late.find? fun q => l.lateReady.contains q.rank && !l.served.contains q.rank with
  | none => s
  | some q =>
    if v.status ≠ 0 then s.collServed ph d q v
    else
      let n := vecBytes d.outFmt d.count
      let g := s.locRead ph d.dst n
      if q.lid = s.lid then
        let s := if g.status = 0 then (g.st.memWrite (q.dst % 2 ^ 44) g.data).st else g.st
        s.collServed ph d q (if g.status = 0 then v else ⟨g.status % 256, 0, 0, 0⟩)
      else if g.status ≠ 0 then g.st.collServed ph d q ⟨g.status % 256, 0, 0, 0⟩
      else
        let cuts := cutAt 256 (n + 1) q.dst g.data
        let r := cuts.foldl (fun (a : State × Nat) w =>
          match a.1.request opWR 1 w.1 w.2.length w.2 none (.coll ph e.idx 2 q.rank) with
          | (s, none) => (s, a.2 + 1)
          | (s, some _) => (s, a.2)) (g.st, 0)
        if r.2 = 0 then r.1.collServed ph d q v
        else r.1.modLead ph fun l => { l with serving := some (q.rank, r.2) }

/-- One move of a leader. -/
def State.collLeadStep (s : State) (ph : Nat) : State :=
  match s.collHead ph with
  | some (e, c) => match c.lead with
    | some l =>
      let d := collD e.words
      match s.collJudge d c l with
      | some v => (if v.status = 8 then s.event pColl F.COLL_PG_EVT_AFTER_USE else s).collVerdict ph e v
      | none => match l.verdict with
        | some v => if l.serving.isNone && !l.lateOver && s.collSettled d then s.collServe ph e l v else s
        | none => s
    | none => s
  | none => s

/-- Has the leader served or lost every excluded member (R368)? -/
def CollSt.lateDone (c : CollSt) : Bool :=
  match c.lead with
  | some l => l.lateOver || (l.excluded.all fun r => l.served.contains r)
  | none => true

/-- A member that holds its verdict writes its record: in COMMIT mode once the slot has left PREPARED and its writes are
in place, by a forced abort as ABORTED and by a forced commit as DONE, whatever the leader says (R382, R385). -/
def State.collFinish (s : State) (ph : Nat) : State :=
  match s.collHead ph with
  | some (e, c) =>
    let d := collD e.words
    let x := s.slot d.cslot
    if c.txn && x.coll.isSome && x.seq == d.seq && x.forced && x.outcome.isSome && s.collSettled d then
      s.collEnd ph e c ⟨if x.outcome = some .committed then 0 else 2, 0, 0, 0⟩ 0
    else match c.verdict with
    | some v =>
      if (!c.txn || s.collSettled d) && c.lateDone then
        s.collEnd ph e c v (match c.fail with | some f => if v.status = 4 then f.2 else 0 | none => 0)
      else s
    | none => s
  | none => s

/-- Every engine, slot and leader of this module's collectives goes on as far as it can. -/
def State.collSettle (s : State) : State :=
  let phs := (s.cores.filter fun k => (k.2.inflight.any fun e => hType e.words == tCOLL)).map (·.1)
  if phs.isEmpty then s
  else
    let run := fun (s : State) => phs.foldl (fun s ph =>
      match s.collHead ph with
      | some (e, c) => State.collRun (c.fuel (collD e.words)) s ph
      | none => s) s
    let s := run (run s)
    let s := (List.range 16).foldl (fun s n => if (s.slot n).coll = some 0 then s.prepareNow n else s) s
    let s := phs.foldl State.collLeadStep s
    phs.foldl State.collFinish s

/-! ### Requests of collectives that end -/

/-- A request of a COLL ends with a status (R328, R377): a chunk whose last WR is answered is followed by CHUNK, agreed
words are collected, and a late member's result is followed by VERDICT. -/
def State.collReqDone (s : State) (ph idx tag place status detail : Nat) (data : List Byte) : State :=
  match s.collHead ph with
  | some (e, c) =>
    if e.idx ≠ idx then s
    else
      let d := collD e.words
      match tag with
      | 1 =>
        let s := s.setColl ph idx { c with waiting := c.waiting - 1, got := if c.phase = .anchors then c.got ++ [(place, data)] else c.got }
        let s := if status ≠ 0 then s.collFail ph status detail else s
        match s.collHead ph with
        | some (_, c) =>
          if c.waiting ≠ 0 ∨ c.fail.isSome ∨ c.stopped then s
          else if c.phase = .anchors then
            let n := d.chunks c.p
            let bs := (List.range (cdiv (4 * n) 32)).flatMap fun k =>
              match c.got.find? fun g => g.1 == 32 * k with | some g => g.2 | none => []
            s.setColl ph idx { c with agreed := wordsOf n bs, phase := .data }
          else if c.phase = .summing then s.collSummed ph e c
          else
            match c.peers[c.target]? with
            | some q =>
              let k := Tab.get 0 c.target c.sent
              (s.setColl ph idx { c with sent := Tab.set 0 c.target (k + 1) c.sent }).collSend ph d q.lid q.core .chunk
            | none => s
        | none => s
      | 2 =>
        match c.lead with
        | some l => match l.serving, l.verdict with
          | some (r, n), some v =>
            if r ≠ place then s
            else if n > 1 then s.modLead ph fun l => { l with serving := some (r, n - 1) }
            else match l.late.find? fun q => q.rank == r with
              | some q => s.collServed ph d q v
              | none => s
          | _, _ => s
        | none => s
      | _ => if status ≠ 0 then s.collFail ph status detail else s
  | none => s

/-! ### The commands -/

/-- Is a payload that of a collective message of a SUB: KIND 0x8 and SUB in its word 0 (R369)? -/
def collPayload (bs : List Byte) (sub : Nat) : Bool :=
  decide (4 ≤ bs.length) && nbits (leNat (bs.take 4)) 31 24 == 0x80 + sub

/-- A message of one SUB is delivered. One from another module comes as a class C0 MSG packet and is answered by an
RSP without data (R369). Log entry 116: DESIGN CHOICE. -/
def State.collDeliver (s : State) (x : CollIn) (sub : Nat) (f : State → CollMsg → State) : State :=
  match x with
  | .here k =>
    match s.coll.msgs[k]? with
    | some m =>
      if m.body.sub ≠ sub then s
      else (f { s with coll := { s.coll with msgs := s.coll.msgs.eraseIdx k } } m).collSettle
    | none => s
  | .net a m =>
    if a.pkt.op ≠ opMSG ∨ a.pkt.cls ≠ 0 ∨ !s.consumes a.pkt ∨ m.lid ≠ s.lid ∨ m.fromLid ≠ a.pkt.src ∨ m.body.sub ≠ sub
        ∨ !collPayload a.pkt.payload sub then s
    else match s.turnAway a with
      | some t => t
      | none => ((f s m).respond a.pkt 0 0 []).collSettle

/-- R363: a BARRIER issues; a reserved OP is refused here. -/
def barrier (n : Nat) (s : State) : State := (s.collective n fun op => op == 0 || decide (op > 5)).collSettle
def allreduce (n : Nat) (s : State) : State := (s.collective n (· == 1)).collSettle
def reduceScatter (n : Nat) (s : State) : State := (s.collective n (· == 2)).collSettle
def allgather (n : Nat) (s : State) : State := (s.collective n (· == 3)).collSettle
def broadcast (n : Nat) (s : State) : State := (s.collective n (· == 4)).collSettle
def alltoall (n : Nat) (s : State) : State := (s.collective n (· == 5)).collSettle

/-- R364: an ENTER reaches the leader. -/
def enter (x : CollIn) (s : State) : State :=
  s.collDeliver x 0 fun s m => match m.body with
    | .enter sig p => match s.phys m.core with
      | some ph => s.collEnter ph m.core ⟨sig, p⟩
      | none => s
    | _ => s

/-- R367: START reaches an included member. -/
def collStartMsg (x : CollIn) (s : State) : State :=
  s.collDeliver x 1 fun s m => match m.body with | .start i ps => s.collStart m i ps | _ => s

/-- R373: PRE reaches the leader. -/
def pre (x : CollIn) (s : State) : State :=
  s.collDeliver x 2 fun s m => match m.body with | .pre ws fx => s.collPre m ws fx | _ => s

/-- R373: GO reaches an included member. -/
def go (x : CollIn) (s : State) : State :=
  s.collDeliver x 3 fun s m => match m.body with | .go fx => s.collGo m fx | _ => s

/-- R377: CHUNK reaches a receiver. -/
def chunkMsg (x : CollIn) (s : State) : State := s.collDeliver x 4 State.collChunk

/-- R377: FREE reaches a sender. -/
def collFreeMsg (x : CollIn) (s : State) : State := s.collDeliver x 5 State.collFreed

/-- R382: REPORT reaches the leader. -/
def report (x : CollIn) (s : State) : State :=
  s.collDeliver x 6 fun s m => match m.body with | .report st c => s.collReported m st c | _ => s

/-- R367, R382: STOP reaches a member. -/
def stop (x : CollIn) (s : State) : State := s.collDeliver x 7 State.collStop

/-- R382: VERDICT reaches a member. -/
def verdict (x : CollIn) (s : State) : State :=
  s.collDeliver x 8 fun s m => match m.body with | .verdict st bm f r => s.collVerdictAt m ⟨st, bm, f, r⟩ | _ => s

/-- R368: EXCLUDED reaches a late member. -/
def excluded (x : CollIn) (s : State) : State := s.collDeliver x 9 State.collExcluded

/-- The leader's own ENTER has been taken and entry is still open: with DL_EN (dl) or without. -/
def State.entryOpen (s : State) (ph : Nat) (dl : Bool) : Bool :=
  match s.collHead ph with
  | some (e, c) => match c.lead with
    | some l => !l.closed && (collD e.words).dlEn == dl && l.entered.any fun x => x.peer.rank == 0
    | none => false
  | none => false

/-- R364, R368: DEADLINE_US after the leader's own ENTER, entry closes. -/
def entryDeadline (n : Nat) (s : State) : State :=
  s.onCore n fun s ph => if s.entryOpen ph true then (s.collClose ph).collSettle else s

/-- R364, R367: without DL_EN, ENTRY_TMO after the leader's own ENTER, entry closes. -/
def entryTimeout (n : Nat) (s : State) : State :=
  s.onCore n fun s ph => if s.entryOpen ph false then (s.collClose ph).collSettle else s

/-- R367: a member waits for START no longer than ENTRY_TMO; it completes as TIMEOUT, or with the status of its own
request that failed. A leader's wait ends when it closes entry. Log entry 135: DEDUCED. -/
def startTimeout (n : Nat) (s : State) : State :=
  s.onCore n fun s ph =>
    match s.collHead ph with
    | some (e, c) =>
      let led := match c.lead with | some l => l.closed | none => false
      if c.phase = .entered ∧ !led ∧ c.verdict.isNone then
        (s.collEnd ph e c ⟨match c.fail with | some f => f.1 | none => 9, 0, 0, 0⟩ 0).collSettle
      else s
    | none => s

/-- R379: a member that waits for a CHUNK longer than CHUNK_TMO fails with TIMEOUT. -/
def chunkTimeout (n : Nat) (s : State) : State :=
  s.onCore n fun s ph =>
    match s.collHead ph with
    | some (e, c) =>
      if c.phase = .data ∧ c.arrived.isEmpty ∧ (c.taken.foldl (fun n t => n + t.2) 0) < c.due (collD e.words) ∧ !c.reported then
        (s.collFail ph 9 0).collSettle
      else s
    | none => s

/-- R382: CHUNK_TMO since STOP, the leader judges without the missing reports. -/
def stopTimeout (n : Nat) (s : State) : State :=
  s.onCore n fun s ph =>
    match s.collHead ph with
    | some (_, c) => match c.lead with
      | some l => if l.stopSent ∧ l.verdict.isNone then (s.modLead ph fun l => { l with stopOver := true }).collSettle else s
      | none => s
    | none => s

/-- R368: LATE_TMO since entry closed: excluded members not served are lost. -/
def lateTimeout (n : Nat) (s : State) : State :=
  s.onCore n fun s ph =>
    match s.collHead ph with
    | some (_, c) => match c.lead with
      | some l =>
        let lost := (l.excluded.filter fun r => !l.served.contains r).length
        if lost = 0 ∨ l.lateOver then s
        else
          let s := s.modLead ph fun l => { l with lateOver := true }
          ((s.finc pColl F.COLL_CNT1_LATE_LOST lost).event pColl F.COLL_PG_EVT_LATE_LOST).collSettle
      | none => s
    | none => s

end Sys2Proof.Machine
end

