-- ==== Sys2Proof/Machine/Nutmeg.lean ====
section
/-! DEFINITION. Nutmeg: the UPDATE descriptor, slice blocks and their versions, the update menu, working copies, norms,
audit, evaluation, divergence and the outer step (R208 to R261, R408, R409). -/

namespace Sys2Proof.Machine

/-! ### The descriptor (R238) -/

structure UpdateD where
  op : Nat
  rule : Nat
  guarded : Bool
  emaEn : Bool
  zEn : Bool
  bf16 : Bool
  stateRnd : Nat
  wEn : Bool
  wFmt : Nat
  wRnd : Nat
  wPol : Nat
  recBytes : Nat
  slices : Nat
  tcols : Nat
  trow0 : Nat
  tcol0 : Nat
  records : Loc
  work : Loc
  wscale : Loc
  grad : Nat
  replicas : Nat
  hp : Nat
  leader : Nat
  aux : Nat
  version : Nat
  tensor : Nat
  stream : Nat
deriving DecidableEq, Repr

def updateD (w : List Word) : UpdateD :=
  { op := bits (wd w 2) 31 28, rule := bits (wd w 2) 27 24, guarded := bit (wd w 2) 23, emaEn := bit (wd w 2) 22,
    zEn := bit (wd w 2) 21, bf16 := bit (wd w 2) 20, stateRnd := bits (wd w 2) 19 17, wEn := bit (wd w 2) 16,
    wFmt := bits (wd w 2) 15 12, wRnd := bits (wd w 2) 11 9, wPol := bits (wd w 2) 8 8, recBytes := bits (wd w 2) 7 0,
    slices := bits (wd w 3) 31 16, tcols := bits (wd w 3) 15 0, trow0 := bits (wd w 4) 31 16, tcol0 := bits (wd w 4) 15 0,
    records := locOf w 5, work := locOf w 7, wscale := locOf w 9, grad := bits (wd w 11) 23 0,
    replicas := bits (wd w 12) 31 26, hp := bits (wd w 12) 23 0, leader := bits (wd w 13) 31 26, aux := bits (wd w 13) 23 0,
    version := (wd w 14).toNat, tensor := bits (wd w 15) 31 8, stream := bits (wd w 15) 7 0 }

/-- The tile number of slice i within its tensor. -/
def UpdateD.slice (d : UpdateD) (i : Nat) : Nat := d.trow0 * d.tcols + d.tcol0 + i

/-- The element index of R54 of element (r, c) of slice i. -/
def UpdateD.index (d : UpdateD) (i r c : Nat) : Nat :=
  let t := d.slice i
  (64 * (t / d.tcols) + r) * (64 * d.tcols) + 64 * (t % d.tcols) + c

/-- OPs that read or write records (R240). -/
def UpdateD.usesRec (d : UpdateD) : Bool := [0, 2, 4, 6, 7, 8, 10].contains d.op

/-- OPs that convert a working copy (R240). -/
def UpdateD.converts (d : UpdateD) : Bool := [2, 6, 7].contains d.op || ((d.op == 0 || d.op == 10) && d.wEn)

/-- STATE values of a rule (R232). -/
def stateCount : Nat → Nat
  | 0 => 0 | 3 => 2 | 4 => 2 | 5 => 2 | _ => 1

def UpdateD.slots (d : UpdateD) : Nat := if d.guarded then 2 else 1
def UpdateD.sw (d : UpdateD) : Nat := if d.bf16 then 2 else 4

/-- The size of the fields with n STATE values (R234). -/
def UpdateD.sizeWith (d : UpdateD) (n : Nat) : Nat :=
  d.slots * (4 + n * d.sw) + (if d.emaEn then 4 else 0) + (if d.zEn then 6 else 0)

/-- The STATE count (R234). -/
def UpdateD.states (d : UpdateD) : Option Nat :=
  if d.op = 0 ∨ d.op = 4 then (if d.sizeWith (stateCount d.rule) = d.recBytes then some (stateCount d.rule) else none)
  else [0, 1, 2].find? fun n => d.sizeWith n == d.recBytes

/-- Offsets in a record (R234): MASTER and STATE value k of a slot, EMA, ZANCHOR. -/
def UpdateD.oMaster (_ : UpdateD) (slot : Nat) : Nat := 4 * slot
def UpdateD.oState (d : UpdateD) (slot k : Nat) : Nat := 4 * d.slots + (slot * d.states.getD 0 + k) * d.sw
def UpdateD.oEma (d : UpdateD) : Nat := d.slots * (4 + d.states.getD 0 * d.sw)
def UpdateD.oZ (d : UpdateD) : Nat := d.oEma + (if d.emaEn then 4 else 0)

/-- The slice block of slice i (R233). -/
def UpdateD.block (d : UpdateD) (i : Nat) : Loc := d.records.add (i * (64 + 4096 * d.recBytes))

/-- Bytes of a working-tile element. -/
def UpdateD.we (d : UpdateD) : Nat := if d.wFmt = 2 then 2 else 1

/-- Bytes per slice at WORK. -/
def UpdateD.workStep (d : UpdateD) : Nat :=
  match d.op with
  | 1 => 8192
  | 8 => 16384
  | 9 => 1
  | _ => 4096 * d.we

/-- Does the OP use WORK? -/
def UpdateD.usesWork (d : UpdateD) : Bool := [1, 8, 9].contains d.op || d.converts || (d.op == 10 && d.rule == 1)

/-- Bytes at AUX_ADDR, 0 when the OP does not use it. -/
def UpdateD.auxBytes (d : UpdateD) : Nat :=
  match d.op with
  | 0 => if d.rule = 5 then 64 else 0
  | 1 => 16384 * d.slices
  | 3 => rawSlot * d.slices
  | 4 => 64
  | 5 => 64 * d.slices
  | 9 => 8 * d.slices * (d.replicas + 1)
  | 10 => 16384 * d.slices
  | _ => 0

/-- RAW slots of the OP. -/
def UpdateD.rawRegion (d : UpdateD) : Region :=
  let run := fun (a : Nat) => (List.range d.slices).map fun i => (a + i * rawSlot, rawSlot)
  (if d.op = 0 ∨ d.op = 3 ∨ d.op = 4 then run d.grad else []) ++ (if d.op = 3 then run d.aux else [])

/-- Places and byte counts that the OP reads or writes, with the alignment asked of each (R238). Log entry 46:
DEDUCED. -/
def UpdateD.places (d : UpdateD) : List (Loc × Nat × Nat) :=
  let on := fun (b : Bool) (x : Loc × Nat × Nat) => if b then [x] else []
  let outerWork := d.op == 10 && d.rule == 1
  on d.usesRec (d.records, d.slices * (64 + 4096 * d.recBytes), 64)
    ++ on d.usesWork (d.work, d.slices * (if outerWork then 16384 else d.workStep), 4096)
    ++ on (d.converts && d.wFmt == 5 && !d.work.sp) (d.wscale, d.slices * 128, 1)
    ++ on (d.op == 10 && d.version / 2 % 2 == 1) (d.wscale, d.slices * 16384, 1)
    ++ on (d.op == 0 || d.op == 3 || d.op == 4) (⟨true, d.grad⟩, d.slices * rawSlot, 4096)
    ++ on (d.op == 0 || d.op == 4 || d.op == 10) (⟨true, d.hp⟩, 64, 64)
    ++ on (d.auxBytes != 0) (⟨true, d.aux⟩, d.auxBytes, if d.op = 3 then 4096 else 1)

/-- The places of local HBM that the OP reads. -/
def UpdateD.hbmReads (d : UpdateD) : List (Loc × Nat) :=
  let on := fun (b : Bool) (x : Loc × Nat) => if b && !x.1.sp then [x] else []
  on (d.usesRec && d.op != 1) (d.records, d.slices * (64 + 4096 * d.recBytes))
    ++ on (d.op == 6 || (d.op == 10 && d.rule == 1)) (d.work, d.slices * (if d.op = 10 then 16384 else d.workStep))
    ++ on (d.op == 6 && d.wFmt == 5) (d.wscale, d.slices * 128)
    ++ on (d.op == 10 && d.version / 2 % 2 == 1) (d.wscale, d.slices * 16384)

/-- The failed checks of an UPDATE, lowest reason first (R173, R219, R214, R240, R409). Log entries 45: DEDUCED, 46:
DEDUCED. -/
def State.updateReasons (s : State) (ph : Nat) (d : UpdateD) : List Nat :=
  let on := fun (b : Bool) (n : Nat) => if b then [n] else []
  let isOpen := s.fget pGctl F.GCTL_STEP_STAT_OPEN == 1
  let buf := s.accBuf ph
  on (inside d.rawRegion 0 spSize && !inside d.rawRegion buf.1 buf.2) 0x16
  ++ on ((d.op == 0 || d.op == 3) && d.guarded && !isOpen) 0x20
  ++ on ((d.op == 2 || d.op == 3) && decide (s.fget pGctl F.GCTL_STEP_VER_VER < d.version)) 0x21
  ++ on ((d.tcols == 0 && d.slices != 0)
      || d.places.any fun p => p.1.off % p.2.2 != 0 || (p.1.sp && d.slices != 0 && decide (p.1.off + p.2.1 > spSize))) 0x22
  ++ on ((d.usesRec && !((d.op == 0 || d.op == 4) && decide (d.rule > 7)) && d.states.isNone)
      || (d.converts && ((d.wFmt != 2 && d.wFmt != 5) || decide (d.wRnd > 4)))
      || (d.op == 0 && d.bf16 && decide (d.stateRnd > 4))) 0x23
  ++ on (decide (d.op > 10) || (d.op == 0 && decide (d.rule > 7)) || (d.op == 4 && d.rule != 5)
      || ((d.op == 8 || d.op == 10) && decide (d.rule > 1))) 0x24
  ++ on (d.op == 7 && (s.fget pGctl F.GCTL_EVAL_CFG_MODE == 1 || isOpen)) 0x25
  ++ on (d.op == 9 && (d.replicas == 0 || decide (d.leader > d.replicas) || decide (d.version % 64 > d.replicas))) 0x26
  ++ on (d.op == 10 && (isOpen || !d.zEn)) 0x73

/-! ### Hyperparameters and slices -/

/-- A hyperparameter of the block that an UPDATE read when it started (R242). -/
def NmSt.k (c : NmSt) (i : Nat) : F32 := F32.of (c.hp.getD i 0)

/-- The outcome of one slice: its status with DETAIL as one number (0: it went well) and the flags it raised. -/
structure SliceRes where
  st : State
  status : Nat
  fl : Nat
deriving DecidableEq, Repr

/-- A slice header (R236) as its 16 words. -/
def hdrWords (bs : List Byte) : List Nat := (wordsOf 16 bs).map (·.toNat)

/-- The header with word i set. -/
def setHdr (h : List Nat) (i v : Nat) : List Nat := h.set i v

/-- The bytes of a header. -/
def hdrBytes (h : List Nat) : List Byte := h.flatMap fun v => leBytes 4 v

/-- No version. -/
def noVer : Nat := 0xFFFFFFFF

/-- The slot that serves version v, with V committed; the tag that means none serves nothing (R214, R236, R249). Of two equal tags the slot v mod 2 is taken. Log
entry 48: DESIGN CHOICE. -/
def serves (guarded : Bool) (h : List Nat) (vc v : Nat) : Option Nat :=
  let t0 := h.getD 0 0
  let t1 := h.getD 1 0
  if !guarded then (if v = vc ∧ t0 = vc ∧ t0 ≠ noVer then some 0 else none)
  else
    let ok := fun t => decide (t ≤ v ∧ t ≤ vc ∧ t ≠ noVer)
    if ok t0 && ok t1 then (if t0 = t1 then some (v % 2) else if t0 > t1 then some 0 else some 1)
    else if ok t0 then some 0 else if ok t1 then some 1 else none

/-- The gradient of a slot element (R209, R210, R243). -/
def NmSt.grad (c : NmSt) (t : RawTile) (j : Nat) : F32 :=
  let e := t.elem j
  let both := e.2 % 4 == 3
  if e.2 / 4 % 2 = 1 ∨ both then ⟨0x7FC00000, 0⟩
  else if e.2 % 4 ≠ 0 then ⟨if e.2 % 2 = 1 then 0x7F800000 else 0xFF800000, 0⟩
  else (F32.rne (XVal.ofInt e.1 (t.hdr.anchor - c.exp)) false 0).mul (c.k 9)

/-- The flags of the special elements of a slot (R210). Log entry 55: DEDUCED. -/
def RawTile.specials (t : RawTile) : Nat :=
  (List.range 4096).foldl (fun a j =>
    let n := t.nib j
    a ||| (if n / 4 % 2 = 1 ∨ n % 4 = 3 then flINV else 0) ||| (if n % 4 = 1 ∨ n % 4 = 2 then flOVF else 0)) 0

/-! ### The update menu (R245) -/

/-- u of ADAMW and LAMB: new m, new v and u (R245). -/
def NmSt.adamw (c : NmSt) (g w m v : F32) : F32 × F32 × F32 :=
  let m := ((c.k 2).mul m).add ((c.k 3).mul g)
  let v := ((c.k 4).mul v).add ((c.k 5).mul (g.mul g))
  let u := (m.mul (c.k 7)).div ((v.mul (c.k 8)).sqrt.add (c.k 6))
  (m, v, u.add ((c.k 1).mul w))

/-- A rule applied to one element: the new master and the new STATE values (R245). -/
def NmSt.step (c : NmSt) (rule : Nat) (g w : F32) (st : List F32) : F32 × List F32 :=
  let eta := c.k 0
  let s0 := st.getD 0 (F32.of 0)
  let s1 := st.getD 1 (F32.of 0)
  let p := g.add ((c.k 1).mul w)
  match rule with
  | 0 => (w.sub (eta.mul p), [])
  | 1 => let m := ((c.k 2).mul s0).add p; (w.sub (eta.mul m), [m])
  | 2 => let m := ((c.k 2).mul s0).add p; let q := p.add ((c.k 2).mul m); (w.sub (eta.mul q), [m])
  | 3 =>
    let m := ((c.k 2).mul s0).add ((c.k 3).mul p)
    let v := ((c.k 4).mul s1).add ((c.k 5).mul (p.mul p))
    let u := (m.mul (c.k 7)).div ((v.mul (c.k 8)).sqrt.add (c.k 6))
    (w.sub (eta.mul u), [m, v])
  | 4 => let (m, v, u) := c.adamw g w s0 s1; (w.sub (eta.mul u), [m, v])
  | 5 => let (m, v, u) := c.adamw g w s0 s1; (w.sub ((eta.mul (F32.of c.trust)).mul u), [m, v])
  | 6 =>
    let x := ((c.k 2).mul s0).add ((c.k 3).mul g)
    let q := x.sign.add ((c.k 1).mul w)
    (w.sub (eta.mul q), [((c.k 4).mul s0).add ((c.k 5).mul g)])
  | _ =>
    let gg := s0.add (g.mul g)
    (w.sub (eta.mul (g.div (gg.sqrt.add (c.k 6)))), [gg])

/-- STATE value k of a slot, widened from BF16 exactly (R244). -/
def UpdateD.getState (d : UpdateD) (r : List Byte) (slot k : Nat) : F32 :=
  F32.of (field r (d.oState slot k) d.sw * (if d.bf16 then 65536 else 1))

/-- A STATE value as stored, rounded to BF16 under STATE_RND (R244): its code and flags. -/
def UpdateD.encState (d : UpdateD) (v idx : Nat) (x : F32) : Nat × Nat :=
  if d.bf16 then
    fmtBF16.convert d.stateRnd 0 (if d.stateRnd = 4 then srR (srKey (v + 1) d.tensor 0xFE) idx else 0) x.num.toX
  else (x.code, 0)

/-! ### Working tiles (R235, R253) -/

/-- A working tile: image, scale bytes, flags. -/
structure WTile where
  image : List Byte
  scales : List Byte
  fl : Nat
deriving DecidableEq, Repr

/-- The conversion of master codes (row-major) to the working tile of a version (R253, R254). Log entry 56: DEDUCED.
-/
def UpdateD.wtile (d : UpdateD) (i ver : Nat) (ms : List Nat) : WTile :=
  let a := ms.toArray
  let x := fun (r c : Nat) => (fmtFP32.decode (a.getD (64 * r + c) 0)).toX
  let r16 := fun (r c : Nat) => if d.wRnd = 4 then srR (srKey ver d.tensor 0xFF) (d.index i r c) else 0
  if d.wFmt = 2 then
    let cv := fun r c => fmtBF16.convert d.wRnd d.wPol (r16 r c) (x r c)
    ⟨tileImage 2 fun r c => (cv r c).1, [],
     (List.range 4096).foldl (fun f j => f ||| (cv (j / 64) (j % 64)).2) 0⟩
  else
    -- stored row c holds column c of W; its halves are rows 32h to 32h + 31
    let sc := (List.range 128).map fun k =>
      blockScale fmtE4M3 ((List.range 32).map fun q => x (32 * (k % 2) + q) (k / 2))
    let sa := sc.toArray
    let cv := fun r c => fmtE4M3.convert d.wRnd d.wPol (r16 r c) ((x r c).shift (127 - (sa.getD (2 * c + r / 32) 0 : Int)))
    ⟨tileImage 1 fun p q => (cv q p).1, sc.map fun v => BitVec.ofNat 8 v,
     (List.range 4096).foldl (fun f j => f ||| (cv (j / 64) (j % 64)).2) 0⟩

/-- Where working tile i and its scale bytes lie (R171, R235). -/
def State.wPlaces (s : State) (ph : Nat) (d : UpdateD) (i : Nat) : Loc × Loc :=
  let t := d.work.add (i * (4096 * d.we))
  (t, if d.work.sp then ⟨true, s.scaleBase ph + (t.off / 4096) * 128⟩ else d.wscale.add (i * 128))

/-- A working tile written. -/
def State.putW (s : State) (ph : Nat) (d : UpdateD) (i : Nat) (t : WTile) : State × Nat :=
  let p := s.wPlaces ph d i
  let (s, st) := s.locWrite ph p.1 t.image
  if st ≠ 0 ∨ t.scales.isEmpty then (s, st) else s.locWrite ph p.2 t.scales

/-! ### Slices of each OP -/

/-- Header and records of slice i: header words, the records that can be read, and the status of the read. -/
structure SliceIn where
  st : State
  status : Nat
  hdr : List Nat
  recs : List (List Byte)
deriving DecidableEq, Repr

/-- Log entries 47: DEDUCED, 50: DEDUCED. -/
def State.sliceIn (s : State) (ph : Nat) (d : UpdateD) (i : Nat) : SliceIn :=
  let h := s.locRead ph (d.block i) 64
  if h.status ≠ 0 then ⟨h.st, h.status, [], []⟩
  else
    let r := h.st.locRead ph ((d.block i).add 64) (4096 * d.recBytes)
    ⟨r.st, r.status, hdrWords h.data, chunks d.recBytes (r.data.length / d.recBytes) r.data⟩

/-- Header and the given records written back. -/
def State.sliceOut (s : State) (ph : Nat) (d : UpdateD) (i : Nat) (h : List Nat) (recs : List (List Byte)) : State × Nat :=
  s.locWrite ph (d.block i) (hdrBytes h ++ recs.flatten)

/-- The header words of a slice alone. -/
def State.sliceHdr (s : State) (ph : Nat) (d : UpdateD) (i : Nat) : State × Nat × List Nat :=
  let h := s.locRead ph (d.block i) 64
  (h.st, h.status, hdrWords h.data)

/-- MASTER and STATE of one slot copied to the other (R250). -/
def UpdateD.realign (d : UpdateD) (src dst : Nat) (r : List Byte) : List Byte :=
  let r := putField r (d.oMaster dst) 4 (field r (d.oMaster src) 4)
  (List.range (d.states.getD 0)).foldl (fun r k => putField r (d.oState dst k) d.sw (field r (d.oState src k) d.sw)) r

/-- The EMA of a record folded with master w (R251). -/
def UpdateD.fold (d : UpdateD) (c : NmSt) (r : List Byte) (w : F32) : List Byte × Nat :=
  let e := ((c.k 10).mul (F32.of (field r d.oEma 4))).add ((c.k 11).mul w)
  (putField r d.oEma 4 e.code, e.fl)

/-- One record of a RULE: the new bytes, the master written and the flags. src and dst are the slots read and written. -/
def UpdateD.ruleRec (d : UpdateD) (c : NmSt) (i j src dst : Nat) (t : RawTile) (skip fold : Bool) (r : List Byte) :
    List Byte × Nat × Nat :=
  let w := F32.of (field r (d.oMaster src) 4)
  let (r, f0) := if fold then d.fold c r w else (r, 0)
  if skip then (r, w.code, f0)
  else
    let n := d.states.getD 0
    let (w', st) := c.step d.rule (c.grad t j) w ((List.range n).map (d.getState r src))
    let idx := d.index i (j / 64) (j % 64)
    let r := putField r (d.oMaster dst) 4 w'.code
    let out := (List.range n).foldl (fun (a : List Byte × Nat) k =>
      let x := st.getD k (F32.of 0)
      let e := d.encState c.v idx x
      (putField a.1 (d.oState dst k) d.sw e.1, a.2 ||| e.2 ||| x.fl)) (r, 0)
    (out.1, w'.code, out.2 ||| w'.fl ||| f0)

/-- A RULE on slice i (R209, R210, R213, R245, R249 to R253). Log entries 49: DEDUCED, 50: DEDUCED, 55: DEDUCED. -/
def State.ruleSlice (s : State) (ph : Nat) (d : UpdateD) (c : NmSt) (i : Nat) : SliceRes :=
  let (s, hs, h) := s.sliceHdr ph d i
  if hs ≠ 0 then ⟨s, hs, 0⟩ else
  let cur := c.v % 2
  let nxt := add32 c.v 1
  match (if d.guarded then serves true h c.v c.v else some 0) with
  | none => ⟨s, 5, 0⟩
  | some sv =>
    match s.readSlot ph (d.grad + i * rawSlot) with
    | (s, none) => ⟨s, 7, 0⟩
    | (s, some t) =>
      let sf := t.specials
      let skip := sf != 0 && !d.guarded
      let inp := s.sliceIn ph d i
      let s := inp.st
      let n := inp.recs.length
      -- realignment of a slice served from the other slot (R250)
      let re := d.guarded && sv != cur
      let recs := if re then inp.recs.map (d.realign sv cur) else inp.recs
      if re && n < 4096 then ⟨(s.sliceOut ph d i (setHdr h cur noVer) recs).1, inp.status, sf⟩
      else
        let s := if re then s.finc (pCore ph) F.NM_STAT_REALIGNS else s
        let h := if re then setHdr h cur c.v else h
        let src := if d.guarded then cur else 0
        let dst := if d.guarded then (c.v + 1) % 2 else 0
        let h := if d.guarded then setHdr h dst nxt else h
        let pend := (h.getD 4 0).testBit 31
        let ev := h.getD 3 0
        let fold := d.emaEn && !pend && (ev == noVer || decide (ev < c.v))
        let h := if fold then setHdr h 4 (h.getD 4 0 ||| 2 ^ 31) else h
        let h := if d.wEn then setHdr h 2 noVer else h
        let out := recs.zipIdx.map fun x => d.ruleRec c i x.2 src dst t skip fold x.1
        let fl := out.foldl (fun a x => a ||| x.2.2) sf
        let s := if skip then s.finc (pCore ph) F.NM_SKIPS_SLICE_SKIPS else s
        if n < 4096 then ⟨(s.sliceOut ph d i h (out.map (·.1))).1, inp.status, fl⟩
        else
          let h := if fold || pend then setHdr (setHdr h 3 c.v) 4 ((h.getD 4 0) % 2 ^ 31) else h
          let s := if pend then s.finc (pCore ph) F.NM_STAT_EMA_TORN else s
          let wt := d.wtile i nxt (out.map (·.2.1))
          let fl := if d.wEn then fl ||| wt.fl else fl
          let (s, ws) := if d.wEn then s.putW ph d i wt else (s, 0)
          let h := if ws = 0 ∧ !d.guarded then setHdr h 0 nxt else h
          let h := if ws = 0 ∧ d.wEn then setHdr h 2 nxt else h
          let (s, st) := s.sliceOut ph d i h (out.map (·.1))
          let s := if skip ∨ ws ≠ 0 ∨ st ≠ 0 then s else s.inc64 (pCore ph) F.NM_UPD_LO_COUNT 1
          ⟨s, if ws ≠ 0 then ws else st, fl⟩

/-- SEED on slice i (R239). A BF16 of −0 is kept. Log entry 241: DEDUCED. -/
def State.seedSlice (s : State) (ph : Nat) (d : UpdateD) (c : NmSt) (i : Nat) : SliceRes :=
  let src := d.aux + i * 16384
  let g := s.locRead ph ⟨true, src⟩ 16384
  if g.status ≠ 0 then ⟨g.st, g.status, 0⟩
  else
    let cv := fun r q => fmtBF16.convert 0 0 0 ((fmtFP32.decode (s.elem ph 4 src 1 r q)).toX.shift c.exp)
    let (s, st) := g.st.locWrite ph (d.work.add (i * 8192)) (tileImage 2 fun r q => (cv r q).1)
    ⟨s, st, (List.range 4096).foldl (fun f j => f ||| (cv (j / 64) (j % 64)).2) 0⟩

/-- The masters of a slot, or the EMA, of records. -/
def masters (o : Nat) (recs : List (List Byte)) : List Nat := recs.map fun r => field r o 4

/-- The slot that serves version v of slice i, and its tag, as DERIVE first reads them (R215). -/
def State.firstTag (s : State) (ph : Nat) (d : UpdateD) (v i : Nat) : State × Nat × Option (Nat × Nat) :=
  let (s, st, h) := s.sliceHdr ph d i
  (s, st, if st = 0 then (serves d.guarded h v d.version).map fun sv => (sv, h.getD sv 0) else none)

/-- DERIVE of version v on slice i: the records of the slot found at first, then its tag again; when the tag has changed,
the output region holds partial values, which are free (R214, R215, R253). Log entries 34: DESIGN CHOICE, 51: DEDUCED.
-/
def State.deriveSlice (s : State) (ph : Nat) (d : UpdateD) (c : NmSt) (i : Nat) : SliceRes :=
  match c.tags.getD i (0, none) with
  | (0, some (sv, tag)) =>
    let r := s.locRead ph ((d.block i).add 64) (4096 * d.recBytes)
    if r.status ≠ 0 then ⟨r.st, r.status, 0⟩
    else
      let t := d.wtile i d.version (masters (d.oMaster sv) (chunks d.recBytes 4096 r.data))
      let (s, st, h) := r.st.sliceHdr ph d i
      if st ≠ 0 then ⟨s, st, 0⟩
      else if h.getD sv 0 = tag then
        let (s, st) := s.putW ph d i t
        ⟨s, st, t.fl⟩
      else
        let (im, s) := s.drawBytes t.image.length
        let (sc, s) := s.drawBytes t.scales.length
        ⟨(s.putW ph d i ⟨im, sc, 0⟩).1, 5, t.fl⟩
  | (0, none) => ⟨s, 5, 0⟩
  | (st, _) => ⟨s, st, 0⟩

/-- FOLD on slice i (R226). Log entry 60: DEDUCED. -/
def State.foldSlice (s : State) (ph : Nat) (d : UpdateD) (c : NmSt) (i : Nat) : SliceRes :=
  if d.version + 1 < c.v ∨ (d.version + 1 = c.v ∧ s.fget pGctl F.GCTL_STEP_POL_STALE = 1) then
    ⟨s.finc (pCore ph) F.NM_SKIPS_STALE_DROPS, 0, 0⟩
  else
    let (s, y) := s.readSlot ph (d.grad + i * rawSlot)
    let (s, x) := s.readSlot ph (d.aux + i * rawSlot)
    match x, y with
    | some x, some y =>
      let k := if d.version = c.v then 0 else s.fget pGctl F.GCTL_STEP_POL_SHIFT
      let y := { y with hdr := { y.hdr with anchor := y.hdr.anchor - (k : Int) } }
      let t := rawAdd x y
      ⟨(s.freshCode ph (t.region (d.aux + i * rawSlot))).putRaw ph (d.aux + i * rawSlot) t, 0, 0⟩
    | _, _ => ⟨s, 7, 0⟩

/-- A norm record (R246). -/
structure NormRec where
  anchor : Nat
  err : Nat
  wsq : Int
  usq : Int
  ok : Bool
deriving DecidableEq, Repr

/-- Log entry 53: DEDUCED. -/
def normRec (bs : List Byte) : NormRec :=
  ⟨field bs 0 2, field bs 8 8, sint 128 (field bs 0x10 16), sint 128 (field bs 0x20 16),
   field bs 0x38 8 == crc64 (bs.take 0x38)⟩

/-- The bytes of a norm record over the reserved bytes it had, with a fresh CRC. Log entry 53: DEDUCED. -/
def NormRec.bytes (n : NormRec) (old : List Byte) : List Byte :=
  let b := putField (putField (putField (putField old 0 2 n.anchor) 8 8 n.err) 0x10 16 (ofSint 128 n.wsq)) 0x20 16 (ofSint 128 n.usq)
  putField b 0x38 8 (crc64 (b.take 0x38))

/-- The running sums of NORMS; none once the record is to stay unchanged. -/
abbrev NormAcc := Option (Nat × Int × Int)

/-- One element added to the sums; an infinity or a NaN raises its flag whatever came before it (R246). -/
def normAdd (anchor : Int) (w u : F32) (a : NormAcc × Nat) : NormAcc × Nat :=
  match w.num, u.num with
  | .fin wn wm we, .fin un um ue =>
    match a.1 with
    | none => a
    | some (err, ws, us) =>
      let sq := fun n m e => let d := dyOf n m e; (rneMult (d.mul d).v (d.mul d).e anchor).1
      let ws := ws + sq wn wm we
      let us := us + sq un um ue
      if fits128 ws && fits128 us then (some (min (err + 2) (2 ^ 64 - 1), ws, us), a.2) else (none, a.2 ||| flOVF)
  | x, y => (none, a.2 ||| (if x = .nan ∨ y = .nan then flINV else 0)
      ||| (if (x = .inf true ∨ x = .inf false ∨ y = .inf true ∨ y = .inf false) then flOVF else 0))

/-- NORMS on slice i, with the sums so far. Log entries 52: DEDUCED, 54: DEDUCED. -/
def State.normsSlice (s : State) (ph : Nat) (d : UpdateD) (c : NmSt) (i : Nat) (acc : NormAcc) : SliceRes × NormAcc :=
  let (s, hs, h) := s.sliceHdr ph d i
  if hs ≠ 0 then (⟨s, hs, 0⟩, acc) else
  match serves d.guarded h c.v c.v with
  | none => (⟨s, 5, 0⟩, acc)
  | some sv =>
    match s.readSlot ph (d.grad + i * rawSlot) with
    | (s, none) => (⟨s, 7, 0⟩, acc)
    | (s, some t) =>
      let inp := s.sliceIn ph d i
      if inp.status ≠ 0 then (⟨inp.st, inp.status, t.specials⟩, acc)
      else
        let r := inp.recs.zipIdx.foldl (fun (a : NormAcc × Nat) x =>
          let w := F32.of (field x.1 (d.oMaster sv) 4)
          let (m, v, u) := c.adamw (c.grad t x.2) w (d.getState x.1 sv 0) (d.getState x.1 sv 1)
          let a := (a.1, a.2 ||| m.fl ||| v.fl ||| u.fl)
          normAdd (sint 16 (c.hp.getD 12 0)) w u a) (acc, t.specials)
        (⟨inp.st, 0, r.2⟩, r.1)

/-- A capture register pair filled when it holds none (R256, R258). Log entry 59: DEDUCED. -/
def State.nmCapture (s : State) (ph off tensor slice source : Nat) : State :=
  let a := pCore ph + off
  if bit (s.reg a) 31 then s
  else (s.setReg a (BitVec.ofNat 32 (2 ^ 31 + source * 2 ^ 24 + tensor))).setReg (a + 4) (BitVec.ofNat 32 slice)

/-- AUDIT on slice i (R256). Log entry 59: DEDUCED. -/
def State.auditSlice (s : State) (ph : Nat) (d : UpdateD) (c : NmSt) (i : Nat) : SliceRes :=
  let inp := s.sliceIn ph d i
  if inp.hdr.isEmpty then ⟨inp.st, inp.status, 0⟩ else
  let wv := inp.hdr.getD 2 0
  let named := if wv = noVer ∨ wv > c.v then none else serves d.guarded inp.hdr c.v wv
  match (match named with | some sv => some (sv, wv) | none => (serves d.guarded inp.hdr c.v c.v).map fun sv => (sv, c.v)) with
  | none => ⟨s.locRead ph (d.block i) 64 |>.st, 5, 0⟩
  | some (sv, ver) =>
    if inp.status ≠ 0 then ⟨inp.st, inp.status, 0⟩
    else
      let s := inp.st
      let t := d.wtile i ver (masters (d.oMaster sv) inp.recs)
      let p := s.wPlaces ph d i
      let g := if named.isSome then s.locRead ph p.1 t.image.length else ⟨s, 0, []⟩
      let q := if named.isSome && !t.scales.isEmpty then g.st.locRead ph p.2 128 else ⟨g.st, 0, []⟩
      if g.status ≠ 0 ∨ q.status ≠ 0 then ⟨q.st, if g.status ≠ 0 then g.status else q.status, t.fl⟩
      else
        let s := q.st
        let oldI := (chunks d.we 4096 g.data).toArray
        let newI := (chunks d.we 4096 t.image).toArray
        let oldS := q.data.toArray
        let newS := t.scales.toArray
        let differs := fun (k : Nat) =>
          let rc := tileRC d.we k
          oldI.getD k [] != newI.getD k [] ||
            (!t.scales.isEmpty && oldS.getD (2 * rc.1 + rc.2 / 32) 0 != newS.getD (2 * rc.1 + rc.2 / 32) 0)
        let n := if named.isSome then ((List.range 4096).filter differs).length else 4096
        if n = 0 then ⟨s, 0, t.fl⟩
        else
          let (s, st) := s.putW ph d i t
          let (s, st2) := if named.isNone ∧ st = 0 then s.locWrite ph ((d.block i).add 8) (leBytes 4 ver) else (s, st)
          let s := s.finc (pCore ph) F.NM_AUDIT_CNT_COUNT n
          ⟨s.nmCapture ph 0x198 d.tensor (d.slice i) 0, st2, t.fl⟩

/-- The EMA codes of records; free where records carry none. Log entry 57: DESIGN CHOICE. -/
def State.emaCodes (s : State) (d : UpdateD) (recs : List (List Byte)) : List Nat × State :=
  if d.emaEn then (masters d.oEma recs, s)
  else let (bs, s) := s.drawBytes 16384; ((chunks 4 4096 bs).map leNat, s)

/-- EVAL on slice i (R253, R260). -/
def State.evalSlice (s : State) (ph : Nat) (d : UpdateD) (c : NmSt) (i : Nat) : SliceRes :=
  let inp := s.sliceIn ph d i
  if inp.status ≠ 0 then ⟨inp.st, inp.status, 0⟩
  else
    let (ms, s) := inp.st.emaCodes d inp.recs
    let ev := inp.hdr.getD 3 0
    let t := d.wtile i (if ev = noVer then c.v else ev) ms
    let (s, st) := s.putW ph d i t
    ⟨s, st, t.fl⟩

/-- EXTRACT on slice i (R239). Log entry 54: DEDUCED. -/
def State.extractSlice (s : State) (ph : Nat) (d : UpdateD) (c : NmSt) (i : Nat) : SliceRes :=
  let inp := s.sliceIn ph d i
  if inp.hdr.isEmpty then ⟨inp.st, inp.status, 0⟩ else
  let sv := if d.rule = 1 then some 0 else serves d.guarded inp.hdr c.v c.v
  match sv with
  | none => ⟨s.locRead ph (d.block i) 64 |>.st, 5, 0⟩
  | some sv =>
    if inp.status ≠ 0 then ⟨inp.st, inp.status, 0⟩
    else
      let (ms, s) := if d.rule = 1 then inp.st.emaCodes d inp.recs else (masters (d.oMaster sv) inp.recs, inp.st)
      let (s, st) := s.locWrite ph (d.work.add (i * 16384)) (ms.flatMap fun m => leBytes 4 m)
      ⟨s, st, 0⟩

/-- OUTER on slice i (R248, R408). Log entry 58: DEDUCED. -/
def State.outerSlice (s : State) (ph : Nat) (d : UpdateD) (c : NmSt) (i : Nat) : SliceRes :=
  let inp := s.sliceIn ph d i
  if inp.hdr.isEmpty then ⟨inp.st, inp.status, 0⟩ else
  match serves d.guarded inp.hdr c.v c.v with
  | none => ⟨s.locRead ph (d.block i) 64 |>.st, 5, 0⟩
  | some sv =>
    if inp.status ≠ 0 then ⟨inp.st, inp.status, 0⟩
    else
      let tileOf := fun (s : State) (l : Loc) => s.locRead ph l 16384
      let gd := tileOf inp.st ⟨true, d.aux + i * 16384⟩
      let gb := if d.rule = 1 then tileOf gd.st (d.work.add (i * 16384)) else ⟨gd.st, 0, []⟩
      let gz := if d.version / 2 % 2 = 1 then tileOf gb.st (d.wscale.add (i * 16384)) else ⟨gb.st, 0, []⟩
      let bad := [gd.status, gb.status, gz.status].find? (· != 0)
      match bad with
      | some st => ⟨gz.st, st, 0⟩
      | none =>
        let s := gz.st
        let code := fun (bs : List Byte) => ((chunks 4 4096 bs).map leNat).toArray
        let dl := code gd.data
        let bl := code gb.data
        let zl := code gz.data
        let out := inp.recs.zipIdx.map fun x =>
          let r := x.1
          let j := x.2
          let delta := F32.of (dl.getD j 0)
          let z := F32.of (field r d.oZ 4)
          let z0 := if d.version / 2 % 2 = 1 then F32.of (zl.getD j 0) else z
          let b := if d.rule = 1 then ((c.k 2).mul (F32.of (bl.getD j 0))).add delta else F32.of 0
          let q := if d.rule = 1 then delta.add ((c.k 2).mul b) else delta
          let z' := z0.sub ((c.k 0).mul q)
          let w := F32.of (field r (d.oMaster sv) 4)
          let w' := if d.version % 2 = 1 then z'.add (w.sub z) else z'
          (putField (putField r d.oZ 4 z'.code) (d.oMaster sv) 4 w'.code, b.code, w'.code, z'.fl ||| b.fl ||| w'.fl)
        let fl := out.foldl (fun a x => a ||| x.2.2.2) 0
        let (s, bs) := if d.rule = 1 then s.locWrite ph (d.work.add (i * 16384)) (out.flatMap fun x => leBytes 4 x.2.1)
          else (s, 0)
        let (s, rs) := s.sliceOut ph d i inp.hdr (out.map (·.1))
        if bs ≠ 0 ∨ rs ≠ 0 ∨ !d.wEn then ⟨s, if bs ≠ 0 then bs else rs, fl⟩
        else
          let t := d.wtile i c.v (out.map fun x => x.2.2.1)
          let (s, ws) := s.putW ph d i t
          if ws ≠ 0 then ⟨s, ws, fl ||| t.fl⟩
          else
            let (s, hs) := s.locWrite ph ((d.block i).add 8) (leBytes 4 c.v)
            ⟨s, hs, fl ||| t.fl⟩

/-! ### NMERGE and CMP -/

/-- NMERGE (R247). -/
def State.nmerge (s : State) (ph : Nat) (d : UpdateD) : SliceRes :=
  let g := s.locRead ph ⟨true, d.aux⟩ (64 * d.slices)
  if g.status ≠ 0 then ⟨g.st, g.status, 0⟩
  else
    let bs := chunks 64 d.slices g.data
    let ns := bs.map normRec
    match ns with
    | [] => ⟨g.st, 0, 0⟩
    | n0 :: rest =>
      if !n0.ok || rest.any fun n => !n.ok || n.anchor != n0.anchor then ⟨g.st, 7, 0⟩
      else
        let sum := rest.foldl (fun a n => { a with err := min (a.err + n.err) (2 ^ 64 - 1), wsq := a.wsq + n.wsq, usq := a.usq + n.usq }) n0
        if !fits128 sum.wsq || !fits128 sum.usq then ⟨g.st, 0, flOVF⟩
        else let (s, st) := g.st.locWrite ph ⟨true, d.aux⟩ (sum.bytes (bs.getD 0 [])); ⟨s, st, 0⟩

/-- The source of a slice among its fingerprints (R258). -/
def cmpSource (fs : List Nat) (leader : Nat) : Nat :=
  match findIdx (fun x => decide (2 * (fs.filter (· == x)).length > fs.length)) fs with
  | some k => k
  | none => leader

/-- CMP: its record, with the part bitmap when replicas diverge (R258). -/
def State.cmp (s : State) (ph : Nat) (d : UpdateD) : State × Rec :=
  let g := s.locRead ph ⟨true, d.aux⟩ (8 * d.slices * (d.replicas + 1))
  if g.status ≠ 0 then (g.st, Rec.ofOutcome g.status)
  else
    let fp := ((chunks 8 (d.slices * (d.replicas + 1)) g.data).map leNat).toArray
    let cols := (List.range d.slices).map fun i => (List.range (d.replicas + 1)).map fun k => fp.getD (k * d.slices + i) 0
    let me := d.version % 64
    let res := cols.map fun fs =>
      let src := cmpSource fs d.leader
      (fs, src, fs.getD src 0)
    let (s, st) := g.st.locWrite ph d.work (res.map fun x => BitVec.ofNat 8 (if x.1.getD me 0 = x.2.2 then 0xFF else x.2.1))
    if st ≠ 0 then (s, Rec.ofOutcome st)
    else
      let diff := res.zipIdx.filter fun x => x.1.1.any (· != x.1.2.2)
      match diff with
      | [] => (s, Rec.of 0)
      | x :: _ =>
        let bm := res.foldl (fun a x => x.1.zipIdx.foldl (fun a y => if y.1 != x.2.2 then a ||| 2 ^ y.2 else a) a) 0
        let s := (s.event (pCore ph) F.PG_EVT_DIVERGED).finc (pCore ph) F.NM_DIV_CNT_COUNT diff.length
        let s := s.nmCapture ph 0x1A4 d.tensor (d.slice x.2) x.1.2.1
        (s, ⟨1, 0, 0, bm % 2 ^ 32, some (bm / 2 ^ 32)⟩)

/-! ### The run of an UPDATE -/

/-- W or U of the trust ratio in FP32 (R247). -/
def normF32 (anchor : Nat) (v : Int) : F32 := F32.rne (XVal.ofInt v (sint 16 anchor)) false 0

/-- The trust ratio of LAMB (R247). -/
def NormRec.trust (n : NormRec) : F32 :=
  let w := normF32 n.anchor n.wsq
  let u := normF32 n.anchor n.usq
  if w.code % 2 ^ 31 = 0 ∨ u.code % 2 ^ 31 = 0 then ⟨0x3F800000, w.fl ||| u.fl⟩ else w.sqrt.div u.sqrt

/-- Slices in ascending order until one fails: the state, the flags, and the failing status and slice (R241). -/
def State.slicesRun (f : State → Nat → SliceRes) : List Nat → State → Nat → State × Nat × Option (Nat × Nat)
  | [], s, fl => (s, fl, none)
  | i :: is, s, fl =>
    let r := f s i
    if r.status ≠ 0 then (r.st, fl ||| r.fl, some (r.status, i)) else State.slicesRun f is r.st (fl ||| r.fl)

/-- NORMS over the run: the sums are written once at the end (R246). Log entry 52: DEDUCED. -/
def State.normsRun (s : State) (ph : Nat) (d : UpdateD) (c : NmSt) (n : NormRec) (old : List Byte) :
    State × Nat × Option (Nat × Nat) :=
  let start : NormAcc := if n.anchor = c.hp.getD 12 0 % 65536 then some (n.err, n.wsq, n.usq) else none
  let fl0 := if start.isNone then flOVF else 0
  let r := (List.range d.slices).foldl (fun (a : State × Nat × Option (Nat × Nat) × NormAcc) i =>
    if a.2.2.1.isSome then a else
    let (x, acc) := a.1.normsSlice ph d c i a.2.2.2
    (x.st, a.2.1 ||| x.fl, if x.status ≠ 0 then some (x.status, i) else none, acc)) (s, fl0, none, start)
  match r.2.2.1, r.2.2.2 with
  | none, some (err, ws, us) =>
    let (s, st) := r.1.locWrite ph ⟨true, d.aux⟩ (({ n with err := err, wsq := ws, usq := us } : NormRec).bytes old)
    (s, r.2.1, if st ≠ 0 then some (st, d.slices - 1) else none)
  | f, _ => (r.1, r.2.1, f)

/-- The record of a run: its flags, and the outcome and index of the slice that failed (R158, R241). -/
def State.nmRec (ph : Nat) (r : State × Nat × Option (Nat × Nat)) : State × Rec :=
  let s := r.1.raiseFlags (pCore ph + 0x108) r.2.1
  match r.2.2 with
  | some (o, i) => (s, { Rec.ofOutcome o with flags := r.2.1, w2 := i })
  | none => (s, Rec.mk 0 r.2.1 0 0 none)

/-- An UPDATE starts: what it reads once, or its record when that cannot be read; an untrusted buffer is never read (R215,
R242, R247, R499). Log entry 34: DESIGN CHOICE. -/
def State.nmStart (s : State) (ph : Nat) (w : List Word) : State × Prog :=
  let d := updateD w
  let v := s.fget pGctl F.GCTL_STEP_VER_VER
  let e := sint 8 (s.fget pGctl F.GCTL_LSCALE_EXP)
  if d.hbmReads.any fun p => s.covered p.1.off p.2 then (s, .ran (Rec.refused 0x8C))
  else
    let g := if d.op = 0 ∨ d.op = 4 ∨ d.op = 10 then s.locRead ph ⟨true, d.hp⟩ 64 else ⟨s, 0, []⟩
    let q := if d.op = 0 ∧ d.rule = 5 then g.st.locRead ph ⟨true, d.aux⟩ 64 else ⟨g.st, 0, []⟩
    let o := if g.status ≠ 0 then g.status else q.status
    if o ≠ 0 then let r := State.nmRec ph (q.st, 0, some (o, 0)); (r.1, .ran r.2)
    else
      let trust := if d.op = 0 ∧ d.rule = 5 then (normRec q.data).trust else F32.of 0
      let t := if d.op = 2 then (List.range d.slices).foldl (fun (a : State × List (Nat × Option (Nat × Nat))) i =>
          let r := a.1.firstTag ph d v i
          (r.1, a.2 ++ [r.2])) (q.st, []) else (q.st, [])
      (t.1, .nm ⟨hdrWords g.data, v, e, trust.code, trust.fl, t.2⟩)

/-- The effect of an UPDATE that has started, and its record; its slices run as one step when it completes (R207, R241).
Log entry 34: DESIGN CHOICE. -/
def State.nmRun (s : State) (ph : Nat) (w : List Word) (c : NmSt) : State × Rec :=
  let d := updateD w
  if d.op = 9 then s.cmp ph d
  else if d.op = 5 then
    let r := s.nmerge ph d
    State.nmRec ph (r.st, r.fl, if r.status ≠ 0 then some (r.status, 0) else none)
  else if d.op = 4 then
    let q := s.locRead ph ⟨true, d.aux⟩ 64
    State.nmRec ph (if q.status ≠ 0 then (q.st, 0, some (q.status, 0)) else q.st.normsRun ph d c (normRec q.data) q.data)
  else
    let f : State → Nat → SliceRes := fun s i =>
      match d.op with
      | 0 => s.ruleSlice ph d c i
      | 1 => s.seedSlice ph d c i
      | 2 => s.deriveSlice ph d c i
      | 3 => s.foldSlice ph d c i
      | 6 => s.auditSlice ph d c i
      | 7 => s.evalSlice ph d c i
      | 8 => s.extractSlice ph d c i
      | _ => s.outerSlice ph d c i
    State.nmRec ph (State.slicesRun f (List.range d.slices) s c.fl)

/-- Is a byte that the UPDATE uses held (R277, R344)? -/
def State.updateLocked (s : State) (ph : Nat) (d : UpdateD) : Bool := d.places.any fun p => s.locLocked ph p.1 p.2.1

/-- Nutmeg takes the next UPDATE once none runs (R149). -/
def State.nmNext (s : State) (ph : Nat) : State :=
  match s.queue ph tUPDATE with
  | [] => s
  | e :: _ =>
    if e.prog = .queued ∧ !s.updateLocked ph (updateD e.words) then
      let (s, p) := s.nmStart ph e.words
      s.modInfl ph e.idx fun e => { e with prog := p }
    else s

/-- An UPDATE of the given OPs issues; one of no slices passes the checks (R240); a reserved OP is refused. Log entry 35:
DEDUCED. -/
def updateIssue (p : Nat → Bool) (n : Nat) (s : State) : State :=
  s.onCore n fun s ph =>
    match s.issuable ph fun w => hType w == tUPDATE && p (bits (wd w 2) 31 28) with
    | none => s
    | some f =>
      let d := updateD f.words
      if d.slices = 0 then s.issueDone ph f (Rec.of 0)
      else match s.updateReasons ph d with
        | r :: _ => s.issueDone ph f (Rec.refused r)
        | [] => (s.issue ph f .queued).nmNext ph

/-- R241: the running UPDATE writes its last data and its record, and the next one starts; while an access of it is held it
runs on. -/
def updateComplete (n : Nat) (s : State) : State :=
  s.onCore n fun s ph =>
    match s.queue ph tUPDATE with
    | [] => s
    | e :: _ =>
      match e.prog with
      | .ran r => (s.complete ph e r).nmNext ph
      | .nm c =>
        if s.updateLocked ph (updateD e.words) then s
        else let r := s.nmRun ph e.words c; (r.1.complete ph e r.2).nmNext ph
      | _ => s

end Sys2Proof.Machine
end

