-- ==== Sys2Proof/Machine/Quantiser.lean ====
section
/-! DEFINITION. The Zwikai operations of the vector unit: ZENC, ZACC, ZUNDO, ZMEAN and ZFIELD, with Q4 and Q8 blocks,
streams and exclusion lists (R62, R63, R390 to R400); and the queue of the vector unit (R149, R187). -/

namespace Sys2Proof.Machine

/-! ### The descriptor (R391) -/

structure ZopD where
  op : Nat
  dFmt : Nat
  s0Fmt : Nat
  s1Fmt : Nat
  rnd : Nat
  noRes : Bool
  mode : Bool
  slices : Nat
  s0 : Nat
  s1 : Nat
  s2 : Nat
  d : Nat
  imm0 : Nat
  zres : Nat
  ref : Nat
  loc : Nat
  recBytes : Nat
  anchor : Int
  step : Nat
  tensor : Nat
  stream : Nat
  slice0 : Nat
deriving DecidableEq, Repr

def zopD (w : List Word) : ZopD :=
  { op := bits (wd w 2) 31 24, dFmt := bits (wd w 2) 11 8, s0Fmt := bits (wd w 2) 23 20, s1Fmt := bits (wd w 2) 19 16, rnd := bits (wd w 2) 6 4,
    noRes := bit (wd w 2) 1,
    mode := bit (wd w 2) 0, slices := bits (wd w 3) 15 0, s0 := bits (wd w 4) 23 0, s1 := bits (wd w 5) 23 0,
    s2 := bits (wd w 6) 23 0, d := bits (wd w 7) 23 0, imm0 := (wd w 8).toNat, zres := bits (wd w 9) 31 24,
    ref := bits (wd w 9) 23 16, loc := bits (wd w 9) 15 8, recBytes := bits (wd w 9) 7 0,
    anchor := sint 16 (bits (wd w 9) 15 0), step := (wd w 11).toNat, tensor := bits (wd w 12) 31 8,
    stream := bits (wd w 12) 7 0, slice0 := (wd w 13).toNat }

/-- The offset of field o of record j of slice i of blocks at base (R233). -/
def ZopD.place (d : ZopD) (base i j o : Nat) : Nat := base + i * (64 + 4096 * d.recBytes) + 64 + j * d.recBytes + o

def ZopD.blocks (d : ZopD) (base : Nat) : Region := [(base, d.slices * (64 + 4096 * d.recBytes))]
def ZopD.tiles (d : ZopD) (base : Nat) : Region := [(base, d.slices * 16384)]
def ZopD.raws (d : ZopD) (base : Nat) : Region := (List.range d.slices).map fun i => (base + i * rawSlot, rawSlot)

/-- The fixed part of a stream: header and index (R394). -/
def ZopD.fixed (d : ZopD) (base : Nat) : Region := [(base, 64 + 4 * d.slices)]

/-- The sources an OP names, and its D: address and region (R390). -/
def ZopD.sources (d : ZopD) : List (Nat × Region) :=
  match d.op with
  | 0xC0 => [(d.s0, d.blocks d.s0)] ++ (if d.mode then [(d.s1, d.tiles d.s1)] else [])
  | 0xC1 => [(d.s0, d.fixed d.s0), (d.s2, [(d.s2, 64)])]
  | 0xC2 => [(d.s0, d.fixed d.s0), (d.s1, d.blocks d.s1)] ++ (if d.mode then [] else [(d.s2, [(d.s2, 64)])])
  | 0xC3 => [(d.s0, d.raws d.s0)]
  | _ => [(d.s0, if d.mode then d.tiles d.s0 else d.blocks d.s0)]
def ZopD.result (d : ZopD) : List (Nat × Region) :=
  match d.op with
  | 0xC0 => [(d.d, d.fixed d.d)]
  | 0xC1 => [(d.d, d.raws d.d)]
  | 0xC2 => []
  | 0xC3 => [(d.d, d.tiles d.d)]
  | _ => [(d.d, if d.mode then d.blocks d.d else d.tiles d.d)]
def ZopD.operands (d : ZopD) : List (Nat × Region) := d.sources ++ d.result

/-- Does an OP name a format in a role that R33 does not give it? A stream is a dequantiser input, and D of ZENC a
quantiser output; RAW is for D of ZACC and S0 of ZMEAN. Log entry 69: DEDUCED. -/
def ZopD.badFmt (d : ZopD) : Bool :=
  let code := fun (f : Nat) => f != 9 && f != 10
  let wide := fun (f : Nat) => decide (f > 6)
  match d.op with
  | 0xC0 => code d.dFmt || wide d.s0Fmt || (d.mode && wide d.s1Fmt)
  | 0xC1 => code d.s0Fmt || (wide d.dFmt && d.dFmt != 8)
  | 0xC2 => code d.s0Fmt || wide d.s1Fmt
  | 0xC3 => (wide d.s0Fmt && d.s0Fmt != 8) || wide d.dFmt
  | _ => wide d.s0Fmt || wide d.dFmt

/-- Is an FP32 code a whole number from 1 to 65,535? -/
def wholeDivisor (c : Nat) : Bool :=
  match fmtFP32.decode c with
  | .fin false m e => let r := ratFloor m 1 e; r.2 && decide (1 ≤ r.1 ∧ r.1 ≤ 65535)
  | _ => false

/-- The failed checks of a Zwikai operation, lowest reason first (R33, R42, R173, R188, R400). Only operands, formats and
offsets that the operation uses are tested; ZENC ignores RND (R392). Log entry 69: DEDUCED. -/
def State.zopReasons (s : State) (ph : Nat) (d : ZopD) : List Nat :=
  let on := fun (b : Bool) (n : Nat) => if b then [n] else []
  if d.op > 0xC4 then [0x74] else
  let buf := s.accBuf ph
  let raw := if d.op = 0xC1 then d.raws d.d else if d.op = 0xC3 then d.raws d.s0 else []
  on (d.operands.any fun o => o.1 % 4096 != 0) 0x13
  ++ on (d.operands.any fun o => !inside o.2 0 spSize) 0x14
  ++ on (!inside raw buf.1 buf.2) 0x16
  ++ on ((d.op != 0xC0 && decide (d.rnd > 4))
      || d.result.any fun o => d.sources.any fun x => x.2 != o.2 && overlaps x.2 o.2) 0x1B
  ++ on (d.badFmt || match d.op with
      | 0xC0 => decide (d.loc + 4 > d.recBytes) || (!d.mode && decide (d.ref + 4 > d.recBytes))
          || (!d.noRes && decide (d.zres + 2 > d.recBytes))
      | 0xC1 => false
      | 0xC2 => decide (d.zres + 2 > d.recBytes)
      | 0xC3 => !wholeDivisor d.imm0
      | _ => decide (d.loc + 4 > d.recBytes)) 0x74

/-! ### Quantised blocks (R62, R63) -/

/-- The largest magnitude of finite operands: significand and exponent. -/
def maxMag (xs : List Num) : Nat × Int :=
  xs.foldl (fun a x => match x with
    | .fin _ m e => if (dyOf false a.1 a.2).le (dyOf false m e) then (m, e) else a
    | _ => a) (0, 0)

/-- A quantised block: its BF16 scale, its codes, the flags, and whether it was written as zeros (R63). -/
structure QBlock where
  scale : Nat
  codes : List Int
  fl : Nat
  zeroed : Bool
deriving DecidableEq, Repr

/-- Is an operand infinite or a NaN? -/
def Num.special : Num → Bool
  | .fin .. => false
  | _ => true

/-- A block of 64 elements quantised (R63): top is 7 or 127, r16 the 16-bit value of R53 for each element. Log entry
64: DEDUCED. -/
def quantise (top : Nat) (xs : List Num) (r16 : Nat → Nat) : QBlock :=
  if xs.any Num.special then ⟨0, xs.map fun _ => 0, flINV, true⟩
  else
    let m := maxMag xs
    if m.1 = 0 then ⟨0, xs.map fun _ => 0, 0, false⟩
    else
      let (c, fl) := fmtBF16.convert 2 0 0 (.val false (.rat m.1 top m.2))
      match fmtBF16.decode c with
      | .fin _ mc ec =>
        let qs := xs.zipIdx.map fun x => match x.1 with
          | .fin n v e =>
            let g : Mag := .rat v mc (e - ec)
            let (f, exact) := g.floorAt 0
            let up := !exact && decide ((g.floorAt (-16)).1 % 65536 + r16 x.2 ≥ 65536)
            let k := f + b2n up
            ((if n then -(k : Int) else (k : Int)), if exact then 0 else flINX)
          | _ => (0, 0)
        ⟨c, qs.map (·.1), qs.foldl (fun a q => a ||| q.2) fl, false⟩
      | _ => ⟨0, xs.map fun _ => 0, fl, true⟩

/-- Codes as bytes: two to a byte in Q4, one in Q8 (R394). -/
def codeBytes (q8 : Bool) (cs : List Int) : List Byte :=
  if q8 then cs.map fun c => BitVec.ofNat 8 (ofSint 8 c) else nibBytes (cs.map fun c => ofSint 4 c)

/-- The codes of a sent block, or none when one of them never arises (R62). Log entry 62: DEDUCED. -/
def blockCodes (q8 : Bool) (bs : List Byte) : Option (List Int) :=
  let cs := if q8 then bs.map fun b => sint 8 b.toNat else bs.flatMap fun b => [sint 4 (b.toNat % 16), sint 4 (b.toNat / 16)]
  if cs.any fun c => c == (if q8 then -128 else -8) then none else some cs

/-! ### Streams and exclusion lists (R394, R395) -/

/-- Where a slice's entry and its sent blocks lie in a stream: bitmap offset, and block number and offset of each. -/
structure Entry where
  off : Nat
  sent : List (Nat × Nat)
deriving DecidableEq, Repr

def blockBytes (q8 : Bool) : Nat := if q8 then 66 else 34

/-- The entry whose bitmap is at a stream offset. -/
def entryOf (q8 : Bool) (off bitmap : Nat) : Entry :=
  let bs := (List.range 64).filter fun b => bitmap.testBit b
  ⟨off, bs.zipIdx.map fun x => (x.1, off + 8 + x.2 * blockBytes q8)⟩

/-- An exclusion list: everything, or byte ranges. -/
structure Exclusion where
  all : Bool
  ranges : List (Nat × Nat)
deriving DecidableEq, Repr

/-- Does a range touch n bytes from a? -/
def Exclusion.hits (x : Exclusion) (a n : Nat) : Bool := x.ranges.any fun r => decide (r.1 < a + n ∧ a < r.2)

/-- Is a sent block excluded (R395)? -/
def Exclusion.block (x : Exclusion) (slices : Nat) (q8 : Bool) (e : Entry) (off : Nat) : Bool :=
  x.all || x.hits 0 (64 + 4 * slices) || x.hits e.off 8 || x.hits off (blockBytes q8)

/-- The exclusion list at a scratchpad offset. -/
def State.exclusion (s : State) (ph x : Nat) : State × Exclusion × Bool :=
  let (s, ue) := s.touch ph [(x, 64)]
  let n := leNat (s.mem.read (spKey ph x) 4)
  if n = 0xFFFFFFFF then (s, ⟨true, []⟩, ue)
  else
    let k := min n 1024
    let (s, ue2) := s.touch ph [(x + 64, 8 * k)]
    let ws := (chunks 8 k (s.mem.read (spKey ph (x + 64)) (8 * k)))
    (s, ⟨false, ws.map fun b => (field b 0 4, field b 4 4)⟩, ue || ue2)

/-- A stream header: format, slices, and whether its CRC holds. -/
structure StreamHdr where
  fmt : Nat
  slices : Nat
  bytes : Nat
  ok : Bool
deriving DecidableEq, Repr

def streamHdr (hd index : List Byte) : StreamHdr :=
  let w := wordsOf 16 hd
  ⟨bits (wd w 0) 23 20, (wd w 1).toNat, (wd w 2).toNat, field hd 0x38 8 == crc64 (hd.take 0x38 ++ index)⟩

/-- The header of the stream at a scratchpad offset, its index read, and whether a word failed. Log entry 61: DEDUCED.
-/
def State.streamAt (s : State) (ph x : Nat) : State × StreamHdr × Bool :=
  let hd := s.mem.read (spKey ph x) 64
  let n := min (streamHdr hd []).slices 65535
  let (s, ue) := s.touch ph [(x, 64 + 4 * n)]
  (s, streamHdr hd (s.mem.read (spKey ph (x + 64)) (4 * n)), ue)

/-- The entry of slice i of a stream. Log entry 61: DEDUCED. -/
def State.entryAt (s : State) (ph x i : Nat) (q8 : Bool) : Entry :=
  let off := leNat (s.mem.read (spKey ph (x + 64 + 4 * i)) 4)
  entryOf q8 off (leNat (s.mem.read (spKey ph (x + off)) 8))

/-- The bytes an entry occupies. -/
def Entry.region (e : Entry) (x : Nat) (q8 : Bool) : Region := [(x + e.off, 8 + e.sent.length * blockBytes q8)]

/-- The outcome of the slices of a Zwikai operation so far: status 0 while all went well. -/
structure ZRun where
  st : State
  status : Nat
  fl : Nat
deriving DecidableEq, Repr

/-- Slices in ascending order until one fails. -/
def zrun (n : Nat) (s : State) (f : State → Nat → ZRun) : ZRun :=
  (List.range n).foldl (fun (a : ZRun) i =>
    if a.status ≠ 0 then a else let r := f a.st i; ⟨r.st, r.status, a.fl ||| r.fl⟩) ⟨s, 0, 0⟩

/-- An FP32 or BF16 field of a record in a core's scratchpad. -/
def State.zget (s : State) (ph x k : Nat) : Nat := leNat (s.mem.read (spKey ph x) k)

/-- A field written, and the status of its merge. -/
def State.zput (a : State × Nat) (ph x k v : Nat) : State × Nat :=
  let r := a.1.spWrite ph x (leBytes k v)
  (r.st, if a.2 = 0 then r.status else a.2)

/-! ### ZENC (R392 to R394) -/

/-- a < b, false when either is a NaN. -/
def Num.lt (a b : Num) : Bool := a != .nan && b != .nan && !(b.le a)

/-- |x| -/
def Num.abs : Num → Num
  | .fin _ m e => .fin false m e
  | .inf _ => .inf false
  | .nan => .nan

/-- A BF16 residual: code and flags (R392). -/
def toBF16 (v : XVal) : Nat × Nat := fmtBF16.convert 0 0 0 v.posZero

/-- The values x of a slice with their flags (R392). -/
def State.zencX (s : State) (ph : Nat) (d : ZopD) (i j : Nat) : F32 :=
  let w := F32.of (s.zget ph (d.place d.s0 i j d.loc) 4)
  let z := F32.of (if d.mode then s.zget ph (d.s1 + i * 16384 + 4 * j) 4 else s.zget ph (d.place d.s0 i j d.ref) 4)
  let r := F32.of (if d.noRes then 0 else s.zget ph (d.place d.s0 i j d.zres) 2 * 65536)
  (z.sub w).add r

/-- One slice encoded: the entry bytes; residuals are written unless NO_RES. -/
def State.zencSlice (s : State) (ph : Nat) (d : ZopD) (site i : Nat) : ZRun × List Byte :=
  let q8 := d.dFmt == 10
  let skip := fmtFP32.decode d.imm0
  let key := srKey d.step (site * 2 ^ 20 + d.tensor % 2 ^ 20) d.stream
  let (s, ue) := s.touch ph ([(d.s0 + i * (64 + 4096 * d.recBytes), 64 + 4096 * d.recBytes)]
    ++ (if d.mode then [(d.s1 + i * 16384, 16384)] else []))
  if ue then (⟨s, 7, 0⟩, [])
  else
    let out := (List.range 64).foldl (fun (a : (State × Nat) × Nat × Nat × List Byte) b =>
      let xs := (List.range 64).map fun k => a.1.1.zencX ph d i (64 * b + k)
      let ns := xs.map F32.num
      let f0 := xs.foldl (fun f x => f ||| x.fl) a.2.1
      let put := fun (st : State × Nat) (rs : List (Nat × Nat)) =>
        if d.noRes then st else rs.zipIdx.foldl (fun st r => State.zput st ph (d.place d.s0 i (64 * b + r.2) d.zres) 2 r.1.1) st
      if ns.all fun x => x.abs.lt skip then
        let rs := ns.map fun x => toBF16 x.toX
        (put a.1 rs, if d.noRes then f0 else rs.foldl (fun f r => f ||| r.2) f0, a.2.2.1, a.2.2.2)
      else
        let q := quantise (if q8 then 127 else 7) ns fun k => srR key ((d.slice0 + i) * 4096 + 64 * b + k)
        let rs := (List.zip ns q.codes).map fun p =>
          if q.zeroed then (0, 0)
          else toBF16 ((p.1.toE.add (((fmtBF16.decode q.scale).toE.mul (.dy ⟨p.2, 0⟩)).1.neg)).1).toX
        (put a.1 rs, (if d.noRes then f0 else rs.foldl (fun f r => f ||| r.2) f0) ||| q.fl, a.2.2.1 ||| 2 ^ b,
         a.2.2.2 ++ leBytes 2 q.scale ++ codeBytes q8 q.codes)) ((s, 0), 0, 0, [])
    (⟨out.1.1, out.1.2, out.2.1⟩, leBytes 8 out.2.2.1 ++ out.2.2.2)

/-- ZENC: the slices are encoded and the stream is written at D (R392, R394). The bytes between index and entries are
free. A stream that does not fit the scratchpad ends the operation as ACCESS_DENIED. Log entries 66: DESIGN CHOICE,
67: DEDUCED. -/
def State.zenc (s : State) (ph : Nat) (d : ZopD) : ZRun :=
  let site := s.fget pZwk F.ZWK_CFG_SITE_ID
  let r := (List.range d.slices).foldl (fun (a : ZRun × List (List Byte)) i =>
    if a.1.status ≠ 0 then a else
    let (x, bs) := a.1.st.zencSlice ph d site i
    (⟨x.st, x.status, a.1.fl ||| x.fl⟩, a.2 ++ [bs])) (⟨s, 0, 0⟩, [])
  if r.1.status ≠ 0 then
    let (bs, s) := r.1.st.drawBytes (64 + 4 * d.slices)
    ⟨s.sput ph d.d bs, r.1.status, r.1.fl⟩
  else
    let start := cdiv (64 + 4 * d.slices) 64 * 64
    let offs := (r.2.foldl (fun (a : Nat × List Nat) b => (a.1 + b.length, a.2 ++ [a.1])) (start, [])).2
    let len := start + (r.2.map List.length).sum
    let index := offs.flatMap fun o => leBytes 4 o
    let (pad, s) := r.1.st.drawBytes (start - (64 + 4 * d.slices))
    let hd := leBytes 4 (0x5A * 2 ^ 24 + d.dFmt * 2 ^ 20 + site % 16) ++ leBytes 4 d.slices ++ leBytes 4 len
      ++ leBytes 4 d.slice0 ++ leBytes 4 d.step ++ leBytes 4 d.tensor ++ leBytes 32 0
    let all := hd ++ leBytes 8 (crc64 (hd ++ index)) ++ index ++ pad ++ r.2.flatten
    let fit := all.take (spSize - d.d)
    let w := s.spWrite ph d.d fit
    ⟨w.st, if fit.length < all.length then 0x0B else w.status, r.1.fl⟩

/-! ### ZACC (R396) -/

/-- One product added to an element: V, nibble, and whether it was rounded and overflowed. -/
structure ZElem where
  v : Int
  nib : Nat
  err : Nat
  fl : Nat
deriving DecidableEq, Repr

/-- w × q × c added at an anchor (R112, R128, R396). Log entries 63: DEDUCED, 68: DEDUCED. -/
def ZElem.add (x : ZElem) (anchor : Int) (w : Num) (q : Int) (c : Num) : ZElem :=
  let qc := c.toE.mul (.dy ⟨q, 0⟩)
  let p := w.toE.mul qc.1
  match p.1 with
  | .nan => { x with nib := x.nib ||| (if p.2 || qc.2 then 12 else 4) }
  | .inf n => { x with nib := x.nib ||| (if n then 2 else 1) }
  | .dy d =>
    let (k, changed) := rneMult d.v d.e anchor
    let t := x.v + k
    let t' := max (-(2 : Int) ^ 127) (min ((2 : Int) ^ 127 - 1) t)
    { x with v := t', err := x.err + b2n changed, fl := if t = t' then x.fl else x.fl ||| flOVF }

/-- A slot of zeros with an anchor. -/
def zeroRaw (anchor : Int) : RawTile :=
  mkRaw ⟨0, false, false, true, anchor, 0, 0, 0, 0, 0, 0⟩ ((List.range 4096).map fun _ => 0) ((List.range 4096).map fun _ => 0)

/-- The sent blocks of a slice that are not excluded: block number, scale and codes; none when a code fails (R62). Log
entry 62: DEDUCED. -/
def State.sentBlocks (s : State) (ph x : Nat) (q8 : Bool) (e : Entry) (keep : Nat → Bool) : Option (List (Nat × Nat × List Int)) :=
  (e.sent.filter fun b => keep b.2).mapM fun b =>
    (blockCodes q8 (s.mem.read (spKey ph (x + b.2 + 2)) (blockBytes q8 - 2))).map fun cs =>
      (b.1, s.zget ph (x + b.2) 2, cs)

/-- ZACC on slice i. Log entries 63: DEDUCED, 68: DEDUCED. -/
def State.zaccSlice (s : State) (ph : Nat) (d : ZopD) (h : StreamHdr) (x : Exclusion) (i : Nat) : ZRun :=
  let q8 := h.fmt == 10
  let slot := d.d + i * rawSlot
  if i ≥ h.slices then ⟨s, 7, 0⟩ else
  let e := s.entryAt ph d.s0 i q8
  let (s, ue) := s.touch ph (e.region d.s0 q8)
  let (s, t) := if d.mode then (s, some (zeroRaw d.anchor)) else s.readSlot ph slot
  match t, s.sentBlocks ph d.s0 q8 e fun o => !x.block h.slices q8 e o with
  | some t, some bs =>
    if ue ∨ t.hdr.anchor ≠ d.anchor then ⟨s, 7, 0⟩
    else
      let w := fmtFP32.decode d.imm0
      let upd := bs.flatMap fun b => b.2.2.zipIdx.map fun c =>
        (rawIdx b.1 c.2, c.1, fmtBF16.decode b.2.1)
      let start : Array ZElem := ((List.range 4096).map fun k => ZElem.mk (t.v k) (t.nib k) 0 0).toArray
      let fin := upd.foldl (fun (a : Array ZElem) u => a.modify u.1 fun z => z.add d.anchor w u.2.1 u.2.2) start
      let err := min (t.hdr.err + fin.foldl (fun n z => n + z.err) 0) (2 ^ 64 - 1)
      let out := mkRaw { t.hdr with anchored := true, err := err } (fin.toList.map (·.v)) (fin.toList.map (·.nib))
      ⟨(s.freshCode ph (out.region slot)).putRaw ph slot out, 0, fin.foldl (fun f z => f ||| z.fl) 0⟩
  | _, _ => ⟨s, 7, 0⟩

/-- ZACC (R396). -/
def State.zacc (s : State) (ph : Nat) (d : ZopD) : ZRun :=
  let (s, h, ue) := s.streamAt ph d.s0
  let (s, x, ue2) := s.exclusion ph d.s2
  if ue || ue2 || !h.ok || (h.fmt != 9 && h.fmt != 10) then ⟨s, 7, 0⟩
  else zrun d.slices s fun s i => s.zaccSlice ph d h x i

/-! ### ZUNDO, ZMEAN and ZFIELD (R397 to R399) -/

/-- ZUNDO on slice i. -/
def State.zundoSlice (s : State) (ph : Nat) (d : ZopD) (h : StreamHdr) (x : Exclusion) (i : Nat) : ZRun :=
  let q8 := h.fmt == 10
  if i ≥ h.slices then ⟨s, 7, 0⟩ else
  let e := s.entryAt ph d.s0 i q8
  let (s, ue) := s.touch ph (e.region d.s0 q8 ++ [(d.s1 + i * (64 + 4096 * d.recBytes), 64 + 4096 * d.recBytes)])
  match s.sentBlocks ph d.s0 q8 e fun o => d.mode || x.block h.slices q8 e o with
  | none => ⟨s, 7, 0⟩
  | some bs =>
    if ue then ⟨s, 7, 0⟩
    else
      let r := bs.foldl (fun (a : (State × Nat) × Nat) b =>
        b.2.2.zipIdx.foldl (fun a c =>
          let o := d.place d.s1 i (64 * b.1 + c.2) d.zres
          let q := (fmtBF16.decode b.2.1).toE.mul (.dy ⟨c.1, 0⟩)
          let v := ((fmtBF16.decode (a.1.1.zget ph o 2)).toE).add q.1
          let (code, fl) := toBF16 v.1.toX
          (State.zput a.1 ph o 2 code, a.2 ||| fl ||| (if q.2 || v.2 then flINV else 0))) a) ((s, 0), 0)
      ⟨r.1.1, r.1.2, r.2⟩

/-- ZUNDO (R397). Log entry 65: DEDUCED. -/
def State.zundo (s : State) (ph : Nat) (d : ZopD) : ZRun :=
  let (s, h, ue) := s.streamAt ph d.s0
  let (s, x, ue2) := if d.mode then (s, ⟨false, []⟩, false) else s.exclusion ph d.s2
  if ue || ue2 || (h.fmt != 9 && h.fmt != 10) then ⟨s, 7, 0⟩
  else zrun d.slices s fun s i => s.zundoSlice ph d h x i

/-- ZMEAN on slice i (R398). -/
def State.zmeanSlice (s : State) (ph : Nat) (d : ZopD) (i : Nat) : ZRun :=
  match s.readSlot ph (d.s0 + i * rawSlot) with
  | (s, none) => ⟨s, 7, 0⟩
  | (s, some t) =>
    let n := F32.of d.imm0
    let ys := (List.range 4096).map fun j =>
      let e := t.elem j
      let v := rawValue e.1 e.2 t.hdr.anchor
      (F32.rne v.1 v.2 0).div n
    let w := s.spWrite ph (d.d + i * 16384) (ys.flatMap fun y => leBytes 4 y.code)
    ⟨w.st, w.status, ys.foldl (fun f y => f ||| y.fl) 0⟩

/-- ZFIELD on slice i (R399). -/
def State.zfieldSlice (s : State) (ph : Nat) (d : ZopD) (i : Nat) : ZRun :=
  if d.mode then
    let (s, ue) := s.touch ph [(d.s0 + i * 16384, 16384)]
    if ue then ⟨s, 7, 0⟩
    else
      let r := (List.range 4096).foldl (fun (a : State × Nat) j =>
        State.zput a ph (d.place d.d i j d.loc) 4 (a.1.zget ph (d.s0 + i * 16384 + 4 * j) 4)) (s, 0)
      ⟨r.1, r.2, 0⟩
  else
    let (s, ue) := s.touch ph [(d.s0 + i * (64 + 4096 * d.recBytes), 64 + 4096 * d.recBytes)]
    if ue then ⟨s, 7, 0⟩
    else
      let w := s.spWrite ph (d.d + i * 16384) ((List.range 4096).flatMap fun j => leBytes 4 (s.zget ph (d.place d.s0 i j d.loc) 4))
      ⟨w.st, w.status, 0⟩

/-- The effect of a Zwikai operation and its record; flags go to ZWK.ZQ_FLAGS (R65, R390). -/
def State.zopRun (s : State) (ph : Nat) (w : List Word) : State × Rec :=
  let d := zopD w
  let r := match d.op with
    | 0xC0 => s.zenc ph d
    | 0xC1 => s.zacc ph d
    | 0xC2 => s.zundo ph d
    | 0xC3 => zrun d.slices s fun s i => s.zmeanSlice ph d i
    | _ => zrun d.slices s fun s i => s.zfieldSlice ph d i
  (r.st.raiseFlags (pZwk + 0x100) r.fl, ⟨r.status, r.fl, 0, 0, none⟩)

/-! ### The vector unit's queue -/

/-- Is a VECTOR one of the Zwikai operations? -/
def isZop (w : List Word) : Bool := bits (wd w 2) 31 28 == 0xC

/-- The scratchpad a VECTOR uses, for locks (R344). -/
def vxRegion (w : List Word) : Region :=
  if isZop w then (zopD w).operands.flatMap (·.2)
  else let d := vectorD w; d.dReg ++ (((vxSrcs d.op).getD []).flatMap d.srcReg)

/-- The vector unit takes the next VECTOR once none runs; its data effect comes about at the start (R149, R187). Log
entry 44: DEDUCED. -/
def State.vxNext (s : State) (ph : Nat) : State :=
  match s.queue ph tVECTOR with
  | [] => s
  | e :: _ =>
    if e.prog = .queued ∧ !s.spLocked ph (vxRegion e.words) then
      let (s, r) := if isZop e.words then s.zopRun ph e.words else s.vectorRun ph e.words
      s.modInfl ph e.idx fun e => { e with prog := .ran r }
    else s

/-- A VECTOR of the OPs that p names issues: checked, and done at once without elements (R187, R188, R400). Log entry
35: DEDUCED. -/
def vectorIssue (p : Nat → Bool) (n : Nat) (s : State) : State :=
  s.onCore n fun s ph =>
    match s.issuable ph fun w => hType w == tVECTOR && p (bits (wd w 2) 31 24) with
    | none => s
    | some f =>
      let z := isZop f.words
      let d := vectorD f.words
      match if z then s.zopReasons ph (zopD f.words) else s.vectorReasons ph d with
      | r :: _ => s.issueDone ph f (Rec.refused r)
      | [] =>
        if (if z then (zopD f.words).slices = 0 else d.rows = 0 ∨ d.cols = 0) then s.issueDone ph f (Rec.of 0)
        else (s.issue ph f .queued).vxNext ph

/-- R187, R400: the running VECTOR or Zwikai operation writes its record, and the next one starts. -/
def vectorComplete (n : Nat) (s : State) : State :=
  s.onCore n fun s ph =>
    match s.queue ph tVECTOR with
    | [] => s
    | e :: _ =>
      match e.prog with
      | .ran r => (s.complete ph e r).vxNext ph
      | _ => s

end Sys2Proof.Machine
end

