-- ==== Sys2Proof/Machine/Fabric.lean ====
section
/-! DEFINITION. The fabric at both ends: requests performed at their target, answers taken at their source, the tracker's
events, transit and routes; and what goes on once a hold ends (R291 to R329, R344, R349, R369). -/

namespace Sys2Proof.Machine

/-! ### The end of a request at its source (R316, R320, R326) -/

/-- What the end of a request means to the engine that waits for it. -/
def State.reqEnd (s : State) (r : Req) (status detail : Nat) (degraded : Bool) (data : List Byte) : State :=
  let s := if status = 0 then s else s.captureOwner r.owner r.cls r.dst (status, detail)
  match r.owner with
  | .move core idx part dst fieldAt => s.moveDone r core idx part dst fieldAt status detail degraded data
  | .chain core idx isSignal => s.chainDone core idx isSignal status detail
  | .sync core idx =>
    let s := match r.txn with
      | some t => if status = 0 then s else s.slotAbort t 4
      | none => s
    s.syncDone core idx status detail
  | .bar2 id place => s.b2Done id place status data
  | .saf eng idx part place => s.safAnswered eng idx part place status detail data
  | .coll core idx tag place => (s.collReqDone core idx tag place status detail data).collSettle
  | .clove _ => s
  | .zwk id => if status = 0 then s else (s.dropWaiting fun o => decide (id ≠ 0 ∧ o = .zwk id)).1

/-- A request leaves the tracker and ends. -/
def State.endReq (s : State) (r : Req) (status detail : Nat) (degraded : Bool) (data : List Byte) : State :=
  (s.dropReq fun x => x == r).reqEnd r status detail degraded data

/-- The entry that an answer matches (R320): TAG, SRC, DST and generation. -/
def State.matchReq (s : State) (p : Packet) (gen : Nat) : Option Req :=
  s.fab.reqs.find? fun r => r.holds && r.tag == p.tag && r.dst == p.src && r.src == p.dst && r.gen == gen

/-- R320: a response arrives. One that matches no entry is discarded and counted where the module consumes it. Log entry
244: DESIGN CHOICE. -/
def rsp (a : Arrival) (gen : Fin 16) (s : State) : State :=
  let p := a.pkt
  if p.op ≠ opRSP then s
  else match s.matchReq p gen.val with
    | some r => s.endReq r (tableStatus p.status) p.detail p.degraded (if p.status = 0 then p.payload else [])
    | none => if s.consumes p then s.finc pOgs F.OGS_ADM_CNT2_LATE_RSP else s

/-- A request changed at the tracker. -/
def State.modReq (s : State) (r : Req) (f : Req → Req) : State :=
  { s with fab := { s.fab with reqs := modFirst (fun x => x == r) f s.fab.reqs } }

/-- R314: a NAK arrives: the target's queue for class C2 is full. Log entries 97: DESIGN CHOICE, 98: DEDUCED. -/
def fabNak (a : Arrival) (gen : Fin 16) (s : State) : State :=
  let p := a.pkt
  if p.op ≠ opNAK then s
  else match s.matchReq p gen.val with
    | some r =>
      if r.cls ≠ 2 then s
      else
        let s := if r.delayed then s else s.finc pOgs F.OGS_ADM_CNT0_C2_HELD
        s.modReq r fun r => { r with phase := .naked p.detail, delayed := true }
    | none => if s.consumes p then s.finc pOgs F.OGS_ADM_CNT2_LATE_RSP else s

/-- R314: a NAKed request is sent again; without a route, and while OGS.CFG.EN is 0, it ends as at its admission. Log
entry 98: DEDUCED. -/
def c2Resend (tag : Fin 262144) (s : State) : State :=
  match s.fab.reqs.find? fun r => r.tag == tag.val && (match r.phase with | .naked _ => true | _ => false) with
  | none => s
  | some r =>
    if s.fget pOgs F.OGS_CFG_EN = 0 then s.endReq r 0x0B 0 false [] else
    match s.egress r.dst with
    | none => s.endReq r 4 0x40 false []
    | some port =>
      if 1 > s.fget pOgs F.OGS_CFG_HOP_MAX then s.endReq r 4 0x41 false []
      else
        let s := s.modReq r fun r => { r with phase := .resent (match r.phase with | .naked d => d | _ => 0) }
        s.toPort port (reqPacket r.op r.cls r.len r.tag r.src r.dst r.off r.txn r.data).hop

/-- R315: a free entry is granted to the oldest request of the class that waits. -/
def trackerAdmit (cls : Fin 4) (s : State) : State :=
  match s.fab.reqs.find? fun r => r.cls == cls.val && !r.holds with
  | none => s
  | some r =>
    if classEntries cls.val ≤ s.inUse cls.val then s
    else
      let s := s.dropReq fun x => x == r
      match s.grant r with
      | (s, none) => s
      | (s, some f) => s.reqEnd r f.1 f.2 false []

/-- R320: no response REQ_TMO after admission: the request ends as TIMEOUT. A request held by a NAK is not admitted at
its target. Log entry 5: DESIGN CHOICE. -/
def requestTimeout (tag : Fin 262144) (s : State) : State :=
  if s.fget pOgs ⟨0x05C, 23, 0⟩ = 0 then s
  else match s.fab.reqs.find? fun r => r.tag == tag.val && (match r.phase with | .admitted | .resent _ => true | _ => false) with
    | some r => (s.finc pOgs F.OGS_ADM_CNT2_TIMEOUTS).endReq r 9 0 false []
    | none => s

/-- The C2 requests whose delay runs, in order of their arrival at the tracker: held there or by a NAK, or held once and
not yet known to be accepted (R316). -/
def State.heldC2 (s : State) : List Req :=
  s.fab.reqs.filter fun r => r.cls == 2 && (r.phase != .admitted || r.delayed)

/-- R316, R317: the delay of the k-th held C2 request reached C2_TMO: it ends as RETRY_LATER with the hint, a free value for
a request that waits neither at its tracker nor on a NAK. Log entry 251: DESIGN CHOICE. -/
def c2Timeout (k : Nat) (s : State) : State :=
  match s.heldC2[k]? with
  | none => s
  | some r =>
    let (c, s) := s.draw
    let ahead := ((s.fab.reqs.takeWhile fun x => x != r).filter fun x => x.cls == 2 && !x.holds).length
    let hint := match r.phase with
      | .naked d => 32768 + min d 32767
      | .resent d => 32768 + min d 32767
      | .waiting => min ahead 32767
      | .admitted => (Config.freeWord c).toNat % 65536
    (s.finc pOgs F.OGS_ADM_CNT1_C2_RETRY).endReq r 3 hint false []

/-! ### Requests at their target -/

/-- Is a request one that reads or writes bursts now: an RD, or a WR outside a transaction? -/
def onBursts (p : Packet) : Bool := p.op == opRD || (p.op == opWR && !p.txn)

/-- Do two requests touch the same 32-byte burst (R323)? -/
def sameBurst (p q : Packet) : Bool :=
  onBursts p && onBursts q && p.off / 32 ≤ (q.off + q.len - 1) / 32 && q.off / 32 ≤ (p.off + p.len - 1) / 32

/-- Is a request held at its target (R277, R344, R548), or behind an earlier one to the same burst that is (R323)? -/
def State.packetHeld (s : State) (p : Packet) : Bool :=
  if onBursts p then
    s.endHeld p.off p.len || s.held.any fun h => match h with
      | .packet b => sameBurst b.pkt p
      | _ => false
  else if p.op = opSIG ∧ !p.txn then
    let w := BitVec.ofNat 32 (leNat (p.payload.take 4))
    s.regHeld (Block.core.page (bits w 31 22) + 0x200 + 4 * bits w 21 16)
  else false

/-- An RD performed (R293 to R295, R324, R499). -/
def State.serveRd (s : State) (p : Packet) : Res :=
  if !fabricSize p.off p.len then ⟨s, 0x0B, 0, []⟩
  else if inRegs p.off then
    let a := p.off - regBase
    if p.len ≠ 4 then ⟨s, 0x0B, 0, []⟩
    else if !(State.fabricMay a true && s.fget pOgs F.OGS_CFG_REG_REMOTE == 1) then ⟨s.regDeny a false, 0x0B, 0, []⟩
    else
      let r := s.regRead .fabric a
      ⟨r.1, 0, 0, leBytes 4 r.2.toNat⟩
  else if s.covered p.off p.len then ⟨s, 4, 0x8C, []⟩
  else
    let r := s.memRead p.off p.len
    { r with data := if r.status = 0 then r.data else [] }

/-- The doorbell that a transactional write to the SET view of an F2H_DB stands for. Log entry 100: DEDUCED. -/
def doorbellOf (a : Nat) : Option HostPort :=
  if a = doorbellAddr .a then some .a else if a = doorbellAddr .b then some .b else none

/-- A transactional WR logged (R338, R339): a write of class C0 to the SET view of an F2H_DB as a doorbell, another to a
register through its normal view (R333). Log entry 100: DEDUCED. -/
def State.logWr (s : State) (p : Packet) : Res :=
  let a := p.off - regBase
  let log := fun (e : LogEntry) => let r := s.logEntry p.txnId e; (⟨r.1, r.2.1, r.2.2, []⟩ : Res)
  if inRegs p.off then
    match if p.cls = 0 then doorbellOf a else none with
    | some port => log (.doorbell port ((leNat p.payload).log2 % 32))
    | none =>
      if s.regDenied a || s.fget pOgs F.OGS_CFG_REG_REMOTE == 0 then ⟨s, 0x0B, 0, []⟩
      else log (.reg (regAlias a) (BitVec.ofNat 32 (leNat p.payload)))
  else match s.place p.off p.len with
    | .denied => ⟨s, 0x0B, 0, []⟩
    | _ => log (.mem p.off p.payload)

/-- A WR performed or logged (R293 to R295, R321, R339). Log entry 101: DEDUCED. -/
def State.serveWr (s : State) (p : Packet) : Res :=
  if !fabricSize p.off p.len ∨ p.payload.length ≠ p.len ∨ (inRegs p.off ∧ p.len ≠ 4) then ⟨s, 0x0B, 0, []⟩
  else if p.txn then s.logWr p
  else if inRegs p.off then
    let a := p.off - regBase
    if !(State.fabricMay a true && s.fget pOgs F.OGS_CFG_REG_REMOTE == 1) then ⟨s.regDeny a true, 0x0B, 0, []⟩
    else
      let r := s.regWrite .fabric a 0xF (BitVec.ofNat 32 (leNat p.payload))
      ⟨r.1, if r.2 then 0 else 9, 0, []⟩
  else s.memWrite p.off p.payload

/-- A SIG performed or logged (R303, R339, R565). Log entry 21: DESIGN CHOICE. -/
def State.serveSig (s : State) (p : Packet) : Res :=
  let w := BitVec.ofNat 32 (leNat (p.payload.take 4))
  if p.txn then
    if (s.phys (bits w 31 22)).isNone then ⟨s, 0x0B, 0, []⟩
    else
      let r := s.logEntry p.txnId (.signal w)
      ⟨r.1, r.2.1, r.2.2, []⟩
  else
    let r := s.signalCore (bits w 31 22) (bits w 21 16) (bits w 7 0)
    ⟨r.1, r.2, 0, []⟩

/-- A request performed at its target, and answered (R321). -/
def State.serve (s : State) (p : Packet) : State :=
  let r := if p.op = opRD then s.serveRd p else if p.op = opWR then s.serveWr p else s.serveSig p
  r.st.respond p r.status r.detail r.data

/-- A request with an OP that reached this module: turned away, held, or performed. -/
def State.arrive (s : State) (a : Arrival) (op : Nat) : State :=
  if a.pkt.op ≠ op ∨ !s.consumes a.pkt then s
  else match s.turnAway a with
    | some t => t
    | none => if s.packetHeld a.pkt then { s with held := s.held ++ [.packet a] } else s.serve a.pkt

/-! ### Holds that end (R277, R344, R548) -/

/-- One held access goes on, or stays held. -/
def State.tryHeld (s : State) (h : HeldAcc) : State :=
  match h with
  | .packet a => if s.packetHeld a.pkt then { s with held := s.held ++ [h] } else s.serve a.pkt
  | .regWrite w => s.writeAcc w
  | .regRead r => s.readAcc r
  | .bar2 id => s.b2Release id
  | .piece core idx => s.pieceGo core idx
  | .record core idx =>
    match s.infl core idx with
    | some e => match e.prog with
      | .done r => s.complete core e r
      | _ => s
    | none => s
  | .signal core tok count => s.signal core tok count

/-- Held accesses go on in the order of their arrival, again while one of them was released. Log entry 225: DEDUCED.
-/
def State.releaseHeld : Nat → State → State
  | 0, s => s
  | fuel + 1, s =>
    if s.held.isEmpty then s
    else
      let n := s.held.length
      let t := s.held.foldl State.tryHeld { s with held := [] }
      if t.held.length < n then State.releaseHeld fuel t else t

/-- Engines that stalled on a request since admitted or ended go on with their next one (R314). fuel bounds their
requests. Log entry 250: DESIGN CHOICE. -/
def State.unstall : Nat → State → State
  | 0, s => s
  | fuel + 1, s =>
    match s.fab.stalled.find? fun r => !(s.fab.reqs.any fun x => !x.holds && x.owner.key == r.owner.key) with
    | none => s
    | some r =>
      let s := { s with fab := { s.fab with stalled := eraseFirst (fun x => x == r) s.fab.stalled } }
      match s.reachTracker r true with
      | (s, none) => State.unstall fuel s
      | (s, some f) => State.unstall fuel (s.reqEnd r f.1 f.2 false [])

/-- What waited for a lock, a repair, a sparing operation or the tracker goes on: requests of engines that stalled, held
accesses, then the engines of the cores. Log entry 225: DEDUCED. -/
def State.settle (s : State) : State :=
  let s := State.unstall s.fab.stalled.length s
  let s := State.releaseHeld (s.held.length + 1) s
  let s := s.cores.foldl (fun s e =>
    if e.2.inflight.isEmpty then s else (((s.vxNext e.1).nmNext e.1).chainAgain e.1).txnNext e.1) s
  s.collSettle

/-- R321, R324: a read reaches this module. -/
def rd (a : Arrival) (s : State) : State := s.arrive a opRD
/-- R321, R339: a write reaches this module. -/
def wr (a : Arrival) (s : State) : State := (s.arrive a opWR).settle
/-- R303: a token signal reaches this module. -/
def sig (a : Arrival) (s : State) : State := s.arrive a opSIG

/-! ### Clove messages (R349) -/

/-- A Clove message of one kind reaches this module. Log entry 103: DEDUCED. -/
def State.cloveArrive (s : State) (a : Arrival) (kind : Nat) : State :=
  if a.pkt.op ≠ opMSG ∨ a.pkt.cls ≠ 0 ∨ (cloveMsg a.pkt.payload).kind ≠ kind ∨ !s.consumes a.pkt then s
  else match s.turnAway a with
    | some t => t
    | none =>
      let r := s.cloveReceive a.pkt
      (r.1.respond a.pkt r.2.1 r.2.2 []).settle

/-- R349: a member registers with its coordinator. -/
def join (a : Arrival) (s : State) : State := s.cloveArrive a kJOIN
/-- R346: a vote reaches the coordinator. -/
def vote (a : Arrival) (s : State) : State := s.cloveArrive a kVOTE
/-- R347: a decision reaches a member. -/
def decideMsg (a : Arrival) (s : State) : State := s.cloveArrive a kDECIDE
/-- R350: a member holds the decision. -/
def ack (a : Arrival) (s : State) : State := s.cloveArrive a kACK
/-- R351: a member asks for the decision. -/
def query (a : Arrival) (s : State) : State := s.cloveArrive a kQUERY

/-! ### The apply of a log (R341, R347, R348) -/

/-- One entry performed; bad: the 32-byte units of its payload that the log no longer holds. Gives whether all of it
was. Log entry 112: DEDUCED. -/
def State.applyEntry (s : State) (e : LogEntry) (bad : List Nat) : State × Bool :=
  match e with
  | .mem off data =>
    (cutAt 32 (data.length + 1) 0 data).foldl (fun (a : State × Bool) c =>
      if bad.contains (c.1 / 32) then (a.1, false)
      else
        let r := a.1.memWrite (off + c.1) c.2
        (r.st, a.2 && r.status == 0)) (s, true)
  | .reg a v => if bad.isEmpty then ((s.regWrite .fabric (regAlias a) 0xF v).1, true) else (s, false)
  | .doorbell p b =>
    if bad.isEmpty then
      let m := pMbx p
      let s' := s.setReg (m + 0x0D0) (s.reg (m + 0x0D0) ||| maskBits b b)
      (s'.f2hRing p (s.reg (m + 0x0D0)) (s.reg (m + 0x0D4)), true)
    else (s, false)
  | .signal w =>
    if bad.isEmpty then
      (match s.phys (bits w 31 22) with
        | some ph => s.signalNow ph (bits w 21 16) (bits w 7 0)
        | none => s, true)
    else (s, false)

/-- Is a local offset one of the write-intent log (R341)? -/
def State.inLog (s : State) (off : Nat) : Bool := off / 2 ^ 30 == s.fget pClv F.CLV_LOG_BASE_BASE

/-- R341, R348: the last entry of slot n is performed. fails: log bursts that no read could correct, by entry, 32-byte
unit of its payload, and the local offset where the log holds them, which counts inside the log alone. Log entry 112:
DEDUCED. -/
def applyDone (n : SlotId) (fails : List (Nat × Nat × Nat)) (s : State) : State :=
  let x := s.slot n
  let fails := fails.filter fun f => s.inLog f.2.2
  if x.st ≠ .applying then s
  else
    let s := fails.foldl (fun s f => s.hbmUe f.2.2 true) s
    let r := (x.log.zipIdx).foldl (fun (a : State × Bool) e =>
      let t := a.1.applyEntry e.1 ((fails.filter fun f => f.1 == e.2).map (·.2.1))
      (t.1, a.2 && t.2)) (s, true)
    ((r.1.modSlot n fun y => { y with corrupt := y.corrupt || !r.2 }).slotFree n).settle

/-! ### Transit and routes (R304 to R308) -/

/-- R304: a packet that the module does not consume goes on, or ends here. A packet with a reserved OP, whomever it names,
is discarded and counted at its ingress port (R303). Log entry 96: DEDUCED. -/
def packetForward (a : Arrival) (s : State) : State :=
  let p := a.pkt
  let isReq := decide (1 ≤ p.op ∧ p.op ≤ 4)
  if !isReq && p.op != opRSP && p.op != opNAK then s.finc (pFp a.port.val) F.FP_LINK_CNT0_CRC_ERR
  else if s.consumes p then s
  else match s.egress p.dst with
    | none => if isReq then s.respond p 4 0x40 [] else s
    | some port =>
      if p.hops + 1 > s.fget pOgs F.OGS_CFG_HOP_MAX then (if isReq then s.respond p 4 0x41 [] else s)
      else s.toPort port p.hop

/-- The direction from position a to b on a ring of n: 0 none, 1 positive, 2 negative; the positive way when both are
equally long (R305). -/
def ringDir (n a b : Nat) : Nat :=
  let d := (b + n - a) % n
  if d = 0 then 0 else if 2 * d ≤ n then 1 else 2

/-- Does a hop from position a in a direction cross the wrap-around link (R306)? Log entry 95: DEDUCED. -/
def wraps (n a dir : Nat) : Bool := (dir == 1 && a + 1 == n) || (dir == 2 && a == 0)

/-- The entry for module j by dimension-ordered routing from the module's own place (R305). Log entries 95: DEDUCED,
99: DESIGN CHOICE. -/
def State.routeTo (s : State) (j : Nat) : Option Route :=
  let nx := s.fget pOgs F.OGS_COORD_XS + 1
  let ny := s.fget pOgs F.OGS_COORD_YS + 1
  let nz := s.fget pOgs F.OGS_COORD_ZS + 1
  let me := s.lid
  if nx * ny * nz ≤ j ∨ nx * ny * nz ≤ me then none
  else
    let dims := [(nx, me % nx, j % nx), (ny, me / nx % ny, j / nx % ny), (nz, me / nx / ny, j / nx / ny)]
    (dims.zipIdx).findSome? fun (x : (Nat × Nat × Nat) × Nat) =>
      let dir := ringDir x.1.1 x.1.2.1 x.1.2.2
      if dir = 0 then none else some ⟨2 * x.2 + (dir - 1) + 8 * (j % 2), wraps x.1.1 x.1.2.1 dir, true⟩

/-- R305: the fill ends: the new entries replace the old, and BUSY clears. Log entry 99: DESIGN CHOICE. -/
def routeFillDone (s : State) : State :=
  if !s.fab.fill then s
  else
    let rs : Tab Route := (List.range 4096).filterMap fun j => (s.routeTo j).map fun r => (j, r)
    { s with fab := { s.fab with fill := false, routes := rs } }

end Sys2Proof.Machine
end

