-- ==== Sys2Proof/Machine/HostRegs.lean ====
section
/-! DEFINITION. Register commands at their fixed addresses, apply points, register timeouts, and the resets of a host port
(R440, R448, R449, R458 to R463, and the chapters that own the registers). -/

namespace Sys2Proof.Machine

/-! ### Writes and reads at an address -/

/-- The BAR0 address of a register of a logical core. -/
def coreA (n : CoreId) (off : Nat) : Nat := Block.core.page n.val + off

/-- A write of the register at an address, through the operand's view, and what it lets go on. -/
def State.put (s : State) (a : Nat) (p : Put) : State := (s.writeAcc ⟨p.rq, a + p.view.val * 0x1000, p.be, p.val⟩).settle

/-- A write of a whole word through the normal view, and what it lets go on. -/
def State.putWord (s : State) (a : Nat) (rq : Requester) (v : Word) : State := (s.writeAcc ⟨rq, a, 0xF, v⟩).settle

/-- R147: DR_TAIL of a core. -/
def drTailWrite (n : CoreId) (p : Put) (s : State) : State := s.put (coreA n 0x058) p
/-- R100: MX_CTRL with PREEMPT 1. -/
def preemptRequest (n : CoreId) (rq : Requester) (v : Word) (s : State) : State := s.putWord (coreA n 0x140) rq (setBits v 0 0 1)
/-- R102: MX_CTRL with PREEMPT 0. -/
def preemptRelease (n : CoreId) (rq : Requester) (v : Word) (s : State) : State := s.putWord (coreA n 0x140) rq (setBits v 0 0 0)
/-- R193: SQ_CTRL with CORE_RST 1. -/
def coreRst (n : CoreId) (rq : Requester) (v : Word) (s : State) : State := s.putWord (coreA n 0x040) rq (setBits v 1 1 1)
/-- R160: SQ_CTRL without CORE_RST. -/
def haltWrite (n : CoreId) (p : Put) (s : State) : State := s.put (coreA n 0x040) { p with val := setBits p.val 1 1 0 }
/-- R156: a token counter. -/
def tokenWrite (n : CoreId) (t : Fin 64) (p : Put) (s : State) : State := s.put (coreA n (0x200 + 4 * t.val)) p
/-- R119: MX_ACFG with TAB_CLR 1. -/
def tabClr (n : CoreId) (rq : Requester) (v : Word) (s : State) : State := s.putWord (coreA n 0x158) rq (setBits v 8 8 1)

/-- R69: a flag register of a die, or of the whole module; k: VX_FLAGS, MX or NM as at offsets 0x100, 0x104 and 0x108. -/
def flagClear (die : Option DieId) (k : Fin 3) (rq : Requester) (v : Word) (s : State) : State :=
  s.putWord ((match die with | some d => pDie d.val | none => pGctl) + 0x100 + 4 * k.val) rq v

/-- R457: a read of a register, with its read-clear. -/
def readClear (r : RegRd) (s : State) : State := s.readAcc r
/-- R456: a read of a _LO register, with its latch. -/
def loRead (r : RegRd) (s : State) : State := s.readAcc r
/-- R454: a write of any register. -/
def registerWrite (w : RegWr) (s : State) : State := (s.writeAcc w).settle

/-- R465: PG_EVT of a page; pages are numbered by their place in BAR0. -/
def pgEvtWrite (page : Nat) (p : Put) (s : State) : State := s.put (page * 0x4000 + 0x010) p
/-- R464: PG_EVT_INJ of a page. -/
def pgEvtInj (page : Nat) (rq : Requester) (v : Word) (s : State) : State := s.putWord (page * 0x4000 + 0x018) rq v
/-- R464: PG_CNT_SEL of a page. -/
def pgCntSel (page : Nat) (p : Put) (s : State) : State := s.put (page * 0x4000 + 0x02C) p
/-- R459: GCTL.UPD_STROBE. -/
def updStrobe (rq : Requester) (v : Word) (s : State) : State := s.putWord (pGctl + 0x040) rq v
/-- R467: a read of a semaphore. -/
def hsemRead (k : Fin 16) (rq : Requester) (s : State) : State := s.readAcc ⟨rq, pGctl + 0x080 + 4 * k.val⟩
/-- R467: a write of a semaphore. Log entry 85: DEDUCED. -/
def hsemWrite (k : Fin 16) (p : Put) (s : State) : State := s.put (pGctl + 0x080 + 4 * k.val) p

/-- R463: an access to IDX_DATA: a write of a word, or a read. -/
def idxData (rq : Requester) (w : Option Word) (s : State) : State :=
  match w with
  | some v => s.putWord (pGctl + aIdxData) rq v
  | none => s.readAcc ⟨rq, pGctl + aIdxData⟩

/-- R469: host software behind port q writes H2F word k of the MBX page of port p. -/
def h2fWrite (p : HostPort) (k : Fin 16) (q : HostPort) (v : Word) (s : State) : State :=
  s.putWord (pMbx p + 0x040 + 4 * k.val) (portRq q) v
/-- R469: module firmware reads H2F word k. -/
def h2fRead (p : HostPort) (k : Fin 16) (s : State) : State := s.readAcc ⟨.firmware, pMbx p + 0x040 + 4 * k.val⟩
/-- R470: module firmware writes F2H word k. -/
def f2hWrite (p : HostPort) (k : Fin 16) (v : Word) (s : State) : State := s.putWord (pMbx p + 0x080 + 4 * k.val) .firmware v
/-- R470: host software behind port q reads F2H word k. -/
def f2hRead (p : HostPort) (k : Fin 16) (q : HostPort) (s : State) : State := s.readAcc ⟨portRq q, pMbx p + 0x080 + 4 * k.val⟩
/-- R472: a SET write of a doorbell register: H2F_DB, or F2H_DB. -/
def doorbellRing (p : HostPort) (toHost : Bool) (rq : Requester) (v : Word) (s : State) : State :=
  s.putWord (pMbx p + (if toHost then 0x10D0 else 0x10C8)) rq v

/-- R305: OGS.ROUTE_GEN with GO 1. -/
def routeGen (rq : Requester) (s : State) : State := s.putWord (pOgs + 0x04C) rq 1
/-- R308: OGS.RT_DATA. -/
def rtDataWrite (p : Put) (s : State) : State := s.put (pOgs + 0x054) p
/-- R311: OGS.MOD_ID. -/
def modIdWrite (p : Put) (s : State) : State := s.put (pOgs + 0x040) p

/-- The word of CLV.FORCE. -/
def forceWord (act : Nat) (n : SlotId) : Word := BitVec.ofNat 32 (act * 256 + n.val)
/-- R353: CLV.FORCE ABORT. -/
def forceAbort (n : SlotId) (rq : Requester) (s : State) : State := s.putWord (pClv + 0x054) rq (forceWord 1 n)
/-- R353: CLV.FORCE COMMIT. -/
def forceCommit (n : SlotId) (rq : Requester) (s : State) : State := s.putWord (pClv + 0x054) rq (forceWord 2 n)
/-- R353: CLV.FORCE RELEASE. -/
def forceRelease (n : SlotId) (rq : Requester) (s : State) : State := s.putWord (pClv + 0x054) rq (forceWord 3 n)

/-- R502: SEC.CTRL with D1 1. Log entry 92: DEDUCED. -/
def d1Set (rq : Requester) (s : State) : State := s.putWord (pSec + 0x050) rq 1
/-- R502: SEC.CTRL with D1 0. -/
def d1Clear (rq : Requester) (s : State) : State := s.putWord (pSec + 0x050) rq 0
/-- R502: SEC.CTRL with D2_EXIT 1. -/
def d2Exit (rq : Requester) (v : Word) (s : State) : State := s.putWord (pSec + 0x050) rq (setBits v 3 3 1)
/-- R485: SEC.CTRL with ARB_COMMIT 1. -/
def arbCommit (rq : Requester) (v : Word) (s : State) : State := s.putWord (pSec + 0x050) rq (setBits v 2 2 1)
/-- R492: SEC.SLOT_ERASE. -/
def slotErase (rq : Requester) (v : Word) (s : State) : State := s.putWord (pSec + 0x0E4) rq v
/-- R499: SEC.UNTR_REL. -/
def untrRel (rq : Requester) (v : Word) (s : State) : State := s.putWord (pSec + 0x0EC) rq v
/-- R496: JR_TAIL of an engine. Log entry 89: DEDUCED. -/
def jrTailWrite (n : SafId) (p : Put) (s : State) : State := s.put (pSaf n.val + 0x050) p

/-- PWR.CTRL with a REQ and AUTO_P2. -/
def reqWord (r : Nat) (autoP2 : Bool) : Word := BitVec.ofNat 32 (b2n autoP2 * 256 + r)
/-- R516: REQ written P0. -/
def reqP0 (rq : Requester) (autoP2 : Bool) (s : State) : State := s.putWord (pPwr + 0x040) rq (reqWord 0 autoP2)
/-- R516: REQ written P2. -/
def reqP2 (rq : Requester) (autoP2 : Bool) (s : State) : State := s.putWord (pPwr + 0x040) rq (reqWord 2 autoP2)
/-- R517: REQ written P3. -/
def reqP3 (rq : Requester) (autoP2 : Bool) (s : State) : State := s.putWord (pPwr + 0x040) rq (reqWord 3 autoP2)
/-- R516: REQ written P4. -/
def reqP4 (rq : Requester) (autoP2 : Bool) (s : State) : State := s.putWord (pPwr + 0x040) rq (reqWord 4 autoP2)

/-- R548: CDM.SPARE_OP CORE. -/
def spareCore (rq : Requester) (n : CoreId) (s : State) : State :=
  s.putWord (pCdm + 0x060) rq (BitVec.ofNat 32 (2 ^ 28 + n.val * 65536))
/-- R549: CDM.SPARE_OP BANK. -/
def spareBank (rq : Requester) (n : CoreId) (bank : Fin 8) (s : State) : State :=
  s.putWord (pCdm + 0x060) rq (BitVec.ofNat 32 (2 * 2 ^ 28 + n.val * 65536 + bank.val * 4096))
/-- R549: CDM.SPARE_OP HBM_REBUILD. -/
def spareHbmRebuild (rq : Requester) (d : DieId) (s : State) : State :=
  s.putWord (pCdm + 0x060) rq (BitVec.ofNat 32 (3 * 2 ^ 28 + d.val))
/-- R554: a read of CDM.LOG_DATA. -/
def logDataRead (rq : Requester) (s : State) : State := s.readAcc ⟨rq, pCdm + 0x074⟩

/-- R300: LINK_CTRL of a fabric port with EN 1. -/
def portEnable (n : FpId) (rq : Requester) (rateCap : Bool) (s : State) : State :=
  s.putWord (pFp n.val + 0x040) rq (BitVec.ofNat 32 (2 * b2n rateCap + 1))
/-- R300: LINK_CTRL of a fabric port with EN 0. -/
def portDisable (n : FpId) (rq : Requester) (rateCap : Bool) (s : State) : State :=
  s.putWord (pFp n.val + 0x040) rq (BitVec.ofNat 32 (2 * b2n rateCap))

/-! ### Apply points (R458 to R460) -/

/-- The shadows of a strobed page replace the RWS bits of its registers. -/
def State.applyShadows (s : State) (page : Nat) : State :=
  let mine := fun (x : Nat × Word) => x.1 / 0x4000 == page / 0x4000
  let s := (s.shadows.words.filter mine).foldl (fun s x =>
    let m := match pageOf x.1 with
      | some (b, _) => accMask (b.fieldsAt (x.1 % 0x400)) .rws
      | none => 0
    s.setReg x.1 ((s.reg x.1 &&& ~~~ m) ||| (x.2 &&& m))) s
  { s with shadows := ⟨s.shadows.words.filter fun x => !mine x, s.shadows.strobed.filter (· != page)⟩ }

/-- R459: the apply point of a host port, the only block with RWS fields. -/
def updateApply (p : HostPort) (s : State) : State :=
  if s.live ∧ s.shadows.strobed.contains (pHp p) then s.applyShadows (pHp p) else s

/-! ### Timeouts of register accesses (R448, R462) -/

/-- An access of a host port or firmware ended with an error response: counted, logged and answered. -/
def State.regError (s : State) (rq : Requester) : State :=
  let s := match rqPort rq with
    | some p => ((s.finc (pHp p) F.HP_ERR_CNT0_REG_TMO).event (pHp p) F.HP_PG_EVT_REG_TMO).send (.aer p true)
    | none => s
  s.send (.regData rq none)

/-- The timeout captured in the page of the access (R462). -/
def State.captureTmo (s : State) (a : Nat) (rq : Requester) (wr : Bool) : State :=
  match s.regLoc (s.regTarget rq a) with
  | some l => s.capture l (s.regTarget rq a) (rqNo rq) 1 wr
  | none => s

/-- The BAR2 access of a port that waits for a register at an address. -/
def State.b2AtReg (s : State) (rq : Requester) (a : Nat) (wr : Bool) : Option Bar2Acc :=
  s.bar2.find? fun x => some x.port == rqPort rq && x.isWrite == wr && x.todo.any fun w => w.2.1 / 4 * 4 == regBase + a

/-- The register MOVE of this module that waits for a register of its own at an address: core, index, and its piece. -/
def State.moveAtReg (s : State) (a : Nat) (wr : Bool) : Option (Nat × Infl × MoveSt × Piece) :=
  s.cores.findSome? fun c => c.2.inflight.findSome? fun e =>
    match e.prog with
    | .move m => (m.pieces.find? fun p => let g := if wr then p.dst else p.src
        s.isLocal g && g % 2 ^ 44 == regBase + a).map fun p => (c.1, e, m, p)
    | _ => none

/-- A register MOVE whose local access timed out. -/
def State.moveTmo (s : State) (x : Nat × Infl × MoveSt × Piece) : State :=
  let (ph, e, m, p) := x
  let (s, m) := s.moveFail ph e.txn { m with pieces := eraseFirst (fun q => q == p) m.pieces } p.part
    (s.lid * 2 ^ 44) ((moveD e.words).cls + 1) 9 0
  s.moveSettle ph e.idx e.txn m

/-- A read or write by address that timed out: a BAR2 access or a register MOVE where one waits for it, else an access of
its own, which is no longer held. -/
def State.accTmo (s : State) (h : HeldAcc) (rq : Requester) (a : Nat) (wr : Bool) : State :=
  let s := s.captureTmo a rq wr
  if s.held.contains h then ({ s with held := eraseFirst (fun x => x == h) s.held } : State).regError rq
  else match s.b2AtReg rq a wr with
    | some x => (s.b2Fail x.id).b2Settle
    | none => match (if rq = .fabric then s.moveAtReg a wr else none) with
      | some x => s.moveTmo x
      | none => s.regError rq

/-- R462: a register access has not reached its destination for 8 µs: it ends with an error response and is not
performed. Log entry 192: DESIGN CHOICE. -/
def registerTimeout (x : RegAcc) (s : State) : State :=
  if !s.live then s
  else match x with
    | .rd r => s.accTmo (.regRead r) r.rq r.addr false
    | .wr w => s.accTmo (.regWrite w) w.rq w.addr true
    | .pkt a =>
      if !toRegs a.pkt ∨ !s.consumes a.pkt then s
      else
        let s := { s with held := eraseFirst (fun (x : HeldAcc) => x == HeldAcc.packet a) s.held }
        (s.captureTmo (a.pkt.off - regBase) .fabric (a.pkt.op == opWR)).respond a.pkt 9 0 []

/-! ### Host ports (R440, R449) -/

/-- A capability of the function: its ID, the word it starts at, and the word of the next one (0: none). -/
structure PcieCap where
  id : Nat
  at_ : Nat
  next : Nat
deriving DecidableEq, Repr

/-- The capabilities of R439: Power Management, PCI Express (with Function Level Reset) and MSI-X; and in extended
configuration space Advanced Error Reporting and Resizable BAR. Where each stands is not given. Log entry 196: DESIGN
CHOICE. -/
def pcieCaps : List PcieCap := [⟨0x01, 0x10, 0x14⟩, ⟨0x10, 0x14, 0x28⟩, ⟨0x11, 0x28, 0⟩]
def pcieExtCaps : List PcieCap := [⟨0x0001, 0x40, 0x54⟩, ⟨0x0015, 0x54, 0⟩]

/-- A word of the configuration space of a port's function: the header values and BAR types of R439 and R441, capability
headers, the FLR bit, and the MSI-X table of R441; the sizes of BAR2. What the spec does not give is a free value. Log entry
196: DESIGN CHOICE. -/
def cfgWord (i : Nat) : Word :=
  let w := Config.pcieWord i
  match i with
  | 0x00 => BitVec.ofNat 32 (0x7D09 * 65536 + Config.vendorId.toNat)
  | 0x01 => setBits w 20 20 1
  | 0x02 => 0x12000001#32
  | 0x03 => setBits w 23 16 0
  | 0x04 => setBits w 25 0 4
  | 0x06 => setBits w 25 0 0xC
  | 0x08 => setBits w 15 0 4
  | 0x0D => 0x00000040#32
  | 0x15 => setBits w 28 28 1
  | 0x28 => setBits (setBits w 26 16 63) 15 0 0x0011
  | 0x29 => 0x00008004#32
  | 0x2A => 0x00009004#32
  | 0x55 => BitVec.ofNat 32 (511 * 2 ^ 18)
  | _ =>
    match pcieCaps.find? fun c => c.at_ == i with
    | some c => setBits w 15 0 (c.next * 4 * 256 + c.id)
    | none => match pcieExtCaps.find? fun c => c.at_ == i with
      | some c => setBits (setBits w 31 20 (c.next * 4)) 15 0 c.id
      | none => w

/-- R439, R440: a configuration read: retried until the port is ready, then answered from configuration space. -/
def configRetry (c : ConfigIn) (s : State) : State :=
  let p := c.port
  if s.powered ∧ !s.boot.resetLow ∧ s.hostOn p ∧ !s.boot.perst.testBit (HostPort.ix p) then
    if s.boot.hostReady.testBit (HostPort.ix p) then s.send (.cfgData p (cfgWord c.word)) else s.send (.crs p)
  else s

/-- Registers of a page back at their reset values, but for those that satisfy keep. -/
def State.resetPage (s : State) (page : Nat) (keep : Nat → Bool) : State :=
  { s with regs := s.regs.filter (fun e => !(e.1 / 0x4000 == page / 0x4000) || keep (e.1 % 0x4000)),
           shadows := ⟨s.shadows.words.filter fun x => x.1 / 0x4000 != page / 0x4000, s.shadows.strobed.filter (· != page)⟩ }

/-- Accesses in flight from a port are discarded; its semaphores are released. Log entry 195: DEDUCED. -/
def State.dropPort (s : State) (p : HostPort) : State :=
  let rq := portRq p
  let ids := (s.bar2.filter fun x => x.port == p).map (·.id)
  let heldOf := fun (h : HeldAcc) => match h with
    | .regWrite w => w.rq == rq
    | .regRead r => r.rq == rq
    | .bar2 id => ids.contains id
    | _ => false
  let s := (s.dropWaiting fun o => match o with | .bar2 id _ => ids.contains id | _ => false).1
  let s := { s with held := s.held.filter (fun h => !heldOf h), bar2 := s.bar2.filter (fun x => x.port != p) }
  (List.range 16).foldl (fun s k =>
    if s.fget pGctl ⟨0x080 + 4 * k, 1, 0⟩ = rqNo rq then s.setReg (pGctl + 0x080 + 4 * k) 0 else s) s

/-- R449: a Function Level Reset keeps the link and its counts. Log entry 194: DEDUCED. -/
def flr (p : HostPort) (s : State) : State :=
  if !s.rqLive (portRq p) then s
  else
    let s := s.dropPort p
    let s := (s.resetPage (pHp p) fun o => o == 0x040 || o == 0x054).resetPage (pMbx p) fun _ => false
    s.event (pHp p) F.HP_PG_EVT_PERST

/-- R449: PERST_n of an enabled port is asserted. Log entry 194: DEDUCED. -/
def perstAssert (p : HostPort) (s : State) : State :=
  if !s.hostOn p ∨ s.pState = 4 then s
  else
    let s := { s with boot := { s.boot with perst := s.boot.perst ||| 2 ^ HostPort.ix p } }
    if !s.live && !s.boot.loading then s
    else
      let s := (s.dropPort p).setHostLink p ⟨false, 0, 0⟩
      let s := (s.resetPage (pHp p) fun _ => false).resetPage (pMbx p) fun _ => false
      (s.finc (pHp p) F.HP_ERR_CNT1_PERSTS).refreshDeg

end Sys2Proof.Machine
end

