-- ==== Sys2Proof/Machine/Boot.lean ====
section
/-! DEFINITION. Start-up: the phases of the Sumac pins, straps, the boot steps and their journal, load mode, module resets
and the resume path (R477 to R486, R516, R518, R534 to R546). -/

namespace Sys2Proof.Machine

/-! ### The boot journal (R542) -/

/-- The XOR of the eight 4-bit groups of a word. -/
def xorNibbles (n : Nat) : Nat := (List.range 8).foldl (fun a i => a ^^^ (n / 16 ^ i % 16)) 0

/-- An entry of the journal; CHECK is the XOR of its other 4-bit groups. -/
def journalEntry (boot step state reason ms detail : Nat) : List Nat :=
  let w := step % 256 * 2 ^ 24 + state % 16 * 2 ^ 20 + reason % 65536
  let check := xorNibbles boot ^^^ xorNibbles w ^^^ xorNibbles ms ^^^ xorNibbles detail
  [boot, w + check * 65536, ms, detail]

def jBoot (e : List Nat) : Nat := e.getD 0 0
def jStep (e : List Nat) : Nat := nbits (e.getD 1 0) 31 24
/-- Log entry 200: DEDUCED. -/
def jState (e : List Nat) : Nat := nbits (e.getD 1 0) 23 20
def jDetail (e : List Nat) : Nat := e.getD 3 0

/-- CDM.BOOT_NUM. -/
def State.bootNum (s : State) : Nat := (s.reg (pCdm + 0x044)).toNat

/-- An entry of start boot written; the journal holds the 512 most recent. MS is a free value: the model does not time
a start. Log entry 199: DESIGN CHOICE. -/
def State.journal (s : State) (boot step state reason detail : Nat) : State :=
  let (c, s) := s.draw
  let l := s.logs.journal ++ [journalEntry boot step state reason (Config.freeWord c).toNat (detail % 2 ^ 32)]
  { s with logs := { s.logs with journal := l.drop (l.length - 512) } }

/-- The entries of a start, for a step. -/
def State.stepEntries (s : State) (boot step : Nat) : List (List Nat) :=
  s.logs.journal.filter fun e => jBoot e == boot && jStep e == step

/-- A step of a start was left unfinished: it shows STARTED with no ending entry, or HUNG. -/
def State.stepHung (s : State) (boot step : Nat) : Bool :=
  let l := s.stepEntries boot step
  l.any (fun e => jState e == 6) || (l.any (fun e => jState e == 1) && !(l.any fun e => 2 ≤ jState e))

/-- A step of a start failed. -/
def State.stepFailed (s : State) (boot step : Nat) : Bool := (s.stepEntries boot step).any fun e => jState e == 3

/-- BS01 of a full start: a HUNG entry for every unfinished step of the previous start. Log entry 200: DEDUCED. -/
def State.writeHung (s : State) : State :=
  let b := s.bootNum - 1
  (List.range 14).foldl (fun s k =>
    let l := s.stepEntries b (k + 1)
    if l.any (fun e => jState e == 1) && !(l.any fun e => 2 ≤ jState e) then
      s.journal b (k + 1) 6 1 ((l.map jDetail).getLastD 0)
    else s) s

/-! ### Policies of the next start (R539) -/

/-- The image of a start, when a step after BS05 was left unfinished or ended in HALT. -/
def State.badImage (s : State) (boot : Nat) : Option Nat :=
  let late := (List.range 9).any fun k => s.stepHung boot (k + 6)
  let halted := [8, 13, 14].any fun k => s.stepFailed boot k
  if late || halted then
    ((s.stepEntries boot 5).filter fun e => jState e == 2 || jState e == 5).getLast?.map jDetail
  else none

/-- BS05 starts from the other flash image: both previous starts ended badly with the same one. -/
def State.altImage (s : State) : Option Nat :=
  match s.badImage (s.bootNum - 1), s.badImage (s.bootNum - 2) with
  | some a, some b => if a = b ∧ a ≤ 1 then some (1 - a) else none
  | _, _ => none

/-- BOOT_SRC of the straps (R557). -/
def State.bootSrc (s : State) : Nat := nbits s.straps 7 6

/-- BS09 or BS10 runs in its ALT form: the previous start left it failed or unfinished, or the source is recovery. Log
entry 207: DEDUCED. -/
def State.altStep (s : State) (k : Nat) : Bool :=
  s.bootSrc == 3 || s.stepFailed (s.bootNum - 1) k || s.stepHung (s.bootNum - 1) k

/-- The die that ALT of BS09 skips: the one that DETAIL of the failed or unfinished BS09 names. Log entry 207:
DEDUCED. -/
def State.skipDie (s : State) : Option Nat :=
  ((s.stepEntries (s.bootNum - 1) 9).filter fun e => jState e == 3 || jState e == 6 || jState e == 1).getLast?.map jDetail

/-- The flash sources in the order in which they are tried. -/
def State.sources (s : State) (src : Nat) : List Nat :=
  if 2 ≤ src then []
  else match s.altImage with
    | some a => [a, 1 - a]
    | none => [src, 1 - src]

/-! ### Phases of the Sumac pins and straps (R534, R535, R557) -/

/-- The phase takes a value, and PG_EVT.PHASE shows the change. -/
def State.setPhase (s : State) (n : Nat) : State :=
  if s.fget pSumac F.SUMAC_PHASE_PHASE = n then s
  else (s.fset pSumac F.SUMAC_PHASE_PHASE n).event pSumac F.SUMAC_PG_EVT_PHASE

/-- What the straps latch as: the last sample when the last three are equal and the sanity pins read 0b10, else the safe
defaults (R535). -/
def strapLatch : List Nat → Bool × Nat
  | a :: b :: c :: _ => if a = b ∧ b = c ∧ nbits a 11 10 = 2 then (false, a) else (true, 0xB10)
  | _ => (true, 0xB10)

/-- The class and the site that the straps give (R557). -/
def State.applyStraps (s : State) : State :=
  let v := s.straps
  (s.fset pPwr F.PWR_STAT_CLASS (nbits v 9 8)).fset pZwk F.ZWK_CFG_SITE_ID (nbits v 3 0)

/-- The straps latched. -/
def State.latchStraps (s : State) : State :=
  let (bad, v) := strapLatch s.boot.samples
  s.setReg (pSumac + 0x040) (BitVec.ofNat 32 (b2n bad * 4096 + v))

/-! ### Steps -/

/-- The RUN output STATUS and BOOT_STAT.STEP show the step, and the journal its start. -/
def State.stepBegin (s : State) (k detail : Nat) : State :=
  let s := (s.fset pCdm F.CDM_BOOT_STAT_STEP k).journal s.bootNum k 1 0 detail
  { s with boot := { s.boot with status := k } }

/-- A step ended, DONE or DONE_ALT. -/
def State.stepDone (s : State) (k : Nat) (alt : Bool) (detail : Nat) : State :=
  s.journal s.bootNum k (if alt then 5 else 2) 0 detail

/-- A step, or one source of BS05, failed: journal, BOOT_STAT, event and log entry. Log entry 201: DEDUCED. -/
def State.stepFail (s : State) (k reason detail : Nat) : State :=
  let s := s.journal s.bootNum k 3 reason detail
  let s := if s.fget pCdm F.CDM_BOOT_STAT_FAILS = 0 then s.fset pCdm F.CDM_BOOT_STAT_REASON reason else s
  let s := (s.finc pCdm F.CDM_BOOT_STAT_FAILS).event pCdm F.CDM_PG_EVT_BOOT_FAIL
  s.logEvent 0x0004 0 2 0x0060 (k + 2 ^ 32 * reason)

/-- The HALT policy: FAULT_N is low, STATUS shows 0, and nothing goes on. -/
def State.haltBoot (s : State) : State :=
  { s.send (.pin 0 false) with boot := { s.boot with fault := true, status := 0, running := false, ready := false, hostReady := 0 } }

/-- A step that HALTs when it fails. -/
def State.mustPass (s : State) (k : Nat) (ok : Bool) : State × Bool :=
  if ok then (s.stepDone k false 0, true) else ((s.stepFail k 0 0).haltBoot, false)

/-- A step that goes on when it fails, with the reason of its failure. -/
def State.mayFail (s : State) (k : Nat) (alt : Bool) : Option (Nat × Nat) → State × Bool
  | none => (s.stepDone k alt 0, true)
  | some (reason, detail) => (s.stepFail k reason detail, true)

/-- BS01 (R512 to R514): a rail or a PLL that fails takes the module to P4. -/
def bs01 (b : BootIn) (s : State) : State × Bool :=
  match b.rail, b.pll with
  | some (rail, mv), _ => (((s.stepFail 1 0 0).logEvent 0x0008 0 3 0x0052 (rail % 2 ^ 32 + 2 ^ 32 * (mv % 2 ^ 32))).fatal, false)
  | none, some p => (((s.stepFail 1 0 0).logEvent 0x0009 0 3 0x0053 p.val).fatal, false)
  | none, none => (s.stepDone 1 false 0, true)

/-- BS02 (R535): the straps are in force; a fault leaves the safe defaults. -/
def bs02 (s : State) : State × Bool :=
  let s := s.applyStraps.pwrUpdate
  if s.fget pSumac F.SUMAC_STRAPS_FAULT = 1 then
    ((s.fset pCdm F.CDM_BOOT_STAT_STRAP_FAULT 1).event pSumac F.SUMAC_PG_EVT_STRAP_FAULT).mayFail 2 false (some (0, 0))
  else s.mayFail 2 false none

/-- BS04 (R480): the replay-protected block: one that the module did not write last fails its HMAC or its write counter, or
is in force from then on. -/
def bs04 (b : BootIn) (s : State) : State × Bool :=
  match b.block with
  | none => s.mustPass 4 true
  | some (x, mac) =>
    let ok := mac == rpbMac x && decide (s.rpb.writes ≤ x.writes)
    (if ok then { s with rpb := x } else s).mustPass 4 ok

/-- The first failed check of an object of a kind, of the length given; 0 when it is accepted (R483). -/
def State.imageReason (s : State) (img : List Byte) (kind : Nat) : Nat :=
  let h := img.take 256
  let e := envelopeOf h
  if img.length < 256 ∨ e.magic ≠ 0xCA795E0D ∨ e.format ≠ 1 ∨ e.kind ≠ kind ∨ 67108864 < e.bodyLen ∨ img.length < e.size then 0x80
  else
    let rest := (img.drop 256).take (e.size - 256)
    s.objectReason h e (rest.take e.bodyLen) (rest.drop (16 * cdiv e.bodyLen 16))

/-- An accepted FIRMWARE image: its header hash, its SVN and its source. -/
def State.acceptImage (s : State) (img : List Byte) (src : Nat) : State :=
  let s := s.fset pCdm F.CDM_BOOT_STAT_SRC src
  { s with sec := { s.sec with fwHash := beNat (sha384 (img.take 256)), fwRun := (envelopeOf (img.take 256)).svn },
           boot := { s.boot with source := src } }

/-- Load mode is entered (R540): the lowest-numbered enabled port leaves Configuration Request Retry Status. Log entry
202: DEDUCED. -/
def State.enterLoad (s : State) : State :=
  let s := s.fset pCdm F.CDM_BOOT_STAT_LOAD_WAIT 1
  { s with boot := { s.boot with loading := true, hostReady := 2 ^ HostPort.ix s.loadPort, buffer := [] } }

/-- The flash sources of BS05 in turn; load mode after them. Log entry 201: DEDUCED. -/
def bs05Try (b : BootIn) (alt : Bool) : List Nat → State → State × Bool
  | [], s => (s.enterLoad, false)
  | src :: rest, s =>
    let img := if src = 0 then b.primary else b.secondary
    let r := s.imageReason img 1
    if r = 0 then ((s.acceptImage img src).stepDone 5 alt src, true) else bs05Try b alt rest (s.stepFail 5 r src)

/-- BS05: the source is that of the straps, or on a resume path the one that the last full start used (R541). -/
def bs05 (b : BootIn) (resume : Bool) (s : State) : State × Bool :=
  let src := if resume then s.boot.source else s.bootSrc
  bs05Try b (decide (src < 2) && s.altImage.isSome) (s.sources src) s

/-- BS06 (R485, R486): the CONFIG record and its policy. -/
def bs06 (b : BootIn) (s : State) : State × Bool :=
  let r := s.imageReason b.config 2
  if r = 0 then
    let pol := leNat ((b.config.drop 256).take 4)
    let s := s.setReg (pSec + 0x04C) (BitVec.ofNat 32 (nbits pol 2 1 * 2 + 1))
    ({ s with sec := { s.sec with cfgHash := beNat (sha384 (b.config.take 256)), cfgRun := (envelopeOf (b.config.take 256)).svn } } : State).mayFail
      6 false none
  else
    let s := s.setReg (pSec + 0x04C) 0
    ({ s with sec := { s.sec with cfgHash := 0, cfgRun := 0 } } : State).mayFail 6 false (some (r, 0))

/-- BS07 (R486). -/
def bs07 (b : BootIn) (s : State) : State × Bool :=
  ({ s with sec := { s.sec with identityOk := b.identityOk } } : State).mayFail 7 false (if b.identityOk then none else some (0, 0))

/-- BS08 (R484, R486): the nonce; a full start empties the key slots and sets D0. A resume path keeps the slots that
P3 entry retained, and the level D1 (R502, R504). Log entry 204: DEDUCED. -/
def bs08 (b : BootIn) (resume : Bool) (s : State) : State × Bool :=
  let s := s.newNonce
  let s := if resume then s else { s with sec := { s.sec with keys := [], dbg := 0 } }
  s.mustPass 8 b.keysOk

/-! ### BS09: dies, cores, banks (R23, R545, R546) -/

/-- The core that REPAIR records last in the place of a physical core. Log entry 210: DEDUCED. -/
def replFollow (repl : List (Nat × Nat)) : Nat → Nat → Nat
  | 0, c => c
  | f + 1, c => match repl.find? fun r => r.1 == c with
    | some r => replFollow repl f r.2
    | none => c

/-- The units that the dies in service and REPAIR give. Log entry 210: DEDUCED. -/
def Wear.units (w : Wear) (dies : Nat) : Units :=
  (List.range 1024).foldl (fun u pos =>
    let c0 := pos / 128 * 136 + pos % 128
    let c := replFollow w.repl 8 c0
    if w.retired.contains c then { u with unserved := insertUp pos u.unserved }
    else if c = c0 then u else { u with replaced := u.replaced ++ [(pos, c)] }) ⟨dies, [], []⟩

/-- A failing core replaced at once, or a PENDING one at a full start: recorded first; without a spare it is retired
without replacement. The value that stands for no spare is not stated. The lowest free spare that did not fail serves;
failing cores come first, in ascending number, then the PENDING ones in the order in which they became so. Log entries
205: DEDUCED, 212: DEDUCED, 242: DESIGN CHOICE. -/
def State.replaceAtStart (failing : List Nat) (s : State) (c : Nat) : State :=
  match s.units.posOfPhys c with
  | none => s
  | some pos =>
    let kept := decide (s.logs.repairs.length < 2048)
    let sp := ((List.range 8).map fun i => c / 136 * 136 + 128 + i).find? fun i => s.spareFree i && !failing.contains i
    match sp with
    | some x =>
      let s := s.logRepair 0x0014 c 2 0x0030 (c + 2 ^ 32 * x)
      let s := { s with units := s.units.replace pos x, wear := s.wear.retire c (some x) kept }
      let k := s.core c
      s.setCore c { k with pendingBanks := [] }
    | none =>
      let (f, s) := s.draw
      let s := s.logRepair 0x0014 c 2 0x0030 (c + 2 ^ 32 * (Config.freeWord f).toNat)
      { s with units := { s.units with replaced := s.units.replaced.filter (fun r => r.1 != pos), unserved := insertUp pos s.units.unserved },
               wear := s.wear.retire c none kept }

/-- A PENDING bank replaced at a full start: recorded first, then the spare bank serves (R546, R549). -/
def State.bankAtStart (s : State) (x : Nat × Nat) : State :=
  if s.fget (pCore x.1) F.SP_BANKMAP_RETIRED ≠ 0xF ∨ (s.units.posOfPhys x.1).isNone then s
  else
    let kept := decide (s.logs.repairs.length < 2048)
    let n := (s.logical x.1).getD 0
    let s := s.logRepair 0x0013 n 1 0x0031 (n + 2 ^ 32 * x.2)
    let s := s.fset (pCore x.1) F.SP_BANKMAP_RETIRED x.2
    { s with wear := { s.wear with banks := s.wear.banks.filter (· != x),
                                   bankReps := if kept then s.wear.bankReps ++ [x] else s.wear.bankReps } }

/-- BS09: the dies that pass, REPAIR replayed, failing cores replaced at once, failing banks PENDING, and at a full
start with AUTO the PENDING units replaced. Log entry 205: DEDUCED. -/
def bs09 (b : BootIn) (resume : Bool) (s : State) : State × Bool :=
  let alt := s.altStep 9
  let skip := if alt then s.skipDie else none
  let test := fun (d : Nat) => b.dies.getD d ⟨true, [], []⟩
  let dies := (List.range 8).foldl (fun a d => if (test d).ok ∧ skip ≠ some d then a + 2 ^ d else a) 0
  let failCores := (List.range 8).flatMap fun d => (test d).cores.map fun c => d * 136 + c.val
  let failBanks := (List.range 8).flatMap fun d => (test d).banks.map fun x => (d * 136 + x.1.val, x.2.val)
  let s := { s with units := s.wear.units dies }
  let s := s.wear.bankReps.foldl (fun s x => s.fset (pCore x.1) F.SP_BANKMAP_RETIRED x.2) s
  let s := failBanks.foldl (fun s x => s.bankPending x.1 x.2) s
  let auto := !resume && s.fget pCdm F.CDM_WEAR_CFG_AUTO == 1
  let s := (failCores ++ (if auto then s.wear.cores else [])).foldl (State.replaceAtStart failCores) s
  let s := if auto then s.wear.banks.foldl State.bankAtStart s else s
  let bad := (List.range 8).find? fun d => !(test d).ok && skip != some d
  match bad with
  | some d => s.mayFail 9 alt (some (0x0100 + d, d))
  | none => s.mayFail 9 alt none

/-! ### BS10 to BS14 -/

/-- The training of a stack at BS10. -/
def State.trainAtStart (b : BootIn) (s : State) (n : Nat) : State :=
  if (s.hbmc n).st ≠ .training then s
  else if b.hbms.getD n true then s.modHbmc n fun h => { h with st := .active, tries := 0 }
  else s.hbmFail n 1

/-- The stacks of the dies in service. -/
def State.stacksUsed (s : State) : List Nat := (List.range 32).filter fun n => s.units.dies.testBit (n / 4)

/-- May the reset keep the map and the contents (R285)? Log entry 211: DEDUCED. -/
def State.keepMap (s : State) : Bool :=
  s.pwr.retained && s.stacksUsed.all fun n =>
    (s.hbmc n).keep && (s.hbmc n).st != .failed && s.reg (pHbm n + 0x050) == 0

/-- The rows that REPAIR records as repaired: stack and row. -/
def State.recordedRows (s : State) : List (Nat × Nat) :=
  (s.logs.repairs.filter fun e => e.code == 0x0011).map fun e => (e.inst, e.detail)

/-- The pseudo-channels that REPAIR records as retired on a stack (R290). -/
def State.recordedPcs (s : State) (n : Nat) : Nat :=
  s.logs.repairs.foldl (fun m e => if e.block = 0x0011 ∧ e.inst = n ∧ e.code = 0x0012 then m ||| 2 ^ (e.detail % 32) else m) 0

/-- The recorded soft repairs made permanent (R279). -/
def State.hardRepair (s : State) : State :=
  let l := s.recordedRows
  let s := { s with boot := { s.boot with repairs := l } }
  (List.range 32).foldl (fun s n => if (s.hbmc n).softRows.isEmpty then s else
    s.modHbmc n fun h => { h with softRows := h.softRows.filter fun r => !l.contains (n, r) }) s

/-- BS10: every stack of the dies in service trains. A full start makes the recorded repairs permanent, unless ALT,
and rebuilds the map or keeps it; a resume path keeps map and contents (R279, R283, R285). Log entry 208: DEDUCED. -/
def bs10 (b : BootIn) (resume : Bool) (s : State) : State × Bool :=
  let alt := !resume && s.altStep 10
  let s := s.stacksUsed.foldl (State.trainAtStart b) s
  let s :=
    if resume then s
    else
      let s := if alt then s else s.hardRepair
      if s.keepMap then s
      else
        let s := (List.range 32).foldl (fun s n => s.setReg (pHbm n + 0x04C) (BitVec.ofNat 32 (s.recordedPcs n))) s
        (List.range 8).foldl (fun s d => if s.units.dies.testBit d then s.rebuildMap d else s) s
  match s.stacksUsed.find? fun n => (s.hbmc n).st == .failed with
  | some n => s.mayFail 10 alt (some (0x0200 + n, 0))
  | none => s.mayFail 10 alt none

/-- BS11 (R500): a failing engine retires. Log entry 177: DEDUCED. -/
def bs11 (b : BootIn) (s : State) : State × Bool :=
  let bad := (List.range 5).filter fun n => !(b.saf.getD n true)
  let s := bad.foldl (fun s n => (s.event (pSaf n) F.SAF_PG_EVT_SELFTEST_FAIL).retireSaf n) s
  s.mayFail 11 false (bad.head?.map fun n => (0x0400 + n, 0))

/-- BS12: a port that does not calibrate reads FAILED. Log entry 208: DEDUCED. -/
def bs12 (b : BootIn) (s : State) : State × Bool :=
  let fps := (List.range 16).filter fun n => !(b.ports.getD n true)
  let sites := (List.range 2).filter fun n => !(b.sites.getD n true)
  let s := fps.foldl (fun s n => s.setFp n 4) s
  let s := sites.foldl (fun s n => s.setSite n 3 0) s
  s.mayFail 12 false (match fps, sites with
    | n :: _, _ => some (0x0300 + n, 0)
    | [], _ :: _ => some (0, 0)
    | [], [] => none)

/-- BS13 (R440): the enabled host ports are ready, and register accesses are served. -/
def bs13 (b : BootIn) (s : State) : State × Bool :=
  let s : State :=
    { s with boot := { s.boot with running := true, hostReady := b2n (s.hostOn .a) + 2 * b2n (s.hostOn .b) } }
  s.mustPass 13 b.hostOk

/-- The end of a start: BOOT_STAT.READY, STATUS 0xF, the degraded conditions, R485, and a request made before (R541). -/
def State.bootReady (s : State) : State :=
  let s := s.fset pCdm F.CDM_BOOT_STAT_READY 1
  let s : State := { s with boot := { s.boot with ready := true, status := 0xF } }
  let s := (s.event pCdm F.CDM_PG_EVT_READY).refreshDeg
  let s := if s.fget pCdm F.CDM_BOOT_STAT_FAILS = 0 ∧ s.fget pSec F.SEC_POLICY_ARB_AUTO = 1 then s.raiseSvn else s
  let r := s.pwr.later
  let s : State := { s with pwr := { s.pwr with later := none } }
  match r with
  | some n => s.reqWritten n
  | none => s

/-- BS14. -/
def bs14 (b : BootIn) (s : State) : State × Bool :=
  let r := s.mustPass 14 b.readyOk
  if r.2 then (r.1.bootReady, true) else r

/-- The steps from a number on, in order; a resume path omits BS02. Log entry 198: DESIGN CHOICE. -/
def bootSteps (b : BootIn) (resume : Bool) : List (Nat × (State → State × Bool)) :=
  [(1, bs01 b)] ++ (if resume then [] else [(2, bs02)])
    ++ [(3, fun s => s.mustPass 3 b.secretOk), (4, bs04 b), (5, bs05 b resume), (6, bs06 b), (7, bs07 b),
        (8, bs08 b resume), (9, bs09 b resume), (10, bs10 b resume), (11, bs11 b), (12, bs12 b), (13, bs13 b), (14, bs14 b)]

/-- Steps run until one stops the start: by its failure, by load mode, or because it runs past its timeout and waits
for the watchdog. Log entry 198: DESIGN CHOICE. -/
def runSteps (b : BootIn) : List (Nat × (State → State × Bool)) → State → State
  | [], s => s
  | (k, f) :: rest, s =>
    let s := s.stepBegin k (if k = 9 ∧ b.hang = 9 then b.hangDie else 0)
    if b.hang = k then s
    else
      let r := f s
      if r.2 then runSteps b rest r.1 else r.1

/-- Reset is released with the stacks powered: every controller that is OFF trains (R289). -/
def State.hbmReleased (s : State) : Tab HbmCtl :=
  (List.range 32).map fun n => (n, let h := s.hbmc n; if h.st = .off then { h with st := .training } else h)

/-- A start begins (R539): it is counted, BOOT_STAT starts anew, and the module is in P0 or P1. Log entry 197: DESIGN
CHOICE. -/
def State.start (s : State) (b : BootIn) (resume : Bool) : State :=
  let s := s.setReg (pCdm + 0x044) (s.reg (pCdm + 0x044) + 1)
  let s := s.setReg (pCdm + 0x040) (if resume then 2 else 0)
  let s := (s.fset pPwr F.PWR_STAT_STATE 0)
  let s := { s with hbm := if resume then s.hbm else s.hbmReleased }
  let s := if resume then s.applyStraps.pwrUpdate else s.writeHung
  runSteps b (bootSteps b resume) s

/-! ### Resets and the events of the pins -/

/-- A module reset, R536: every volatile part is lost but what AON, flash and the stacks in self-refresh keep. An
internal reset keeps the straps and the phase of the pins (R535, R537). Log entries 209: DESIGN CHOICE, 212: DEDUCED,
216: DESIGN CHOICE. -/
def State.modReset (s : State) (internal : Bool) : State :=
  let keep := fun (a : Nat) => flashReg a || pendReg a || (internal && (a == pSumac + 0x040 || a == pSumac + 0x048))
  let retained := s.pState == 3 && s.pwr.retained
  let s := s.loseVolatile keep
  let stack := fun (s : State) (n : Nat) =>
    let h := s.hbmc n
    let asleep := h.st == .selfRefresh
    s.setHbmc n { HbmCtl.init with st := if asleep || h.st == .failed then .training else .off, inMap := asleep && h.inMap,
                                   keep := asleep, scrub := if asleep then h.scrub else 0,
                                   softRows := if asleep && !retained then [] else h.softRows }
  let s := (List.range 32).foldl stack s
  { s with pwr := { PwrSt.init with retained := retained }, time := TimeSt.init,
           sec := { s.sec with keys := [] },
           boot := { s.boot with running := false, ready := false, loading := false, hostReady := 0, buffer := [],
                                 heartbeat := false, fault := false, status := 0, waitSample := false, wake := false } }

/-- R514, R536: MOD_RESET_N was low for 1 µs with PWR_OK high. The STRAP phase begins. -/
def modResetAssert (s : State) : State :=
  if !s.boot.pwrOk then s
  else
    let s := s.modReset false
    { s with boot := { s.boot with resetLow := true, samples := [] } }

/-- R534: PWR_OK rises: AON starts and the STRAP phase begins, with MOD_RESET_N low. Log entry 206: DEDUCED. -/
def pwrOkRise (s : State) : State :=
  if s.boot.pwrOk then s
  else
    let s := { s.modReset false with hbm := [] }
    { s with boot := { s.boot with pwrOk := true, resetLow := true, samples := [] } }

/-- The release takes effect: the straps are latched and a full start runs. -/
def State.startFull (s : State) (b : BootIn) : State :=
  (({ s with boot := { s.boot with waitSample := false } } : State).latchStraps).start b false

/-- R535: a sample of SUMAC0 to SUMAC11. A release that waits for the third sample takes effect with it. -/
def strapSample (pins : BitVec 12) (b : BootIn) (s : State) : State :=
  if !s.boot.pwrOk ∨ !(s.boot.resetLow || s.boot.waitSample) then s
  else
    let l := (pins.toNat :: s.boot.samples).take 3
    let s := { s with boot := { s.boot with samples := l } }
    if s.boot.waitSample ∧ l.length = 3 then s.startFull b else s

/-- R535, R539: MOD_RESET_N rises; the Transition phase begins. -/
def modResetRelease (b : BootIn) (s : State) : State :=
  if !s.boot.pwrOk ∨ !s.boot.resetLow then s
  else
    let s := { s with boot := { s.boot with resetLow := false } }.setPhase 1
    if s.boot.samples.length < 3 then { s with boot := { s.boot with waitSample := true } } else s.startFull b

/-- R534, R558: 100 µs after the release the RUN phase begins. -/
def runPhase (s : State) : State :=
  if s.powered ∧ !s.boot.resetLow ∧ s.fget pSumac F.SUMAC_PHASE_PHASE = 1 then s.setPhase 2 else s

/-- R537: the watchdog fires: an internal reset and a full start. Load mode has no timeout, and a halted or held
module has no watchdog that runs. Log entry 213: DEDUCED. -/
def watchdog (b : BootIn) (s : State) : State :=
  if !s.powered ∨ s.boot.resetLow ∨ s.boot.waitSample ∨ s.boot.loading ∨ s.boot.fault then s
  else (s.modReset true).start b false

/-- R538: HEARTBEAT toggles in RUN while Cardamom runs. -/
def heartbeat (s : State) : State :=
  if !s.powered ∨ s.boot.resetLow ∨ s.boot.fault ∨ s.fget pSumac F.SUMAC_PHASE_PHASE < 2 then s
  else { s with boot := { s.boot with heartbeat := !s.boot.heartbeat } }.send (.pin 5 (!s.boot.heartbeat))

/-- R516, R449: PERST_n of an enabled port is released. In P3 the exit is due. -/
def perstRelease (p : HostPort) (s : State) : State :=
  if !s.hostOn p ∨ !s.boot.perst.testBit (HostPort.ix p) then s
  else
    let s := { s with boot := { s.boot with perst := putBit s.boot.perst (HostPort.ix p) false } }
    if s.pState = 3 then { s with boot := { s.boot with wake := true } }
    else if s.live then s.event (pHp p) F.HP_PG_EVT_PERST else s

/-- The time unit resumes: in HOLDOVER with its slots continued when it was LOCKED or HOLDOVER, else in FREE (R526).
Log entry 214: DEDUCED. -/
def State.resumeTime (s : State) : State :=
  if s.pwr.timeHeld then
    let e := s.time.expect
    let k := cdiv (s.now - (e + 500000000)) 1000000000
    { s with time := { s.time with expect := e + k * 1000000000 } }.setTimeState 3
  else s.setTimeState 0

/-- R518: P3 exit: the rails return, the stacks retrain from self-refresh, and the resume path runs. -/
def p3Exit (b : BootIn) (s : State) : State :=
  if s.pState ≠ 3 ∨ !s.boot.wake then s
  else
    let s := s.resumeTime
    let s := { s with boot := { s.boot with wake := false }, pwr := { s.pwr with retained := false } }
    let s := (List.range 32).foldl (fun s n =>
      if (s.hbmc n).st = .selfRefresh then s.modHbmc n fun h => { h with st := .training } else s) s
    s.start b true

/-! ### Load mode (R540) -/

/-- R540: the host has rung H2F doorbell bit 0: the boot ROM checks the image in the buffer, whose length is in H2F0.
Log entry 203: DESIGN CHOICE. -/
def loadModeImage (b : BootIn) (s : State) : State :=
  let p := s.loadPort
  if !s.boot.loading ∨ !s.powered ∨ !bit (s.reg (pMbx p + 0x0C8)) 0 then s
  else
    let len := (s.reg (pMbx p + 0x040)).toNat
    let s := s.setReg (pMbx p + 0x0C8) (setBits (s.reg (pMbx p + 0x0C8)) 0 0 0)
    let s := s.setReg (pMbx p + 0x0C0) (setBits (s.reg (pMbx p + 0x0C0)) 0 0 0)
    let img := s.bufferBytes 0 (min len 0x4000000)
    let r := s.imageReason img 1
    if r ≠ 0 then (s.regWrite .firmware (pMbx p + 0x080) 0xF (BitVec.ofNat 32 r)).1
    else
      let src := if s.bootSrc = 3 then 3 else 2
      let s := s.acceptImage img src
      let s := s.fset pCdm F.CDM_BOOT_STAT_LOAD_WAIT 0
      let s := { s with boot := { s.boot with loading := false, hostReady := 0, buffer := [] } }
      let s := s.stepDone 5 false src
      let resume := s.fget pCdm F.CDM_BOOT_STAT_RESUME == 1
      runSteps b ((bootSteps b resume).filter fun x => 6 ≤ x.1) s

/-! ### Ends of repairs and sparing operations, and the log -/

/-- R547, R548: a SPARE_OP ends; held accesses go on. -/
def spareDone (s : State) : State := s.spareEnd.settle

/-- R277: a soft repair completes; held accesses go on. -/
def spprDone (n : HbmId) (s : State) : State := (s.spprEnd n.val).settle

/-- R544: the coalesced counts are written to flash. Log entry 221: DESIGN CHOICE. -/
def logCoalesceFlush (s : State) : State :=
  if s.powered then { s with logs := { s.logs with unflushed := false } } else s

end Sys2Proof.Machine
end

