-- ==== Sys2Proof/Machine/Mctp.lean ====
section
/-! DEFINITION. The SMBus interface as an MCTP endpoint: control messages and telemetry (R514, R552, R553). -/

namespace Sys2Proof.Machine

/-! ### Control messages (R552). PRESUMED: the bytes of the answers follow DSP0236, which the spec names and does not
repeat. -/

/-- Does the endpoint answer control messages: BS14 has completed, and the module is in P0, P1 or P2. Log entry 218:
PRESUMED. -/
def State.mctpLive (s : State) : Bool := s.powered && s.boot.ready

/-- The answer to a control message: type, instance number, command, completion code and data. Log entry 218:
PRESUMED. -/
def State.mctpAnswer (s : State) (inst : Fin 32) (cmd cc : Nat) (data : List Byte) : State :=
  s.send (.smbus ([0, BitVec.ofNat 8 inst.val, BitVec.ofNat 8 cmd, BitVec.ofNat 8 cc] ++ data))

/-- R552: Set Endpoint ID. Operations 0 and 1 set the endpoint ID; the endpoint has no static ID to reset to and no
discovered flag, so 2 and 3 are invalid, as are the IDs 0 and 255. -/
def setEndpointId (inst : Fin 32) (op : Fin 4) (eid : Byte) (s : State) : State :=
  if !s.mctpLive then s
  else if 2 ≤ op.val ∨ eid = 0 ∨ eid = 255 then s.mctpAnswer inst 1 2 []
  else ({ s with mctp := ⟨eid.toNat⟩ } : State).mctpAnswer inst 1 0 [0, eid, 0]

/-- R552: Get Endpoint ID: a simple endpoint with a dynamic ID. -/
def getEndpointId (inst : Fin 32) (s : State) : State :=
  if s.mctpLive then s.mctpAnswer inst 2 0 [BitVec.ofNat 8 s.mctp.eid, 0, 0] else s

/-- R552: Get MCTP Version Support: one entry for the base specification, the control messages and telemetry; its version
is not stated. Other types have no answer but an error. -/
def getMctpVersionSupport (inst : Fin 32) (type : Byte) (s : State) : State :=
  if !s.mctpLive then s
  else if type = 0xFF ∨ type = 0 ∨ type = 0x7F then
    let (v, s) := s.drawBytes 4
    s.mctpAnswer inst 4 0 (1 :: v)
  else s.mctpAnswer inst 4 0x80 []

/-- R552: Get Message Type Support: telemetry is the one type. -/
def getMessageTypeSupport (inst : Fin 32) (s : State) : State :=
  if s.mctpLive then s.mctpAnswer inst 5 0 [1, 0x7F] else s

/-- R552: Get Vendor Defined Message Support: one set, under Colhafy's PCI vendor ID; its version word is not stated. -/
def getVendorDefinedMsgSupport (inst : Fin 32) (sel : Byte) (s : State) : State :=
  if !s.mctpLive then s
  else if sel ≠ 0 then s.mctpAnswer inst 6 2 []
  else
    let (v, s) := s.drawBytes 2
    s.mctpAnswer inst 6 0 ([0xFF, 0] ++ beBytes 2 Config.vendorId.toNat ++ v)

/-! ### Telemetry (R553) -/

/-- A telemetry answer: the vendor ID, CMD, the completion code and the record. -/
def State.telemetry (s : State) (cmd cc : Nat) (rec_ : List Byte) : State :=
  s.send (.smbus (0x7F :: beBytes 2 Config.vendorId.toNat ++ [BitVec.ofNat 8 (cmd % 128 + 128), BitVec.ofNat 8 cc, 0, 0] ++ rec_))

/-- Does anything answer: AON runs. In P4 nothing does. -/
def State.aonLive (s : State) : Bool := s.pState != 4 && s.boot.pwrOk && !s.boot.resetLow

/-- A record served while BS14 has completed, and in P3 when inP3: else completion code 2. -/
def State.record (s : State) (cmd : Nat) (inP3 : Bool) (rec_ : List Byte) : State :=
  if !s.aonLive then s
  else if s.mctpLive || (inP3 && s.pState == 3) then s.telemetry cmd 0 rec_
  else s.telemetry cmd 2 []

/-- The levels of STATUS[3:0] (R538, R559). -/
def State.statusPins (s : State) : Nat := if s.pState = 3 then 0 else s.boot.status % 16

/-- R553: CMD 0x01, the STATUS record; it is served before BS14 too. CMD values outside 1 to 5 are unsupported; the
other records have commands of their own. Log entry 219: DEDUCED. -/
def mctpStatus (cmd : Byte) (s : State) : State :=
  if !s.aonLive then s
  else if cmd = 0 ∨ 5 < cmd.toNat then s.telemetry cmd.toNat 1 []
  else if cmd ≠ 1 then s
  else
    s.telemetry 1 0 (leBytes 1 s.pState ++ leBytes 1 (s.rpb.lc % 4 * 64 + s.sec.dbg % 4 * 16 + s.statusPins)
      ++ leBytes 2 (s.fget pCdm F.CDM_DEG_BITS) ++ leBytes 4 (s.reg (pCdm + 0x040)).toNat ++ leBytes 2 s.alertSrc
      ++ leBytes 1 (b2n s.boot.fault) ++ leBytes 1 s.timeState ++ leBytes 4 s.bootNum)

/-- R553: CMD 0x02, the POWER record. -/
def mctpPower (s : State) : State :=
  s.record 2 true (leBytes 2 (s.fget pPwr F.PWR_IN_V_MV) ++ leBytes 2 (s.fget pPwr F.PWR_IN_I_I10MA) ++ leBytes 2 s.avgW
    ++ leBytes 2 s.peakW ++ leBytes 1 s.duty ++ leBytes 1 s.limiter ++ leBytes 1 (s.fget pPwr F.PWR_STAT_CLASS) ++ [0]
    ++ leBytes 4 (s.reg (pPwr + 0x074)).toNat)

/-- The hottest stack: its temperature byte and its number, the lowest among equals. -/
def State.hottest (s : State) : Nat × Nat :=
  (List.range 32).foldl (fun (a : Nat × Nat) n =>
    let t := s.fget (pHbm n) F.HBM_TEMP_DEG_C
    if a.1 < t then (t, n) else a) (0, 0)

/-- R553: CMD 0x03, the THERMAL record. -/
def mctpThermal (s : State) : State :=
  let h := s.hottest
  s.record 3 false ((List.range 9).flatMap (fun n => leBytes 1 (s.fget pPwr (tempField n))) ++ leBytes 1 h.1 ++ leBytes 1 h.2 ++ [0]
    ++ leBytes 2 (s.fget pPwr ⟨0x070, 16, 8⟩) ++ [0, 0])

/-- Fabric ports that satisfy p. -/
def countFp (p : Nat → Bool) : Nat := ((List.range 16).filter p).length

/-- R553: CMD 0x04, the HEALTH record. -/
def mctpHealth (s : State) : State :=
  let gib := ((List.range 8).foldl (fun a d => a + s.dieUnits d) 0) * 9 / 4
  s.record 4 false (leBytes 2 s.units.count ++ leBytes 2 gib ++ leBytes 2 (countFp fun n => s.fpState n == 2)
    ++ leBytes 2 (countFp fun n => (s.fget (pFp n) F.FP_LANE_MAP_ACTIVE).testBit 8)
    ++ leBytes 1 ((List.range 5).filter fun n => s.inService .saf n).length ++ [0]
    ++ leBytes 2 s.wear.cores.length ++ leBytes 2 s.wear.banks.length ++ leBytes 2 s.logs.repairs.length)

/-- R553: CMD 0x05, one log or journal entry. An entry that was never written holds free bytes. Log entry 219:
DEDUCED. -/
def mctpLog (index : BitVec 16) (sect : Byte) (s : State) : State :=
  let size := match sect.toNat with
    | 0 => 8192
    | 1 => 2048
    | 2 => 512
    | _ => 0
  if !s.mctpLive then s.record 5 false []
  else if size ≤ index.toNat then s.telemetry 5 3 []
  else
    let (v, s') := s.drawBytes (if sect = 2 then 16 else 32)
    match s.logEntryAt sect.toNat index.toNat with
    | some bs => s.record 5 false bs
    | none => s'.record 5 false v

/-- R514: SMB_CLK was low above 25 ms: the interface resets and drops the transaction. A transaction is one command
here, so none is under way. Log entry 220: DEDUCED. -/
def smbusTimeout (s : State) : State := s

end Sys2Proof.Machine
end

