-- ==== Sys2Proof/Machine/BootRows.lean ====
section
/-! DEFINITION. The meanings of the commands of start-up and management: each is the effect of its rule, and the module goes on. -/

namespace Sys2Proof.Machine

/-- MOD_RESET_ASSERT (R536). -/
def execModResetAssert (s : State) : Result := .next (modResetAssert s)
/-- STRAP_SAMPLE (R535). -/
def execStrapSample (pins : BitVec 12) (b : BootIn) (s : State) : Result := .next (strapSample pins b s)
/-- MOD_RESET_RELEASE (R539). -/
def execModResetRelease (b : BootIn) (s : State) : Result := .next (modResetRelease b s)
/-- LOAD_MODE_IMAGE (R540). -/
def execLoadModeImage (b : BootIn) (s : State) : Result := .next (loadModeImage b s)
/-- WATCHDOG (R537). -/
def execWatchdog (b : BootIn) (s : State) : Result := .next (watchdog b s)
/-- HEARTBEAT (R538). -/
def execHeartbeat (s : State) : Result := .next (heartbeat s)
/-- LOG_COALESCE_FLUSH (R544). -/
def execLogCoalesceFlush (s : State) : Result := .next (logCoalesceFlush s)
/-- SET_ENDPOINT_ID (R552). -/
def execSetEndpointId (inst : Fin 32) (op : Fin 4) (eid : Byte) (s : State) : Result :=
  .next (setEndpointId inst op eid s)
/-- GET_ENDPOINT_ID (R552). -/
def execGetEndpointId (inst : Fin 32) (s : State) : Result := .next (getEndpointId inst s)
/-- GET_MCTP_VERSION_SUPPORT (R552). -/
def execGetMctpVersionSupport (inst : Fin 32) (type : Byte) (s : State) : Result :=
  .next (getMctpVersionSupport inst type s)
/-- GET_MESSAGE_TYPE_SUPPORT (R552). -/
def execGetMessageTypeSupport (inst : Fin 32) (s : State) : Result := .next (getMessageTypeSupport inst s)
/-- GET_VENDOR_DEFINED_MSG_SUPPORT (R552). -/
def execGetVendorDefinedMsgSupport (inst : Fin 32) (sel : Byte) (s : State) : Result :=
  .next (getVendorDefinedMsgSupport inst sel s)
/-- MCTP_STATUS (R553). -/
def execMctpStatus (cmd : Byte) (s : State) : Result := .next (mctpStatus cmd s)
/-- MCTP_POWER (R553). -/
def execMctpPower (s : State) : Result := .next (mctpPower s)
/-- MCTP_THERMAL (R553). -/
def execMctpThermal (s : State) : Result := .next (mctpThermal s)
/-- MCTP_HEALTH (R553). -/
def execMctpHealth (s : State) : Result := .next (mctpHealth s)
/-- MCTP_LOG (R553). -/
def execMctpLog (index : BitVec 16) (sect : Byte) (s : State) : Result := .next (mctpLog index sect s)
/-- SMBUS_TIMEOUT (R514). -/
def execSmbusTimeout (s : State) : Result := .next (smbusTimeout s)
/-- PWR_OK_RISE (R534). -/
def execPwrOkRise (s : State) : Result := .next (pwrOkRise s)
/-- RUN_PHASE (R534). -/
def execRunPhase (s : State) : Result := .next (runPhase s)

end Sys2Proof.Machine
end

