-- ==== Sys2Proof/Machine/CloveRows.lean ====
section
/-! DEFINITION. The meanings of the commands of transactions: each is the effect of its rule, and the module goes on. -/

namespace Sys2Proof.Machine

/-- TXN_BEGIN (R342). -/
def execTxnBegin (n : CoreId) (s : State) : Result := .next ((txnBegin n.val s).settle)
/-- TXN_ATTACH (R338). -/
def execTxnAttach (n : CoreId) (s : State) : Result := .next ((txnAttach n.val s).settle)
/-- TXN_DETACH (R338). -/
def execTxnDetach (n : CoreId) (s : State) : Result := .next ((txnDetach n.val s).settle)
/-- TXN_ACTION (R333). -/
def execTxnAction (n : CoreId) (s : State) : Result := .next ((txnAction n.val s).settle)
/-- TXN_COMMIT (R343). -/
def execTxnCommit (n : CoreId) (s : State) : Result := .next ((txnCommit n.val s).settle)
/-- TXN_ABORT (R342). -/
def execTxnAbort (n : CoreId) (s : State) : Result := .next ((txnAbort n.val s).settle)
/-- JOIN (R349). -/
def execJoin (a : Arrival) (s : State) : Result := .next (join a s)
/-- VOTE (R346). -/
def execVote (a : Arrival) (s : State) : Result := .next (vote a s)
/-- DECIDE (R347). -/
def execDecideMsg (a : Arrival) (s : State) : Result := .next (decideMsg a s)
/-- ACK (R350). -/
def execAck (a : Arrival) (s : State) : Result := .next (ack a s)
/-- QUERY (R351). -/
def execQuery (a : Arrival) (s : State) : Result := .next (query a s)
/-- VOTE_TIMEOUT (R346). -/
def execVoteTimeout (n : SlotId) (s : State) : Result := .next ((voteTimeout n s).settle)
/-- DECIDE_RESEND (R350). -/
def execDecideResend (n : SlotId) (s : State) : Result := .next (decideResend n s)
/-- IN_DOUBT (R351). -/
def execInDoubt (n : SlotId) (s : State) : Result := .next (inDoubt n s)
/-- APPLY_DONE (R348). -/
def execApplyDone (n : SlotId) (fails : List (Nat × Nat × Nat)) (s : State) : Result := .next (applyDone n fails s)

end Sys2Proof.Machine
end

