-- ==== Sys2Proof/Machine/CollectiveRows.lean ====
section
/-! DEFINITION. The meanings of the commands of collectives: each is the effect of its rule, and the module goes on. -/

namespace Sys2Proof.Machine

/-- BARRIER (R359). -/
def execBarrier (n : CoreId) (s : State) : Result := .next ((barrier n.val s).settle)
/-- ALLREDUCE (R370). -/
def execAllreduce (n : CoreId) (s : State) : Result := .next ((allreduce n.val s).settle)
/-- REDUCE_SCATTER (R370). -/
def execReduceScatter (n : CoreId) (s : State) : Result := .next ((reduceScatter n.val s).settle)
/-- ALLGATHER (R370). -/
def execAllgather (n : CoreId) (s : State) : Result := .next ((allgather n.val s).settle)
/-- BROADCAST (R370). -/
def execBroadcast (n : CoreId) (s : State) : Result := .next ((broadcast n.val s).settle)
/-- ALLTOALL (R370). -/
def execAlltoall (n : CoreId) (s : State) : Result := .next ((alltoall n.val s).settle)
/-- ENTER (R364). -/
def execEnter (x : CollIn) (s : State) : Result := .next ((enter x s).settle)
/-- COLL_START (R367). -/
def execCollStart (x : CollIn) (s : State) : Result := .next ((collStartMsg x s).settle)
/-- PRE (R373). -/
def execPre (x : CollIn) (s : State) : Result := .next ((pre x s).settle)
/-- GO (R373). -/
def execGo (x : CollIn) (s : State) : Result := .next ((go x s).settle)
/-- CHUNK (R379). -/
def execChunkMsg (x : CollIn) (s : State) : Result := .next ((chunkMsg x s).settle)
/-- COLL_FREE (R377). -/
def execCollFree (x : CollIn) (s : State) : Result := .next ((collFreeMsg x s).settle)
/-- REPORT (R382). -/
def execReport (x : CollIn) (s : State) : Result := .next ((report x s).settle)
/-- STOP (R382). -/
def execStop (x : CollIn) (s : State) : Result := .next ((stop x s).settle)
/-- VERDICT (R382). -/
def execVerdict (x : CollIn) (s : State) : Result := .next ((verdict x s).settle)
/-- EXCLUDED (R368). -/
def execExcluded (x : CollIn) (s : State) : Result := .next ((excluded x s).settle)
/-- ENTRY_DEADLINE (R368). -/
def execEntryDeadline (n : CoreId) (s : State) : Result := .next ((entryDeadline n.val s).settle)
/-- ENTRY_TIMEOUT (R364). -/
def execEntryTimeout (n : CoreId) (s : State) : Result := .next ((entryTimeout n.val s).settle)
/-- START_TIMEOUT (R367). -/
def execStartTimeout (n : CoreId) (s : State) : Result := .next ((startTimeout n.val s).settle)
/-- CHUNK_TIMEOUT (R379). -/
def execChunkTimeout (n : CoreId) (s : State) : Result := .next ((chunkTimeout n.val s).settle)
/-- STOP_TIMEOUT (R382). -/
def execStopTimeout (n : CoreId) (s : State) : Result := .next ((stopTimeout n.val s).settle)
/-- LATE_TIMEOUT (R368). -/
def execLateTimeout (n : CoreId) (s : State) : Result := .next ((lateTimeout n.val s).settle)

end Sys2Proof.Machine
end

