-- ==== Sys2Proof/Machine/CoreRows.lean ====
section
/-! DEFINITION. The meanings of the commands of the sequencer, the matrix engine, CHAIN, MOVE, SYNC, FENCE and FPRINT: each is the effect of its rule, and the module goes on. -/

namespace Sys2Proof.Machine

/-- DR_TAIL_WRITE (R147). -/
def execDrTailWrite (n : CoreId) (p : Put) (s : State) : Result := .next (drTailWrite n p s)
/-- DESCRIPTOR_FETCH (R147). -/
def execDescriptorFetch (n : CoreId) (s : State) : Result := .next (descriptorFetch n.val s)
/-- RESERVED_TYPE (R11). -/
def execReservedType (n : CoreId) (s : State) : Result := .next (reservedType n.val s)
/-- WAIT_TIMEOUT (R155). -/
def execWaitTimeout (n : CoreId) (s : State) : Result := .next (waitTimeout n.val s)
/-- MATMUL (R87). -/
def execMatmul (n : CoreId) (s : State) : Result := .next (matmul n.val s)
/-- MAX_EXPONENT_SCAN (R121). -/
def execMaxExponentScan (n : CoreId) (s : State) : Result := .next ((maxExponentScan n.val s).settle)
/-- SWEEP_START (R77). Log entry 4: DEDUCED. -/
def execSweepStart (n : CoreId) (s : State) : Result := .next ((sweepStart n.val s).settle)
/-- SWEEP_DRAIN (R75). -/
def execSweepDrain (n : CoreId) (s : State) : Result := .next ((sweepDrain n.val s).settle)
/-- ATTEMPT_REPEAT (R124). -/
def execAttemptRepeat (n : CoreId) (s : State) : Result := .next (attemptRepeat n.val s)
/-- PASS_COMPLETE (R93). -/
def execPassComplete (n : CoreId) (s : State) : Result := .next ((passComplete n.val s).settle)
/-- ISSUE_PAUSE (R99). -/
def execIssuePause (n : CoreId) (s : State) : Result := .next (issuePause n.val s)
/-- PAUSE_END (R99). -/
def execPauseEnd (n : CoreId) (s : State) : Result := .next (pauseEnd n.val s)
/-- PREEMPT_REQUEST (R100). -/
def execPreemptRequest (n : CoreId) (rq : Requester) (v : Word) (s : State) : Result := .next (preemptRequest n rq v s)
/-- PREEMPT_SAVE (R101). -/
def execPreemptSave (n : CoreId) (v : SaveIn) (s : State) : Result := .next ((preemptSave n.val v s).settle)
/-- SAVE_COMPLETE (R106). -/
def execSaveComplete (n : CoreId) (s : State) : Result := .next (saveComplete n.val s)
/-- PREEMPT_RELEASE (R102). -/
def execPreemptRelease (n : CoreId) (rq : Requester) (v : Word) (s : State) : Result := .next (preemptRelease n rq v s)
/-- RESTORE_COMPLETE (R106). -/
def execRestoreComplete (n : CoreId) (s : State) : Result := .next ((restoreComplete n.val s).settle)
/-- DATAPATH_FAULT (R103). -/
def execDatapathFault (n : CoreId) (s : State) : Result := .next ((datapathFault n.val s).settle)
/-- OPERAND_UE (R104). -/
def execOperandUe (n : CoreId) (x : Nat) (s : State) : Result := .next ((operandUe n.val x s).settle)
/-- CHAIN (R139). -/
def execChain (n : CoreId) (s : State) : Result := .next (chain n.val s)
/-- CHAIN_TILE (R141). -/
def execChainTile (n : CoreId) (s : State) : Result := .next ((chainTile n.val s).settle)
/-- MOVE (R176). -/
def execMove (n : CoreId) (s : State) : Result := .next (move n.val s)
/-- REGISTER_MOVE (R178). -/
def execRegisterMove (n : CoreId) (s : State) : Result := .next (registerMove n.val s)
/-- SYNC (R180). -/
def execSync (n : CoreId) (s : State) : Result := .next (sync n.val s)
/-- FENCE (R182). -/
def execFence (n : CoreId) (s : State) : Result := .next (fence n.val s)
/-- FPRINT (R190). -/
def execFprint (n : CoreId) (s : State) : Result := .next (fprint n.val s)

end Sys2Proof.Machine
end

