-- ==== Sys2Proof/Machine/FabricRows.lean ====
section
/-! DEFINITION. The meanings of the commands of links and the fabric: each is the effect of its rule, and the module goes on. -/

namespace Sys2Proof.Machine

/-- PORT_ENABLE (R300). -/
def execPortEnable (n : FpId) (rq : Requester) (rateCap : Bool) (s : State) : Result :=
  .next (portEnable n rq rateCap s)
/-- PORT_DISABLE (R300). -/
def execPortDisable (n : FpId) (rq : Requester) (rateCap : Bool) (s : State) : Result :=
  .next (portDisable n rq rateCap s)
/-- PORT_TRAINING (R300). -/
def execPortTraining (n : FpId) (t : TrainResult) (s : State) : Result := .next (portTraining n t s)
/-- TRAINING_TIMEOUT (R300). -/
def execTrainingTimeout (n : FpId) (s : State) : Result := .next (trainingTimeout n s)
/-- LANE_FAILURE (R299). -/
def execLaneFailure (n : FpId) (lane : Fin 9) (s : State) : Result := .next (laneFailure n lane s)
/-- RETRAIN_DONE (R300). -/
def execRetrainDone (n : FpId) (t : TrainResult) (s : State) : Result := .next (retrainDone n t s)
/-- RETRAIN_TIMEOUT (R300). -/
def execRetrainTimeout (n : FpId) (s : State) : Result := .next (retrainTimeout n s)
/-- FLIT_RECEIVE (R298). -/
def execFlitReceive (n : FpId) (f : FlitRx) (s : State) : Result := .next (flitReceive n f s)
/-- PACKET_FORWARD (R304). -/
def execPacketForward (a : Arrival) (s : State) : Result := .next (packetForward a s)
/-- RD (R324). -/
def execRd (a : Arrival) (s : State) : Result := .next (rd a s)
/-- WR (R321). -/
def execWr (a : Arrival) (s : State) : Result := .next (wr a s)
/-- SIG (R303). -/
def execSig (a : Arrival) (s : State) : Result := .next (sig a s)
/-- RSP (R320). -/
def execRsp (a : Arrival) (gen : Fin 16) (s : State) : Result := .next ((rsp a gen s).settle)
/-- NAK (R314). -/
def execFabNak (a : Arrival) (gen : Fin 16) (s : State) : Result := .next ((fabNak a gen s).settle)
/-- C2_RESEND (R314). -/
def execC2Resend (tag : Fin 262144) (s : State) : Result := .next ((c2Resend tag s).settle)
/-- TRACKER_ADMIT (R315). -/
def execTrackerAdmit (cls : Fin 4) (s : State) : Result := .next ((trackerAdmit cls s).settle)
/-- REQUEST_TIMEOUT (R320). -/
def execRequestTimeout (tag : Fin 262144) (s : State) : Result := .next ((requestTimeout tag s).settle)
/-- C2_TIMEOUT (R316). -/
def execC2Timeout (k : Nat) (s : State) : Result := .next ((c2Timeout k s).settle)
/-- SITE_LINK_UP (R436). -/
def execSiteLinkUp (n : SiteId) (rate : Fin 4) (s : State) : Result := .next (siteLinkUp n rate s)
/-- SITE_LINK_FAILED (R436). -/
def execSiteLinkFailed (n : SiteId) (s : State) : Result := .next (siteLinkFailed n s)
/-- HOST_LINK_CHANGE (R437). -/
def execHostLinkChange (p : HostPort) (l : HostLink) (s : State) : Result := .next (hostLinkChange p l s)

end Sys2Proof.Machine
end

