-- ==== Sys2Proof/Machine/HostRows.lean ====
section
/-! DEFINITION. The meanings of the commands of the host ports and the ends of moves: each is the effect of its rule, and the module goes on. -/

namespace Sys2Proof.Machine

/-- CONFIG_RETRY (R440). -/
def execConfigRetry (c : ConfigIn) (s : State) : Result := .next (configRetry c s)
/-- BAR2_READ (R443). -/
def execBar2Read (p : HostPort) (o len : Nat) (s : State) : Result := .next (bar2Read p o len s)
/-- BAR2_WRITE (R442). -/
def execBar2Write (p : HostPort) (o : Nat) (data : List Byte) (be : List Bool) (s : State) : Result :=
  .next (bar2Write p o data be s)
/-- POISONED_TLP (R445). -/
def execPoisonedTlp (p : HostPort) (s : State) : Result := .next (poisonedTlp p s)
/-- FLR (R449). -/
def execFlr (p : HostPort) (s : State) : Result := .next (flr p s)
/-- PERST_ASSERT (R449). -/
def execPerstAssert (p : HostPort) (s : State) : Result := .next (perstAssert p s)
/-- PERST_RELEASE (R516). -/
def execPerstRelease (p : HostPort) (s : State) : Result := .next (perstRelease p s)
/-- REGISTER_TIMEOUT (R462). -/
def execRegisterTimeout (x : RegAcc) (s : State) : Result := .next (registerTimeout x s)
/-- LOCAL_MOVE_DONE (R326). -/
def execLocalMoveDone (n : CoreId) (k : Nat) (s : State) : Result := .next ((localMoveDone n.val k s).settle)

end Sys2Proof.Machine
end

