-- ==== Sys2Proof/Machine/MemoryRows.lean ====
section
/-! DEFINITION. The meanings of the commands of the HBM controllers and sparing: each is the effect of its rule, and the module goes on. -/

namespace Sys2Proof.Machine

/-- SPARE_CORE (R548). -/
def execSpareCore (rq : Requester) (n : CoreId) (s : State) : Result := .next (spareCore rq n s)
/-- SPARE_BANK (R549). -/
def execSpareBank (rq : Requester) (n : CoreId) (bank : Fin 8) (s : State) : Result := .next (spareBank rq n bank s)
/-- SPARE_HBM_REBUILD (R549). -/
def execSpareHbmRebuild (rq : Requester) (d : DieId) (s : State) : Result := .next (spareHbmRebuild rq d s)
/-- HBM_REFRESH (R286). -/
def execHbmRefresh (n : HbmId) (s : State) : Result := .next (hbmRefresh n s)
/-- PATROL_SCRUB (R275). -/
def execPatrolScrub (n : HbmId) (hbm : List HbmHit) (sp : List SpHit) (s : State) : Result := .next (patrolScrub n hbm sp s)
/-- HBM_TEMP_READ (R287). -/
def execHbmTempRead (n : HbmId) (t : Int) (s : State) : Result := .next (hbmTempRead n t s)
/-- SOFT_PPR (R277). -/
def execSoftPpr (n : HbmId) (spare : Bool) (s : State) : Result := .next (softPpr n spare s)
/-- STACK_NO_ANSWER (R282). -/
def execStackNoAnswer (n : HbmId) (s : State) : Result := .next ((stackNoAnswer n s).settle)
/-- PC_SELF_REFRESH (R288). -/
def execPcSelfRefresh (n : HbmId) (pc : Fin 32) (s : State) : Result := .next (pcSelfRefresh n pc s)
/-- HBM_TRAINING_DONE (R289). -/
def execHbmTrainingDone (n : HbmId) (ok : Bool) (s : State) : Result := .next (hbmTrainingDone n ok s)
/-- MAP_REBUILD (R283). -/
def execMapRebuild (d : DieId) (s : State) : Result := .next (mapRebuild d s)
/-- SPARE_DONE (R547). -/
def execSpareDone (s : State) : Result := .next (spareDone s)
/-- SPPR_DONE (R277). -/
def execSpprDone (n : HbmId) (s : State) : Result := .next (spprDone n s)

end Sys2Proof.Machine
end

