-- ==== Sys2Proof/Machine/PowerRows.lean ====
section
/-! DEFINITION. The meanings of the commands of clocks, power and time: each is the effect of its rule, and the module goes on. -/

namespace Sys2Proof.Machine

/-- REQ_P0 (R516). -/
def execReqP0 (rq : Requester) (autoP2 : Bool) (s : State) : Result := .next (reqP0 rq autoP2 s)
/-- REQ_P2 (R516). -/
def execReqP2 (rq : Requester) (autoP2 : Bool) (s : State) : Result := .next (reqP2 rq autoP2 s)
/-- REQ_P3 (R517). -/
def execReqP3 (rq : Requester) (autoP2 : Bool) (s : State) : Result := .next (reqP3 rq autoP2 s)
/-- REQ_P4 (R516). -/
def execReqP4 (rq : Requester) (autoP2 : Bool) (s : State) : Result := .next (reqP4 rq autoP2 s)
/-- REFCLK_WINDOW (R512). -/
def execRefclkWindow (hz : Nat) (s : State) : Result := .next (refclkWindow hz s)
/-- PLL_UNLOCK (R513). -/
def execPllUnlock (pll : Fin 15) (s : State) : Result := .next (pllUnlock pll s)
/-- POWER_TICK (R522). -/
def execPowerTick (peak avg mj : Nat) (s : State) : Result := .next (powerTick peak avg mj s)
/-- DUTY_STEP (R522). -/
def execDutyStep (s : State) : Result := .next (dutyStep s)
/-- THROTTLE_ASSERT (R523). -/
def execThrottleAssert (s : State) : Result := .next (throttleAssert s)
/-- THROTTLE_ACK (R523). -/
def execThrottleAck (s : State) : Result := .next (throttleAck s)
/-- THROTTLE_CHECK (R523). -/
def execThrottleCheck (s : State) : Result := .next (throttleCheck s)
/-- THROTTLE_RELEASE (R523). -/
def execThrottleRelease (s : State) : Result := .next (throttleRelease s)
/-- THROTTLE_RAMP (R523). -/
def execThrottleRamp (s : State) : Result := .next (throttleRamp s)
/-- THR_LONG (R514). -/
def execThrLong (s : State) : Result := .next (thrLong s)
/-- DIE_TEMP_READ (R524). -/
def execDieTempRead (ts : List Int) (s : State) : Result := .next (dieTempRead ts s)
/-- VOLTAGE_SAMPLE (R525). -/
def execVoltageSample (mv i10 : Nat) (s : State) : Result := .next (voltageSample mv i10 s)
/-- RAIL_FAULT (R514). -/
def execRailFault (rail mv : Nat) (s : State) : Result := .next (railFault rail mv s)
/-- PWR_OK_LOW (R514). -/
def execPwrOkLow (s : State) : Result := .next (pwrOkLow s)
/-- IDLE_TIMEOUT (R516). -/
def execIdleTimeout (s : State) : Result := .next (idleTimeout s)
/-- P3_ENTRY (R517). -/
def execP3Entry (s : State) : Result := .next (p3Entry s)
/-- P3_TIMEOUT (R517). -/
def execP3Timeout (s : State) : Result := .next (p3Timeout s)
/-- P3_EXIT (R518). -/
def execP3Exit (b : BootIn) (s : State) : Result := .next (p3Exit b s)
/-- PPS_PULSE (R527). -/
def execPpsPulse (high : Nat) (s : State) : Result := .next (ppsPulse high s)
/-- SLOT_END (R528). -/
def execSlotEnd (s : State) : Result := .next (slotEnd s)
/-- ACQUIRE_TIMEOUT (R528). -/
def execAcquireTimeout (s : State) : Result := .next (acquireTimeout s)
/-- PPS_ECHO (R530). -/
def execPpsEcho (s : State) : Result := .next (ppsEcho s)

end Sys2Proof.Machine
end

