-- ==== Sys2Proof/Machine/RegisterRows.lean ====
section
/-! DEFINITION. The meanings of the commands of registers, mailboxes and semaphores: each is the effect of its rule, and the module goes on. -/

namespace Sys2Proof.Machine

/-- CORE_RST (R193). -/
def execCoreRst (n : CoreId) (rq : Requester) (v : Word) (s : State) : Result := .next (coreRst n rq v s)
/-- HALT_WRITE (R160). -/
def execHaltWrite (n : CoreId) (p : Put) (s : State) : Result := .next (haltWrite n p s)
/-- TOKEN_WRITE (R156). -/
def execTokenWrite (n : CoreId) (t : Fin 64) (p : Put) (s : State) : Result := .next (tokenWrite n t p s)
/-- TAB_CLR (R119). -/
def execTabClr (n : CoreId) (rq : Requester) (v : Word) (s : State) : Result := .next (tabClr n rq v s)
/-- FLAG_CLEAR (R69). -/
def execFlagClear (die : Option DieId) (k : Fin 3) (rq : Requester) (v : Word) (s : State) : Result :=
  .next (flagClear die k rq v s)
/-- READ_CLEAR (R457). -/
def execReadClear (r : RegRd) (s : State) : Result := .next (readClear r s)
/-- LO_READ (R456). -/
def execLoRead (r : RegRd) (s : State) : Result := .next (loRead r s)
/-- REGISTER_WRITE (R454). -/
def execRegisterWrite (w : RegWr) (s : State) : Result := .next (registerWrite w s)
/-- PG_EVT_WRITE (R465). -/
def execPgEvtWrite (page : Nat) (p : Put) (s : State) : Result := .next (pgEvtWrite page p s)
/-- PG_EVT_INJ (R464). -/
def execPgEvtInj (page : Nat) (rq : Requester) (v : Word) (s : State) : Result := .next (pgEvtInj page rq v s)
/-- PG_CNT_SEL (R464). -/
def execPgCntSel (page : Nat) (p : Put) (s : State) : Result := .next (pgCntSel page p s)
/-- UPD_STROBE (R459). -/
def execUpdStrobe (rq : Requester) (v : Word) (s : State) : Result := .next (updStrobe rq v s)
/-- UPDATE_APPLY (R459). -/
def execUpdateApply (p : HostPort) (s : State) : Result := .next (updateApply p s)
/-- HSEM_READ (R467). -/
def execHsemRead (k : Fin 16) (rq : Requester) (s : State) : Result := .next (hsemRead k rq s)
/-- HSEM_WRITE (R467). -/
def execHsemWrite (k : Fin 16) (p : Put) (s : State) : Result := .next (hsemWrite k p s)
/-- IDX_DATA (R463). -/
def execIdxData (rq : Requester) (w : Option Word) (s : State) : Result := .next (idxData rq w s)
/-- H2F_WRITE (R469). -/
def execH2fWrite (p : HostPort) (k : Fin 16) (q : HostPort) (v : Word) (s : State) : Result :=
  .next (h2fWrite p k q v s)
/-- H2F_READ (R469). -/
def execH2fRead (p : HostPort) (k : Fin 16) (s : State) : Result := .next (h2fRead p k s)
/-- F2H_WRITE (R470). -/
def execF2hWrite (p : HostPort) (k : Fin 16) (v : Word) (s : State) : Result := .next (f2hWrite p k v s)
/-- F2H_READ (R470). -/
def execF2hRead (p : HostPort) (k : Fin 16) (q : HostPort) (s : State) : Result := .next (f2hRead p k q s)
/-- DOORBELL_RING (R472). -/
def execDoorbellRing (p : HostPort) (toHost : Bool) (rq : Requester) (v : Word) (s : State) : Result :=
  .next (doorbellRing p toHost rq v s)
/-- ROUTE_GEN (R305). -/
def execRouteGen (rq : Requester) (s : State) : Result := .next (routeGen rq s)
/-- ROUTE_FILL_DONE (R305). -/
def execRouteFillDone (s : State) : Result := .next (routeFillDone s)
/-- RT_DATA_WRITE (R308). -/
def execRtDataWrite (p : Put) (s : State) : Result := .next (rtDataWrite p s)
/-- MOD_ID_WRITE (R311). -/
def execModIdWrite (p : Put) (s : State) : Result := .next (modIdWrite p s)
/-- FORCE_ABORT (R353). -/
def execForceAbort (n : SlotId) (rq : Requester) (s : State) : Result := .next (forceAbort n rq s)
/-- FORCE_COMMIT (R353). -/
def execForceCommit (n : SlotId) (rq : Requester) (s : State) : Result := .next (forceCommit n rq s)
/-- FORCE_RELEASE (R353). -/
def execForceRelease (n : SlotId) (rq : Requester) (s : State) : Result := .next (forceRelease n rq s)
/-- D1_SET (R502). -/
def execD1Set (rq : Requester) (s : State) : Result := .next (d1Set rq s)
/-- D1_CLEAR (R502). -/
def execD1Clear (rq : Requester) (s : State) : Result := .next (d1Clear rq s)
/-- D2_EXIT (R502). -/
def execD2Exit (rq : Requester) (v : Word) (s : State) : Result := .next (d2Exit rq v s)
/-- ARB_COMMIT (R485). -/
def execArbCommit (rq : Requester) (v : Word) (s : State) : Result := .next (arbCommit rq v s)
/-- LOG_DATA_READ (R554). -/
def execLogDataRead (rq : Requester) (s : State) : Result := .next (logDataRead rq s)

end Sys2Proof.Machine
end

