-- ==== Sys2Proof/Machine/SecurityRows.lean ====
section
/-! DEFINITION. The meanings of the commands of security and Saffron: each is the effect of its rule, and the module goes on. -/

namespace Sys2Proof.Machine

/-- VERIFY (R483). -/
def execVerify (s : State) : Result := .next (verify s)
/-- ATTEST (R488). -/
def execAttest (s : State) : Result := .next (attest s)
/-- NONCE_NEW (R484). -/
def execNonceNew (s : State) : Result := .next (nonceNew s)
/-- SLOT_ERASE (R492). -/
def execSlotErase (rq : Requester) (v : Word) (s : State) : Result := .next (slotErase rq v s)
/-- UNTR_REL (R499). -/
def execUntrRel (rq : Requester) (v : Word) (s : State) : Result := .next (untrRel rq v s)
/-- JR_TAIL_WRITE (R496). -/
def execJrTailWrite (n : SafId) (p : Put) (s : State) : Result := .next (jrTailWrite n p s)
/-- ENCRYPT (R495). -/
def execEncrypt (n : SafId) (s : State) : Result := .next (encrypt n s)
/-- DECRYPT (R498). -/
def execDecrypt (n : SafId) (s : State) : Result := .next (decrypt n s)
/-- SAF_JOB_COMPLETE (R497). -/
def execSafJobComplete (n : SafId) (s : State) : Result := .next (safJobComplete n s)
/-- SELF_TEST (R500). -/
def execSelfTest (n : SafId) (failed : Bool) (s : State) : Result := .next (selfTest n failed s)
/-- RNG_FAIL (R493). -/
def execRngFail (s : State) : Result := .next (rngFail s)
/-- SAF_STALL_TIMEOUT (R493). -/
def execSafStallTimeout (n : SafId) (s : State) : Result := .next (safStallTimeout n s)
/-- OP_DONE (R506). -/
def execOpDone (s : State) : Result := .next (opDone s)
/-- RANDOMNESS_RETURN (R493). -/
def execRandomnessReturn (s : State) : Result := .next (randomnessReturn s)

end Sys2Proof.Machine
end

