-- ==== Sys2Proof/Machine/UpdateRows.lean ====
section
/-! DEFINITION. The meanings of the commands of the update menu: each is the effect of its rule, and the module goes on. -/

namespace Sys2Proof.Machine

/-- RULE (R245). A reserved OP is handled here. -/
def execRule (n : CoreId) (s : State) : Result := .next (updateIssue (fun op => op == 0x0 || decide (0xB ≤ op)) n.val s)
/-- SEED (R239). -/
def execSeed (n : CoreId) (s : State) : Result := .next (updateIssue (· == 0x1) n.val s)
/-- DERIVE (R214). -/
def execDerive (n : CoreId) (s : State) : Result := .next (updateIssue (· == 0x2) n.val s)
/-- FOLD (R226). -/
def execFold (n : CoreId) (s : State) : Result := .next (updateIssue (· == 0x3) n.val s)
/-- NORMS (R246). -/
def execNorms (n : CoreId) (s : State) : Result := .next (updateIssue (· == 0x4) n.val s)
/-- NMERGE (R247). -/
def execNmerge (n : CoreId) (s : State) : Result := .next (updateIssue (· == 0x5) n.val s)
/-- AUDIT (R256). -/
def execAudit (n : CoreId) (s : State) : Result := .next (updateIssue (· == 0x6) n.val s)
/-- EVAL (R253). -/
def execEval (n : CoreId) (s : State) : Result := .next (updateIssue (· == 0x7) n.val s)
/-- EXTRACT (R239). -/
def execExtract (n : CoreId) (s : State) : Result := .next (updateIssue (· == 0x8) n.val s)
/-- CMP (R258). -/
def execCmp (n : CoreId) (s : State) : Result := .next (updateIssue (· == 0x9) n.val s)
/-- OUTER (R408). -/
def execOuter (n : CoreId) (s : State) : Result := .next (updateIssue (· == 0xA) n.val s)
/-- UPDATE_COMPLETE (R241). -/
def execUpdateComplete (n : CoreId) (s : State) : Result := .next ((updateComplete n.val s).settle)

end Sys2Proof.Machine
end

