-- ==== Sys2Proof/Machine/VectorRows.lean ====
section
/-! DEFINITION. The meanings of the commands of the vector unit and the Zwikai quantiser: each is the effect of its rule, and the module goes on. -/

namespace Sys2Proof.Machine

/-- The OPs that a row of R183 or R390 names, with the codes that R390 reserves among them. -/
def vxNamed (op : Nat) : Bool :=
  decide (0x01 ≤ op ∧ op ≤ 0x0A) || decide (0x10 ≤ op ∧ op ≤ 0x16) || decide (0x20 ≤ op ∧ op ≤ 0x24)
    || decide (0xC0 ≤ op ∧ op < 0xD0)

/-- ADD (R185). A reserved OP is handled here. -/
def execAdd (n : CoreId) (s : State) : Result := .next (vectorIssue (fun op => op == 0x01 || !vxNamed op) n.val s)
/-- SUB (R185). -/
def execSub (n : CoreId) (s : State) : Result := .next (vectorIssue (· == 0x02) n.val s)
/-- MUL (R185). -/
def execMul (n : CoreId) (s : State) : Result := .next (vectorIssue (· == 0x03) n.val s)
/-- FMA (R185). -/
def execFma (n : CoreId) (s : State) : Result := .next (vectorIssue (· == 0x04) n.val s)
/-- MAX (R186). -/
def execMax (n : CoreId) (s : State) : Result := .next (vectorIssue (· == 0x05) n.val s)
/-- MIN (R186). -/
def execMin (n : CoreId) (s : State) : Result := .next (vectorIssue (· == 0x06) n.val s)
/-- SCALE (R185). -/
def execScale (n : CoreId) (s : State) : Result := .next (vectorIssue (· == 0x07) n.val s)
/-- CVT (R185). -/
def execCvt (n : CoreId) (s : State) : Result := .next (vectorIssue (· == 0x08) n.val s)
/-- ABS (R186). -/
def execAbs (n : CoreId) (s : State) : Result := .next (vectorIssue (· == 0x09) n.val s)
/-- NEG (R186). -/
def execNeg (n : CoreId) (s : State) : Result := .next (vectorIssue (· == 0x0A) n.val s)
/-- EXP2 (R186). -/
def execExp2 (n : CoreId) (s : State) : Result := .next (vectorIssue (· == 0x10) n.val s)
/-- LOG2 (R186). -/
def execLog2 (n : CoreId) (s : State) : Result := .next (vectorIssue (· == 0x11) n.val s)
/-- RCP (R186). -/
def execRcp (n : CoreId) (s : State) : Result := .next (vectorIssue (· == 0x12) n.val s)
/-- RSQRT (R186). -/
def execRsqrt (n : CoreId) (s : State) : Result := .next (vectorIssue (· == 0x13) n.val s)
/-- SQRT (R186). -/
def execSqrt (n : CoreId) (s : State) : Result := .next (vectorIssue (· == 0x14) n.val s)
/-- TANH (R186). -/
def execTanh (n : CoreId) (s : State) : Result := .next (vectorIssue (· == 0x15) n.val s)
/-- ERF (R186). -/
def execErf (n : CoreId) (s : State) : Result := .next (vectorIssue (· == 0x16) n.val s)
/-- ROWSUM (R185). -/
def execRowsum (n : CoreId) (s : State) : Result := .next (vectorIssue (· == 0x20) n.val s)
/-- ROWMAX (R186). -/
def execRowmax (n : CoreId) (s : State) : Result := .next (vectorIssue (· == 0x21) n.val s)
/-- ROWSSQ (R185). -/
def execRowssq (n : CoreId) (s : State) : Result := .next (vectorIssue (· == 0x22) n.val s)
/-- ROWMUL (R183). -/
def execRowmul (n : CoreId) (s : State) : Result := .next (vectorIssue (· == 0x23) n.val s)
/-- COLMUL (R183). -/
def execColmul (n : CoreId) (s : State) : Result := .next (vectorIssue (· == 0x24) n.val s)
/-- ZENC (R392). A reserved Zwikai OP is handled here. -/
def execZenc (n : CoreId) (s : State) : Result :=
  .next (vectorIssue (fun op => op == 0xC0 || decide (0xC5 ≤ op ∧ op < 0xD0)) n.val s)
/-- ZACC (R396). -/
def execZacc (n : CoreId) (s : State) : Result := .next (vectorIssue (· == 0xC1) n.val s)
/-- ZUNDO (R397). -/
def execZundo (n : CoreId) (s : State) : Result := .next (vectorIssue (· == 0xC2) n.val s)
/-- ZMEAN (R398). -/
def execZmean (n : CoreId) (s : State) : Result := .next (vectorIssue (· == 0xC3) n.val s)
/-- ZFIELD (R399). -/
def execZfield (n : CoreId) (s : State) : Result := .next (vectorIssue (· == 0xC4) n.val s)
/-- VECTOR_COMPLETE (R187). -/
def execVectorComplete (n : CoreId) (s : State) : Result := .next ((vectorComplete n.val s).settle)

end Sys2Proof.Machine
end

