-- ==== Sys2Proof/Machine/ZwikaiRows.lean ====
section
/-! DEFINITION. The meanings of the commands of the Zwikai site exchange: each is the effect of its rule, and the module goes on. -/

namespace Sys2Proof.Machine

/-- SEND (R402). -/
def execZwkSend (n : CoreId) (s : State) : Result := .next (zwkSend n s)
/-- COLLECT (R403). -/
def execZwkCollect (n : CoreId) (s : State) : Result := .next (zwkCollect n s)
/-- SNAP_SEND (R405). -/
def execZwkSnapSend (n : CoreId) (s : State) : Result := .next (zwkSnapSend n s)
/-- SNAP_RECV (R405). -/
def execZwkSnapRecv (n : CoreId) (s : State) : Result := .next (zwkSnapRecv n s)
/-- CATCHUP (R406). -/
def execZwkCatchup (n : CoreId) (s : State) : Result := .next (zwkCatchup n s)
/-- DATA_PARCEL (R413). -/
def execDataParcel (p : ParcelIn) (s : State) : Result := .next (dataParcel p s)
/-- PARITY_PARCEL (R415). -/
def execParityParcel (p : ParcelIn) (s : State) : Result := .next (parityParcel p s)
/-- FRAME_DROP (R414). -/
def execFrameDrop (f : FrameIn) (s : State) : Result := .next (frameDrop f s)
/-- ZWK_NAK (R417). -/
def execZwkNak (p : CtrlIn) (s : State) : Result := .next (zwkNak p s)
/-- COMPLETE (R418). -/
def execComplete (p : CtrlIn) (s : State) : Result := .next (complete p s)
/-- MISSING (R418). -/
def execMissing (p : CtrlIn) (s : State) : Result := .next (missing p s)
/-- FINAL (R418). -/
def execFinalMsg (p : CtrlIn) (s : State) : Result := .next (finalMsg p s)
/-- PING (R419). -/
def execPing (p : CtrlIn) (s : State) : Result := .next (ping p s)
/-- HAVE (R421). -/
def execHaveMsg (p : CtrlIn) (s : State) : Result := .next (haveMsg p s)
/-- ZWK_DECIDE (R422). -/
def execZwkDecide (p : CtrlIn) (s : State) : Result := .next (zwkDecide p s)
/-- DACK (R423). -/
def execDack (p : CtrlIn) (s : State) : Result := .next (dack p s)
/-- ZWK_COMMIT (R423). -/
def execZwkCommit (p : CtrlIn) (s : State) : Result := .next (zwkCommit p s)
/-- BEAT (R420). -/
def execBeat (p : CtrlIn) (s : State) : Result := .next (beat p s)
/-- NEWEPOCH (R427). -/
def execNewepoch (p : CtrlIn) (s : State) : Result := .next (newepoch p s)
/-- LEDGER (R431). -/
def execLedger (p : CtrlIn) (s : State) : Result := .next (ledger p s)
/-- ZWK_JOIN (R434). -/
def execZwkJoin (p : CtrlIn) (s : State) : Result := .next (zwkJoin p s)
/-- READY (R434). -/
def execReady (p : CtrlIn) (s : State) : Result := .next (ready p s)
/-- NAK_TIMEOUT (R417). -/
def execNakTimeout (site : Fin 16) (core : CoreId) (skind : Fin 4) (round group : Nat) (s : State) : Result :=
  .next (nakTimeout site core skind round group s)
/-- MISSING_TIME (R418). -/
def execMissingTime (site : Fin 16) (core : CoreId) (skind : Fin 4) (round : Nat) (s : State) : Result :=
  .next (missingTime site core skind round s)
/-- FINAL_TIME (R418). -/
def execFinalTime (n : CoreId) (s : State) : Result := .next (finalTime n s)
/-- HAVE_TIME (R421). -/
def execHaveTime (s : State) : Result := .next (haveTime s)
/-- ROUND_CLOSE (R422). -/
def execRoundClose (s : State) : Result := .next (roundClose s)
/-- ZWK_DECIDE_RESEND (R423). -/
def execZwkDecideResend (s : State) : Result := .next (zwkDecideResend s)
/-- PING_TIMER (R419). -/
def execPingTimer (s : State) : Result := .next (pingTimer s)
/-- BEAT_TIMER (R420). -/
def execBeatTimer (s : State) : Result := .next (beatTimer s)
/-- UNREACHABLE (R428). -/
def execUnreachable (site : Fin 16) (s : State) : Result := .next (unreachable site s)
/-- REJOIN_HOLD (R431). -/
def execRejoinHold (site : Fin 16) (s : State) : Result := .next (rejoinHold site s)
/-- REJOIN_TIMEOUT (R427). -/
def execRejoinTimeout (s : State) : Result := .next (rejoinTimeout s)
/-- JOIN_RETRY (R434). -/
def execJoinRetry (s : State) : Result := .next (joinRetry s)
/-- SNAP_TIMEOUT (R405). -/
def execSnapTimeout (n : CoreId) (s : State) : Result := .next (snapTimeout n s)
/-- CONVENER_MSG (R421). -/
def execConvenerMsg (m : ConvIn) (s : State) : Result := .next (convenerMsg m s)

end Sys2Proof.Machine
end

