-- ==== Sys2Proof/Machine/Dispatch.lean ====
section
/-! DEFINITION. The dispatch: one arm per command. -/

namespace Sys2Proof.Machine

/-- The effect of a command on everything but the queue. -/
def exec (i : Instr) (s : State) : Host.Outcome State Fault Refusal :=
  match i with
  | .drTailWrite n p => Sys2Proof.Machine.execDrTailWrite n p s
  | .descriptorFetch n => Sys2Proof.Machine.execDescriptorFetch n s
  | .reservedType n => Sys2Proof.Machine.execReservedType n s
  | .waitTimeout n => Sys2Proof.Machine.execWaitTimeout n s
  | .matmul n => Sys2Proof.Machine.execMatmul n s
  | .maxExponentScan n => Sys2Proof.Machine.execMaxExponentScan n s
  | .sweepStart n => Sys2Proof.Machine.execSweepStart n s
  | .sweepDrain n => Sys2Proof.Machine.execSweepDrain n s
  | .attemptRepeat n => Sys2Proof.Machine.execAttemptRepeat n s
  | .passComplete n => Sys2Proof.Machine.execPassComplete n s
  | .issuePause n => Sys2Proof.Machine.execIssuePause n s
  | .pauseEnd n => Sys2Proof.Machine.execPauseEnd n s
  | .preemptRequest n rq v => Sys2Proof.Machine.execPreemptRequest n rq v s
  | .preemptSave n v => Sys2Proof.Machine.execPreemptSave n v s
  | .saveComplete n => Sys2Proof.Machine.execSaveComplete n s
  | .preemptRelease n rq v => Sys2Proof.Machine.execPreemptRelease n rq v s
  | .restoreComplete n => Sys2Proof.Machine.execRestoreComplete n s
  | .datapathFault n => Sys2Proof.Machine.execDatapathFault n s
  | .operandUe n x => Sys2Proof.Machine.execOperandUe n x s
  | .chain n => Sys2Proof.Machine.execChain n s
  | .chainTile n => Sys2Proof.Machine.execChainTile n s
  | .move n => Sys2Proof.Machine.execMove n s
  | .registerMove n => Sys2Proof.Machine.execRegisterMove n s
  | .sync n => Sys2Proof.Machine.execSync n s
  | .fence n => Sys2Proof.Machine.execFence n s
  | .fprint n => Sys2Proof.Machine.execFprint n s
  | .add n => Sys2Proof.Machine.execAdd n s
  | .sub n => Sys2Proof.Machine.execSub n s
  | .mul n => Sys2Proof.Machine.execMul n s
  | .fma n => Sys2Proof.Machine.execFma n s
  | .max n => Sys2Proof.Machine.execMax n s
  | .min n => Sys2Proof.Machine.execMin n s
  | .scale n => Sys2Proof.Machine.execScale n s
  | .cvt n => Sys2Proof.Machine.execCvt n s
  | .abs n => Sys2Proof.Machine.execAbs n s
  | .neg n => Sys2Proof.Machine.execNeg n s
  | .exp2 n => Sys2Proof.Machine.execExp2 n s
  | .log2 n => Sys2Proof.Machine.execLog2 n s
  | .rcp n => Sys2Proof.Machine.execRcp n s
  | .rsqrt n => Sys2Proof.Machine.execRsqrt n s
  | .sqrt n => Sys2Proof.Machine.execSqrt n s
  | .tanh n => Sys2Proof.Machine.execTanh n s
  | .erf n => Sys2Proof.Machine.execErf n s
  | .rowsum n => Sys2Proof.Machine.execRowsum n s
  | .rowmax n => Sys2Proof.Machine.execRowmax n s
  | .rowssq n => Sys2Proof.Machine.execRowssq n s
  | .rowmul n => Sys2Proof.Machine.execRowmul n s
  | .colmul n => Sys2Proof.Machine.execColmul n s
  | .zenc n => Sys2Proof.Machine.execZenc n s
  | .zacc n => Sys2Proof.Machine.execZacc n s
  | .zundo n => Sys2Proof.Machine.execZundo n s
  | .zmean n => Sys2Proof.Machine.execZmean n s
  | .zfield n => Sys2Proof.Machine.execZfield n s
  | .vectorComplete n => Sys2Proof.Machine.execVectorComplete n s
  | .rule n => Sys2Proof.Machine.execRule n s
  | .seed n => Sys2Proof.Machine.execSeed n s
  | .derive n => Sys2Proof.Machine.execDerive n s
  | .fold n => Sys2Proof.Machine.execFold n s
  | .norms n => Sys2Proof.Machine.execNorms n s
  | .nmerge n => Sys2Proof.Machine.execNmerge n s
  | .audit n => Sys2Proof.Machine.execAudit n s
  | .eval n => Sys2Proof.Machine.execEval n s
  | .extract n => Sys2Proof.Machine.execExtract n s
  | .cmp n => Sys2Proof.Machine.execCmp n s
  | .outer n => Sys2Proof.Machine.execOuter n s
  | .updateComplete n => Sys2Proof.Machine.execUpdateComplete n s
  | .barrier n => Sys2Proof.Machine.execBarrier n s
  | .allreduce n => Sys2Proof.Machine.execAllreduce n s
  | .reduceScatter n => Sys2Proof.Machine.execReduceScatter n s
  | .allgather n => Sys2Proof.Machine.execAllgather n s
  | .broadcast n => Sys2Proof.Machine.execBroadcast n s
  | .alltoall n => Sys2Proof.Machine.execAlltoall n s
  | .txnBegin n => Sys2Proof.Machine.execTxnBegin n s
  | .txnAttach n => Sys2Proof.Machine.execTxnAttach n s
  | .txnDetach n => Sys2Proof.Machine.execTxnDetach n s
  | .txnAction n => Sys2Proof.Machine.execTxnAction n s
  | .txnCommit n => Sys2Proof.Machine.execTxnCommit n s
  | .txnAbort n => Sys2Proof.Machine.execTxnAbort n s
  | .zwkSend n => Sys2Proof.Machine.execZwkSend n s
  | .zwkCollect n => Sys2Proof.Machine.execZwkCollect n s
  | .zwkSnapSend n => Sys2Proof.Machine.execZwkSnapSend n s
  | .zwkSnapRecv n => Sys2Proof.Machine.execZwkSnapRecv n s
  | .zwkCatchup n => Sys2Proof.Machine.execZwkCatchup n s
  | .coreRst n rq v => Sys2Proof.Machine.execCoreRst n rq v s
  | .haltWrite n p => Sys2Proof.Machine.execHaltWrite n p s
  | .tokenWrite n t p => Sys2Proof.Machine.execTokenWrite n t p s
  | .tabClr n rq v => Sys2Proof.Machine.execTabClr n rq v s
  | .flagClear die k rq v => Sys2Proof.Machine.execFlagClear die k rq v s
  | .readClear r => Sys2Proof.Machine.execReadClear r s
  | .loRead r => Sys2Proof.Machine.execLoRead r s
  | .registerWrite w => Sys2Proof.Machine.execRegisterWrite w s
  | .pgEvtWrite page p => Sys2Proof.Machine.execPgEvtWrite page p s
  | .pgEvtInj page rq v => Sys2Proof.Machine.execPgEvtInj page rq v s
  | .pgCntSel page p => Sys2Proof.Machine.execPgCntSel page p s
  | .updStrobe rq v => Sys2Proof.Machine.execUpdStrobe rq v s
  | .updateApply p => Sys2Proof.Machine.execUpdateApply p s
  | .hsemRead k rq => Sys2Proof.Machine.execHsemRead k rq s
  | .hsemWrite k p => Sys2Proof.Machine.execHsemWrite k p s
  | .idxData rq w => Sys2Proof.Machine.execIdxData rq w s
  | .h2fWrite p k q v => Sys2Proof.Machine.execH2fWrite p k q v s
  | .h2fRead p k => Sys2Proof.Machine.execH2fRead p k s
  | .f2hWrite p k v => Sys2Proof.Machine.execF2hWrite p k v s
  | .f2hRead p k q => Sys2Proof.Machine.execF2hRead p k q s
  | .doorbellRing p toHost rq v => Sys2Proof.Machine.execDoorbellRing p toHost rq v s
  | .routeGen rq => Sys2Proof.Machine.execRouteGen rq s
  | .routeFillDone => Sys2Proof.Machine.execRouteFillDone s
  | .rtDataWrite p => Sys2Proof.Machine.execRtDataWrite p s
  | .modIdWrite p => Sys2Proof.Machine.execModIdWrite p s
  | .forceAbort n rq => Sys2Proof.Machine.execForceAbort n rq s
  | .forceCommit n rq => Sys2Proof.Machine.execForceCommit n rq s
  | .forceRelease n rq => Sys2Proof.Machine.execForceRelease n rq s
  | .d1Set rq => Sys2Proof.Machine.execD1Set rq s
  | .d1Clear rq => Sys2Proof.Machine.execD1Clear rq s
  | .d2Exit rq v => Sys2Proof.Machine.execD2Exit rq v s
  | .arbCommit rq v => Sys2Proof.Machine.execArbCommit rq v s
  | .verify => Sys2Proof.Machine.execVerify s
  | .attest => Sys2Proof.Machine.execAttest s
  | .nonceNew => Sys2Proof.Machine.execNonceNew s
  | .slotErase rq v => Sys2Proof.Machine.execSlotErase rq v s
  | .untrRel rq v => Sys2Proof.Machine.execUntrRel rq v s
  | .jrTailWrite n p => Sys2Proof.Machine.execJrTailWrite n p s
  | .encrypt n => Sys2Proof.Machine.execEncrypt n s
  | .decrypt n => Sys2Proof.Machine.execDecrypt n s
  | .safJobComplete n => Sys2Proof.Machine.execSafJobComplete n s
  | .selfTest n failed => Sys2Proof.Machine.execSelfTest n failed s
  | .rngFail => Sys2Proof.Machine.execRngFail s
  | .safStallTimeout n => Sys2Proof.Machine.execSafStallTimeout n s
  | .reqP0 rq autoP2 => Sys2Proof.Machine.execReqP0 rq autoP2 s
  | .reqP2 rq autoP2 => Sys2Proof.Machine.execReqP2 rq autoP2 s
  | .reqP3 rq autoP2 => Sys2Proof.Machine.execReqP3 rq autoP2 s
  | .reqP4 rq autoP2 => Sys2Proof.Machine.execReqP4 rq autoP2 s
  | .spareCore rq n => Sys2Proof.Machine.execSpareCore rq n s
  | .spareBank rq n bank => Sys2Proof.Machine.execSpareBank rq n bank s
  | .spareHbmRebuild rq d => Sys2Proof.Machine.execSpareHbmRebuild rq d s
  | .logDataRead rq => Sys2Proof.Machine.execLogDataRead rq s
  | .portEnable n rq rateCap => Sys2Proof.Machine.execPortEnable n rq rateCap s
  | .portDisable n rq rateCap => Sys2Proof.Machine.execPortDisable n rq rateCap s
  | .portTraining n t => Sys2Proof.Machine.execPortTraining n t s
  | .trainingTimeout n => Sys2Proof.Machine.execTrainingTimeout n s
  | .laneFailure n lane => Sys2Proof.Machine.execLaneFailure n lane s
  | .retrainDone n t => Sys2Proof.Machine.execRetrainDone n t s
  | .retrainTimeout n => Sys2Proof.Machine.execRetrainTimeout n s
  | .flitReceive n f => Sys2Proof.Machine.execFlitReceive n f s
  | .packetForward a => Sys2Proof.Machine.execPacketForward a s
  | .rd a => Sys2Proof.Machine.execRd a s
  | .wr a => Sys2Proof.Machine.execWr a s
  | .sig a => Sys2Proof.Machine.execSig a s
  | .rsp a gen => Sys2Proof.Machine.execRsp a gen s
  | .fabNak a gen => Sys2Proof.Machine.execFabNak a gen s
  | .c2Resend tag => Sys2Proof.Machine.execC2Resend tag s
  | .trackerAdmit cls => Sys2Proof.Machine.execTrackerAdmit cls s
  | .requestTimeout tag => Sys2Proof.Machine.execRequestTimeout tag s
  | .c2Timeout k => Sys2Proof.Machine.execC2Timeout k s
  | .join a => Sys2Proof.Machine.execJoin a s
  | .vote a => Sys2Proof.Machine.execVote a s
  | .decideMsg a => Sys2Proof.Machine.execDecideMsg a s
  | .ack a => Sys2Proof.Machine.execAck a s
  | .query a => Sys2Proof.Machine.execQuery a s
  | .voteTimeout n => Sys2Proof.Machine.execVoteTimeout n s
  | .decideResend n => Sys2Proof.Machine.execDecideResend n s
  | .inDoubt n => Sys2Proof.Machine.execInDoubt n s
  | .applyDone n fails => Sys2Proof.Machine.execApplyDone n fails s
  | .enter x => Sys2Proof.Machine.execEnter x s
  | .collStart x => Sys2Proof.Machine.execCollStart x s
  | .pre x => Sys2Proof.Machine.execPre x s
  | .go x => Sys2Proof.Machine.execGo x s
  | .chunkMsg x => Sys2Proof.Machine.execChunkMsg x s
  | .collFree x => Sys2Proof.Machine.execCollFree x s
  | .report x => Sys2Proof.Machine.execReport x s
  | .stop x => Sys2Proof.Machine.execStop x s
  | .verdict x => Sys2Proof.Machine.execVerdict x s
  | .excluded x => Sys2Proof.Machine.execExcluded x s
  | .entryDeadline n => Sys2Proof.Machine.execEntryDeadline n s
  | .entryTimeout n => Sys2Proof.Machine.execEntryTimeout n s
  | .startTimeout n => Sys2Proof.Machine.execStartTimeout n s
  | .chunkTimeout n => Sys2Proof.Machine.execChunkTimeout n s
  | .stopTimeout n => Sys2Proof.Machine.execStopTimeout n s
  | .lateTimeout n => Sys2Proof.Machine.execLateTimeout n s
  | .dataParcel p => Sys2Proof.Machine.execDataParcel p s
  | .parityParcel p => Sys2Proof.Machine.execParityParcel p s
  | .frameDrop f => Sys2Proof.Machine.execFrameDrop f s
  | .zwkNak p => Sys2Proof.Machine.execZwkNak p s
  | .complete p => Sys2Proof.Machine.execComplete p s
  | .missing p => Sys2Proof.Machine.execMissing p s
  | .finalMsg p => Sys2Proof.Machine.execFinalMsg p s
  | .ping p => Sys2Proof.Machine.execPing p s
  | .haveMsg p => Sys2Proof.Machine.execHaveMsg p s
  | .zwkDecide p => Sys2Proof.Machine.execZwkDecide p s
  | .dack p => Sys2Proof.Machine.execDack p s
  | .zwkCommit p => Sys2Proof.Machine.execZwkCommit p s
  | .beat p => Sys2Proof.Machine.execBeat p s
  | .newepoch p => Sys2Proof.Machine.execNewepoch p s
  | .ledger p => Sys2Proof.Machine.execLedger p s
  | .zwkJoin p => Sys2Proof.Machine.execZwkJoin p s
  | .ready p => Sys2Proof.Machine.execReady p s
  | .nakTimeout site core skind round group => Sys2Proof.Machine.execNakTimeout site core skind round group s
  | .missingTime site core skind round => Sys2Proof.Machine.execMissingTime site core skind round s
  | .finalTime n => Sys2Proof.Machine.execFinalTime n s
  | .haveTime => Sys2Proof.Machine.execHaveTime s
  | .roundClose => Sys2Proof.Machine.execRoundClose s
  | .zwkDecideResend => Sys2Proof.Machine.execZwkDecideResend s
  | .pingTimer => Sys2Proof.Machine.execPingTimer s
  | .beatTimer => Sys2Proof.Machine.execBeatTimer s
  | .unreachable site => Sys2Proof.Machine.execUnreachable site s
  | .rejoinHold site => Sys2Proof.Machine.execRejoinHold site s
  | .rejoinTimeout => Sys2Proof.Machine.execRejoinTimeout s
  | .joinRetry => Sys2Proof.Machine.execJoinRetry s
  | .snapTimeout n => Sys2Proof.Machine.execSnapTimeout n s
  | .configRetry c => Sys2Proof.Machine.execConfigRetry c s
  | .bar2Read p o len => Sys2Proof.Machine.execBar2Read p o len s
  | .bar2Write p o data be => Sys2Proof.Machine.execBar2Write p o data be s
  | .poisonedTlp p => Sys2Proof.Machine.execPoisonedTlp p s
  | .flr p => Sys2Proof.Machine.execFlr p s
  | .perstAssert p => Sys2Proof.Machine.execPerstAssert p s
  | .perstRelease p => Sys2Proof.Machine.execPerstRelease p s
  | .registerTimeout x => Sys2Proof.Machine.execRegisterTimeout x s
  | .hbmRefresh n => Sys2Proof.Machine.execHbmRefresh n s
  | .patrolScrub n hbm sp => Sys2Proof.Machine.execPatrolScrub n hbm sp s
  | .hbmTempRead n t => Sys2Proof.Machine.execHbmTempRead n t s
  | .softPpr n spare => Sys2Proof.Machine.execSoftPpr n spare s
  | .stackNoAnswer n => Sys2Proof.Machine.execStackNoAnswer n s
  | .pcSelfRefresh n pc => Sys2Proof.Machine.execPcSelfRefresh n pc s
  | .hbmTrainingDone n ok => Sys2Proof.Machine.execHbmTrainingDone n ok s
  | .mapRebuild d => Sys2Proof.Machine.execMapRebuild d s
  | .refclkWindow hz => Sys2Proof.Machine.execRefclkWindow hz s
  | .pllUnlock pll => Sys2Proof.Machine.execPllUnlock pll s
  | .powerTick peak avg mj => Sys2Proof.Machine.execPowerTick peak avg mj s
  | .dutyStep => Sys2Proof.Machine.execDutyStep s
  | .throttleAssert => Sys2Proof.Machine.execThrottleAssert s
  | .throttleAck => Sys2Proof.Machine.execThrottleAck s
  | .throttleCheck => Sys2Proof.Machine.execThrottleCheck s
  | .throttleRelease => Sys2Proof.Machine.execThrottleRelease s
  | .throttleRamp => Sys2Proof.Machine.execThrottleRamp s
  | .thrLong => Sys2Proof.Machine.execThrLong s
  | .dieTempRead ts => Sys2Proof.Machine.execDieTempRead ts s
  | .voltageSample mv i10 => Sys2Proof.Machine.execVoltageSample mv i10 s
  | .railFault rail mv => Sys2Proof.Machine.execRailFault rail mv s
  | .pwrOkLow => Sys2Proof.Machine.execPwrOkLow s
  | .idleTimeout => Sys2Proof.Machine.execIdleTimeout s
  | .p3Entry => Sys2Proof.Machine.execP3Entry s
  | .p3Timeout => Sys2Proof.Machine.execP3Timeout s
  | .p3Exit b => Sys2Proof.Machine.execP3Exit b s
  | .ppsPulse high => Sys2Proof.Machine.execPpsPulse high s
  | .slotEnd => Sys2Proof.Machine.execSlotEnd s
  | .acquireTimeout => Sys2Proof.Machine.execAcquireTimeout s
  | .modResetAssert => Sys2Proof.Machine.execModResetAssert s
  | .strapSample pins b => Sys2Proof.Machine.execStrapSample pins b s
  | .modResetRelease b => Sys2Proof.Machine.execModResetRelease b s
  | .loadModeImage b => Sys2Proof.Machine.execLoadModeImage b s
  | .watchdog b => Sys2Proof.Machine.execWatchdog b s
  | .heartbeat => Sys2Proof.Machine.execHeartbeat s
  | .logCoalesceFlush => Sys2Proof.Machine.execLogCoalesceFlush s
  | .setEndpointId inst op eid => Sys2Proof.Machine.execSetEndpointId inst op eid s
  | .getEndpointId inst => Sys2Proof.Machine.execGetEndpointId inst s
  | .getMctpVersionSupport inst type => Sys2Proof.Machine.execGetMctpVersionSupport inst type s
  | .getMessageTypeSupport inst => Sys2Proof.Machine.execGetMessageTypeSupport inst s
  | .getVendorDefinedMsgSupport inst sel => Sys2Proof.Machine.execGetVendorDefinedMsgSupport inst sel s
  | .mctpStatus cmd => Sys2Proof.Machine.execMctpStatus cmd s
  | .mctpPower => Sys2Proof.Machine.execMctpPower s
  | .mctpThermal => Sys2Proof.Machine.execMctpThermal s
  | .mctpHealth => Sys2Proof.Machine.execMctpHealth s
  | .mctpLog index sect => Sys2Proof.Machine.execMctpLog index sect s
  | .smbusTimeout => Sys2Proof.Machine.execSmbusTimeout s
  | .pwrOkRise => Sys2Proof.Machine.execPwrOkRise s
  | .runPhase => Sys2Proof.Machine.execRunPhase s
  | .ppsEcho => Sys2Proof.Machine.execPpsEcho s
  | .siteLinkUp n rate => Sys2Proof.Machine.execSiteLinkUp n rate s
  | .siteLinkFailed n => Sys2Proof.Machine.execSiteLinkFailed n s
  | .hostLinkChange p l => Sys2Proof.Machine.execHostLinkChange p l s
  | .convenerMsg m => Sys2Proof.Machine.execConvenerMsg m s
  | .opDone => Sys2Proof.Machine.execOpDone s
  | .spareDone => Sys2Proof.Machine.execSpareDone s
  | .spprDone n => Sys2Proof.Machine.execSpprDone n s
  | .localMoveDone n k => Sys2Proof.Machine.execLocalMoveDone n k s
  | .randomnessReturn => Sys2Proof.Machine.execRandomnessReturn s

end Sys2Proof.Machine
end

