-- ==== Sys2Proof/Safety.lean ====
section
/-! DEFINITION. What counts as a safe run, the invariants that statements are about, and the conditions under which the
module takes a register access at once. -/

namespace Sys2Proof.Machine

/-- A run from a state never stops: after any number of steps there is a next state. -/
def Safe (s : State) : Prop := ∀ n, ∃ t, Host.Core.run core n s = .next t

/-- The memory keeps its canonical form. -/
def State.memOk (s : State) : Prop := s.mem.wf = true

/-- The register store lists its addresses in rising order. -/
def State.regsOk (s : State) : Prop := Tab.rising s.regs = true

/-- Nothing waits for a lock, a repair, a sparing operation or the tracker: no access is held, no engine stalled, and no core
has a descriptor in flight. -/
def State.quiet (s : State) : Prop := s.held = [] ∧ s.fab.stalled = [] ∧ ∀ e ∈ s.cores, e.2.inflight = []

/-- A register access of a requester at a BAR0 address is taken at once: load mode does not serve it, the module serves
the requester, the page admits the fabric where the requester is the fabric, and nothing holds the register (R295, R344,
R438, R468, R548). -/
def State.serves (s : State) (rq : Requester) (a : Nat) : Prop :=
  s.loadLive rq = false ∧ s.rqLive rq = true
    ∧ (rq = .fabric → State.fabricMay a true = true ∧ s.fget pOgs F.OGS_CFG_REG_REMOTE = 1)
    ∧ s.regHeld (s.regTarget rq a) = false

/-- The table of cores lists them in rising order. -/
def State.coresOk (s : State) : Prop := Tab.rising s.cores = true

/-- The head of the ring of a core is f, a descriptor of a type whose queue has room, with its header wait satisfied: it may
issue (R148). -/
def State.heads (s : State) (ph : Nat) (f : Fetched) (ty : Nat) : Prop :=
  s.head ph = some f ∧ hType f.words = ty ∧ s.room ph ty = true ∧ s.waitOk ph f.words = true

/-- Byte a of memory lies in a region of a core's scratchpad. -/
def inRegion (ph : Nat) (r : Region) (a : Nat) : Prop := ∃ x ∈ r, spKey ph 0 + x.1 ≤ a ∧ a < spKey ph 0 + x.1 + x.2

/-- The tables of the HBM controllers, of the transaction slots and of the Saffron engines are in rising order. -/
def State.tabsOk (s : State) : Prop := Tab.rising s.hbm = true ∧ Tab.rising s.slots = true ∧ Tab.rising s.sec.saf = true

/-- The canonical form of the state: memory, registers and tables. -/
def State.formOk (s : State) : Prop := s.memOk ∧ s.regsOk ∧ s.coresOk ∧ s.tabsOk

/-- The lifecycle transitions of R501, and no transition. -/
def lifecycleStep (a b : Nat) : Prop := a = b ∨ (a, b) ∈ [(0, 1), (1, 2), (1, 3), (2, 3), (3, 1)]

/-- No latched value waits for a requester at a register (R456). -/
def State.noLatch (s : State) (rq : Requester) (a : Nat) : Prop :=
  (s.latches.find? fun l => l.1 == rqNo rq && l.2.1 == a) = none

/-- A register is written and whatever waited goes on. -/
def State.putReg (s : State) (a : Nat) (w : Word) : State := (s.setReg a w).settle

/-- A collective message that is delivered: what it says, the state that has taken it, and the packet that its RSP answers;
none where nothing is delivered, or where the packet is turned away (R369, R309). -/
def State.collTaken (s : State) : CollIn → Option (CollMsg × State × Option Packet)
  | .here k => (s.coll.msgs[k]?).map fun m => (m, { s with coll := { s.coll with msgs := s.coll.msgs.eraseIdx k } }, none)
  | .net a m =>
    if a.pkt.op = opMSG ∧ a.pkt.cls = 0 ∧ s.consumes a.pkt = true ∧ m.lid = s.lid ∧ m.fromLid = a.pkt.src
        ∧ collPayload a.pkt.payload m.body.sub = true ∧ s.turnAway a = none then
      some (m, s, some a.pkt)
    else none

/-- The answer to a delivered message, and what the collectives of this module do next. -/
def State.collAfter (s : State) (p : Option Packet) : State :=
  ((match p with | some p => s.respond p 0 0 [] | none => s).collSettle).settle

/-- A CTRL parcel for this module that authenticates and carries the message (R389, R411 to R413): the state that has taken
it, and its header. -/
def State.ctrlTaken (s : State) (p : CtrlIn) : Option (State × ParcelHdr) :=
  match s.arriveParcel p.carrier with
  | (t, some x) =>
    if x.hdr.kind = 3 then
      match t.openParcel x with
      | (u, some body) => if body = zBytes p.body then some (u, x.hdr) else none
      | (_, none) => none
    else none
  | (_, none) => none
end Sys2Proof.Machine

namespace Sys2Proof

/-- R479, R501: without an owner state (MANUFACTURE or RETURNED) the replay-protected block holds no owner hash, and its
lifecycle state is one of the four. -/
def Rpb.ok (r : Rpb) : Prop := r.lc ≤ 3 ∧ (r.lc = 0 ∨ r.lc = 3 → r.ownerHash = 0) ∧ r.d2History ≤ 255

/-- The BAR0 address that a put of the register at a names through its view (R452). -/
def Put.addr (p : Put) (a : Nat) : Nat := a + p.view.val * 0x1000

/-- What a register with the given RW bits holds after a put on its old word (R451, R454). -/
def Put.word (p : Put) (old rw : Word) : Word := Machine.viewPut p.view.val old (p.val &&& Machine.beMask p.be) rw (Machine.beMask p.be)

end Sys2Proof
end

