-- ==== Sys2Proof/Certificates/Slice0/Obligations.lean ====
section
/-! DEFINITION. The statements about the module, for the provers: what its commands do, what they leave alone, and the
invariants that every step keeps. A clause names the state that a command gives through the operations of the model. -/

section Statements

open Sys2Proof Sys2Proof.Machine

/-- The command at the front of the queue runs on the state with the queue's rest (the model's queue, log entry 1). -/
def Obligations.StepRunsFrontCommand : Prop :=
  ∀ (s : State) (c : Instr) (cs : List Instr), s.pending = c :: cs → step s = exec c { s with pending := cs }

/-- No command and no idle cycle ever stops the machine: every run goes on for any number of steps. -/
def Obligations.NoRunStops : Prop :=
  (∀ (i : Instr) (s : State), ∃ t, exec i s = .next t) ∧ ∀ s : State, Safe s

/-- The state right after reset: every register has its reset value, HALT of every core among them; memory lists
nothing; no command waits; and the invariants of the model hold. -/
def Obligations.ResetState : Prop :=
  State.reset.formOk ∧ State.reset.rpb.ok ∧ State.reset.quiet ∧ State.reset.pending = [] ∧ State.reset.out = []
  ∧ (∀ a, State.reset.reg a = regRst a) ∧ (∀ a, State.reset.mem.byte a = Mem.blank)
  ∧ (∀ i < 1088, State.reset.fget (pCore i) F.SQ_CTRL_HALT = 1)
  ∧ (∀ n, State.reset.key n = KeySlot.init) ∧ (∀ n < 16, (State.reset.slot n).st = .free)
  ∧ State.reset.pState = 0 ∧ State.reset.sec.dbg = 0 ∧ State.reset.boot.running = false

/-- Every step keeps the canonical form: memory lists its bytes in rising order and none that reads as unlisted, and
registers, cores, HBM controllers, slots and Saffron engines are listed in rising order. -/
def Obligations.EveryStepKeepsForm : Prop :=
  ∀ s t : State, s.formOk → step s = .next t → t.formOk

/-- Every step keeps the promises of the replay-protected block: no SVN and no D2_HISTORY ever falls, the lifecycle
state moves only along R501, and a state without an owner holds no owner hash. -/
def Obligations.RollbackProtectionHolds : Prop :=
  ∀ s t : State, s.rpb.ok → step s = .next t →
    t.rpb.ok ∧ s.rpb.fwSvn ≤ t.rpb.fwSvn ∧ s.rpb.cfgSvn ≤ t.rpb.cfgSvn ∧ s.rpb.d2History ≤ t.rpb.d2History
      ∧ lifecycleStep s.rpb.lc t.rpb.lc

/-- The commands of power, time, temperatures, links, lanes, HBM upkeep and telemetry leave memory, cores,
transaction slots, key slots, the replay-protected block, held accesses and the Zwikai exchange as they are. -/
def Obligations.UpkeepFrame : Prop :=
  ∀ (s t : State) (c : Instr),
    ((∃ p a m, c = .powerTick p a m) ∨ c ∈ [Instr.dutyStep, .throttleAssert, .throttleAck, .throttleCheck, .throttleRelease,
        .throttleRamp, .thrLong, .idleTimeout, .slotEnd, .acquireTimeout, .ppsEcho, .heartbeat, .runPhase, .logCoalesceFlush,
        .mctpPower, .mctpThermal, .mctpHealth, .smbusTimeout]
      ∨ (∃ h, c = .ppsPulse h) ∨ (∃ h, c = .refclkWindow h)
      ∨ (∃ n, c = .hbmRefresh n ∨ (c = .stackNoAnswer n ∧ s.quiet)) ∨ (∃ n x, c = .hbmTempRead n x) ∨ (∃ n b, c = .softPpr n b)
      ∨ (∃ n p, c = .pcSelfRefresh n p) ∨ (∃ n b, c = .hbmTrainingDone n b)
      ∨ (∃ n x, c = .portTraining n x ∨ c = .retrainDone n x) ∨ (∃ n, c = .trainingTimeout n ∨ c = .retrainTimeout n)
      ∨ (∃ n l, c = .laneFailure n l) ∨ (∃ n f, c = .flitReceive n f)
      ∨ (∃ n r, c = .siteLinkUp n r ∨ c = .siteLinkFailed n) ∨ (∃ f, c = .frameDrop f) ∨ (∃ p l, c = .hostLinkChange p l)
      ∨ (∃ x, c = .configRetry x) ∨ (∃ b, c = .mctpStatus b) ∨ (∃ i x, c = .mctpLog i x)
      ∨ (∃ i o e, c = .setEndpointId i o e) ∨ (∃ i, c = .getEndpointId i ∨ c = .getMessageTypeSupport i)
      ∨ (∃ i y, c = .getMctpVersionSupport i y ∨ c = .getVendorDefinedMsgSupport i y)) →
    exec c s = .next t →
    t.mem = s.mem ∧ t.cores = s.cores ∧ t.slots = s.slots ∧ t.sec.keys = s.sec.keys ∧ t.rpb = s.rpb ∧ t.held = s.held
      ∧ t.zwk = s.zwk ∧ t.pending = s.pending

/-- DR_TAIL_WRITE, TOKEN_WRITE, TAB_CLR, HALT_WRITE and CORE_RST on a served core register: the word that the view
leaves, and the effect of the bit. A HALT write of a core in P2: clearing HALT leaves P2 for P0 or P1; with REQ
at P2, the HALT that leaves every core HALTED enters it. -/
def Obligations.CoreRegisterCommands : Prop :=
  (∀ (s : State) (n : CoreId) (ph : Nat) (p : Put) (rq : Requester) (v : Word) (k : Fin 64), s.phys n.val = some ph →
     (s.serves p.rq (p.addr (coreA n 0x058)) →
       exec (.drTailWrite n p) s
         = .next (s.setReg (pCore ph + 0x058) (p.word (s.reg (pCore ph + 0x058)) 0xFFFFFFFF)).settle)
     ∧ (s.serves p.rq (p.addr (coreA n (0x200 + 4 * k.val))) →
       exec (.tokenWrite n k p) s
         = .next (s.setReg (pCore ph + (0x200 + 4 * k.val)) (p.word (s.reg (pCore ph + (0x200 + 4 * k.val))) 0xFFFF)).settle)
     ∧ (s.serves rq (coreA n 0x158) →
       exec (.tabClr n rq v) s
         = .next ((s.setReg (pCore ph + 0x158) (setBits (s.reg (pCore ph + 0x158)) 3 0 v.toNat)).modCore ph
             fun c => { c with anchors := [] }).settle)
     ∧ (s.serves p.rq (p.addr (coreA n 0x040)) → s.pState ≠ 2 → s.fget pPwr F.PWR_CTRL_REQ ≠ 2 →
       exec (.haltWrite n p) s
         = .next (s.setReg (pCore ph + 0x040)
             (({ p with val := setBits p.val 1 1 0 } : Put).word (s.reg (pCore ph + 0x040)) 1)).settle)
     ∧ (s.serves rq (coreA n 0x040) → s.pState ≠ 2 → s.fget pPwr F.PWR_CTRL_REQ ≠ 2 →
       exec (.coreRst n rq v) s
         = .next ((s.setReg (pCore ph + 0x040) (setBits (s.reg (pCore ph + 0x040)) 0 0 v.toNat)).coreReset ph).settle))
  ∧ (∀ (s : State) (n : CoreId) (ph : Nat) (rq : Requester), s.phys n.val = some ph → s.regsOk → s.serves rq (coreA n 0x040) →
     (s.fget (pCore ph) F.SQ_CTRL_HALT = 1 → s.pState = 2 →
       let t := s.setReg (pCore ph + 0x040) (setBits (s.reg (pCore ph + 0x040)) 0 0 0)
       exec (.haltWrite n ⟨rq, 0, 0xF, 0⟩) s = .next (t.setP (if t.limitW < 3600 ∨ t.throttled ∨ t.duty < 64 then 1 else 0)).settle)
     ∧ (s.fget pPwr F.PWR_CTRL_REQ = 2 → s.pState ≤ 1 →
       let t := s.setReg (pCore ph + 0x040) (setBits (s.reg (pCore ph + 0x040)) 0 0 1)
       t.allHalted → exec (.haltWrite n ⟨rq, 0, 0xF, 1⟩) s = .next (t.setP 2).settle))

/-- A core reset with nothing in flight: tokens, flags, RC counters and the anchor table clear, the matrix engine is
IDLE, HALT is 1, and no other core, no byte of memory and no register outside the core's page changes. -/
def Obligations.CoreResetClears : Prop :=
  ∀ (s : State) (ph : Nat), s.regsOk → s.coresOk → (s.core ph).inflight = [] →
    let t := s.coreReset ph
    (∀ k < 64, t.tok ph k = 0)
    ∧ (∀ o ∈ [0x100, 0x104, 0x108], t.reg (pCore ph + o) = 0)
    ∧ (∀ r ∈ coreRegs, ∀ f ∈ r.fields, f.acc = .rc → bits (t.reg (pCore ph + r.off)) f.hi f.lo = 0)
    ∧ t.fget (pCore ph) F.SQ_CTRL_HALT = 1
    ∧ (t.core ph).anchors = [] ∧ t.mx ph = Mx.init
    ∧ t.mem = s.mem ∧ (∀ i, i ≠ ph → t.core i = s.core i)
    ∧ (∀ a, a / 0x4000 ≠ pCore ph / 0x4000 → t.reg a = s.reg a)

/-- DESCRIPTOR_FETCH: the next descriptor is fetched once the tail has passed its index; a fetch that fails beyond
correction leaves a CORRUPT record of TYPE 0, FETCH_ERR and HALT, and the index is passed over; while the
descriptor or that record's slot is held, nothing is fetched. RESERVED_TYPE, WAIT_TIMEOUT and FENCE at the head
of the ring; a FENCE that times out still reports FAILS, and nothing times out while the record's slot is held.
SYNC: its waits are consumed together, its signals leave or are logged by the slot that the core is attached to,
and it completes at once unless a signal to another module awaits its answer; beyond the actions of its slot it
fails. -/
def Obligations.SequencerCommands : Prop :=
  (∀ (s : State) (n : CoreId) (ph : Nat), s.phys n.val = some ph →
     let i := (s.core ph).fetchNext
     let r := s.ringRead ph (s.reg (pCore ph + 0x048)) (s.reg (pCore ph + 0x04C)) ((i % s.ringSize ph) * 64) 64
     let held := s.ringHeld ph (s.reg (pCore ph + 0x048)) (s.reg (pCore ph + 0x04C)) ((i % s.ringSize ph) * 64) 64 || s.recordHeld ph i
     tailPassed (s.reg (pCore ph + 0x058)) i = true → (s.core ph).fetched.length < 16 →
       (held = true → exec (.descriptorFetch n) s = .next s)
       ∧ (held = false → r.status = 0 → exec (.descriptorFetch n) s = .next (r.st.modCore ph fun c =>
         { c with fetched := c.fetched ++ [⟨i, wordsOf 16 r.data⟩], fetchNext := add32 i 1 }))
       ∧ (held = false → r.status ≠ 0 → ∃ tag u v,
         u = (r.st.draw.2.putRecord ph i 0 tag (Rec.of 7)).modCore ph (fun c => { c with fetchNext := add32 i 1, fails := c.fails + 1 })
         ∧ v = (if (s.core ph).fetched = [] then u.setReg (pCore ph + 0x054) (BitVec.ofNat 32 (add32 i 1)) else u)
         ∧ exec (.descriptorFetch n) s = .next ((v.fset (pCore ph) F.SQ_STAT_FETCH_ERR 1).fset (pCore ph) F.SQ_CTRL_HALT 1)))
  ∧ (∀ (s : State) (n : CoreId) (ph : Nat) (f : Fetched), s.phys n.val = some ph →
     (s.head ph = some f → (hType f.words = 0 ∨ 12 ≤ hType f.words) → s.waitOk ph f.words = true →
       exec (.reservedType n) s = .next (s.issueDone ph f (Rec.refused 1)))
     ∧ (s.head ph = some f → s.fget (pCore ph) F.SQ_WAIT_TMO_US ≠ 0 →
         (s.waitOk ph f.words = false ∨ (hType f.words = tSYNC ∧ s.syncOk ph f.words = false)) →
       exec (.waitTimeout n) s
         = .next (if s.recordHeld ph f.idx = true then s
           else ((s.popHead ph).recordFor ph f.idx f.words
             ⟨9, 0, 0, if hType f.words = tFENCE then (s.core ph).fails % 2 ^ 32 else 0, none⟩).fset (pCore ph) F.SQ_STAT_WAIT_TMO 1))
     ∧ (s.issuable ph (fun w => hType w == tFENCE) = some f → (s.core ph).inflight = [] →
       let t := (s.issueDone ph f ⟨0, 0, 0, (s.core ph).fails % 2 ^ 32, none⟩).modCore ph fun c => { c with fails := 0 }
       exec (.fence n) s = .next (if bit (wd f.words 2) 0 = true then t.fset (pCore ph) F.SQ_CTRL_HALT 1 else t)))
  ∧ (∀ (s : State) (n : CoreId) (ph : Nat) (f : Fetched), s.phys n.val = some ph → s.coresOk → s.heads ph f tSYNC →
     s.syncOk ph f.words = true →
     let txn := (s.core ph).attach
     let t := (sumWaits (syncWaits f.words)).foldl (fun s w => s.setTok ph w.1 (s.tok ph w.1 - w.2)) (s.issue ph f .queued)
     let u := match txn with
       | some x => t.countActions x (syncSigs f.words).length
       | none => (t, true)
     let r := (syncSigs f.words).foldl (fun (a : State × Option (Nat × Nat) × Nat) g =>
       if txn.isSome && a.2.1.isSome then a
       else
         let x := a.1.sendSig ph f.idx txn g
         (x.1, if a.2.1.isSome then a.2.1 else x.2.1, a.2.2 + b2n x.2.2)) (u.1, none, 0)
     let e : Infl := ⟨f.idx, f.words, .queued, txn⟩
     (u.2 = false → exec (.sync n) s = .next (u.1.complete ph e (Rec.of 0x0C)))
     ∧ (u.2 = true → r.2.2 = 0 → r.2.1 = none → exec (.sync n) s = .next (r.1.complete ph e (Rec.of 0)))
     ∧ (∀ g, u.2 = true → r.2.2 = 0 → r.2.1 = some g → exec (.sync n) s = .next (r.1.complete ph e ⟨g.1, 0, g.2, 0, none⟩))
     ∧ (u.2 = true → r.2.2 ≠ 0 → exec (.sync n) s = .next (r.1.modInfl ph f.idx fun e => { e with prog := .sync r.2.2 r.2.1 })))

/-- Issue takes the head of the ring: its copy leaves, DR_HEAD names the next index, the header wait's count is
consumed and the descriptor is in flight; no other token changes. -/
def Obligations.IssueTakesHead : Prop :=
  ∀ (s : State) (ph : Nat) (f : Fetched) (rest : List Fetched) (prog : Prog), s.regsOk → s.coresOk →
    (s.core ph).fetched = f :: rest →
    let t := s.issue ph f prog
    (t.core ph).fetched = rest
    ∧ (t.core ph).inflight = (s.core ph).inflight ++ [⟨f.idx, f.words, prog, (s.core ph).attach⟩]
    ∧ t.reg (pCore ph + 0x054) = BitVec.ofNat 32 ((rest.head?.map fun g => g.idx).getD (s.core ph).fetchNext)
    ∧ (∀ k < 64, t.tok ph k = if hWaitEn f.words = true ∧ k = hWaitTok f.words then s.tok ph k - hWaitCnt f.words else s.tok ph k)
    ∧ t.mem = s.mem

/-- A completion record is 16 bytes in the slot of its ring index, CR_COUNT rises by one, and every other byte of
memory reads as before; said of a completion ring in a scratchpad without errors. -/
def Obligations.CompletionRecordWritten : Prop :=
  ∀ (s : State) (ph idx ty tag : Nat) (r : Rec), s.memOk → s.regsOk → s.mem.spClean = true →
    bit (s.reg (pCore ph + 0x060)) 31 = true →
    let at_ := spKey ph ((bits (s.reg (pCore ph + 0x05C)) 31 12 * 4096 + (idx % s.ringSize ph) * 16) % 0x1000000)
    let t := s.putRecord ph idx ty tag r
    (∃ w3, (∀ v, r.w3 = some v → w3 = v) ∧ t.mem.read at_ 16 = recBytes r.status r.flags ty idx tag r.det r.w2 w3)
    ∧ (∀ a, (a < at_ ∨ at_ + 16 ≤ a) → t.mem.byte a = s.mem.byte a)
    ∧ t.reg (pCore ph + 0x064) = s.reg (pCore ph + 0x064) + 1
    ∧ (∀ a, a ≠ pCore ph + 0x064 → t.reg a = s.reg a)

/-- A completion takes the descriptor out of flight, leaves its record, its signal under SIG_COND and its CMPL
event; no other core is touched. Said of a record slot and a token counter that no transaction or repair holds. -/
def Obligations.CompleteEffects : Prop :=
  ∀ (s : State) (ph : Nat) (e : Infl) (r : Rec), s.coresOk → s.regsOk →
    bit (s.reg (pCore ph + 0x060)) 31 = true → s.recordHeld ph e.idx = false →
    s.lockedReg (tokAddr ph (hSigTok e.words)) = false →
    let t := s.complete ph e r
    (t.core ph).inflight = eraseFirst (fun x => x.idx == e.idx) (s.core ph).inflight
    ∧ (t.core ph).fails = (s.core ph).fails + (if good r.status then 0 else 1)
    ∧ (∀ i, i ≠ ph → t.core i = s.core i)
    ∧ t.reg (pCore ph + 0x064) = s.reg (pCore ph + 0x064) + 1
    ∧ (∀ k < 64, t.tok ph k = if hSigEn e.words = true ∧ k = hSigTok e.words ∧ (hSigCond e.words = false ∨ good r.status = true)
        then min 65535 (s.tok ph k + hSigCnt e.words) else s.tok ph k)

/-- A signal adds its count to a token counter; above 65,535 the counter holds 65,535 and TOK_SAT is set. Nothing
else changes. A signal to a counter that a transaction locks waits. -/
def Obligations.SignalSaturates : Prop :=
  ∀ (s : State) (ph k n : Nat), k < 64 → s.regsOk →
    let t := s.signalNow ph k n
    t.tok ph k = min 65535 (s.tok ph k + n)
    ∧ (65535 < s.tok ph k + n → t.fget (pCore ph) F.SQ_STAT_TOK_SAT = 1)
    ∧ (s.tok ph k + n ≤ 65535 → t.reg (pCore ph + 0x044) = s.reg (pCore ph + 0x044))
    ∧ (∀ a, a ≠ pCore ph + 0x200 + 4 * k → a ≠ pCore ph + 0x044 → t.reg a = s.reg a)
    ∧ t.mem = s.mem ∧ t.cores = s.cores
    ∧ s.signal ph k n = if s.lockedReg (tokAddr ph k) = true then { s with held := s.held ++ [.signal ph k n] } else t

/-- The rows of the vector unit with their OPs (R183): the lowest failed check refuses the descriptor, one without
elements is done at once, and any other has its results written once it is at the head of the unit's queue. The
rows of the Zwikai quantiser with their OPs (R390, R400). The rows of the update menu with their OPs (R240,
R241): one of no slices is done at once, the lowest failed check refuses, and any other starts once it is at the
head of the engine's queue. VECTOR_COMPLETE and UPDATE_COMPLETE write the record of the descriptor that has run,
after the slices of an UPDATE, and the next one of the queue starts (R149). -/
def Obligations.EngineCommands : Prop :=
  (∀ row ∈ [(Instr.add, 0x01), (Instr.sub, 0x02), (Instr.mul, 0x03), (Instr.fma, 0x04), (Instr.max, 0x05), (Instr.min, 0x06),
       (Instr.scale, 0x07), (Instr.cvt, 0x08), (Instr.abs, 0x09), (Instr.neg, 0x0A), (Instr.exp2, 0x10), (Instr.log2, 0x11),
       (Instr.rcp, 0x12), (Instr.rsqrt, 0x13), (Instr.sqrt, 0x14), (Instr.tanh, 0x15), (Instr.erf, 0x16), (Instr.rowsum, 0x20),
       (Instr.rowmax, 0x21), (Instr.rowssq, 0x22), (Instr.rowmul, 0x23), (Instr.colmul, 0x24)],
   ∀ (s : State) (n : CoreId) (ph : Nat) (f : Fetched), s.phys n.val = some ph → s.coresOk → s.heads ph f tVECTOR →
     (vectorD f.words).op = row.2 →
     let d := vectorD f.words
     (∀ r rs, s.vectorReasons ph d = r :: rs → exec (row.1 n) s = .next (s.issueDone ph f (Rec.refused r)))
     ∧ (s.vectorReasons ph d = [] → (d.rows = 0 ∨ d.cols = 0) → exec (row.1 n) s = .next (s.issueDone ph f (Rec.of 0)))
     ∧ (s.vectorReasons ph d = [] → d.rows ≠ 0 → d.cols ≠ 0 → s.queue ph tVECTOR = [] →
         s.spLocked ph (vxRegion f.words) = false →
         let r := (s.issue ph f .queued).vectorRun ph f.words
         exec (row.1 n) s = .next (r.1.modInfl ph f.idx fun e => { e with prog := .ran r.2 })))
  ∧ (∀ row ∈ [(Instr.zenc, 0xC0), (Instr.zacc, 0xC1), (Instr.zundo, 0xC2), (Instr.zmean, 0xC3), (Instr.zfield, 0xC4)],
   ∀ (s : State) (n : CoreId) (ph : Nat) (f : Fetched), s.phys n.val = some ph → s.coresOk → s.heads ph f tVECTOR →
     (zopD f.words).op = row.2 →
     let d := zopD f.words
     (∀ r rs, s.zopReasons ph d = r :: rs → exec (row.1 n) s = .next (s.issueDone ph f (Rec.refused r)))
     ∧ (s.zopReasons ph d = [] → d.slices = 0 → exec (row.1 n) s = .next (s.issueDone ph f (Rec.of 0)))
     ∧ (s.zopReasons ph d = [] → d.slices ≠ 0 → s.queue ph tVECTOR = [] → s.spLocked ph (vxRegion f.words) = false →
         let r := (s.issue ph f .queued).zopRun ph f.words
         exec (row.1 n) s = .next (r.1.modInfl ph f.idx fun e => { e with prog := .ran r.2 })))
  ∧ (∀ row ∈ [(Instr.rule, 0x0), (Instr.seed, 0x1), (Instr.derive, 0x2), (Instr.fold, 0x3), (Instr.norms, 0x4), (Instr.nmerge, 0x5),
       (Instr.audit, 0x6), (Instr.eval, 0x7), (Instr.extract, 0x8), (Instr.cmp, 0x9), (Instr.outer, 0xA)],
   ∀ (s : State) (n : CoreId) (ph : Nat) (f : Fetched), s.phys n.val = some ph → s.coresOk → s.heads ph f tUPDATE →
     (updateD f.words).op = row.2 →
     let d := updateD f.words
     (d.slices = 0 → exec (row.1 n) s = .next (s.issueDone ph f (Rec.of 0)))
     ∧ (∀ r rs, d.slices ≠ 0 → s.updateReasons ph d = r :: rs → exec (row.1 n) s = .next (s.issueDone ph f (Rec.refused r)))
     ∧ (s.updateReasons ph d = [] → d.slices ≠ 0 → s.queue ph tUPDATE = [] → s.updateLocked ph d = false →
         let r := (s.issue ph f .queued).nmStart ph f.words
         exec (row.1 n) s = .next (r.1.modInfl ph f.idx fun e => { e with prog := r.2 })))
  ∧ (∀ (s : State) (n : CoreId) (ph : Nat) (e : Infl) (es : List Infl) (r : Rec), s.phys n.val = some ph → e.prog = .ran r →
     (s.queue ph tVECTOR = e :: es → exec (.vectorComplete n) s = .next ((s.complete ph e r).vxNext ph).settle)
     ∧ (s.queue ph tUPDATE = e :: es → exec (.updateComplete n) s = .next ((s.complete ph e r).nmNext ph).settle)
     ∧ (∀ (x : Infl) (xs : List Infl) (c : NmSt), s.queue ph tUPDATE = x :: xs → x.prog = .nm c →
         s.updateLocked ph (updateD x.words) = false →
         let q := s.nmRun ph x.words c
         exec (.updateComplete n) s = .next ((q.1.complete ph x q.2).nmNext ph).settle))

/-- What a VECTOR that passes its checks changes: the bytes of D and of its scale bytes, registers of the core's own
page and the wear events of CDM, and no descriptor of any core. -/
def Obligations.VectorFrame : Prop :=
  ∀ (s : State) (ph : Nat) (w : List Word), s.vectorReasons ph (vectorD w) = [] → s.memOk →
    let t := (s.vectorRun ph w).1
    (∀ a, ¬ inRegion ph (s.withScales ph (vectorD w).dFmt (vectorD w).dReg) a → t.mem.byte a = s.mem.byte a)
    ∧ (∀ a, a / 0x4000 ≠ pCore ph / 0x4000 → a / 0x4000 ≠ pCdm / 0x4000 → t.reg a = s.reg a)
    ∧ t.cores = s.cores ∧ t.slots = s.slots ∧ t.memOk

/-- MATMUL at the head of the ring: refused for its lowest failed check, done at once when M or N is 0, queued
behind a busy engine, begun by an idle one, or kept in the queue behind an empty save by a PREEMPT that stands.
The pass that begins: its anchor comes from FIXED mode, the hint, or the anchor table, else a scan comes first;
K of 0 makes no attempt. The commands of a pass on its descriptor e: the scan that gives its anchor; the start
of a sweep, whose A and B the feeder reads; the repeat after an overflow; and the end. A pass that ends, with
any status: MX_ANCHOR and the 0 × ∞ counts in the registers, its record, and the engine idle or with the other
pass. Once every sweep of a pass has started, SWEEP_START begins the MATMUL queued behind it, whose first sweep
may fill while the last ones of the pass drain. -/
def Obligations.MatmulCommands : Prop :=
  (∀ (s : State) (n : CoreId) (ph : Nat) (f : Fetched), s.phys n.val = some ph → s.coresOk → s.heads ph f tMATMUL →
     let d := matmulD f.words
     let t := s.issue ph f .queued
     (∀ r rs, s.matmulReasons ph d = r :: rs → exec (.matmul n) s = .next (s.issueDone ph f (Rec.refused r)))
     ∧ (s.matmulReasons ph d = [] → d.m = 0 ∨ d.n = 0 → exec (.matmul n) s = .next (s.issueDone ph f (Rec.of 0)))
     ∧ (s.matmulReasons ph d = [] → d.m ≠ 0 → d.n ≠ 0 →
         ((s.mx ph).st ≠ .idle → exec (.matmul n) s = .next t)
         ∧ ((s.mx ph).st = .idle → s.queue ph tMATMUL = [] → t.fget (pCore ph) F.MX_CTRL_PREEMPT = 0 →
             exec (.matmul n) s = .next (t.beginPass ph f.idx d))
         ∧ ((s.mx ph).st = .idle → t.fget (pCore ph) F.MX_CTRL_PREEMPT = 1 → (s.mx ph).saveErr = false →
             exec (.matmul n) s = .next (t.savedEmpty ph))))
  ∧ (∀ (s : State) (ph idx : Nat) (d : MatmulD), s.coresOk →
     let t := s.beginPass ph idx d
     (t.mx ph).st = .issue ∧ t.mem = s.mem ∧ t.regs = s.regs ∧ (∀ i, i ≠ ph → t.core i = s.core i)
     ∧ ∃ p, (t.mx ph).pass = some p ∧ p.idx = idx ∧ p.swapped = d.swap ∧ p.shallow = d.shallow ∧ p.next = 0 ∧ p.active = []
       ∧ (d.k = 0 → p.phase = .sweeps ∧ p.anchor = -32 ∧ p.attempts = 0)
       ∧ (d.k ≠ 0 → d.fixed = true → p.phase = .sweeps ∧ p.anchor = -32 ∧ p.attempts = 1)
       ∧ (d.k ≠ 0 → d.fixed = false → d.hintEn = true → p.phase = .sweeps ∧ p.anchor = d.hint ∧ p.attempts = 1)
       ∧ (d.k ≠ 0 → d.fixed = false → d.hintEn = false →
           (∀ r, s.anchorHit ph d.tensor = some r → p.phase = .sweeps ∧ p.anchor = r + d.h - 125 ∧ p.attempts = 1)
           ∧ (s.anchorHit ph d.tensor = none → p.phase = .scan ∧ p.attempts = 0)))
  ∧ (∀ (s : State) (n : CoreId) (ph : Nat) (p : Pass) (e : Infl), s.phys n.val = some ph → (s.mx ph).st = .issue →
     s.infl ph p.idx = some e →
     let d := matmulD e.words
     let m := s.mx ph
     (m.pass = some p → p.phase = .scan → s.spLocked ph (s.abReads ph d ++ s.cReads ph d) = false →
       let u := s.touch ph (s.abReads ph d ++ (if d.cFmt = 8 ∧ p.fallback = false then [] else s.cReads ph d))
       let sum := u.1.scanA ph d + u.1.scanB ph d
       (u.2 = true → exec (.maxExponentScan n) s = .next (u.1.endPass ph p 7).settle)
       ∧ (u.2 = false → exec (.maxExponentScan n) s = .next (u.1.setPass ph { p.fresh with
           phase := .sweeps
           anchor := if p.fallback then safeAnchor sum (u.1.scanC ph d) d.h d.ke else sum + d.h - 125
           attempts := p.attempts + 1 }).settle))
     ∧ (m.pass = some p → m.tail = none → p.phase = .sweeps → p.again = false → d.k ≠ 0 → p.next < d.sweeps → p.active.length < 2 →
         s.spLocked ph (s.abReads ph d) = false →
         let u := s.touch ph (s.abReads ph d)
         let w : Sweep := ⟨p.next, 0, [], s.cellsIn ph (s.abReads ph d)⟩
         (u.2 = true → exec (.sweepStart n) s = .next (u.1.endPass ph p 7).settle)
         ∧ (u.2 = false → exec (.sweepStart n) s = .next ((u.1.setPass ph { p with next := p.next + 1, active := p.active ++ [w] }).modMx ph
             fun x => { x with want := false, st := if (u.1.mx ph).want then .saving else if (u.1.mx ph).pause then .paused else .issue }).settle))
     ∧ (m.oldest = some p → p.again = true →
         (p.repeats < s.fget (pCore ph) F.MX_ACFG_REPEAT_MAX →
           exec (.attemptRepeat n) s = .next ((s.finc (pCore ph) F.MX_REPEATS_REPEATS).setMx ph { m with
             st := .issue, hdr := none, tail := none, release := false
             pass := some { p.fresh with repeats := p.repeats + 1, anchor := p.anchor + 16, attempts := p.attempts + 1 } }))
         ∧ (s.fget (pCore ph) F.MX_ACFG_REPEAT_MAX ≤ p.repeats →
           exec (.attemptRepeat n) s = .next ((s.finc (pCore ph) F.MX_REPEATS_FALLBACKS).setMx ph { m with
             st := .issue, hdr := none, tail := none, release := false
             pass := some { p.fresh with
               fallback := true, phase := .scan, eA := p.eA, eB := p.eB, invs := p.invs, firstInv := p.firstInv } })))
     ∧ (m.oldest = some p → p.phase = .sweeps → p.again = false → d.sweeps ≤ p.next → p.active = [] →
         (d.k = 0 ∨ d.fixed = true → exec (.passComplete n) s = .next (s.endPass ph p 0).settle)
         ∧ (d.k ≠ 0 → d.fixed = false → exec (.passComplete n) s = .next ((s.putAnchor ph d.tensor (p.eA + p.eB)).endPass ph p
               (if p.fallback then 0xE else if s.maxErr ph d p.anchor > 2 ^ d.h then 0xD else 0)).settle)))
  ∧ (∀ (s : State) (n : CoreId) (ph : Nat) (p : Pass) (e : Infl), s.phys n.val = some ph → s.infl ph p.idx = some e →
     let d := matmulD e.words
     (∀ st, let u := (s.passRegs ph d p).complete ph e (p.record st)
       s.endPass ph p st = (u.setMx ph ((u.mx ph).without p.idx)).mxNext ph)
     ∧ (s.regsOk → d.fixed = false → p.attempts ≠ 0 →
         (s.passRegs ph d p).reg (pCore ph + 0x15C) = BitVec.ofNat 32 (ofSint 16 (p.eA + p.eB) * 65536 + ofSint 16 p.anchor))
     ∧ ((s.mx ph).st = .issue → (s.mx ph).pass = some p → (s.mx ph).tail = none → p.phase = .sweeps → p.again = false → d.k ≠ 0 →
         d.sweeps ≤ p.next → p.active.length < 2 → exec (.sweepStart n) s = .next (s.startNext ph p).settle)
     ∧ (∀ x, s.coresOk → (s.mx ph).pass = some p → (s.mx ph).tail = none → (s.mx ph).want = false →
         s.nextMatmul ph p.idx = some x → (matmulD x.words).k ≠ 0 → (matmulD x.words).fixed = false → (matmulD x.words).hintEn = false →
         s.anchorHit ph (matmulD x.words).tensor = none →
         let t := s.startNext ph p
         (t.mx ph).tail = some { p with ended := true } ∧ ∃ q, (t.mx ph).pass = some q ∧ q.idx = x.idx ∧ q.phase = .scan))

/-- SWEEP_DRAIN of the oldest sweep of a pass with K above 0 writes its results, and an overflow makes the next
attempt due without a further sweep; K of 0 writes one output tile. A pause lets the drain go on, and the drain
of the only sweep shows it injected whole. -/
def Obligations.SweepDrains : Prop :=
  ∀ (s : State) (n : CoreId) (ph : Nat) (p : Pass) (e : Infl), s.phys n.val = some ph → s.coresOk →
    ((s.mx ph).st = .issue ∨ (s.mx ph).st = .paused ∨ ((s.mx ph).st = .saving ∧ (s.mx ph).hdr = none)) →
    (s.mx ph).oldest = some p → s.infl ph p.idx = some e → p.phase = .sweeps → p.again = false →
    let d := matmulD e.words
    s.spLocked ph (s.cReads ph d ++ d.dReg) = false →
    (∀ w rest, d.k ≠ 0 → p.active = w :: rest →
      let u := (s.setMx ph ((s.mx ph).drainsOn p)).touch ph (s.cReads ph d)
      let x := u.1.finishSweep ph d p.anchor w
      let r := u.1.drain ph d p.anchor x.1
      ((u.2 = true ∨ u.1.rawCBad ph d w.j = true) → exec (.sweepDrain n) s = .next (u.1.endPass ph p 7).settle)
      ∧ (u.2 = false → u.1.rawCBad ph d w.j = false → r.2.2.2 = false →
        ∃ (t : State) (q : Pass), exec (.sweepDrain n) s = .next t.settle ∧ (t.mx ph).oldest = some q ∧ q.active = rest ∧ q.again = r.2.2.1
          ∧ q.next = p.next ∧ q.anchor = p.anchor ∧ q.attempts = p.attempts ∧ (t.mx ph).st = ((s.mx ph).drainsOn p).st
          ∧ t.mem = r.1.mem ∧ (∀ i, i ≠ ph → t.core i = s.core i)))
    ∧ (d.k = 0 → p.next < d.sweeps →
      let u := s.touch ph (s.cReads ph d)
      ((u.2 = true ∨ u.1.rawCBad ph d p.next = true) → exec (.sweepDrain n) s = .next (u.1.endPass ph p 7).settle)
      ∧ (u.2 = false → u.1.rawCBad ph d p.next = false → (u.1.zeroDrain ph d p.next).2.2 = false →
        ∃ (t : State) (q : Pass), exec (.sweepDrain n) s = .next t.settle ∧ (t.mx ph).oldest = some q ∧ q.next = p.next + 1 ∧ q.active = p.active
          ∧ t.mem = (u.1.zeroDrain ph d p.next).1.mem ∧ (∀ i, i ≠ ph → t.core i = s.core i)))
    ∧ (∀ w, (s.mx ph).tail = none → p.active = [w] → (s.mx ph).hdr = none →
        ((s.mx ph).st = .paused → ((s.mx ph).drainsOn p).st = .issue)
        ∧ ((s.mx ph).st = .saving → ((s.mx ph).drainsOn p).st = .issue ∧ ((s.mx ph).drainsOn p).want = !(s.mx ph).release))

/-- Issue pauses and pre-emption: the requests, and what each gives by the state of the engine (R99, R100, R102,
R106). Faults of a pass: a datapath fault is logged and restarts it while restarts are left, else the pass ends
CORRUPT; a fault while saving makes the save one of a restart; an operand, scale or C read beyond correction
ends the pass CORRUPT (R103, R104, R106). -/
def Obligations.PauseAndFaults : Prop :=
  (∀ (s : State) (n : CoreId) (ph : Nat) (rq : Requester) (v : Word), s.phys n.val = some ph →
     let m := s.mx ph
     let ctrl (b : Nat) := s.setReg (pCore ph + 0x140) (viewPut 0 (s.reg (pCore ph + 0x140)) (setBits v 0 0 b) 0xF1 0xFFFFFFFF)
     (∀ p, m.st = .issue → m.pass = some p →
       exec (.issuePause n) s = .next (s.setMx ph { m with pause := true, st := if p.injecting then .paused else .issue }))
     ∧ (m.st = .restoring → exec (.issuePause n) s = .next (s.setMx ph { m with pause := true }))
     ∧ exec (.pauseEnd n) s = .next (s.setMx ph { m with pause := false, st := if m.st = .paused then .issue else m.st })
     ∧ (s.regsOk → s.serves rq (coreA n 0x140) → s.fget (pCore ph) F.MX_CTRL_PREEMPT = 0 →
         exec (.preemptRequest n rq v) s = .next ((ctrl 1).preemptSet ph).settle)
     ∧ (s.regsOk → s.serves rq (coreA n 0x140) → s.fget (pCore ph) F.MX_CTRL_PREEMPT = 1 →
         exec (.preemptRelease n rq v) s = .next ((ctrl 0).preemptClear ph).settle)
     ∧ (s.saveOk ph = false → s.preemptSet ph = s.setMx ph { m with saveErr := true })
     ∧ (s.saveOk ph = true → m.st = .idle → s.coresOk →
         let t := s.preemptSet ph
         (t.mx ph).st = .saved ∧ (t.mx ph).hdr = some SaveHdr.empty
           ∧ (∀ a, ¬ inRegion ph [(s.fget (pCore ph) F.MX_SAVE_BASE_BASE * 4096, 4096)] a → t.mem.byte a = s.mem.byte a))
     ∧ (∀ p, s.saveOk ph = true → m.st = .issue → m.pass = some p →
         s.preemptSet ph = s.setMx ph (if p.injecting then { m with st := .saving } else { m with want := true }))
     ∧ (s.saveOk ph = true → m.st = .paused → s.preemptSet ph = s.setMx ph { m with st := .saving })
     ∧ (∀ h, s.coresOk → m.st = .saved → m.hdr = some h → h.restart = false → h.valid = true →
         ((s.preemptClear ph).mx ph).st = .restoring))
  ∧ (∀ (s : State) (n : CoreId) (ph : Nat) (p : Pass) (e : Infl), s.phys n.val = some ph → (s.mx ph).pass = some p →
     (s.mx ph).tail = none → s.infl ph p.idx = some e →
     let u := (s.logEvent 0x0013 n.val 1 0x0001 (hTag e.words)).coreFault ph
     let d := matmulD e.words
     ((s.mx ph).st = .issue ∨ (s.mx ph).st = .restoring → exec (.datapathFault n) s = .next (u.restartPass ph p).settle)
     ∧ ((s.mx ph).st = .saving → (s.mx ph).release = false → s.coresOk →
         ∃ t : State, exec (.datapathFault n) s = .next t.settle ∧ (t.mx ph).st = .saved
           ∧ (t.mx ph).hdr = some { SaveHdr.empty with restart := true })
     ∧ (p.restarts < u.fget (pCore ph) F.MX_CTRL_RESTART_MAX → u.coresOk →
         (((u.restartPass ph p).mx ph).pass.map fun q => (q.restarts, q.next, q.active, q.anchor)) = some (p.restarts + 1, 0, [], p.anchor))
     ∧ (u.fget (pCore ph) F.MX_CTRL_RESTART_MAX ≤ p.restarts → u.restartPass ph p = u.endPass ph p 7)
     ∧ (∀ x i, (s.mx ph).st = .issue → i ∈ s.abReads ph d ++ s.cReads ph d → i.1 ≤ x → x < i.1 + i.2 →
         ∃ m, m.cells = s.mem.cells ∧ (∀ k, s.mem.isBad k = true → m.isBad k = true) ∧ m.isBad (codeKey (spKey ph x)) = true
           ∧ exec (.operandUe n x) s = .next ((({ s with mem := m } : State).spUe ph x).endPass ph p 7).settle))

/-- PREEMPT_SAVE at a K-step within a sweep, alone in the arrays, writes its accumulators to the save area,
row-major (log entry 26), or fails with RESTART; SAVE_COMPLETE and RESTORE_COMPLETE end the two transfers. -/
def Obligations.SaveAndRestore : Prop :=
  ∀ (s : State) (n : CoreId) (ph : Nat) (p : Pass) (w : Sweep) (e : Infl), s.phys n.val = some ph → s.coresOk →
    (s.mx ph).pass = some p → p.active = [w] → s.infl ph p.idx = some e →
    let d := matmulD e.words
    let base := s.fget (pCore ph) F.MX_SAVE_BASE_BASE * 4096
    (∀ ks, (s.mx ph).st = .saving → (s.mx ph).tail = none → (s.mx ph).hdr = none → w.k0 ≤ ks → ks ≤ d.k →
      (s.memOk → s.regsOk → s.mem.spClean = true →
        ∃ (t : State) (h : SaveHdr) (accs : List Acc128), exec (.preemptSave n ⟨ks, true⟩) s = .next t.settle ∧ (t.mx ph).hdr = some h ∧ h.valid = true ∧ h.restart = false
          ∧ h.ks = ks
          ∧ accs = (List.range 4096).map (fun i => match (d.cells w.j).find? fun c => c.i == i with
              | some c => ((s.fed w).cellRun ph d p.anchor c.r c.c (w.acc.getD c.i Acc128.zero) w.k0 ks).acc
              | none => Acc128.zero)
          ∧ t.mem.read (spKey ph (base + 4096)) 65536 = accs.flatMap (fun a => leBytes 16 (ofSint 128 a.total))
          ∧ (t.mx ph).st = .saving)
      ∧ ((s.mx ph).release = false →
        ∃ t : State, exec (.preemptSave n ⟨ks, false⟩) s = .next t.settle ∧ (t.mx ph).st = .saved
          ∧ (t.mx ph).hdr = some { SaveHdr.empty with restart := true }))
    ∧ (∀ h, (s.mx ph).st = .saving → (s.mx ph).hdr = some h →
        let t := (s.finc (pCore ph) F.MX_EVENTS_PREEMPTS).setMx ph { s.mx ph with st := .saved, release := false }
        exec (.saveComplete n) s = .next (if (s.mx ph).release then t.preemptClear ph else t))
    ∧ (∀ h, (s.mx ph).st = .restoring → (s.mx ph).hdr = some h → s.spLocked ph (s.abReads ph d) = false →
        let u := s.touch ph [(base, 69632)]
        let v := u.1.touch ph (u.1.abReads ph d)
        (u.2 = true → exec (.restoreComplete n) s = .next (u.1.restartPass ph p).settle)
        ∧ (u.2 = false → v.2 = false → exec (.restoreComplete n) s = .next (v.1.setMx ph { v.1.mx ph with
            st := if (s.mx ph).pause then .paused else .issue
            hdr := none
            pass := some { p with active := [⟨w.j, h.ks, u.1.savedAccs ph h, u.1.cellsIn ph (u.1.abReads ph d)⟩] } }).settle))

/-- CHAIN and CHAIN_TILE: the checks, the start of a chain at the front of its queue, and the taking of one incoming
tile: its token is consumed, a tile that fails a check or comes with CSTAT sets the chain's failure, the last
engine converts the sum and any other sends it on. -/
def Obligations.ChainCommands : Prop :=
  ∀ (s : State) (n : CoreId) (ph : Nat), s.phys n.val = some ph → s.coresOk →
    (∀ f, s.heads ph f tCHAIN →
      let d := chainD f.words
      (∀ r rs, s.chainReasons ph d = r :: rs → exec (.chain n) s = .next (s.issueDone ph f (Rec.refused r)))
      ∧ (s.chainReasons ph d = [] → s.queue ph tCHAIN = [] → s.spLocked ph (slotsRegion d.src d.tiles) = false →
          exec (.chain n) s = .next (State.chainNext 2
            ((s.issue ph f .queued).chainStart ph ⟨f.idx, f.words, .queued, (s.core ph).attach⟩) ph)))
    ∧ (∀ e es c, s.queue ph tCHAIN = e :: es → e.prog = .chain c →
      let d := chainD e.words
      d.pos ≠ 0 → c.fail = 0 → c.writes = 0 → c.signalled = false → c.tile < d.tiles → s.tok ph d.rcvTok ≠ 0 →
      s.spLocked ph ([(d.rcv + c.tile * rawSlot, rawSlot), (d.src + c.tile * rawSlot, rawSlot)] ++ d.dReg) = false →
      let t0 := s.setTok ph d.rcvTok (s.tok ph d.rcvTok - 1)
      let x := t0.carryAt ph (d.rcv + c.tile * rawSlot)
      let u := t0.touch ph [(d.rcv + c.tile * rawSlot, x.carryLen)]
      let v := u.1.touch ph [(d.src + c.tile * rawSlot, rawSlot)]
      let own := v.1.rawAt ph (d.src + c.tile * rawSlot)
      let good := !u.2 && x.ok && x.hdr.chainId == d.chainId && x.hdr.pos + 1 == d.pos && x.hdr.trow == c.tile / d.tcols
        && x.hdr.tcol == c.tile % d.tcols && x.hdr.cstat == 0
      let fail := if x.hdr.cstat ≠ 0 then tableStatus x.hdr.cstat else if good = false ∨ v.2 = true ∨ own.ok = false then 7 else 0
      let run := fun (s : State) => State.chainNext 3 (State.chainRun (chainFuel e.words) s ph e.idx) ph
      let x1 := v.1.chainConvert ph d c.tile (rawAdd x own) c
      let ws := [(0, (d.dress c.tile (rawAdd x own)).carryBytes)]
      let w := v.1.chainSend ph e.idx d c ws
      exec (.chainTile n) s = .next
        (if fail ≠ 0 then run (v.1.setChain ph e.idx { c with fail := fail })
         else if d.last = true then run (x1.1.setChain ph e.idx x1.2)
         else if s.chainHeld d c.tile ws = true then s
         else if w.2 then run w.1 else w.1).settle)

/-- The sum of two RAW tiles at one anchor: element by element, the side nibbles joined, the errors added. -/
def Obligations.RawTilesAdd : Prop :=
  ∀ x y : RawTile, x.hdr.anchor = y.hdr.anchor →
    (∀ i < 4096, fits128 (x.v i) = true ∧ fits128 (y.v i) = true ∧ fits128 (x.v i + y.v i) = true) →
    let t := rawAdd x y
    t.hdr.anchor = x.hdr.anchor ∧ t.hdr.err = min (x.hdr.err + y.hdr.err) (2 ^ 64 - 1)
    ∧ (∀ i < 4096, t.v i = x.v i + y.v i ∧ t.nib i = x.nib i ||| y.nib i)

/-- MOVE and REGISTER_MOVE at the head of the ring; LOCAL_MOVE_DONE of a MOVE or an FPRINT; FPRINT. -/
def Obligations.MoveCommands : Prop :=
  ∀ (s : State) (n : CoreId) (ph : Nat), s.phys n.val = some ph → s.coresOk →
    (∀ f, s.heads ph f tMOVE →
      let d := moveD f.words
      let c : Instr := if s.isRegMove d then .registerMove n else .move n
      let t := s.issue ph f .queued
      let e : Infl := ⟨f.idx, f.words, .queued, (s.core ph).attach⟩
      let r := match (s.core ph).attach with
        | some x => t.countActions x 1
        | none => (t, true)
      (d.rows = 0 ∨ d.rowBytes = 0 → exec c s = .next (r.1.complete ph e (Rec.of (if r.2 then 0 else 0x0C))))
      ∧ (d.rows ≠ 0 → d.rowBytes ≠ 0 → ∀ x xs, s.moveReasons d = x :: xs → exec c s = .next (s.issueDone ph f (Rec.refused x)))
      ∧ (d.rows ≠ 0 → d.rowBytes ≠ 0 → s.moveReasons d = [] →
          exec c s = .next (if r.2 then r.1.moveStart ph f.idx d else r.1.complete ph e (Rec.of 0x0C))))
    ∧ (∀ f, s.heads ph f tFPRINT →
      let d := fprintD f.words
      let t := s.issue ph f .queued
      (fprintBad d = true → exec (.fprint n) s = .next (s.issueDone ph f (Rec.refused 0x1E)))
      ∧ (fprintBad d = false → s.queue ph tFPRINT = [] → d.slices = 0 →
          exec (.fprint n) s = .next (State.fprintNext 2
            (t.complete ph ⟨f.idx, f.words, .queued, (s.core ph).attach⟩ ⟨0, 0, 0, 0, some 0⟩) ph))
      ∧ (fprintBad d = false → s.queue ph tFPRINT = [] → d.slices ≠ 0 →
          let r := t.fprintReads ph f.idx d
            { MoveSt.init with full := partsOf (d.records.flatMap fun x => d.parts x.1 x.2) }
          let u := r.1.setMove ph f.idx r.2
          exec (.fprint n) s = .next (if u.fprintRemote d then State.fprintNext 2 (u.fprintForm ph f.idx) ph else u)))
    ∧ (∀ k e m, ((s.core ph).inflight.filter fun e => hType e.words == tMOVE || hType e.words == tFPRINT)[k]? = some e →
      e.prog = .move m → s.infl ph e.idx = some e → s.held.contains (.piece ph e.idx) = false →
      (hType e.words = tMOVE → s.readsCovered m.pieces = true → exec (.localMoveDone n k) s = .next (s.complete ph e (Rec.refused 0x8C)).settle)
      ∧ (hType e.words = tMOVE → s.readsCovered m.pieces = false → exec (.localMoveDone n k) s = .next (s.moveRun ph e.idx).settle)
      ∧ (hType e.words = tFPRINT → exec (.localMoveDone n k) s = .next ((s.fprintForm ph e.idx).fprintNext 3 ph).settle))

/-- One piece of a MOVE between two places of this module's HBM, on memory without failed code words: its bytes are
copied and no other byte of memory changes. -/
def Obligations.MovePieceCopies : Prop :=
  ∀ (s : State) (ph idx cls : Nat) (m : MoveSt) (p : Piece) (x y : Nat), s.memOk → s.tabsOk → m.stopped = false →
    s.mem.hbmClean = true → s.isLocal p.src = true → s.isLocal p.dst = true →
    p.src % 2 ^ 44 = x → p.dst % 2 ^ 44 = y → 0 < p.len → x % 256 + p.len ≤ 256 → y % 256 + p.len ≤ 256 →
    s.place x p.len = .hbm x → s.place y p.len = .hbm y → s.hbmBlocked x = none → s.hbmBlocked y = none →
    s.endHeld x p.len = false → s.endHeld y p.len = false → s.covered x p.len = false →
    let r := s.movePiece ph idx none cls m p
    r.2 = m ∧ r.1.mem.read y p.len = s.mem.read x p.len
    ∧ (∀ a, (a < y ∨ y + p.len ≤ a) → r.1.mem.byte a = s.mem.byte a)
    ∧ r.1.regs = s.regs ∧ r.1.cores = s.cores

/-- REGISTER_WRITE of a register of plain RW fields through a view: bit by bit the new value, SET, CLR or TGL of the
written bits under the byte enables, and nothing else but what then goes on. REGISTER_WRITE at any BAR0 address
that is served: an address without a register and a page that takes no writes drop it; a register of a page
without writes of its own changes by its fields; IDX_ADDR takes its word; any other register acts as its page
says, an error response answering the requester. READ_CLEAR and LO_READ answer what the register reads as. -/
def Obligations.RegisterViews : Prop :=
  (∀ (s : State) (n : CoreId) (ph : Nat) (p : Put), s.phys n.val = some ph → s.regsOk →
     ∀ x ∈ [((0x068 : Nat), (0xFFFFFF : Word)), (0x148, 0xFFF000), (0x180, 0xFFFFFF), (0x184, 0xFFF000)],
     s.serves p.rq (p.addr (coreA n x.1)) →
     let a := pCore ph + x.1
     let rw := x.2
     ∃ t : State, exec (.registerWrite ⟨p.rq, p.addr (coreA n x.1), p.be, p.val⟩) s = .next t.settle
       ∧ (∀ i < 32, bit (t.reg a) i =
           (if bit rw i = false then bit (s.reg a) i
            else
              let en := p.be.getLsbD (i / 8)
              let w := en && bit p.val i
              match p.view.val with
              | 0 => if en then bit p.val i else bit (s.reg a) i
              | 1 => bit (s.reg a) i || w
              | 2 => bit (s.reg a) i && !w
              | _ => bit (s.reg a) i ^^ w))
       ∧ (∀ b, b ≠ a → t.reg b = s.reg b)
       ∧ t.mem = s.mem ∧ t.cores = s.cores ∧ t.out = s.out)
  ∧ (∀ (s : State) (w : RegWr), s.serves w.rq w.addr →
     let m := w.val &&& beMask w.be
     let en := beMask w.be
     (isIdx w.addr aIdxAddr = false → isIdx w.addr aIdxData = false →
       (s.regLoc w.addr = none → exec (.registerWrite w) s = .next s.settle)
       ∧ (∀ r, s.regLoc w.addr = some r →
         (s.pageWritable r = false → exec (.registerWrite w) s = .next s.settle)
         ∧ (s.pageWritable r = true →
           (s.headerWrite r m en = none → r.blk ∈ [Block.hp, .time, .clk, .sumac, .coll, .hbm] →
             exec (.registerWrite w) s = .next (s.plainWrite r m en).settle)
           ∧ (let y := s.writeLoc w.rq r w.addr m en
             exec (.registerWrite w) s = .next (if y.2 then y.1 else y.1.send (.regData w.rq none)).settle))))
     ∧ (isIdx w.addr aIdxAddr = true → exec (.registerWrite w) s = .next (s.setIdx w.rq
         (viewPut (w.addr / 0x1000 % 4) (BitVec.ofNat 32 (s.idxOf w.rq)) m (maskBits 25 2) en).toNat).settle)
     ∧ (isIdx w.addr aIdxAddr = false → isIdx w.addr aIdxData = true →
       let t := s.idxOf w.rq
       (isIdx t aIdxAddr = true ∨ isIdx t aIdxData = true → exec (.registerWrite w) s = .next (s.setIdx w.rq (t + 4)).settle)
       ∧ (isIdx t aIdxAddr = false → isIdx t aIdxData = false →
         let y := s.regWrite1 w.rq (t / 0x4000 * 0x4000 + t % 0x400) w.be w.val
         exec (.registerWrite w) s = .next (if y.2 then y.1.setIdx w.rq (t + 4) else y.1.send (.regData w.rq none)).settle))
     ∧ (let x := s.regRead w.rq w.addr
       exec (.readClear ⟨w.rq, w.addr⟩) s = .next (x.1.send (.regData w.rq (some x.2)))
       ∧ exec (.loRead ⟨w.rq, w.addr⟩) s = .next (x.1.send (.regData w.rq (some x.2)))))

/-- READ_CLEAR of a counter of a core answers its value and clears it; LO_READ answers the low word and latches the
high one for the requester, and the read of the high word that follows answers the latched value. LOG_DATA_READ
answers the word that LOG_IDX names and moves LOG_IDX to the next word, after the last word to the next entry. -/
def Obligations.ReadsClearAndLatch : Prop :=
  (∀ (s : State) (n : CoreId) (ph : Nat) (rq : Requester), s.phys n.val = some ph → s.regsOk →
     (∀ o ∈ [0x14C, 0x160, 0x170, 0x18C, 0x190, 0x194, 0x1A0, 0x1AC], s.serves rq (coreA n o) → s.noLatch rq (pCore ph + o) →
       ∃ t, exec (.readClear ⟨rq, coreA n o⟩) s = .next t ∧ t.reg (pCore ph + o) = 0
         ∧ t.out = s.out ++ [.regData rq (some (s.reg (pCore ph + o)))]
         ∧ (∀ b, b ≠ pCore ph + o → t.reg b = s.reg b) ∧ t.mem = s.mem ∧ t.cores = s.cores)
     ∧ (∀ o ∈ [0x048, 0x05C, 0x150, 0x1B0], s.serves rq (coreA n o) → s.serves rq (coreA n (o + 4)) → s.noLatch rq (pCore ph + o) →
       ∃ t, exec (.loRead ⟨rq, coreA n o⟩) s = .next t ∧ t.out = s.out ++ [.regData rq (some (s.reg (pCore ph + o)))]
         ∧ t.regs = s.regs ∧ t.mem = s.mem
         ∧ (∀ w, ∃ u, exec (.readClear ⟨rq, coreA n (o + 4)⟩) (t.setReg (pCore ph + o + 4) w) = .next u
           ∧ u.out = t.out ++ [.regData rq (some (s.reg (pCore ph + o + 4)))])))
  ∧ (∀ (s : State) (rq : Requester) (bs : List Byte), s.regsOk → s.serves rq (pCdm + 0x074) → s.noLatch rq (pCdm + 0x074) →
     let sect := s.fget pCdm F.CDM_LOG_IDX_SECTION
     let w := s.fget pCdm F.CDM_LOG_IDX_WORD
     let e := s.fget pCdm F.CDM_LOG_IDX_ENTRY
     s.logEntryAt sect e = some bs →
     ∃ t, exec (.logDataRead rq) s = .next t
       ∧ t.out = s.out ++ [.regData rq (some (BitVec.ofNat 32 (field bs (4 * w) 4)))]
       ∧ (w < (if sect = 2 then 3 else 7) → t.fget pCdm F.CDM_LOG_IDX_WORD = w + 1 ∧ t.fget pCdm F.CDM_LOG_IDX_ENTRY = e)
       ∧ ((if sect = 2 then 3 else 7) ≤ w → t.fget pCdm F.CDM_LOG_IDX_WORD = 0 ∧ t.fget pCdm F.CDM_LOG_IDX_ENTRY = (e + 1) % 8192)
       ∧ t.logs = s.logs ∧ t.mem = s.mem)

/-- FLAG_CLEAR of a die or of the module clears the written flags in every serving core of its scope, and no other
register. -/
def Obligations.FlagClearReachesCores : Prop :=
  ∀ (s : State) (die : Option DieId) (k : Fin 3) (rq : Requester) (v : Word), s.regsOk →
    s.serves rq ((match die with | some d => pDie d.val | none => pGctl) + 0x100 + 4 * k.val) →
    ∃ t : State, exec (.flagClear die k rq v) s = .next t.settle ∧ t.mem = s.mem ∧ t.cores = s.cores
      ∧ (∀ i < 1088, t.reg (pCore i + (0x100 + 4 * k.val))
          = if (s.units.posOfPhys i).isSome = true ∧ (∀ d, die = some d → i / 136 = d.val)
            then s.reg (pCore i + (0x100 + 4 * k.val)) &&& ~~~ (v &&& 0xF) else s.reg (pCore i + (0x100 + 4 * k.val)))
      ∧ (∀ a, (∀ i < 1088, a ≠ pCore i + (0x100 + 4 * k.val)) → t.reg a = s.reg a)

/-- The common header at any page that takes writes: PG_EVT clears the written events and sends the vector again
while INT stays 1; PG_EVT_INJ raises the named events; PG_CNT_SEL starts the count anew. UPD_STROBE marks the
pages of its groups that hold written shadows, and UPDATE_APPLY of a port brings a strobed page's shadows into
its registers and takes the mark away. Semaphores and the compatibility pair: the read of a free semaphore takes
it; its owner or module firmware frees it with a zero; IDX_DATA stands for the register at IDX_ADDR, which then
moves on by 4. Mailboxes and doorbells of an enabled host port: a write fills an empty word and marks it full,
the read at the other end empties it, a write of a full word is turned away, and a ring sends what rises
unmasked. -/
def Obligations.PageCommands : Prop :=
  (∀ (s : State) (page : Nat) (r : RegAt),
     (∀ p : Put, s.serves p.rq (p.addr (page * 0x4000 + 0x010)) → s.regLoc (p.addr (page * 0x4000 + 0x010)) = some r →
       s.pageWritable r = true →
       let t := s.plainWrite r (p.val &&& beMask p.be) (beMask p.be)
       exec (.pgEvtWrite page p) s = .next (if t.intOf r.page then t.sendInt r.page else t).settle)
     ∧ (∀ (rq : Requester) (v : Word), s.serves rq (page * 0x4000 + 0x018) → s.regLoc (page * 0x4000 + 0x018) = some r →
       s.pageWritable r = true →
       exec (.pgEvtInj page rq v) s = .next ((List.range 32).foldl (fun s k =>
         if bit v k = true ∧ r.blk.evtMask.testBit k = true then s.raise r.page k else s) s).settle)
     ∧ (∀ p : Put, s.serves p.rq (p.addr (page * 0x4000 + 0x02C)) → s.regLoc (p.addr (page * 0x4000 + 0x02C)) = some r →
       s.pageWritable r = true →
       exec (.pgCntSel page p) s = .next (((s.plainWrite r (p.val &&& beMask p.be) (beMask p.be)).setReg (r.page + 0x030) 0).setReg
         (r.page + 0x034) 0).settle))
  ∧ (∀ (s : State),
     (∀ (rq : Requester) (v : Word), s.serves rq (pGctl + 0x040) → exec (.updStrobe rq v) s = .next (s.strobe v).settle)
     ∧ (∀ g : Word, ∀ p ∈ [pHp .a, pHp .b], (s.strobe g).shadows.strobed.contains p
         = (s.shadows.strobed.contains p || (s.written p && bit g (s.fget p F.PG_UGRP_GROUP))))
     ∧ (∀ p : HostPort, s.live = true → s.shadows.strobed.contains (pHp p) = true →
         exec (.updateApply p) s = .next (s.applyShadows (pHp p)))
     ∧ (∀ (p : HostPort) (w : Word), s.regsOk → s.shadows.words = [(pHp p + 0x044, w)] →
         (s.applyShadows (pHp p)).reg (pHp p + 0x044) = (s.reg (pHp p + 0x044) &&& ~~~ (0x31 : Word)) ||| (w &&& 0x31)
         ∧ (s.applyShadows (pHp p)).shadows.words = [] ∧ (s.applyShadows (pHp p)).shadows.strobed.contains (pHp p) = false))
  ∧ (∀ (s : State),
     (∀ (k : Fin 16) (rq : Requester), s.serves rq (pGctl + 0x080 + 4 * k.val) → s.noLatch rq (pGctl + 0x080 + 4 * k.val) → s.regsOk →
       ∃ t, exec (.hsemRead k rq) s = .next t ∧ t.out = s.out ++ [.regData rq (some (s.reg (pGctl + 0x080 + 4 * k.val)))]
         ∧ t.reg (pGctl + 0x080 + 4 * k.val) = (if s.reg (pGctl + 0x080 + 4 * k.val) = 0 then BitVec.ofNat 32 (rqNo rq)
             else s.reg (pGctl + 0x080 + 4 * k.val))
         ∧ (∀ a, a ≠ pGctl + 0x080 + 4 * k.val → t.reg a = s.reg a))
     ∧ (∀ (k : Fin 16) (p : Put), s.serves p.rq (p.addr (pGctl + 0x080 + 4 * k.val)) →
       let frees := p.view.val = 0 ∧ p.be.getLsbD 0 = true ∧ p.val &&& beMask p.be &&& 3 = 0
         ∧ (p.rq = .firmware ∨ s.fget pGctl ⟨0x080 + 4 * k.val, 1, 0⟩ = rqNo p.rq)
       (frees → exec (.hsemWrite k p) s = .next (s.putReg (pGctl + 0x080 + 4 * k.val) 0))
       ∧ (¬ frees → exec (.hsemWrite k p) s = .next s.settle))
     ∧ (∀ rq : Requester, s.serves rq (pGctl + aIdxData) →
       let t := s.idxOf rq
       let at_ := t / 0x4000 * 0x4000 + t % 0x400
       isIdx t aIdxAddr = false → isIdx t aIdxData = false →
       exec (.idxData rq none) s = .next (((s.regRead1 rq at_).1.setIdx rq (t + 4)).send (.regData rq (some (s.regRead1 rq at_).2)))
       ∧ (∀ v, (s.regWrite1 rq at_ 0xF v).2 = true →
           exec (.idxData rq (some v)) s = .next ((s.regWrite1 rq at_ 0xF v).1.setIdx rq (t + 4)).settle)))
  ∧ (∀ (s : State) (p q : HostPort) (k : Fin 16) (v : Word), s.hostOn p = true →
     let m := pMbx p
     let h := m + 0x040 + 4 * k.val
     let f := m + 0x080 + 4 * k.val
     (s.serves (portRq q) h → bit (s.reg (m + 0x0C0)) k.val = false →
       exec (.h2fWrite p k q v) s = .next ((s.setReg h v).putReg (m + 0x0C0) (s.reg (m + 0x0C0) ||| maskBits k.val k.val)))
     ∧ (s.serves (portRq q) h → bit (s.reg (m + 0x0C0)) k.val = true →
       ∃ t : State, exec (.h2fWrite p k q v) s = .next (t.send (.aer q true)).settle ∧ t.reg h = s.reg h
         ∧ t.reg (m + 0x0C0) = s.reg (m + 0x0C0))
     ∧ (s.serves .firmware h → s.noLatch .firmware h →
       exec (.h2fRead p k) s = .next (({ s with freeCtr := s.freeCtr + 1 } : State).setReg (m + 0x0C0)
         (setBits (s.reg (m + 0x0C0)) k.val k.val 0) |>.send (.regData .firmware (some (s.reg h)))))
     ∧ (s.serves .firmware f → bit (s.reg (m + 0x0C4)) k.val = false →
       exec (.f2hWrite p k v) s = .next (((s.setReg f v).setReg (m + 0x0C4) (s.reg (m + 0x0C4) ||| maskBits k.val k.val)).event m
         F.MBX_PG_EVT_F2H_WORD).settle)
     ∧ (s.serves .firmware f → bit (s.reg (m + 0x0C4)) k.val = true →
       ∃ t : State, exec (.f2hWrite p k v) s = .next (t.send (.regData .firmware none)).settle ∧ t.reg f = s.reg f)
     ∧ (s.serves (portRq q) f → s.noLatch (portRq q) f →
       exec (.f2hRead p k q) s = .next (({ s with freeCtr := s.freeCtr + 1 } : State).setReg (m + 0x0C4)
         (setBits (s.reg (m + 0x0C4)) k.val k.val 0) |>.send (.regData (portRq q) (some (s.reg f)))))
     ∧ (∀ rq, s.serves rq (m + 0x10D0) → exec (.doorbellRing p true rq v) s
         = .next ((s.setReg (m + 0x0D0) (s.reg (m + 0x0D0) ||| v)).f2hRing p (s.reg (m + 0x0D0)) (s.reg (m + 0x0D4))).settle)
     ∧ (∀ rq, s.serves rq (m + 0x10C8) → exec (.doorbellRing p false rq v) s
         = .next ((s.setReg (m + 0x0C8) (s.reg (m + 0x0C8) ||| v)).h2fRing p (s.reg (m + 0x0C8)) (s.reg (m + 0x0CC))).settle))

/-- An event that is raised: its bit is set and no other, and a rise of INT sends the page's vector once, on the
ports that ROUTE names. -/
def Obligations.EventsSendVectors : Prop :=
  ∀ (s : State) (p b : Nat), b < 32 → s.regsOk →
    let t := s.raise p b
    (∀ i < 32, bit (t.reg (p + 0x010)) i = (bit (s.reg (p + 0x010)) i || decide (i = b)))
    ∧ (∀ a, a ≠ p + 0x010 → a ≠ p + 0x030 → a ≠ p + 0x034 → t.reg a = s.reg a)
    ∧ ((s.intOf p = true ∨ bit (s.reg (p + 0x014)) b = false) → t.out = s.out)
    ∧ (s.intOf p = false → bit (s.reg (p + 0x014)) b = true →
        t.out = s.out ++ (if s.fget p F.PG_CTRL_ROUTE % 2 = 1 then [Out.msix .a (s.fget p F.PG_CTRL_VEC)] else [])
          ++ (if s.fget p F.PG_CTRL_ROUTE / 2 = 1 then [Out.msix .b (s.fget p F.PG_CTRL_VEC)] else []))
    ∧ t.mem = s.mem ∧ t.cores = s.cores

/-- Routes: ROUTE_GEN starts a fill and ROUTE_FILL_DONE replaces every entry by the dimension-ordered route of its
module; RT_DATA writes the entry at RT_IDX, which moves on; MOD_ID takes its word. Routes are dimension-ordered:
towards another module of the torus the first dimension that differs is travelled the shorter way round, the
positive way when both are equally long, in the plane of the destination's parity; a module outside the torus
and the module itself have no entry. -/
def Obligations.RouteCommands : Prop :=
  (∀ (s : State),
     (∀ rq, s.serves rq (pOgs + 0x04C) → s.fab.fill = false →
       exec (.routeGen rq) s = .next ({ s with fab := { s.fab with fill := true } } : State).settle)
     ∧ (s.fab.fill = true → ∃ t, exec .routeFillDone s = .next t ∧ t.fab.fill = false
         ∧ (∀ j < 4096, Tab.get Route.init j t.fab.routes = (s.routeTo j).getD Route.init) ∧ t.regs = s.regs ∧ t.fab.reqs = s.fab.reqs)
     ∧ (∀ p : Put, s.serves p.rq (p.addr (pOgs + 0x054)) →
       let id := s.fget pOgs F.OGS_RT_IDX_ID
       let w := viewPut p.view.val (BitVec.ofNat 32 (routeBits (Tab.get Route.init id s.fab.routes))) (p.val &&& beMask p.be) 0x8000010F
         (beMask p.be)
       exec (.rtDataWrite p) s = .next (({ s with fab := { s.fab with
           routes := Tab.set Route.init id ⟨bits w 3 0, bit w 8, bit w 31⟩ s.fab.routes } } : State).fset pOgs
           F.OGS_RT_IDX_ID ((id + 1) % 4096)).settle)
     ∧ (∀ p : Put, s.serves p.rq (p.addr (pOgs + 0x040)) →
       exec (.modIdWrite p) s = .next (s.putReg (pOgs + 0x040) (p.word (s.reg (pOgs + 0x040)) 0x80000FFF))))
  ∧ (∀ (s : State) (j : Nat),
     let nx := s.fget pOgs F.OGS_COORD_XS + 1
     let ny := s.fget pOgs F.OGS_COORD_YS + 1
     let nz := s.fget pOgs F.OGS_COORD_ZS + 1
     let me := s.lid
     let dx := (j % nx + nx - me % nx) % nx
     let dy := (j / nx % ny + ny - me / nx % ny) % ny
     let dz := (j / nx / ny + nz - me / nx / ny) % nz
     let port (d n dim : Nat) := 2 * dim + (if 2 * d ≤ n then 0 else 1) + 8 * (j % 2)
     (nx * ny * nz ≤ j ∨ nx * ny * nz ≤ me → s.routeTo j = none)
     ∧ (j < nx * ny * nz → me < nx * ny * nz →
       (dx ≠ 0 → (s.routeTo j).map (·.port) = some (port dx nx 0))
       ∧ (dx = 0 → dy ≠ 0 → (s.routeTo j).map (·.port) = some (port dy ny 1))
       ∧ (dx = 0 → dy = 0 → dz ≠ 0 → (s.routeTo j).map (·.port) = some (port dz nz 2))
       ∧ (dx = 0 → dy = 0 → dz = 0 → s.routeTo j = none ∧ j = me)))

/-- A TXN at the head of the ring issues: refused for its lowest failed check, or the effect of its OP at issue;
then the Clove port goes on. The Clove port of a core, with the TXN e in front: BEGIN, ATTACH and DETACH are
done; an ACTION is logged here or at its module; a COMMIT prepares its slot and an ABORT ends it, or takes a
decision already made; a slot released by force refuses. -/
def Obligations.TxnDescriptors : Prop :=
  (∀ (s : State) (n : CoreId) (ph : Nat) (f : Fetched), s.phys n.val = some ph → s.heads ph f tTXN →
     let d := txnD f.words
     let e : Infl := ⟨f.idx, f.words, .queued, (s.core ph).attach⟩
     let t := s.issue ph f .queued
     (∀ row ∈ [(Instr.txnBegin, 0), (Instr.txnAttach, 1), (Instr.txnDetach, 2), (Instr.txnAction, 3), (Instr.txnCommit, 4),
         (Instr.txnAbort, 5)], ∀ r rs, (d.op = row.2 ∨ (row.2 = 0 ∧ 6 ≤ d.op)) → s.txnReasons ph d = r :: rs →
       exec (row.1 n) s = .next ((s.issueDone ph f (Rec.refused r)).txnNext ph).settle)
     ∧ (s.txnReasons ph d = [] →
       (d.op = 0 →
         let isCo := !d.hall || d.coord == t.lid
         let u := t.setSlot d.slot { Slot.init with
           st := .opened, seq := d.seq, hall := d.hall, step := d.step, coord := if d.hall then d.coord else t.lid
           isCoord := isCo, members := if d.hall then d.members else 1 }
         let v := if isCo then u else u.cloveSend d.slot d.coord kJOIN 0
         exec (.txnBegin n) s = .next ((if d.step then v.stepOpen else v).txnNext ph).settle)
       ∧ (d.op = 1 → exec (.txnAttach n) s = .next ((t.modCore ph fun c => { c with attach := some d.slot }).txnNext ph).settle)
       ∧ (d.op = 2 → exec (.txnDetach n) s = .next ((t.modCore ph fun c =>
           { c with attach := if c.attach = some d.slot then none else c.attach }).txnNext ph).settle)
       ∧ (d.op = 3 →
         let r := t.countActions d.slot 1
         exec (.txnAction n) s = .next ((if r.2 then r.1 else r.1.complete ph e (Rec.of 0x0C)).txnNext ph).settle)
       ∧ (d.op = 4 → exec (.txnCommit n) s = .next ((t.modSlot d.slot fun x => { x with ended := true }).txnNext ph).settle)
       ∧ (d.op = 5 → exec (.txnAbort n) s = .next ((t.modSlot d.slot fun x => { x with ended := true }).txnNext ph).settle)))
  ∧ (∀ (s : State) (ph : Nat) (e : Infl) (es : List Infl), s.queue ph tTXN = e :: es →
     let d := txnD e.words
     let u := (s.modInfl ph e.idx fun e => { e with prog := .sync 0 none }).modSlot d.slot fun x => { x with waiter := some (ph, e.idx) }
     let l := s.logEntry d.slot d.entry
     s.txnNext ph = (((s.txnGo ph).txnGo ph).txnGo ph).txnGo ph
     ∧ (e.prog = .queued → d.op ≤ 2 → s.txnGo ph = s.complete ph e (Rec.of 0))
     ∧ (e.prog = .queued → 3 ≤ d.op → s.txnSlotOk d = false → s.txnGo ph = s.complete ph e (Rec.refused 0x52))
     ∧ (e.prog = .queued → s.txnSlotOk d = true →
       (d.op = 3 → (d.toLocal = true ∨ d.module = s.lid) → (d.kind ≠ 2 ∨ (s.phys (bits d.target 31 22)).isSome = true) →
         (l.2.1 = 0 → s.txnGo ph = l.1.complete ph e (Rec.of 0))
         ∧ (l.2.1 ≠ 0 → s.txnGo ph = (l.1.slotAbort d.slot 4).complete ph e ⟨l.2.1, 0, l.2.2, 0, none⟩))
       ∧ (∀ v, d.op = 3 → d.toLocal = false → d.module ≠ s.lid →
         (match d.kind with
           | 0 => s.request opWR 0 (d.module * 2 ^ 44 + regBase + regAlias (bits d.target 25 0)) 4 (leBytes 4 d.value.toNat) (some d.slot)
               (.sync ph e.idx)
           | 1 => s.request opWR 0 (d.module * 2 ^ 44 + regBase + doorbellAddr (if bit d.target 8 then .b else .a)) 4
               (leBytes 4 (2 ^ bits d.target 4 0)) (some d.slot) (.sync ph e.idx)
           | _ => s.request opSIG 0 (d.module * 2 ^ 44) 4 (leBytes 4 d.target.toNat) (some d.slot) (.sync ph e.idx)) = (v, none) →
         s.txnGo ph = v.modInfl ph e.idx fun e => { e with prog := .sync 1 none })
       ∧ ((d.op = 4 ∨ d.op = 5) →
         ((u.slot d.slot).st = .ended → (u.slot d.slot).outcome ≠ none → s.txnGo ph = u.slotFree d.slot)
         ∧ ((u.slot d.slot).st ≠ .ended → s.txnGo ph = if d.op = 4 then u.prepare d.slot else u.slotAbort d.slot 2)))
     ∧ (e.prog = .sync 0 none → d.op = 4 → s.txnGo ph = s.prepare d.slot))

/-- A LOCAL transaction whose attached descriptors have their records commits in the cycle in which it prepares, and
its log is not yet performed. -/
def Obligations.LocalCommitDecidesAtOnce : Prop :=
  ∀ (s : State) (n : Nat), s.tabsOk → n < 16 →
    let x := s.slot n
    x.st = .opened → x.hall = false → x.isCoord = true → x.step = false → x.cause = 0 → x.voted = none → x.outcome = none →
    x.joined = [] → x.joins ≤ x.members → s.attachedDone n = true →
    let t := s.prepareNow n
    (t.slot n).st = .applying ∧ (t.slot n).outcome = some .committed ∧ (t.slot n).log = x.log ∧ (t.slot n).seq = x.seq

/-- A step transaction that commits raises STEP_VER by one, closes the step and counts towards INTERVAL; one that is
skipped lowers EXP by one unless it stands at MIN, and keeps STEP_VER. -/
def Obligations.StepOutcomes : Prop :=
  ∀ (s : State), s.regsOk →
    let c := s.stepOutcome .committed
    let k := s.stepOutcome .skipped
    c.reg (pGctl + 0x1C0) = s.reg (pGctl + 0x1C0) + 1
    ∧ c.fget pGctl F.GCTL_STEP_STAT_OPEN = 0 ∧ c.fget pGctl F.GCTL_STEP_STAT_LAST = 1
    ∧ c.out = s.out ++ [.pin 6 true]
    ∧ (s.fget pGctl F.GCTL_LS_GOOD_GOOD + 1 < s.fget pGctl F.GCTL_LS_GOOD_INTERVAL →
        c.fget pGctl F.GCTL_LS_GOOD_GOOD = s.fget pGctl F.GCTL_LS_GOOD_GOOD + 1
        ∧ c.fget pGctl F.GCTL_LSCALE_EXP = s.fget pGctl F.GCTL_LSCALE_EXP)
    ∧ k.reg (pGctl + 0x1C0) = s.reg (pGctl + 0x1C0)
    ∧ k.fget pGctl F.GCTL_STEP_STAT_OPEN = 0 ∧ k.fget pGctl F.GCTL_STEP_STAT_LAST = 2 ∧ k.fget pGctl F.GCTL_LS_GOOD_GOOD = 0
    ∧ (sint 8 (s.fget pGctl F.GCTL_LSCALE_MIN) < sint 8 (s.fget pGctl F.GCTL_LSCALE_EXP) →
        sint 8 (k.fget pGctl F.GCTL_LSCALE_EXP) = sint 8 (s.fget pGctl F.GCTL_LSCALE_EXP) - 1)
    ∧ (sint 8 (s.fget pGctl F.GCTL_LSCALE_EXP) ≤ sint 8 (s.fget pGctl F.GCTL_LSCALE_MIN) →
        k.fget pGctl F.GCTL_LSCALE_EXP = s.fget pGctl F.GCTL_LSCALE_EXP)
    ∧ c.mem = s.mem ∧ k.mem = s.mem ∧ c.slots = s.slots ∧ k.slots = s.slots

/-- A Clove message that the module consumes: turned away as any request, answered with reason 0x55 when its slot
does not hold its SEQ, and else the effect of its kind, answered DONE. -/
def Obligations.CloveMessages : Prop :=
  ∀ (s : State) (a : Arrival), a.pkt.op = opMSG → a.pkt.cls = 0 → s.consumes a.pkt = true →
    let m := cloveMsg a.pkt.payload
    ∀ row ∈ [(Instr.join, kJOIN, fun (s : State) => s.cloveJoin a.pkt.src m), (Instr.vote, kVOTE, fun s => s.cloveVote a.pkt.src m),
        (Instr.decideMsg, kDECIDE, fun s => s.cloveDecide m), (Instr.ack, kACK, fun s => s.cloveAck a.pkt.src m),
        (Instr.query, kQUERY, fun s => s.cloveQuery a.pkt.src m)],
    m.kind = row.2.1 →
    (∀ t, s.turnAway a = some t → exec (row.1 a) s = .next t)
    ∧ (s.turnAway a = none → s.cloveSlot m = none → exec (row.1 a) s = .next (s.respond a.pkt 4 0x55 []).settle)
    ∧ (∀ x, s.turnAway a = none → s.cloveSlot m = some x → exec (row.1 a) s = .next ((row.2.2 s).respond a.pkt 0 0 []).settle)

/-- What the kinds of Clove message do at a slot that holds their SEQ: a new member is noted and told a decision
already made, a decision reaches a member that acknowledges it, an acknowledgement is noted, a query of a
decided coordinator is answered. The outcome of the votes: a conflict outweighs an abort, an abort a numeric
vote, and a numeric vote a commit. -/
def Obligations.CloveMessageEffects : Prop :=
  (∀ (s : State) (lid : Nat) (m : CloveMsg), s.tabsOk →
     let x := s.slot m.slot
     (∀ o, x.isCoord = true → x.hall = true → x.outcome = some o → (x.joined.any fun j => j.lid == lid) = false →
       ∃ y : Slot, y.joins = x.joins + 1 ∧ y.joined = x.joined ++ [⟨lid, true, none, (0, 0, 0), false, 1⟩] ∧ y.outcome = some o
         ∧ s.cloveJoin lid m = (s.setSlot m.slot y).cloveSend m.slot lid kDECIDE o.code)
     ∧ (∀ o, x.isCoord = false → outcomeOf m.code = some o →
         ((x.st = .prepared ∨ x.st = .ended ∨ x.st = .free ∨ (x.st = .opened ∧ o ≠ .committed)) →
           s.cloveDecide m = (s.applyDecision m.slot o).cloveSend m.slot x.coord kACK 0)
         ∧ ((x.st = .applying ∨ (x.st = .opened ∧ o = .committed)) → s.cloveDecide m = s))
     ∧ (∀ j ∈ ((s.cloveAck lid m).slot m.slot).joined, (x.joined.map (·.lid)).Nodup → j.lid = lid → j.acked = true)
     ∧ (∀ o, x.isCoord = true → x.outcome = some o → s.cloveQuery lid m = s.cloveSend m.slot lid kDECIDE o.code)
     ∧ (x.isCoord = true → x.outcome = none →
         let put (s : State) (y : Slot) : State := (s.setSlot m.slot { y.heard lid with
           joined := modFirst (fun j => j.lid == lid) (fun j => if j.vote.isSome then j else
             { j with vote := some m.code, stepWords := m.step }) (y.heard lid).joined }).tryDecide m.slot
         (m.code = voteCommit → s.cloveVote lid m = put s x)
         ∧ (m.code = voteNumeric → s.cloveVote lid m = put s (x.withCause 1))
         ∧ (m.code = voteConflict → s.cloveVote lid m = put s (x.withCause 3))
         ∧ (m.code = voteOther → ∃ c ∈ otherCauses, s.cloveVote lid m = put s.draw.2 (x.withCause c))))
  ∧ (∀ x : Slot,
     let votes := x.joined.filterMap (·.vote) ++ x.voted.toList
     (voteConflict ∈ votes → x.verdict = .conflict)
     ∧ (voteConflict ∉ votes → (voteOther ∈ votes ∨ x.cause ∈ [6, 7, 8]) → x.verdict = .aborted)
     ∧ (voteConflict ∉ votes → voteOther ∉ votes → x.cause ∉ [6, 7, 8] → voteNumeric ∈ votes → x.verdict = .skipped)
     ∧ (voteConflict ∉ votes → voteOther ∉ votes → x.cause ∉ [6, 7, 8] → voteNumeric ∉ votes → x.verdict = .committed))

/-- Timeouts, forced decisions and the end of an apply. -/
def Obligations.TxnTimers : Prop :=
  ∀ (s : State) (n : SlotId) (rq : Requester),
    let x := s.slot n.val
    (x.isCoord = true → x.hall = true → x.voted ≠ none → x.outcome = none → x.st ≠ .free →
      exec (.voteTimeout n) s = .next ((s.setSlot n.val (x.withCause 6)).decideOutcome n.val { x with cause := 6 }.verdict).settle)
    ∧ (∀ o, x.outcome = some o → x.isCoord = true →
      let lost (u : State) (m : Member) : State :=
        let v := u.finc pClv F.CLV_CNT1_LOST
        (if v.fget pClv F.CLV_LOST_VALID = 1 then v
          else v.setReg (pClv + 0x060) (BitVec.ofNat 32 (2 ^ 31 + n.val * 4096 + m.lid))).event pClv F.CLV_PG_EVT_MEMBER_LOST
      let t := x.joined.foldl (fun u m => if m.acked || !m.joined then u else if m.sends < 16 then u.cloveSend n.val m.lid kDECIDE o.code
        else if m.sends = 16 then lost u m else u) s
      exec (.decideResend n) s = .next (t.modSlot n.val fun x =>
        { x with joined := x.joined.map fun m => if m.acked || !m.joined then m else { m with sends := min 17 (m.sends + 1) } }))
    ∧ (x.st = .prepared → x.hall = true → x.isCoord = false →
      exec (.inDoubt n) s = .next ((s.event pClv F.CLV_PG_EVT_IN_DOUBT).cloveSend n.val x.coord kQUERY 0))
    ∧ (∀ fails, x.st = .applying →
      let bad := fails.filter fun f => s.inLog f.2.2
      let r := (x.log.zipIdx).foldl (fun (a : State × Bool) e =>
        let t := a.1.applyEntry e.1 ((bad.filter fun f => f.1 == e.2).map (·.2.1)); (t.1, a.2 && t.2))
        (bad.foldl (fun s f => s.hbmUe f.2.2 true) s, true)
      exec (.applyDone n fails) s = .next ((r.1.modSlot n.val fun y => { y with corrupt := y.corrupt || !r.2 }).slotFree n.val).settle)
    ∧ (s.serves rq (pClv + 0x054) →
      ((x.st = .opened ∨ x.st = .prepared) →
        exec (.forceAbort n rq) s = .next ((s.setSlot n.val { x with cause := 9, forced := true }).applyDecision n.val .aborted).settle)
      ∧ (x.st = .prepared →
        exec (.forceCommit n rq) s = .next ((s.setSlot n.val { x with forced := true }).applyDecision n.val .committed).settle)
      ∧ (x.st = .ended → exec (.forceRelease n rq) s = .next (s.forceFree n.val).settle)
      ∧ (x.waiter = none → s.forceFree n.val = (if x.outcome.isNone then s.finc pClv F.CLV_CNT0_ABORTS else s).setSlot n.val
          { x with st := .free, waiter := none, log := [] }))

/-- The writes of SEC.CTRL, SLOT_ERASE and UNTR_REL. That D1 writes of module firmware are ignored is the model's
reading (log entry 92). Erased key slots hold no key and the others keep theirs; D2 erases every slot and counts
in D2_HISTORY when DEPLOYED; ARB_COMMIT never lowers an SVN. -/
def Obligations.SecurityWrites : Prop :=
  (∀ (s : State) (rq : Requester) (v : Word),
     let d1 (b : Nat) : State := if s.sec.dbg = 2 ∨ (rq ≠ .portA ∧ rq ≠ .portB) then s else { s with sec := { s.sec with dbg := b } }
     (s.serves rq (pSec + 0x050) →
       exec (.d1Set rq) s = .next (d1 1).settle
       ∧ exec (.d1Clear rq) s = .next (d1 0).settle
       ∧ exec (.d2Exit rq v) s = .next (if bit v 2 then (d1 (bits v 0 0)).raiseSvn else d1 (bits v 0 0)).exitD2.settle
       ∧ exec (.arbCommit rq v) s = .next (if bit v 3 then (d1 (bits v 0 0)).raiseSvn.exitD2 else (d1 (bits v 0 0)).raiseSvn).settle)
     ∧ (s.serves rq (pSec + 0x0E4) →
       exec (.slotErase rq v) s = .next (if bit v 31 then s.eraseSlots fun n => bit v 8 || n == bits v 5 0 else s).settle)
     ∧ (s.serves rq (pSec + 0x0EC) →
       exec (.untrRel rq v) s = .next (if bit v 31 then s.untrFree (bits v 5 0) else s).settle))
  ∧ (∀ (s : State) (p : Nat → Bool),
     (∀ n, (s.eraseSlots p).key n = if p n = true then KeySlot.init else s.key n)
     ∧ (∀ n, s.enterD2.key n = KeySlot.init) ∧ s.enterD2.sec.dbg = 2
     ∧ s.enterD2.rpb.d2History = (if s.rpb.lc = 2 then min 255 (s.rpb.d2History + 1) else s.rpb.d2History)
     ∧ s.exitD2.sec.dbg = (if s.sec.dbg = 2 then 0 else s.sec.dbg)
     ∧ s.enterD2.rpb.writes = s.rpb.writes + (if s.rpb.lc = 2 then 1 else 0) ∧ s.raiseSvn.rpb.writes = s.rpb.writes + 1
     ∧ s.rpb.fwSvn ≤ s.raiseSvn.rpb.fwSvn ∧ s.rpb.cfgSvn ≤ s.raiseSvn.rpb.cfgSvn
     ∧ (∀ e, ((s.untrFree e).sec.untr.any fun x => x.1 == e) = false) ∧ (∀ n, (s.untrFree n).rpb = s.rpb))

/-- An object is accepted exactly when it names this device, carries the nonce where its kind needs one, is signed
by the signer of its kind in this lifecycle state with both signatures, hashes to its header, has a valid body,
is not barred by D2, meets no begun P3 entry, and has no SVN below the one of the module. -/
def Obligations.AcceptedObjectsPassEveryCheck : Prop :=
  ∀ (s : State) (h body sigs : List Byte) (e : Envelope), s.objectReason h e body sigs = 0 ↔
    ((e.target = deviceId ∨ (e.kind ≠ 3 ∧ e.kind ≠ 4 ∧ ∀ b ∈ e.target, b = 0))
    ∧ ((e.kind = 3 ∨ e.kind = 4) → e.nonce = s.nonceBytes ∧ s.sec.dbg ≠ 2)
    ∧ signerOf s.rpb.lc e.kind = some e.signer
    ∧ (e.kind = 1 → s.rpb.fwSvn ≤ e.svn) ∧ (e.kind = 2 → s.rpb.cfgSvn ≤ e.svn)
    ∧ (∃ rsa slh, s.signerKeys e.signer = some (rsa, slh) ∧ pssVerify rsa h (sigs.take 384) = true
        ∧ Config.slhVerify slh h ((sigs.drop 384).take 16224) = true)
    ∧ sha384 body = e.hash ∧ s.bodyOk e body = true ∧ s.p3Begun = false)

/-- VERIFY, ATTEST and NONCE_NEW once started, on bytes that nothing holds, and OP_DONE, which shows the result. -/
def Obligations.SecurityOperations : Prop :=
  ∀ (s : State),
    (s.opDue 1 = true → s.opHeld = false →
      (s.opLen < 256 → exec .verify s = .next (s.opResult 4 0x80 none))
      ∧ (∀ rh : Res, 256 ≤ s.opLen → s.hbmOnlyRead s.opAddr 256 = rh → rh.status ≠ 0 →
          exec .verify s = .next (rh.st.opResult rh.status rh.detail none))
      ∧ (∀ rh rb : Res, 256 ≤ s.opLen → s.hbmOnlyRead s.opAddr 256 = rh → rh.status = 0 →
        let e := envelopeOf rh.data
        let bad := e.magic ≠ 0xCA795E0D ∨ e.format ≠ 1 ∨ e.kind = 0 ∨ 7 < e.kind ∨ 67108864 < e.bodyLen ∨ rh.st.opLen < e.size
        (bad → exec .verify s = .next (rh.st.opResult 4 0x80 (some e.kind)))
        ∧ (¬ bad → rh.st.hbmOnlyRead (rh.st.opAddr + 256) (e.size - 256) = rb → rb.status ≠ 0 →
          exec .verify s = .next (rb.st.opResult rb.status rb.detail (some e.kind)))
        ∧ (¬ bad → rh.st.hbmOnlyRead (rh.st.opAddr + 256) (e.size - 256) = rb → rb.status = 0 →
          let body := rb.data.take e.bodyLen
          let why := rb.st.objectReason rh.data e body (rb.data.drop (16 * cdiv e.bodyLen 16))
          exec .verify s = .next
            (if why = 0 then
               ((if e.kind = 3 ∨ e.kind = 4 then (rb.st.accept e.kind body).newNonce else rb.st.accept e.kind body).opResult 0 0 (some e.kind))
             else if why = 0x89 then ((if e.kind = 3 ∨ e.kind = 4 then rb.st.newNonce else rb.st).opResult 4 why (some e.kind))
             else rb.st.opResult 4 why (some e.kind)))))
    ∧ (s.opDue 2 = true → s.opHeld = false →
      (s.sec.identityOk = false → exec .attest s = .next (s.opResult 4 0x87 none))
      ∧ (s.sec.identityOk = true → s.opLen < 34384 → exec .attest s = .next (s.opResult 0x0C 0 none))
      ∧ (∀ r : Res, s.sec.identityOk = true → 34384 ≤ s.opLen → s.hbmOnlyRead s.opAddr 32 = r → r.status = 0 →
        let h := (Envelope.mk 0xCA795E0D 5 1 2 r.st.rpb.fwSvn 192 deviceId r.data (sha384 r.st.attestBody)).bytes
        let g := r.st.signBytes h 16608
        let w := g.2.memWrite g.2.opAddr (h ++ r.st.attestBody ++ g.1)
        let c := w.st.memWrite (g.2.opAddr + 17088) ((List.range 17296).map fun i => Config.certificate.getD i 0)
        exec .attest s = .next (c.st.opResult (if w.status ≠ 0 then w.status else c.status)
          (if w.status ≠ 0 then w.detail else c.detail) none)))
    ∧ (s.opDue 3 = true → exec .nonceNew s = .next (s.newNonce.opResult 0 0 none))
    ∧ (∀ o st why, s.sec.op = some o → o.result = some (st, why) →
      exec .opDone s = .next ((({ s with sec := { s.sec with op := none } } : State).setReg (pSec + 0x064)
        (BitVec.ofNat 32 (st % 256 * 2 ^ 16 + why % 256 * 2 ^ 8 + o.kind % 256))).event pSec F.SEC_PG_EVT_OP_DONE))

/-- Jobs of a Saffron engine: the tail, the start of the job at the head, its end, and what ends it early, with the
first failure it met. The health of the Saffron engines: randomness failure stalls each, its return frees each,
and an engine that fails its self-test ends its jobs and retires, while a passed test changes nothing. -/
def Obligations.SaffronCommands : Prop :=
  (∀ (s : State) (n : SafId),
     (∀ p : Put, s.serves p.rq (p.addr (pSaf n.val + 0x050)) →
       exec (.jrTailWrite n p) s = .next (s.putReg (pSaf n.val + 0x050) (p.word (s.reg (pSaf n.val + 0x050)) 0xFFFFFFFF)))
     ∧ (∀ r : Res, s.headJob n.val = some r →
       (r.status ≠ 0 → exec (.encrypt n) s = .next ((r.st.takeJob n.val []).modJob n.val fun j =>
         { j with result := some (r.status, r.detail), formed := true }))
       ∧ (r.status = 0 → jobDecrypt (wordsOf 16 r.data) = false → exec (.encrypt n) s = .next (r.st.runJob n.val (wordsOf 16 r.data)))
       ∧ (r.status = 0 → jobDecrypt (wordsOf 16 r.data) = true → exec (.decrypt n) s = .next (r.st.runJob n.val (wordsOf 16 r.data))))
     ∧ (∀ j, (s.safSt n.val).job = some j →
       ((s.safSt n.val).stalled = true → s.recHeld n.val j = false →
         exec (.safStallTimeout n) s = .next (s.jobEnd n.val j (j.result.getD (9, 0)).1 (j.result.getD (9, 0)).2))
       ∧ ((s.safSt n.val).stalled = false → s.recHeld n.val j = false →
           (j.erased = true ∨ (j.formed = true ∧ j.writes = 0 ∧ j.reads = 0)) →
           exec (.safJobComplete n) s = .next (s.jobEnd n.val j (j.result.getD (0, 0)).1 (j.result.getD (0, 0)).2))))
  ∧ (∀ (s : State) (n : SafId), s.tabsOk →
     (∃ t, exec .rngFail s = .next t ∧ (∀ k < 5, (t.safSt k).stalled = true ∧ (t.safSt k).job = (s.safSt k).job
         ∧ (t.safSt k).retired = (s.safSt k).retired) ∧ t.mem = s.mem ∧ t.cores = s.cores)
     ∧ (∃ t, exec .randomnessReturn s = .next t ∧ (∀ k < 5, (t.safSt k).stalled = false ∧ (t.safSt k).job = (s.safSt k).job)
         ∧ t.regs = s.regs ∧ t.mem = s.mem)
     ∧ exec (.selfTest n false) s = .next s
     ∧ ((s.safSt n.val).retired = false →
       let t := s.event (pSaf n.val) F.SAF_PG_EVT_SELFTEST_FAIL
       let u := match (s.safSt n.val).job with
         | some j => t.jobEnd n.val j 2 0
         | none => t
       exec (.selfTest n true) s
         = .next ((State.abortGiven (sub32 (u.jrTail n.val) (u.jrHead n.val)) u n.val).retireSaf n.val)))

/-- What is decrypted under the key, IV and additional data of its encryption is the text that was encrypted, and
its tag is right. -/
def Obligations.DecryptUndoesEncrypt : Prop :=
  ∀ (key : List Byte) (iv : Nat) (aad pt : List Byte), key.length = 32 →
    gcmOpen key iv aad (gcmSeal key iv aad pt).1 (gcmSeal key iv aad pt).2 = (pt, true)
    ∧ (gcmSeal key iv aad pt).1.length = pt.length ∧ (gcmSeal key iv aad pt).2.length = 16

/-- REQ_P0, REQ_P2, REQ_P3 and REQ_P4 write REQ and AUTO_P2; P2 is entered when every core is HALTED, P3 and P4
requests are taken once the start has completed and wait for it before that. IDLE_TIMEOUT, P3_ENTRY, P3_TIMEOUT
and P3_EXIT. -/
def Obligations.PowerStates : Prop :=
  (∀ (s : State) (rq : Requester) (auto : Bool), s.regsOk → s.serves rq (pPwr + 0x040) →
     let w := fun (r : Nat) => s.setReg (pPwr + 0x040) (viewPut 0 (s.reg (pPwr + 0x040)) (reqWord r auto) 0x107 0xFFFFFFFF)
     exec (.reqP0 rq auto) s = .next (w 0).settle
     ∧ exec (.reqP2 rq auto) s = .next (w 2).enterP2.settle
     ∧ (s.boot.ready = true →
         exec (.reqP3 rq auto) s = .next (w 3).request3.settle ∧ exec (.reqP4 rq auto) s = .next (w 4).toP4.settle)
     ∧ (s.boot.ready = false →
         exec (.reqP3 rq auto) s = .next ({ w 3 with pwr := { s.pwr with later := some 3 } } : State).settle
         ∧ exec (.reqP4 rq auto) s = .next ({ w 4 with pwr := { s.pwr with later := some 4 } } : State).settle))
  ∧ (∀ s : State, s.memOk → s.regsOk → s.tabsOk →
     (s.fget pPwr F.PWR_CTRL_AUTO_P2 = 1 → s.pState ≤ 1 → s.allHalted = true → exec .idleTimeout s = .next (s.setP 2))
     ∧ (s.pwr.p3From.isSome = true → s.p3Unmet = 0 → s.powered = true → ∃ t, exec .p3Entry s = .next t ∧ t.pState = 3
         ∧ (∀ a < spBase, t.mem.byte a = s.mem.byte a)
         ∧ (∀ n < 32, (s.hbmc n).st = .active → (t.hbmc n).st = .selfRefresh)
         ∧ (∀ a, aonReg a = true → a ≠ pPwr + 0x080 → t.reg a = s.reg a)
         ∧ t.fget pPwr F.PWR_STAT_CLASS = s.fget pPwr F.PWR_STAT_CLASS
         ∧ (s.sec.dbg = 0 → s.fget pSec F.SEC_POLICY_RETAIN_KEYS = 1 → t.sec.keys = s.sec.keys)
         ∧ t.sec.dbg ≠ 2 ∧ t.boot.running = false)
     ∧ (s.pwr.p3From.isSome = true → s.p3Unmet ≠ 0 → ∃ t, exec .p3Timeout s = .next t
         ∧ t.fget pPwr F.PWR_AON_STAT_REFUSE = s.p3Unmet ∧ t.pwr.p3From = none ∧ t.pState = s.pState)
     ∧ (∀ b, s.pState = 3 → s.boot.wake = true → ∃ u : State,
         u.pwr.retained = false ∧ u.boot.wake = false ∧ u.mem = s.mem
         ∧ (∀ n < 32, (u.hbmc n).st = (if (s.hbmc n).st = .selfRefresh then .training else (s.hbmc n).st))
         ∧ exec (.p3Exit b) s = .next (u.start b true)))

/-- The effective limit L is the smallest of the strapped class, CAP when it is not 0, FLOOR under the throttle, and
1,800 W where a hot I/O die or the input voltage applies it; CAP and FLOOR count as 900 W to the class. LIMITER
is the lowest number among the terms that equal L. D_open(P) is the largest D whose power stays within 0.95 × P. -/
def Obligations.EffectiveLimit : Prop :=
  (∀ s : State,
    let cls := 3600 - 600 * s.fget pPwr F.PWR_STAT_CLASS
    let clamp := fun (w : Nat) => min (max w 900) cls
    let cap := s.fget pPwr F.PWR_CAP_WATTS
    let floor := clamp (s.fget pPwr F.PWR_THR_CFG_FLOOR)
    s.limitW ≤ cls ∧ (cap ≠ 0 → s.limitW ≤ clamp cap) ∧ (s.throttled = true → s.limitW ≤ floor)
    ∧ (s.pwr.ioHot = true ∨ s.pwr.vLimit = true → s.limitW ≤ 1800)
    ∧ (s.limitW = cls ∨ (cap ≠ 0 ∧ s.limitW = clamp cap) ∨ (s.throttled = true ∧ s.limitW = floor)
        ∨ ((s.pwr.ioHot = true ∨ s.pwr.vLimit = true) ∧ s.limitW = 1800))
    ∧ (s.limitW = 3600 → s.limiter = 0)
    ∧ (s.limitW ≠ 3600 → (s.limiter, s.limitW) ∈ s.limits ∧ ∀ x ∈ s.limits, x.2 = s.limitW → s.limiter ≤ x.1))
  ∧ dOpen 900 = 0
  ∧ (∀ p, 895 ≤ p → dOpen p ≤ 64 ∧ 5440000 + 245000 * dOpen p ≤ 6080 * p
      ∧ ∀ d ≤ 64, 5440000 + 245000 * d ≤ 6080 * p → d ≤ dOpen p)

/-- POWER_TICK, DUTY_STEP and the throttle commands: what the duty, the throttle bits and the ramp become. -/
def Obligations.DutyAndThrottle : Prop :=
  ∀ s : State, s.regsOk → s.powered = true →
    (∀ peak avg mj, ∃ t, exec (.powerTick peak avg mj) s = .next t ∧ t.peakW = min peak 65535 ∧ t.avgW = min avg 65535
      ∧ t.duty = (if s.limitW < min peak 65535 then min s.duty (dOpen s.limitW) else s.duty))
    ∧ (s.throttled = false → s.pwr.ramp = false → s.peakW ≤ s.limitW → ∃ t, exec .dutyStep s = .next t
      ∧ t.duty = (if 97 * s.limitW < 100 * s.avgW then s.duty - 1
          else if 100 * s.avgW < 95 * s.limitW ∧ s.duty < 64 then s.duty + 1 else s.duty))
    ∧ (s.throttled = false → s.pState ≤ 1 → 2 ≤ s.fget pSumac F.SUMAC_PHASE_PHASE → ∃ t, exec .throttleAssert s = .next t
      ∧ t.throttled = true ∧ t.duty = min s.duty (dOpen s.floorW) ∧ t.pState = 1)
    ∧ (s.throttled = true → s.fget pPwr F.PWR_STAT_ACK = 0 → s.peakW ≤ s.floorW →
      exec .throttleAck s = .next (s.fset pPwr F.PWR_STAT_ACK 1))
    ∧ (s.throttled = true → s.fget pPwr F.PWR_STAT_ACK ≠ 0 → ∃ t, exec .throttleCheck s = .next t
      ∧ t.duty = (if 100 * s.peakW ≤ 98 * s.floorW then min 64 (s.duty + 1)
          else if s.floorW < s.peakW then min s.duty (dOpen s.floorW) else s.duty))
    ∧ (s.throttled = true → ∃ t, exec .throttleRelease s = .next t ∧ t.throttled = false
      ∧ t.fget pPwr F.PWR_STAT_ACK = 0 ∧ t.pwr.ramp = decide (s.duty < 64) ∧ t.duty = s.duty)
    ∧ (s.pwr.ramp = true → ∃ t, exec .throttleRamp s = .next t
      ∧ t.duty = min 64 (s.duty + 1) ∧ t.pwr.ramp = decide (s.duty + 1 < 64))
    ∧ (s.throttled = true → s.fget pPwr F.PWR_THR_CFG_LONG_S ≠ 0 → s.pwr.thrLong = false →
      exec .thrLong s = .next ({ s with pwr := { s.pwr with thrLong := true } }.event pPwr F.PWR_PG_EVT_THR_LONG))

/-- Temperatures, the input voltage, the rails, the PLLs and REFCLK: a die at 105 °C gets thermal duty 0, one from
95 °C loses a step; a trip, two far samples of the input, a bad rail, a lost PLL or a fall of PWR_OK takes the
module to P4 with FAULT_N low; the second bad window in a row switches the reference source. -/
def Obligations.SensorCommands : Prop :=
  ∀ s : State, s.regsOk → s.powered = true →
    (∀ c : Int, 105 ≤ c → c < 115 → ∃ t, exec (.dieTempRead [c]) s = .next t ∧ t.thermalDuty 0 = 0 ∧ t.tempOf 0 = c)
    ∧ (∀ c : Int, 95 ≤ c → c < 100 → s.pwr.thermal = [] → ∃ t, exec (.dieTempRead [c]) s = .next t
        ∧ t.thermalRaw 0 = 63 ∧ t.pwr.hard.testBit 0 = false ∧ t.tempOf 0 = c)
    ∧ (∀ c : Int, 115 ≤ c → c ≤ 150 → ∀ cs, ∃ t, exec (.dieTempRead (c :: cs)) s = .next t ∧ t.pState = 4
        ∧ t.out.getLast? = some (.pin 0 false))
    ∧ (∀ mv i, 40000 ≤ mv → mv ≤ 60000 → ∃ t, exec (.voltageSample mv i) s = .next t ∧ t.pwr.vOut = 0 ∧ t.pwr.vFar = 0
        ∧ t.fget pPwr F.PWR_IN_V_MV = mv ∧ t.pwr.vLimit = (s.pwr.vLimit && decide (s.pwr.vBack + 1 < 100)))
    ∧ (∀ mv i, (38000 ≤ mv ∧ mv < 40000 ∨ 60000 < mv ∧ mv ≤ 62000) → ∃ t, exec (.voltageSample mv i) s = .next t
        ∧ t.pwr.vOut = s.pwr.vOut + 1 ∧ t.pwr.vLimit = (s.pwr.vLimit || decide (9 ≤ s.pwr.vOut)))
    ∧ (∀ mv i, (mv < 38000 ∨ 62000 < mv) → 1 ≤ s.pwr.vFar → ∃ t, exec (.voltageSample mv i) s = .next t ∧ t.pState = 4
        ∧ t.out.getLast? = some (.pin 0 false))
    ∧ (∀ rail mv, exec (.railFault rail mv) s
        = .next (s.logEvent 0x0008 0 3 0x0052 (rail % 2 ^ 32 + 2 ^ 32 * (mv % 2 ^ 32))).fatal)
    ∧ (∀ pll, exec (.pllUnlock pll) s = .next (s.logEvent 0x0009 0 3 0x0053 pll.val).fatal)
    ∧ exec .pwrOkLow s = .next ({ s with boot := { s.boot with pwrOk := false } } : State).fatal
    ∧ (∀ hz, 99970000 ≤ hz → hz ≤ 100030000 → ∃ t, exec (.refclkWindow hz) s = .next t ∧ t.pwr.refBad = 0
        ∧ t.fget pClk F.CLK_REF_HZ_HZ = hz / 1000 * 1000)
    ∧ (∀ hz, (hz < 99970000 ∨ 100030000 < hz) → s.pwr.refBad = 1 → ∃ t, exec (.refclkWindow hz) s = .next t
        ∧ t.fget pClk F.CLK_STAT_REF_SRC = 1)

/-- P4 keeps flash and nothing else: memory reads as unlisted, every register but those of flash and STAT.STATE has
its reset value, and key slots, untrusted entries, cores, transactions and requests are gone. A module reset
keeps what flash holds and loses the rest: rollback protection and logs stay; every register but those of flash
and PC_PENDING has its reset value; key slots, cores, transactions, requests and queued accesses are gone. -/
def Obligations.FlashOutlivesResets : Prop :=
  (∀ s : State, s.regsOk → s.fatal.logs = s.logs
     ∧ s.fatal.rpb = s.rpb ∧ s.fatal.pState = 4 ∧ s.fatal.mem = Mem.init ∧ s.fatal.sec.keys = [] ∧ s.fatal.sec.untr = []
     ∧ s.fatal.cores = [] ∧ s.fatal.slots = [] ∧ s.fatal.held = []
     ∧ (∀ a, flashReg a = true → s.fatal.reg a = s.reg a)
     ∧ (∀ a, flashReg a = false → a ≠ pPwr + F.PWR_STAT_STATE.off → s.fatal.reg a = regRst a))
  ∧ (∀ s : State, s.regsOk →
     (s.boot.pwrOk = true → ∃ t, exec .modResetAssert s = .next t ∧ t.boot.resetLow = true ∧ t.rpb = s.rpb ∧ t.logs = s.logs
       ∧ t.sec.keys = [] ∧ t.cores = [] ∧ t.slots = [] ∧ t.fab = Fab.init ∧ t.held = []
       ∧ (∀ a, flashReg a = true ∨ pendReg a = true → t.reg a = s.reg a)
       ∧ (∀ a, flashReg a = false → pendReg a = false → t.reg a = regRst a))
     ∧ (s.boot.pwrOk = false → ∃ t, exec .pwrOkRise s = .next t ∧ t.boot.pwrOk = true ∧ t.boot.resetLow = true ∧ t.rpb = s.rpb
       ∧ t.logs = s.logs ∧ (∀ a, flashReg a = true → t.reg a = s.reg a)))

/-- The time unit: an idle cycle adds 0, 1 or 2 ns, and 1 when nothing slews or trims; a PPS pulse after ARM steps
the count to NEXT; a pulse in ACQUIRE within the window locks; an accepted pulse trims; a missed slot counts,
and the third leads to HOLDOVER; ACQUIRE ends after its limit; PPS_ECHO follows the count. -/
def Obligations.TimeCommands : Prop :=
  ∀ s : State, s.regsOk → s.powered = true →
    (s.pending = [] → s.boot.resetLow = false → ∃ t, step s = .next t ∧ (∃ d ≤ 2, t.now = (s.now + d) % 2 ^ 64)
      ∧ (s.time.span = 0 → s.trim = 0 → s.time.trimAcc < 1000000000 → s.time.deferred = 0 → t.now = (s.now + 1) % 2 ^ 64))
    ∧ (∀ high, 50 ≤ high → s.fget pTime F.TIME_CTRL_ARM = 1 → ∃ t, exec (.ppsPulse high) s = .next t
      ∧ t.now = s.pair64 aNext ∧ t.timeState = 1 ∧ t.fget pTime F.TIME_CTRL_ARM = 0)
    ∧ (∀ high, 50 ≤ high → s.fget pTime F.TIME_CTRL_ARM = 0 → s.timeState = 1 →
      s.pair64 aEdge + 999500000 ≤ s.now → s.now ≤ s.pair64 aEdge + 1000500000 → ∃ t, exec (.ppsPulse high) s = .next t
      ∧ t.timeState = 2 ∧ t.trim = 1000000000 - ((s.now : Int) - s.pair64 aEdge) ∧ t.now = s.now)
    ∧ (∀ high, 50 ≤ high → s.fget pTime F.TIME_CTRL_ARM = 0 → s.timeState = 2 →
      s.time.expect ≤ s.now + 2000 → s.now ≤ s.time.expect + 2000 → ∃ t, exec (.ppsPulse high) s = .next t
      ∧ t.timeState = 2 ∧ t.trim = clampTrim (s.trim - ((s.now : Int) - s.time.expect).tdiv 4)
      ∧ t.time.expect = s.time.expect + 1000000000 ∧ t.fget pTime F.TIME_STAT_REJ_RUN = 0)
    ∧ (s.timeState = 2 → ∃ t, exec .slotEnd s = .next t ∧ t.time.expect = s.time.expect + 1000000000
      ∧ t.timeState = (if s.fget pTime F.TIME_STAT_REJ_RUN < 2 then 2 else 3)
      ∧ t.fget pTime F.TIME_STAT_REJ_RUN = min 3 (s.fget pTime F.TIME_STAT_REJ_RUN + 1))
    ∧ (s.timeState = 1 → exec .acquireTimeout s = .next ((s.setTimeState 0).event pTime F.TIME_PG_EVT_ACQ_FAIL))
    ∧ (2 ≤ s.timeState → exec .ppsEcho s = .next (s.send (.pin 7 true)))

/-- The commands of an HBM controller: refresh, a stack that does not answer, temperature, self-refresh and row
repair, and training while reset is released. PATROL_SCRUB passes over one slot that nothing holds: of the
errors that memory has taken, those of the slot that the code can correct are corrected, the next slot is due,
and no byte changes. MAP_REBUILD, while the die's cores are HALTED, retires what is pending, wipes the die and
drops its untrusted entries, and touches no other die. -/
def Obligations.HbmCommands : Prop :=
  (∀ (s : State) (n : HbmId), s.regsOk → s.tabsOk →
     ((s.hbmc n).st = .active →
       exec (.hbmRefresh n) s = .next (s.modHbmc n fun h => { h with refreshes := h.refreshes + 1 })
       ∧ exec (.stackNoAnswer n) s = .next (s.hbmFail n 2).settle
       ∧ (∀ pc, s.pState = 2 → s.fget (pHbm n) F.HBM_HC_CFG_PARTIAL_SR_EN = 1 →
           exec (.pcSelfRefresh n pc) s = .next (s.modHbmc n fun h => { h with pcSr := h.pcSr ||| 2 ^ pc.val }))
       ∧ (∀ row rest, (s.hbmc n).candidates = row :: rest → (s.hbmc n).repairing = none → row < 2 ^ 53 →
           exec (.softPpr n true) s = .next ((s.logRepair 0x0011 n 1 0x0011 row).setHbmc n
             { s.hbmc n with candidates := rest, repairing := some row })
           ∧ ∃ t, exec (.softPpr n false) s = .next t ∧ (t.hbmc n).candidates = rest
             ∧ bit (t.reg (pHbm n + 0x050)) (rowPc row) = true))
     ∧ ((s.hbmc n).st ≠ .off → s.powered = true →
       (∀ c : Int, -20 ≤ c → c ≤ 130 → ∃ t, exec (.hbmTempRead n c) s = .next t
           ∧ (t.hbmc n).temp = c ∧ (85 < c → (t.hbmc n).fast = true) ∧ t.fget (pHbm n) F.HBM_TEMP_DEG_C = (c + 64).toNat)
       ∧ (∀ c : Int, (c < -20 ∨ 130 < c) → ∃ t, exec (.hbmTempRead n c) s = .next t
           ∧ (t.hbmc n).fast = true ∧ t.fget (pHbm n) F.HBM_TEMP_SENSOR_FAULT = 1))
     ∧ ((s.hbmc n).st = .training → s.boot.resetLow = false →
       exec (.hbmTrainingDone n true) s = .next (s.setHbmc n { s.hbmc n with st := .active, tries := 0 })
       ∧ ∃ t, exec (.hbmTrainingDone n false) s = .next t
         ∧ (t.hbmc n).st = (if 2 ≤ (s.hbmc n).tries then .failed else .training))
     ∧ (∀ row, (s.hbmc n).repairing = some row → ∃ t : State, exec (.spprDone n) s = .next t.settle
         ∧ (t.hbmc n).repairing = none ∧ (t.hbmc n).softRows = (s.hbmc n).softRows ++ [row] ∧ (t.hbmc n).rows = (s.hbmc n).rows
         ∧ t.mem.cells = s.mem.cells))
  ∧ ((∀ (s : State) (n : HbmId) (hbm : List HbmHit) (sp : List SpHit) (x : Nat), s.tabsOk → (s.hbmc n).st = .active →
     s.fget (pHbm n) F.HBM_RAS_CFG_SCRUB_H ≠ 0 → s.stripeOff n (s.hbmc n).scrub = some x → s.memHeld x 256 = false →
     let m := sp.foldl Mem.takeSp (hbm.foldl Mem.takeHbm s.mem)
     ∃ t, exec (.patrolScrub n hbm sp) s = .next t ∧ t.mem.cells = s.mem.cells ∧ (t.hbmc n).scrub = (s.hbmc n).scrub + 1
       ∧ (∀ e, e ∈ t.mem.errs ↔ e ∈ m.errs ∧ e.1 ∉ m.corrected x 256))
   ∧ (∀ (s : State) (d : DieId) (o : SpareOp), s.regsOk → s.wear.running = some o → o.op = 3 → o.die = d.val → s.dieHalted d = true →
     ∃ t, exec (.mapRebuild d) s = .next t
       ∧ (∀ a, d.val * dieSize ≤ a → a < (d.val + 1) * dieSize → t.mem.byte a = Mem.blank)
       ∧ (∀ a, (a < d.val * dieSize ∨ (d.val + 1) * dieSize ≤ a) → t.mem.byte a = s.mem.byte a)
       ∧ (∀ e ∈ t.sec.untr, e.2.1 / dieSize ≠ d.val)
       ∧ (∀ k < 4, t.reg (pHbm (4 * d.val + k) + 0x050) = 0
           ∧ t.reg (pHbm (4 * d.val + k) + 0x04C) = s.reg (pHbm (4 * d.val + k) + 0x04C) ||| s.reg (pHbm (4 * d.val + k) + 0x050))))

/-- SPARE_CORE, SPARE_BANK and SPARE_HBM_REBUILD write SPARE_OP, which is ignored while an operation runs;
LOG_COALESCE_FLUSH writes the coalesced counts. What a CORE operation answers: REFUSED with 0x92 for a number
that names no core, 0x90 for a core that is not ready, 0x91 without a spare, else it is recorded in REPAIR first
and runs. SPARE_DONE of a BANK operation and of a rebuild that has come about or can: the bank is retired, and
SPARE_STAT shows DONE. -/
def Obligations.SparingCommands : Prop :=
  (∀ (s : State) (rq : Requester), s.serves rq (pCdm + 0x060) →
     let put := fun (v : Nat) => Host.Outcome.next
       (if s.wear.running.isSome = true then s else s.spareOp (BitVec.ofNat 32 v)).settle
     (∀ n : CoreId, exec (.spareCore rq n) s = put (2 ^ 28 + n.val * 65536))
     ∧ (∀ (n : CoreId) (b : Fin 8), exec (.spareBank rq n b) s = put (2 * 2 ^ 28 + n.val * 65536 + b.val * 4096))
     ∧ (∀ d : DieId, exec (.spareHbmRebuild rq d) s = put (3 * 2 ^ 28 + d.val))
     ∧ (s.powered = true → exec .logCoalesceFlush s = .next { s with logs := { s.logs with unflushed := false } }))
  ∧ (∀ (s : State) (n : CoreId), s.regsOk →
     let t := s.spareOp (BitVec.ofNat 32 (2 ^ 28 + n.val * 65536))
     (s.phys n.val = none → t = s.spareResult 1 4 0x92)
     ∧ (∀ ph, s.phys n.val = some ph → ph < 1088 →
       ((s.halted ph = false ∨ (s.mx ph).st ≠ .idle) → t = s.spareResult 1 4 0x90)
       ∧ (s.halted ph = true → (s.mx ph).st = .idle →
         (s.findSpare (ph / 136) = none → t = s.spareResult 1 4 0x91)
         ∧ (∀ sp, s.findSpare (ph / 136) = some sp → s.logs.repairs.length < 2048 →
             sp / 136 = ph / 136 ∧ 128 ≤ sp % 136
             ∧ t.wear.running = some ⟨1, n.val, 0, ph / 136, sp, true⟩
             ∧ (∃ e, t.logs.repairs = s.logs.repairs ++ [e] ∧ e.code = 0x0030 ∧ e.detail = ph + 2 ^ 32 * sp)
             ∧ t.reg (pCdm + 0x064) = 0x80000001))))
  ∧ (∀ (s : State) (o : SpareOp), s.regsOk → s.wear.running = some o → o.op = 2 ∨ o.op = 3 →
     (o.op = 3 → o.spare ≠ 0 ∨ s.dieHalted o.die = true) →
     ∃ t : State, exec .spareDone s = .next t.settle ∧ t.wear.running = none ∧ t.reg (pCdm + 0x064) = BitVec.ofNat 32 o.op
       ∧ (∀ ph, o.op = 2 → s.phys o.core = some ph → o.bank < 8 → t.fget (pCore ph) F.SP_BANKMAP_RETIRED = o.bank ∧ t.mem = s.mem))

/-- SPARE_DONE of a CORE operation: the spare serves the core's position and logical number, holds its scratchpad
bytes and is HALTED; the scratchpad of the replaced core reads as unlisted and no other byte changes. -/
def Obligations.SpareTakesOver : Prop :=
  ∀ (s : State) (o : SpareOp) (old pos : Nat), s.memOk → s.regsOk → s.coresOk →
    s.wear.running = some o → o.op = 1 → s.phys o.core = some old → s.units.posOf o.core = some pos → old ≠ o.spare →
    ∃ t : State, exec .spareDone s = .next t.settle
      ∧ t.phys o.core = some o.spare ∧ t.wear.running = none
      ∧ (∀ k < spSize, t.mem.byte (spKey o.spare k) = s.mem.byte (spKey old k) ∧ t.mem.byte (spKey old k) = Mem.blank)
      ∧ (∀ a, (∀ k < spSize, a ≠ spKey o.spare k ∧ a ≠ spKey old k) → t.mem.byte a = s.mem.byte a)
      ∧ t.fget (pCore o.spare) F.SQ_CTRL_HALT = 1
      ∧ t.reg (pCdm + 0x064) = 1

/-- The commands of a fabric port and its lanes. FLIT_RECEIVE: a flit whose CRC agrees is taken when it is the next
in order, frees what it acknowledges and brings the peer's replay request; one whose CRC fails is counted and
discarded with the flits that follow, and the first failure asks for a replay. A flit is 256 bytes: 240 packet
bytes, the control word of SEQ, ACK and credits, the CRC-32 of bytes 0 to 243, and eight check symbols; the
flits of a packet carry its bytes in order; and lane i of the active ones carries the units i, i + w, ... of
each. Site and host links. -/
def Obligations.LinkCommands : Prop :=
  (∀ (s : State) (n : FpId), s.regsOk →
     (∀ (rq : Requester) (cap : Bool), s.serves rq (pFp n.val + 0x040) →
       let w := fun (v : Nat) => s.setReg (pFp n.val + 0x040) (viewPut 0 (s.reg (pFp n.val + 0x040)) (BitVec.ofNat 32 v) 3 0xFFFFFFFF)
       exec (.portEnable n rq cap) s = .next ((w (2 * b2n cap + 1)).fpCtrl n.val 1).settle
       ∧ exec (.portDisable n rq cap) s = .next ((w (2 * b2n cap)).fpCtrl n.val 0).settle)
     ∧ (s.fpState n.val = 1 → (∀ t, exec (.portTraining n t) s = .next (s.fpTrained n.val t))
         ∧ exec (.trainingTimeout n) s = .next (s.fpFail n.val 0))
     ∧ (s.fpState n.val = 3 → (∀ t, exec (.retrainDone n t) s = .next (s.fpTrained n.val t))
         ∧ exec (.retrainTimeout n) s = .next (s.fpFail n.val 0))
     ∧ (∀ lane : Fin 9, s.fpState n.val = 2 → (s.fget (pFp n.val) F.FP_LANE_MAP_ACTIVE).testBit lane = true →
         ∃ t, exec (.laneFailure n lane) s = .next t ∧ t.fpState n.val = 3
           ∧ (t.fget (pFp n.val) F.FP_LANE_MAP_FAILED).testBit lane = true
           ∧ (t.fget (pFp n.val) F.FP_LANE_MAP_ACTIVE).testBit lane = false))
  ∧ (∀ (s : State) (n : FpId) (f : FlitRx), s.fpState n.val = 2 →
     let p := pFp n.val
     let u := if f.corrected = true then s.finc p F.FP_LINK_CNT1_FEC_CORR else s
     let v := u.finc p F.FP_LINK_CNT0_CRC_ERR
     let l := u.link n.val
     let ok := u.setLink n.val ({ l with rxNext := (l.rxNext + 1) % 4096, discarding := false }.acked f.ackSeq)
     (f.crcOk = true → f.seq ≠ l.rxNext → exec (.flitReceive n f) s = .next u)
     ∧ (f.crcOk = true → f.seq = l.rxNext → f.replay = none → exec (.flitReceive n f) s = .next (ok.pump n.val))
     ∧ (∀ k, f.crcOk = true → f.seq = l.rxNext → f.replay = some k →
         exec (.flitReceive n f) s = .next ((ok.replayFrom n.val k.val).pump n.val))
     ∧ (f.crcOk = false → (v.link n.val).discarding = true → exec (.flitReceive n f) s = .next v)
     ∧ (f.crcOk = false → (v.link n.val).discarding = false → exec (.flitReceive n f) s
         = .next (((v.setLink n.val { v.link n.val with discarding := true }).finc p F.FP_LINK_CNT0_REPLAYS).send
             (.replay n.val (v.link n.val).rxNext))))
  ∧ ((∀ (body : List Byte) (seq ack credit : Nat), body.length = 240 → seq < 4096 → ack < 4096 → credit < 256 →
     let f := flitBytes body (flitWord seq ack credit)
     f.length = 256 ∧ f.take 240 = body
     ∧ bits (BitVec.ofNat 32 (field f 240 4)) 31 20 = seq ∧ bits (BitVec.ofNat 32 (field f 240 4)) 19 8 = ack
     ∧ bits (BitVec.ofNat 32 (field f 240 4)) 7 0 = credit ∧ field f 244 4 = (Config.crc32 (f.take 244)).toNat
     ∧ f.drop 248 = flitCheck (f.take 248))
   ∧ (∀ p : Packet, p.payload.length ≤ 256 → (p.flits.flatMap (·.2)) = p.bytes ∧ (∀ x ∈ p.flits, x.2.length ≤ 240)))
  ∧ (∀ s : State, s.regsOk →
     (∀ n : SiteId, s.fget (pSite n.val) F.SITE_LINK_STAT_STATE = 1 →
       let rate : Fin 4 := match s.fget (pSite n.val) F.SITE_LINK_CTRL_SPEED with
         | 0 => 3
         | 1 => 2
         | _ => 1
       (∀ r, exec (.siteLinkUp n r) s = .next (if r = rate then s.setSite n.val 2 r.val else s))
       ∧ exec (.siteLinkFailed n) s = .next (s.setSite n.val 3 0))
     ∧ (∀ (p : HostPort) (l : HostLink), s.hostOn p = true → s.powered = true → s.boot.perst.testBit (HostPort.ix p) = false →
       ∃ t, exec (.hostLinkChange p l) s = .next t
         ∧ t.reg (pHp p + 0x040) = (if l.up = true then BitVec.ofNat 32 (l.width % 32 * 2 ^ 16 + l.rate % 16 * 2 ^ 8 + 1) else 0)
         ∧ t.mem = s.mem ∧ t.cores = s.cores))

/-- Training of a fabric port: eight lanes at the highest rate at which eight or more pass, seven where seven pass,
224 Gb/s before 112 Gb/s, never a lane that REPAIR records as failed; with fewer the port is FAILED. -/
def Obligations.TrainingChoosesLanes : Prop :=
  ∀ (s : State) (n : FpId) (t : TrainResult), s.regsOk →
    let bad := s.badLanes n.val ||| s.fget (pFp n.val) F.FP_LANE_MAP_FAILED
    let good := fun (m : BitVec 9) => m.toNat - (m.toNat &&& bad)
    let cap := s.fget (pFp n.val) F.FP_LINK_CTRL_RATE_CAP
    let u := s.fpTrained n.val t
    (cap = 0 → 7 ≤ popcount (good t.pass224) →
      u.fpState n.val = 2 ∧ u.fget (pFp n.val) F.FP_LINK_STAT_RATE = 2
      ∧ u.fget (pFp n.val) F.FP_LINK_STAT_WIDTH = min 8 (popcount (good t.pass224)))
    ∧ ((cap = 1 ∨ popcount (good t.pass224) < 7) → 7 ≤ popcount (good t.pass112) →
      u.fpState n.val = 2 ∧ u.fget (pFp n.val) F.FP_LINK_STAT_RATE = 1
      ∧ u.fget (pFp n.val) F.FP_LINK_STAT_WIDTH = min 8 (popcount (good t.pass112)))
    ∧ ((cap = 1 ∨ popcount (good t.pass224) < 7) → popcount (good t.pass112) < 7 → u.fpState n.val = 4)
    ∧ (∀ l < 9, (u.fget (pFp n.val) F.FP_LANE_MAP_ACTIVE).testBit l = true → bad.testBit l = false)

/-- The commands of a host port: Configuration Request Retry Status before it is ready, BAR2 reads and writes,
poisoned TLPs, a Function Level Reset, and PERST_n. REGISTER_TIMEOUT of an access of a host port: it is not
performed, the port's page counts it, and an error answer and an AER message leave. -/
def Obligations.HostPortCommands : Prop :=
  (∀ (s : State) (p : HostPort), s.regsOk → s.hostOn p = true →
     (∀ w, s.powered = true → s.boot.resetLow = false → s.boot.perst.testBit (HostPort.ix p) = false →
       exec (.configRetry ⟨p, w⟩) s = .next (s.send
         (if s.boot.hostReady.testBit (HostPort.ix p) = true then .cfgData p (cfgWord w) else .crs p)))
     ∧ (s.loadLive (portRq p) = true → (∀ o len, exec (.bar2Read p o len) s = .next (s.send (.bar2Data p (some (s.bufferBytes o len)))))
       ∧ ∀ o data be, exec (.bar2Write p o data be) s = .next (s.bufferWrite o data be))
     ∧ (s.loadLive (portRq p) = false → s.rqLive (portRq p) = true →
       (∀ o len, exec (.bar2Read p o len) s
         = .next ({ s with bar2 := s.bar2 ++ [⟨s.nextB2, p, false, o, len, false, [], 0, false, []⟩] } : State).b2Settle)
       ∧ (∀ o data be, exec (.bar2Write p o data be) s
         = .next ((enabledRuns 0 data be).foldl (fun s' r => s'.b2Run s.nextB2 p (o + r.1) r.2)
             ({ s with bar2 := s.bar2 ++ [⟨s.nextB2, p, true, o, data.length, true, [], 0, false, []⟩] } : State)).b2Settle)
       ∧ exec (.poisonedTlp p) s = .next ((s.send (.aer p false)).finc (pHp p) F.HP_ERR_CNT1_B2_FAIL)
       ∧ ∃ t, exec (.flr p) s = .next t ∧ t.bar2.all (fun x => x.port != p) = true ∧ t.mem = s.mem
           ∧ t.reg (pHp p + 0x040) = s.reg (pHp p + 0x040))
     ∧ (s.pState ≠ 4 → s.live = true → ∃ t, exec (.perstAssert p) s = .next t ∧ t.boot.perst.testBit (HostPort.ix p) = true
         ∧ t.bar2.all (fun x => x.port != p) = true ∧ t.mem = s.mem)
     ∧ (s.boot.perst.testBit (HostPort.ix p) = true → ∃ t, exec (.perstRelease p) s = .next t
         ∧ t.boot.perst.testBit (HostPort.ix p) = false ∧ (s.pState = 3 → t.boot.wake = true)))
  ∧ (∀ (s : State) (p : HostPort) (a : Nat) (v : Word) (be : BitVec 4), s.regsOk → s.live = true → s.bar2 = [] →
     (∀ rq, exec (.registerTimeout (.rd ⟨rq, a⟩)) s = .next (s.accTmo (.regRead ⟨rq, a⟩) rq a false)
       ∧ exec (.registerTimeout (.wr ⟨rq, a, be, v⟩)) s = .next (s.accTmo (.regWrite ⟨rq, a, be, v⟩) rq a true))
     ∧ (∀ k : Arrival, toRegs k.pkt = true → s.consumes k.pkt = true →
       exec (.registerTimeout (.pkt k)) s = .next ((({ s with held := eraseFirst (fun x => x == HeldAcc.packet k) s.held } : State).captureTmo
         (k.pkt.off - regBase) .fabric (k.pkt.op == opWR)).respond k.pkt 9 0 []))
     ∧ (∃ t, exec (.registerTimeout (.rd ⟨portRq p, a⟩)) s = .next t
       ∧ t.out.drop (t.out.length - 2) = [.aer p true, .regData (portRq p) none] ∧ t.mem = s.mem ∧ t.cores = s.cores
       ∧ t.fget (pHp p) F.HP_ERR_CNT0_REG_TMO = sat 16 (s.fget (pHp p) F.HP_ERR_CNT0_REG_TMO + 1))
     ∧ (∃ t, exec (.registerTimeout (.wr ⟨portRq p, a, be, v⟩)) s = .next t
       ∧ t.out.drop (t.out.length - 2) = [.aer p true, .regData (portRq p) none] ∧ t.mem = s.mem ∧ t.cores = s.cores
       ∧ t.fget (pHp p) F.HP_ERR_CNT0_REG_TMO = sat 16 (s.fget (pHp p) F.HP_ERR_CNT0_REG_TMO + 1)))

/-- A BAR2 read of 32 aligned bytes of the local scratchpad answers the bytes that memory holds, and a BAR2 write of
them stores them; with no other access of the port under way, nothing held and no failed code word. -/
def Obligations.Bar2ReachesMemory : Prop :=
  ∀ (s : State) (p : HostPort) (o : Nat) (data : List Byte), s.loadLive (portRq p) = false → s.rqLive (portRq p) = true →
    s.memOk → s.bar2 = [] → s.b2Ogs p = false → o % 32 = 0 → s.b2Base p % 32 = 0 →
    s.mem.spClean = true →
    ∀ ph x, s.place (s.b2Base p % 2 ^ 44 + o) 32 = .sp ph x → s.endHeld (s.b2Base p % 2 ^ 44 + o) 32 = false →
    (∃ t, exec (.bar2Read p o 32) s = .next t ∧ t.out = s.out ++ [.bar2Data p (some (s.mem.read (spKey ph x) 32))]
      ∧ t.mem = s.mem ∧ t.regs = s.regs)
    ∧ (data.length = 32 → ∃ t, exec (.bar2Write p o data (List.replicate 32 true)) s = .next t
      ∧ t.mem.read (spKey ph x) 32 = data ∧ (∀ a, (a < spKey ph x ∨ spKey ph x + 32 ≤ a) → t.mem.byte a = s.mem.byte a)
      ∧ t.out = s.out ∧ t.regs = s.regs)

/-- Straps are sampled while MOD_RESET_N is low; the release latches the last three samples, or the safe defaults
where they differ or fail their sanity bits, and a full start runs; the RUN phase, the watchdog, HEARTBEAT and
the load-mode image. The MCTP commands: control answers once the start has completed, telemetry records, and
their completion codes. -/
def Obligations.StartAndTelemetry : Prop :=
  ((∀ (s : State) (pins : BitVec 12) (b : BootIn), s.boot.pwrOk = true → s.boot.resetLow = true → s.boot.waitSample = false →
     exec (.strapSample pins b) s = .next { s with boot := { s.boot with samples := (pins.toNat :: s.boot.samples).take 3 } })
   ∧ (∀ (s : State) (b : BootIn), s.boot.pwrOk = true → s.boot.resetLow = true → 3 ≤ s.boot.samples.length →
     exec (.modResetRelease b) s
       = .next ((({ s with boot := { s.boot with resetLow := false } } : State).setPhase 1).startFull b))
   ∧ (∀ x y z l, strapLatch (x :: y :: z :: l)
       = if x = y ∧ y = z ∧ nbits x 11 10 = 2 then (false, x) else (true, 0xB10))
   ∧ (∀ s : State, s.powered = true → s.boot.resetLow = false → s.fget pSumac F.SUMAC_PHASE_PHASE = 1 →
     exec .runPhase s = .next (s.setPhase 2))
   ∧ (∀ (s : State) (b : BootIn), s.powered = true → s.boot.resetLow = false → s.boot.waitSample = false →
     s.boot.loading = false → s.boot.fault = false → exec (.watchdog b) s = .next ((s.modReset true).start b false))
   ∧ (∀ s : State, s.powered = true → s.boot.resetLow = false → s.boot.fault = false →
     2 ≤ s.fget pSumac F.SUMAC_PHASE_PHASE → exec .heartbeat s
       = .next (({ s with boot := { s.boot with heartbeat := !s.boot.heartbeat } } : State).send (.pin 5 (!s.boot.heartbeat))))
   ∧ (∀ (s : State) (b : BootIn), s.boot.loading = true → s.powered = true → bit (s.reg (pMbx s.loadPort + 0x0C8)) 0 = true →
     let p := s.loadPort
     let d := s.setReg (pMbx p + 0x0C8) (setBits (s.reg (pMbx p + 0x0C8)) 0 0 0)
     let t := d.setReg (pMbx p + 0x0C0) (setBits (d.reg (pMbx p + 0x0C0)) 0 0 0)
     let img := s.bufferBytes 0 (min (s.reg (pMbx p + 0x040)).toNat 0x4000000)
     let why := t.imageReason img 1
     let src := if t.bootSrc = 3 then 3 else 2
     let u := (t.acceptImage img src).fset pCdm F.CDM_BOOT_STAT_LOAD_WAIT 0
     let v := ({ u with boot := { u.boot with loading := false, hostReady := 0, buffer := [] } } : State).stepDone 5 false src
     exec (.loadModeImage b) s = .next
       (if why ≠ 0 then (t.regWrite .firmware (pMbx p + 0x080) 0xF (BitVec.ofNat 32 why)).1
        else runSteps b ((bootSteps b (v.fget pCdm F.CDM_BOOT_STAT_RESUME == 1)).filter fun x => 6 ≤ x.1) v)
     ∧ (why ≠ 0 → ∃ w, exec (.loadModeImage b) s = .next w ∧ w.boot.loading = true ∧ w.sec = s.sec)))
  ∧ (∀ s : State, s.mctpLive = true →
     (∀ inst op eid, exec (.setEndpointId inst op eid) s
       = .next (if 2 ≤ op.val ∨ eid = 0 ∨ eid = 255 then s.mctpAnswer inst 1 2 []
           else ({ s with mctp := ⟨eid.toNat⟩ } : State).mctpAnswer inst 1 0 [0, eid, 0]))
     ∧ (∀ inst, exec (.getEndpointId inst) s = .next (s.mctpAnswer inst 2 0 [BitVec.ofNat 8 s.mctp.eid, 0, 0]))
     ∧ (∀ inst type, ∃ v n, exec (.getMctpVersionSupport inst type) s = .next
         (if type = 0xFF ∨ type = 0 ∨ type = 0x7F then ({ s with freeCtr := s.freeCtr + n } : State).mctpAnswer inst 4 0 (1 :: v)
           else s.mctpAnswer inst 4 0x80 []))
     ∧ (∀ inst, exec (.getMessageTypeSupport inst) s = .next (s.mctpAnswer inst 5 0 [1, 0x7F]))
     ∧ (∀ inst sel, ∃ v n, exec (.getVendorDefinedMsgSupport inst sel) s = .next
         (if sel ≠ 0 then s.mctpAnswer inst 6 2 []
           else ({ s with freeCtr := s.freeCtr + n } : State).mctpAnswer inst 6 0 ([0xFF, 0] ++ beBytes 2 Config.vendorId.toNat ++ v)))
     ∧ (s.boot.pwrOk = true → s.boot.resetLow = false →
       (∃ r, r.length = 16 ∧ exec (.mctpStatus 1) s = .next (s.telemetry 1 0 r))
       ∧ (∀ cmd : Byte, cmd = 0 ∨ 5 < cmd.toNat → exec (.mctpStatus cmd) s = .next (s.telemetry cmd.toNat 1 []))
       ∧ (∃ r, r.length = 16 ∧ exec .mctpPower s = .next (s.telemetry 2 0 r))
       ∧ (∃ r, r.length = 16 ∧ exec .mctpThermal s = .next (s.telemetry 3 0 r))
       ∧ (∃ r, r.length = 16 ∧ exec .mctpHealth s = .next (s.telemetry 4 0 r))
       ∧ (∀ (i : BitVec 16) (sect : Byte), 3 ≤ sect.toNat → exec (.mctpLog i sect) s = .next (s.telemetry 5 3 []))
       ∧ (∀ (i : BitVec 16) (sect : Byte) (bs : List Byte), i.toNat < (match sect.toNat with | 0 => 8192 | 1 => 2048 | 2 => 512 | _ => 0) →
           s.logEntryAt sect.toNat i.toNat = some bs → exec (.mctpLog i sect) s = .next (s.telemetry 5 0 bs)))
     ∧ exec .smbusTimeout s = .next s)

/-- RD, WR and SIG at their target: a request that the module consumes and takes is held, or performed and answered
with its status and data. PACKET_FORWARD sends on what the module does not consume, and counts and discards a
reserved OP. What a target turns away: everything but register accesses when ACCEPT is 0, class C2 when C2_DEPTH
is 0, a C2 request with a NAK when its queue is full, and C3 when its queue is full; a request of class C0 or C1
stays in the fabric when its queue is full. A hold leaves its requests in the queue. -/
def Obligations.FabricTarget : Prop :=
  (∀ (s : State) (a : Arrival),
     (s.consumes a.pkt = true → s.turnAway a = none →
       let held : State := { s with held := s.held ++ [.packet a] }
       (a.pkt.op = opRD → exec (.rd a) s = .next (if s.packetHeld a.pkt = true then held
         else (s.serveRd a.pkt).st.respond a.pkt (s.serveRd a.pkt).status (s.serveRd a.pkt).detail (s.serveRd a.pkt).data))
       ∧ (a.pkt.op = opWR → exec (.wr a) s = .next (if s.packetHeld a.pkt = true then held
         else (s.serveWr a.pkt).st.respond a.pkt (s.serveWr a.pkt).status (s.serveWr a.pkt).detail (s.serveWr a.pkt).data).settle)
       ∧ (a.pkt.op = opSIG → exec (.sig a) s = .next (if s.packetHeld a.pkt = true then held
         else (s.serveSig a.pkt).st.respond a.pkt (s.serveSig a.pkt).status (s.serveSig a.pkt).detail (s.serveSig a.pkt).data)))
     ∧ (a.pkt.op ∉ [1, 2, 3, 4, 8, 9] → exec (.packetForward a) s = .next (s.finc (pFp a.port.val) F.FP_LINK_CNT0_CRC_ERR))
     ∧ (s.consumes a.pkt = false → 1 ≤ a.pkt.op → a.pkt.op ≤ 4 →
       (s.egress a.pkt.dst = none → exec (.packetForward a) s = .next (s.respond a.pkt 4 0x40 []))
       ∧ (∀ port, s.egress a.pkt.dst = some port →
         exec (.packetForward a) s = .next (if a.pkt.hops + 1 ≤ s.fget pOgs F.OGS_CFG_HOP_MAX then s.toPort port a.pkt.hop
           else s.respond a.pkt 4 0x41 []))))
  ∧ (∀ (s : State) (a : Arrival), s.consumes a.pkt = true →
     let p := a.pkt
     (s.fget pOgs F.OGS_CFG_ACCEPT = 0 → toRegs p = false →
       (p.op = opRD → exec (.rd a) s = .next (s.respond p 4 0x46 []))
       ∧ (p.op = opSIG → exec (.sig a) s = .next (s.respond p 4 0x46 [])))
     ∧ (s.fget pOgs F.OGS_CFG_ACCEPT = 1 → p.op = opRD →
       (p.cls = 2 → s.fget pOgs F.OGS_CFG_C2_DEPTH = 0 → exec (.rd a) s = .next (s.respond p 4 0x44 []))
       ∧ (p.cls = 2 → s.fget pOgs F.OGS_CFG_C2_DEPTH ≠ 0 → 2048 ≤ s.queuedAt a →
         exec (.rd a) s = .next (s.sendAnswer (answer opNAK p s.lid 0 (min (s.queuedAt a) 65535) false [])))
       ∧ (p.cls = 3 → 512 ≤ s.queuedAt a → exec (.rd a) s = .next (s.respond p 4 0x45 []))
       ∧ ((p.cls = 0 ∧ 256 ≤ s.queuedAt a) ∨ (p.cls = 1 ∧ 4096 ≤ s.queuedAt a) → exec (.rd a) s = .next s)))

/-- At the source: RSP and NAK match an entry by TAG, modules and generation; a NAKed request is sent again; a free
entry goes to the oldest request that waits; requests end by timeout. An answer without an entry is counted. -/
def Obligations.FabricSource : Prop :=
  ∀ s : State,
    (∀ (a : Arrival) (gen : Fin 16), a.pkt.op = opRSP →
      (∀ r, s.matchReq a.pkt gen.val = some r → exec (.rsp a gen) s
        = .next (s.endReq r (tableStatus a.pkt.status) a.pkt.detail a.pkt.degraded (if a.pkt.status = 0 then a.pkt.payload else [])).settle)
      ∧ (s.matchReq a.pkt gen.val = none → s.consumes a.pkt = true →
        exec (.rsp a gen) s = .next (s.finc pOgs F.OGS_ADM_CNT2_LATE_RSP).settle))
    ∧ (∀ (a : Arrival) (gen : Fin 16) (r : Req), a.pkt.op = opNAK → s.matchReq a.pkt gen.val = some r → r.cls = 2 →
      let u := if r.delayed = true then s else s.finc pOgs F.OGS_ADM_CNT0_C2_HELD
      exec (.fabNak a gen) s = .next (u.modReq r fun r => { r with phase := .naked a.pkt.detail, delayed := true }).settle)
    ∧ (∀ (tag : Fin 262144) (r : Req) (port : Nat),
      (s.fab.reqs.find? fun r => r.tag == tag.val && (match r.phase with | .naked _ => true | _ => false)) = some r →
      s.fget pOgs F.OGS_CFG_EN ≠ 0 → s.egress r.dst = some port → 1 ≤ s.fget pOgs F.OGS_CFG_HOP_MAX →
      exec (.c2Resend tag) s = .next ((s.modReq r fun r => { r with phase := .resent (match r.phase with | .naked d => d | _ => 0) }).toPort port
        (reqPacket r.op r.cls r.len r.tag r.src r.dst r.off r.txn r.data).hop).settle)
    ∧ (∀ (cls : Fin 4) (r : Req), (s.fab.reqs.find? fun r => r.cls == cls.val && !r.holds) = some r →
      s.inUse cls.val < classEntries cls.val →
      let u := (s.dropReq fun x => x == r).grant r
      exec (.trackerAdmit cls) s = .next (match u.2 with | none => u.1 | some f => u.1.reqEnd r f.1 f.2 false []).settle)
    ∧ (∀ (tag : Fin 262144) (r : Req), s.fget pOgs ⟨0x05C, 23, 0⟩ ≠ 0 →
      (s.fab.reqs.find? fun r => r.tag == tag.val && (match r.phase with | .admitted | .resent _ => true | _ => false)) = some r →
      exec (.requestTimeout tag) s = .next ((s.finc pOgs F.OGS_ADM_CNT2_TIMEOUTS).endReq r 9 0 false []).settle)
    ∧ (∀ (k : Nat) (r : Req), s.heldC2[k]? = some r →
      let ended := fun hint => ((s.draw.2.finc pOgs F.OGS_ADM_CNT1_C2_RETRY).endReq r 3 hint false []).settle
      (r.phase = .waiting → exec (.c2Timeout k) s
        = .next (ended (min ((s.fab.reqs.takeWhile fun x => x != r).filter fun x => x.cls == 2 && !x.holds).length 32767)))
      ∧ (∀ d, r.phase = .naked d ∨ r.phase = .resent d → exec (.c2Timeout k) s = .next (ended (32768 + min d 32767)))
      ∧ (r.phase = .admitted → ∃ hint, exec (.c2Timeout k) s = .next (ended hint)))

/-- A COLL of each OP at the head of a ring issues under R363 to R365. The messages of collectives, delivered to a
core of this module: what each of them does there. The timeouts of collectives, at the COLL that runs on a core. -/
def Obligations.CollectiveCommands : Prop :=
  (∀ (s : State) (n : CoreId) (ph : Nat) (f : Fetched), s.phys n.val = some ph → s.heads ph f tCOLL →
     ∀ r ∈ [(Instr.barrier n, 0), (.allreduce n, 1), (.reduceScatter n, 2), (.allgather n, 3), (.broadcast n, 4), (.alltoall n, 5)],
       (collD f.words).op = r.2 → exec r.1 s = .next (s.collIssue ph f).collSettle.settle)
  ∧ (∀ (s : State) (x : CollIn) (m : CollMsg) (u : State) (p : Option Packet), s.collTaken x = some (m, u, p) →
     (∀ sig q ph, m.body = .enter sig q → s.phys m.core = some ph →
       exec (.enter x) s = .next ((u.collEnter ph m.core ⟨sig, q⟩).collAfter p))
     ∧ (∀ i ps, m.body = .start i ps → exec (.collStart x) s = .next ((u.collStart m i ps).collAfter p))
     ∧ (∀ ws fx, m.body = .pre ws fx → exec (.pre x) s = .next ((u.collPre m ws fx).collAfter p))
     ∧ (∀ fx, m.body = .go fx → exec (.go x) s = .next ((u.collGo m fx).collAfter p))
     ∧ (m.body = .chunk → exec (.chunkMsg x) s = .next ((u.collChunk m).collAfter p))
     ∧ (m.body = .free → exec (.collFree x) s = .next ((u.collFreed m).collAfter p))
     ∧ (∀ st c, m.body = .report st c → exec (.report x) s = .next ((u.collReported m st c).collAfter p))
     ∧ (m.body = .stop → exec (.stop x) s = .next ((u.collStop m).collAfter p))
     ∧ (∀ st bm f r, m.body = .verdict st bm f r →
       exec (.verdict x) s = .next ((u.collVerdictAt m ⟨st, bm, f, r⟩).collAfter p))
     ∧ (m.body = .excluded → exec (.excluded x) s = .next ((u.collExcluded m).collAfter p)))
  ∧ (∀ (s : State) (n : CoreId) (ph : Nat) (e : Infl) (c : CollSt), s.phys n.val = some ph → s.collHead ph = some (e, c) →
     (s.entryOpen ph true = true → exec (.entryDeadline n) s = .next (s.collClose ph).collSettle.settle)
     ∧ (s.entryOpen ph false = true → exec (.entryTimeout n) s = .next (s.collClose ph).collSettle.settle)
     ∧ (c.phase = .entered → (∀ l, c.lead = some l → l.closed = false) → c.verdict = none → exec (.startTimeout n) s
         = .next (s.collEnd ph e c ⟨match c.fail with | some f => f.1 | none => 9, 0, 0, 0⟩ 0).collSettle.settle)
     ∧ (c.phase = .data → c.arrived = [] → (c.taken.foldl (fun n t => n + t.2) 0) < c.due (collD e.words) → c.reported = false →
       exec (.chunkTimeout n) s = .next (s.collFail ph 9 0).collSettle.settle)
     ∧ (∀ l, c.lead = some l →
       (l.stopSent = true → l.verdict = none → exec (.stopTimeout n) s
         = .next (s.modLead ph fun l => { l with stopOver := true }).collSettle.settle)
       ∧ (let lost := (l.excluded.filter fun r => !l.served.contains r).length
         lost ≠ 0 → l.lateOver = false → exec (.lateTimeout n) s = .next (((s.modLead ph fun l => { l with lateOver := true }).finc
           pColl F.COLL_CNT1_LATE_LOST lost).event pColl F.COLL_PG_EVT_LATE_LOST).collSettle.settle)))

/-- A ZWK descriptor of each OP at the head of a ring issues: refused with the lowest reason of its checks, of which
0x70 takes in the stream's header, or in flight, where a SEND, SNAP_SEND or CATCHUP copies its stream. A DATA or
PARITY parcel, from a site port or the fabric: one for another site or module goes on, one for this module is
opened with its pair's key under either egress port, and kept when it authenticates. FRAME_DROP counts a frame
that an UP port does not accept. CTRL parcels for this module that authenticate and spell their message: what
each does at its receiver. A message between conveners acts at a convener alone, and once. The timers of streams
and of conveners, and messages between a module and its convener. -/
def Obligations.ZwikaiCommands : Prop :=
  (∀ (s : State) (n : CoreId) (ph : Nat) (f : Fetched), s.phys n.val = some ph → s.heads ph f tZWK →
     let d := zwkD f.words
     let chk := s.zwkCheck ph n.val d
     let g := s.locRead ph d.buf d.bytes
     (∀ r ∈ [(Instr.zwkSend n, 0), (.zwkCollect n, 1), (.zwkSnapSend n, 2), (.zwkSnapRecv n, 3), (.zwkCatchup n, 4)], d.op = r.2 →
       (chk = some 0x70 → exec r.1 s = .next (s.issueDone ph f (Rec.refused 0x70)).convSettle)
       ∧ (d.sends = false → (∀ c, chk = some c → exec r.1 s = .next (s.issueDone ph f (Rec.refused c)).convSettle)
         ∧ (chk = none → exec r.1 s = .next (s.issue ph f .queued).zwkAll.convSettle))
       ∧ (d.sends = true → chk ≠ some 0x70 →
         (g.status = 0 → field g.data 8 4 ≠ d.bytes → exec r.1 s = .next (g.st.issueDone ph f (Rec.refused 0x70)).convSettle)
         ∧ (∀ c, chk = some c → (g.status ≠ 0 ∨ field g.data 8 4 = d.bytes) →
           exec r.1 s = .next (g.st.issueDone ph f (Rec.refused c)).convSettle)
         ∧ (chk = none → g.status ≠ 0 → exec r.1 s = .next (g.st.issueDone ph f (Rec.ofOutcome g.status)).convSettle)
         ∧ (chk = none → g.status = 0 → field g.data 8 4 = d.bytes →
           let x : StreamOut := ⟨n.val, ph, f.idx, if d.op = 0 then 0 else if d.op = 4 then 1 else 2, d.round, false, g.data,
             max 1 (g.st.fget pZwk F.ZWK_RS_K), g.st.fget pZwk F.ZWK_RS_M, g.st.zTargets d, [], none⟩
           let u := g.st.setZwk fun z => { z with
             outs := z.outs ++ [x], lastSend := if d.op = 0 then Tab.set 0 n.val (d.round + 1) z.lastSend else z.lastSend }
           exec r.1 s = .next
             ((if d.op = 0 ∧ u.committed d.round = true then u.lateHere d.round else u).issue ph f .queued).zwkAll.convSettle))))
  ∧ ((∀ (s : State) (n : SiteId) (bs : List Byte), s.fget (pSite n) F.SITE_LINK_STAT_STATE = 2 →
     frameIn (s.siteMac n) (s.fget (pSite n) F.SITE_IPCFG_UDP_PORT) bs = none →
     exec (.frameDrop ⟨n, bs⟩) s
       = .next (s.setReg (pSite n + 0x064) (BitVec.ofNat 32 (sat 32 ((s.reg (pSite n + 0x064)).toNat + 1)))))
   ∧ (∀ (s u : State) (p : ParcelIn) (bs : List Byte) (x : Parcel), s.receive p = (u, some bs) → parcelOf bs = some x →
     ∀ i ∈ [Instr.dataParcel p, .parityParcel p], ¬(x.hdr.dst = u.siteId ∧ x.hdr.lid = u.lid) →
       exec i s = .next (u.onward p x).convSettle)
   ∧ (∀ (s t : State) (p : ParcelIn) (x : Parcel), s.arriveParcel p = (t, some x) →
     ∀ r ∈ [(Instr.dataParcel p, 1), (.parityParcel p, 2)], x.hdr.kind = r.2 →
       (∀ v, t.parcelKey x.hdr = (v, none) → exec r.1 s = .next v.convSettle)
       ∧ (∀ v n w k c, t.parcelKey x.hdr = (v, some n) → v.invoke n = (w, some (k, c)) →
         let try_ := fun (port : Nat) =>
           gcmOpen k.key (parcelIv x.hdr.src x.hdr.lid x.hdr.route port x.hdr.ctr) x.head x.cipher x.tag
         exec r.1 s = .next
           (if (try_ 0).2 = true then ((w.parcelGood x.hdr n).putParcel x.hdr (try_ 0).1).streamStep x.hdr
            else if (try_ 1).2 = true then ((w.parcelGood x.hdr n).putParcel x.hdr (try_ 1).1).streamStep x.hdr
            else w.parcelBad x.hdr).convSettle)))
  ∧ (∀ (s : State) (p : CtrlIn) (u : State) (h : ParcelHdr), s.ctrlTaken p = some (u, h) →
     (∀ g m, p.body = .nak g m → exec (.zwkNak p) s = .next (u.nak h g m).convSettle)
     ∧ (p.body = .complete → exec (.complete p) s = .next (u.report h (some [])).convSettle)
     ∧ (∀ r, p.body = .missing r → exec (.missing p) s = .next (u.report h r).convSettle)
     ∧ (∀ r, p.body = .final r → exec (.finalMsg p) s = .next (u.finalIn h r).convSettle)
     ∧ (p.body = .ping → exec (.ping p) s = .next u.convSettle)
     ∧ (u.isConvener = false ∨ u.isCopy h p.body = true →
       ∀ i ∈ [Instr.haveMsg p, .zwkDecide p, .dack p, .zwkCommit p, .beat p, .newepoch p, .ledger p, .zwkJoin p, .ready p],
         exec i s = .next u.convSettle ∨ exec i s = .next s)
     ∧ (u.isConvener = true → u.isCopy h p.body = false → let v := u.noteCopy h p.body
       (∀ r held jump, p.body = .have_ r held jump →
         exec (.haveMsg p) s = .next (v.setConv fun c => c.have_ h.src held jump).convSettle)
       ∧ (∀ d, p.body = .decide_ d → d.decider = h.src → v.fits d = true → exec (.zwkDecide p) s
         = .next ((v.setConv fun c => { c with
             held := (c.held.filter fun x => !(x.round == d.round && x.kind == d.kind)) ++ [d] }).dack d).convSettle)
       ∧ (∀ r d, p.body = .dack r → v.zwk.conv.draft = some d → d.round = r → exec (.dack p) s
         = .next (v.setConv fun c => { c with dacks := addNew h.src c.dacks }).convSettle)
       ∧ (∀ r d, p.body = .commit r → (v.zwk.conv.held.find? fun d => d.round == r && v.fits d && d.decider == h.src) = some d →
         exec (.zwkCommit p) s = .next (v.convCommit d).convSettle)
       ∧ (∀ e m st r f, p.body = .beat e m st r f →
         let w := v.setConv fun c => { c with beats := c.beats.filter (fun x => x.site != h.src) ++ [⟨h.src, e, m, st, r, f⟩] }
         (w.zState ≤ 1 ∨ (w.zState = 2 ∧ ¬(st = 3 ∧ e = w.zEpoch ∧ m = w.zMembers)) → exec (.beat p) s = .next w.convSettle)
         ∧ (w.zState = 2 → st = 3 → e = w.zEpoch → m = w.zMembers →
           (h.src = lowest w.zMembers ∨ (w.isDecider = true ∧ w.otherSide.isSome = true)) →
           exec (.beat p) s = .next (v.takeBeat ⟨h.src, e, m, st, r, f⟩).convSettle)
         ∧ (w.zState = 3 → w.otherMembers = w.zwk.other → exec (.beat p) s
           = .next (if m ≠ w.zMembers ∧ w.isDecider = false then w.fixup f else w).convSettle))
       ∧ (∀ e m base, p.body = .newEpoch e m base →
         (m.testBit v.siteId = true → ¬(v.zEpoch = e ∧ v.zMembers = m) → v.zState ≠ 3 →
           (v.zState = 0 ∨ h.src = lowest v.zMembers ∨ h.src = lowest m) →
           exec (.newepoch p) s = .next (v.adoptEpoch e m base).convSettle)
         ∧ (m.testBit v.siteId = false ∨ v.zState = 3 → exec (.newepoch p) s = .next v.convSettle))
       ∧ (∀ f r n, p.body = .ledger f r n → v.isDecider = true →
         (v.zState = 3 → exec (.ledger p) s = .next ((v.setConv fun c => { c with ledger := some (h.src, f, r, n) }).fixup f).convSettle)
         ∧ (v.zState = 2 →
           exec (.ledger p) s = .next ((v.enterRejoin.setConv fun c => { c with ledger := some (h.src, f, r, n) }).fixup f).convSettle))
       ∧ (∀ x, p.body = .join x →
         (v.isDecider = false → exec (.zwkJoin p) s = .next (v.toDecider v.zRound (.join x)).convSettle)
         ∧ (v.isDecider = true → v.zState ≠ 1 → exec (.zwkJoin p) s
           = .next (v.sendConv x v.zRound (.beat v.zEpoch v.zMembers v.zState v.zRound v.zFork)).convSettle)
         ∧ (v.isDecider = true → v.zState = 1 → v.zMembers.testBit x = false → v.zwk.conv.observers.testBit x = false →
           exec (.zwkJoin p) s
             = .next (v.setConv fun c => { c with observers := c.observers ||| 2 ^ (x % 16), joinAfter := v.zNext }).convSettle))
       ∧ (∀ x r, p.body = .ready x r →
         (v.isDecider = false → exec (.ready p) s = .next (v.toDecider r (.ready x r)).convSettle)
         ∧ (v.isDecider = true → v.zState = 1 → v.zwk.conv.observers.testBit x = true → r = v.zRound → v.zwk.conv.draft = none →
           exec (.ready p) s = .next (v.newEpoch (v.zMembers ||| 2 ^ (x % 16))).convSettle))))
  ∧ (∀ s : State,
     (∀ (site : Fin 16) (core : CoreId) (k : Fin 4) (round group : Nat) (x : StreamIn) (g : GroupIn), s.zOn = true →
       s.streamIn site core k round = some x →
       ((x.groups.find? fun y => y.group == group) = some g → g.data = none → g.parcels ≠ [] →
         (∀ r, x.final = some r → x.excused r group = false) →
         exec (.nakTimeout site core k round group) s = .next (s.sendPeer site core round k
           (.nak group (((List.range (min 48 (g.k + g.m))).filter fun t => !(g.parcels.any fun p => p.1 == t)).foldl
             (fun a t => a + 2 ^ t) 0))))
       ∧ (x.told = false → x.whole = false → exec (.missingTime site core k round) s
         = .next ((s.modIn site core k round fun y => { y with told := k.val != 2 }).sendPeer site core round k
           (.missing (capRanges x.missing)))))
     ∧ (∀ (n : CoreId) (ph : Nat) (x : StreamOut), s.phys n.val = some ph →
       (s.zwk.outs.find? fun x => x.phys == ph && x.skind != 2 && x.started && x.final.isNone && (s.infl ph x.idx).isSome) = some x →
       exec (.finalTime n) s = .next (s.finishSend x).zwkAll.convSettle)
     ∧ (∀ (n : CoreId) (ph : Nat) (e : Infl) (es : List Infl), s.phys n.val = some ph → s.queue ph tZWK = e :: es →
       ((zwkD e.words).op = 2 ∨ (zwkD e.words).op = 3) → e.prog ≠ .queued →
       let u := s.setZwk fun z => { z with outs := z.outs.filter fun x => !(x.phys == ph && x.idx == e.idx && x.skind == 2) }
       exec (.snapTimeout n) s = .next ((u.complete ph e (Rec.of 9)).zwkAll).convSettle)
     ∧ (s.zOn = true → (s.isConvener = true ∨ s.exCores ≠ []) → exec .pingTimer s
         = .next ((List.range 16).foldl (fun t x => if x = t.siteId then t else
           (t.validRoutes x).foldl (fun t r => t.sendCtrl1 x r 0 t.zRound 3 .ping) t) s))
     ∧ (s.zOn = true → s.isConvener = true →
       (s.zState ≠ 0 → exec .haveTime s = .next (s.sendHave s.haveNext.1).convSettle)
       ∧ ((s.zState = 1 ∨ s.zState = 2) → s.roundOpen = true → exec .roundClose s = .next s.closeRound.convSettle)
       ∧ (∀ d, s.zwk.conv.draft = some d → exec .zwkDecideResend s
         = .next ((sitesOf d.members).foldl (fun t x => if x = t.siteId ∨ t.zwk.conv.dacks.contains x = true then t
             else t.sendConv x d.round (.decide_ d)) s))
       ∧ exec .beatTimer s
         = .next (s.sendSites s.zEnrolled s.zRound (.beat s.zEpoch s.zMembers s.zState s.zRound s.zFork))
       ∧ (∀ site : Fin 16, site.val ≠ s.siteId → s.zEnrolled.testBit site = true → s.zState ≠ 0 →
         exec (.unreachable site) s = .next (s.lose site).convSettle)
       ∧ (∀ site : Fin 16, s.zState = 2 → s.zEnrolled.testBit site = true → s.zMembers.testBit site = false →
         (s.zwk.conv.beats.any fun b => b.site == site) = true → exec (.rejoinHold site) s
           = .next (if s.isDecider = true then s.enterRejoin.convSettle
               else s.toDecider s.zRound (.beat s.zEpoch s.zMembers 3 s.zRound s.zFork)))
       ∧ (s.zState = 3 → exec .rejoinTimeout s = .next (if s.isDecider = true then s.newEpoch s.zMembers
           else s.adoptEpoch ((s.zEpoch + 1) % 65536) s.zMembers s.zRound).convSettle)
       ∧ (s.zState = 0 → s.fget pZwk F.ZWK_CFG_JOIN = 1 →
         (s.zwk.conv.readyFor = none → exec .joinRetry s = .next s.sendJoin)
         ∧ (∀ r, s.zwk.conv.readyFor = some r → exec .joinRetry s = .next (s.sendJoin.sendReady r))))
     ∧ (∀ m : ConvIn, m.pkt.op = opMSG → m.pkt.cls = 0 → s.consumes m.pkt = true → leNat (m.pkt.payload.take 4) / 2 ^ 28 = 0xA →
       s.turnAway ⟨0, m.pkt, 0⟩ = none →
       let u := s.respond m.pkt 0 0 []
       u.zOn = true →
       (u.isConvener = true → exec (.convenerMsg m) s = .next (u.setConv fun c => c.note m.pkt.src m.body).convSettle)
       ∧ (u.isConvener = false → m.pkt.src = u.fget pZwk F.ZWK_CFG_CONVENER →
         (∀ d, m.body = .commit d → exec (.convenerMsg m) s = .next (u.commitHere d))
         ∧ (∀ e mm en st f o, m.body = .epoch e mm en st f o → exec (.convenerMsg m) s
           = .next ((u.setZwk fun z => { z with other := o }).setEpoch e mm en st f).zwkAll)
         ∧ (∀ r, m.body = .late r → exec (.convenerMsg m) s = .next (u.lateHere r)))))

/-- A CTR that a window has accepted is a replay from then on, and so is every CTR that was one; other windows keep
theirs; and a CTR above every CTR of its window is none. -/
def Obligations.ReplaysAreSeen : Prop :=
  ∀ (s : State) (lid route slot ctr : Nat),
    (s.windowAccept lid route slot ctr).replayed lid route slot ctr = true
    ∧ (∀ c, s.replayed lid route slot c = true → (s.windowAccept lid route slot ctr).replayed lid route slot c = true)
    ∧ (∀ l r n c, (l, r, n) ≠ (lid, route, slot) →
        (s.windowAccept lid route slot ctr).replayed l r n c = s.replayed l r n c)
    ∧ ((∀ w ∈ s.zwk.windows, w.lid = lid → w.route = route → w.slot = slot → w.high < ctr ∧ ∀ c ∈ w.seen, c < ctr) →
        s.replayed lid route slot ctr = false)

/-- The decision that a decider forms includes only contributions that every member's HAVE has shown, each of a
member and of one of the last S + 1 rounds, at most 32 of them, and drops none that it includes. -/
def Obligations.DecisionsAreBacked : Prop :=
  ∀ (s : State) (r : Nat),
    let d := (s.formDecision r).1
    d.contribs.length ≤ 32 ∧ d.drops.length ≤ 8 ∧ d.members = s.zMembers ∧ d.epoch = s.zEpoch
    ∧ (∀ c ∈ d.contribs, c.site ∈ sitesOf s.zMembers ∧ c.tau ≤ s.zS ∧ c.tau ≤ r ∧ c.round = r - c.tau
        ∧ c.weight = s.staleWeight c.tau ∧ (c.round, c.site) ∉ s.zwk.conv.done
        ∧ ∀ y ∈ sitesOf s.zMembers, (s.zwk.conv.shown y c.round).testBit c.site = true)
    ∧ (∀ x ∈ d.drops, x.1 = r - s.zS ∧ ∀ c ∈ d.contribs, (c.round, c.site) ≠ x)

end Statements
end

