-- ==== Sys2Proof/Laws/State.lean ====
section
/-! SUPPORT. What each named update of the state leaves unchanged, field by field, and what a table holds after an entry
is set. -/

namespace Sys2Proof.Machine

variable (s : State)

/-! ### State.setReg -/

@[simp] theorem State.setReg_mem (a : Nat) (w : Word) : (s.setReg a w).mem = s.mem := rfl
@[simp] theorem State.setReg_shadows (a : Nat) (w : Word) : (s.setReg a w).shadows = s.shadows := rfl
@[simp] theorem State.setReg_latches (a : Nat) (w : Word) : (s.setReg a w).latches = s.latches := rfl
@[simp] theorem State.setReg_idxAddr (a : Nat) (w : Word) : (s.setReg a w).idxAddr = s.idxAddr := rfl
@[simp] theorem State.setReg_cores (a : Nat) (w : Word) : (s.setReg a w).cores = s.cores := rfl
@[simp] theorem State.setReg_fab (a : Nat) (w : Word) : (s.setReg a w).fab = s.fab := rfl
@[simp] theorem State.setReg_units (a : Nat) (w : Word) : (s.setReg a w).units = s.units := rfl
@[simp] theorem State.setReg_hbm (a : Nat) (w : Word) : (s.setReg a w).hbm = s.hbm := rfl
@[simp] theorem State.setReg_logs (a : Nat) (w : Word) : (s.setReg a w).logs = s.logs := rfl
@[simp] theorem State.setReg_wear (a : Nat) (w : Word) : (s.setReg a w).wear = s.wear := rfl
@[simp] theorem State.setReg_slots (a : Nat) (w : Word) : (s.setReg a w).slots = s.slots := rfl
@[simp] theorem State.setReg_coll (a : Nat) (w : Word) : (s.setReg a w).coll = s.coll := rfl
@[simp] theorem State.setReg_zwk (a : Nat) (w : Word) : (s.setReg a w).zwk = s.zwk := rfl
@[simp] theorem State.setReg_held (a : Nat) (w : Word) : (s.setReg a w).held = s.held := rfl
@[simp] theorem State.setReg_rpb (a : Nat) (w : Word) : (s.setReg a w).rpb = s.rpb := rfl
@[simp] theorem State.setReg_sec (a : Nat) (w : Word) : (s.setReg a w).sec = s.sec := rfl
@[simp] theorem State.setReg_pwr (a : Nat) (w : Word) : (s.setReg a w).pwr = s.pwr := rfl
@[simp] theorem State.setReg_time (a : Nat) (w : Word) : (s.setReg a w).time = s.time := rfl
@[simp] theorem State.setReg_boot (a : Nat) (w : Word) : (s.setReg a w).boot = s.boot := rfl
@[simp] theorem State.setReg_mctp (a : Nat) (w : Word) : (s.setReg a w).mctp = s.mctp := rfl
@[simp] theorem State.setReg_bar2 (a : Nat) (w : Word) : (s.setReg a w).bar2 = s.bar2 := rfl
@[simp] theorem State.setReg_out (a : Nat) (w : Word) : (s.setReg a w).out = s.out := rfl
@[simp] theorem State.setReg_freeCtr (a : Nat) (w : Word) : (s.setReg a w).freeCtr = s.freeCtr := rfl
@[simp] theorem State.setReg_pending (a : Nat) (w : Word) : (s.setReg a w).pending = s.pending := rfl

/-! ### State.fset -/

@[simp] theorem State.fset_mem (p : Nat) (f : FRef) (v : Nat) : (s.fset p f v).mem = s.mem := rfl
@[simp] theorem State.fset_shadows (p : Nat) (f : FRef) (v : Nat) : (s.fset p f v).shadows = s.shadows := rfl
@[simp] theorem State.fset_latches (p : Nat) (f : FRef) (v : Nat) : (s.fset p f v).latches = s.latches := rfl
@[simp] theorem State.fset_idxAddr (p : Nat) (f : FRef) (v : Nat) : (s.fset p f v).idxAddr = s.idxAddr := rfl
@[simp] theorem State.fset_cores (p : Nat) (f : FRef) (v : Nat) : (s.fset p f v).cores = s.cores := rfl
@[simp] theorem State.fset_fab (p : Nat) (f : FRef) (v : Nat) : (s.fset p f v).fab = s.fab := rfl
@[simp] theorem State.fset_units (p : Nat) (f : FRef) (v : Nat) : (s.fset p f v).units = s.units := rfl
@[simp] theorem State.fset_hbm (p : Nat) (f : FRef) (v : Nat) : (s.fset p f v).hbm = s.hbm := rfl
@[simp] theorem State.fset_logs (p : Nat) (f : FRef) (v : Nat) : (s.fset p f v).logs = s.logs := rfl
@[simp] theorem State.fset_wear (p : Nat) (f : FRef) (v : Nat) : (s.fset p f v).wear = s.wear := rfl
@[simp] theorem State.fset_slots (p : Nat) (f : FRef) (v : Nat) : (s.fset p f v).slots = s.slots := rfl
@[simp] theorem State.fset_coll (p : Nat) (f : FRef) (v : Nat) : (s.fset p f v).coll = s.coll := rfl
@[simp] theorem State.fset_zwk (p : Nat) (f : FRef) (v : Nat) : (s.fset p f v).zwk = s.zwk := rfl
@[simp] theorem State.fset_held (p : Nat) (f : FRef) (v : Nat) : (s.fset p f v).held = s.held := rfl
@[simp] theorem State.fset_rpb (p : Nat) (f : FRef) (v : Nat) : (s.fset p f v).rpb = s.rpb := rfl
@[simp] theorem State.fset_sec (p : Nat) (f : FRef) (v : Nat) : (s.fset p f v).sec = s.sec := rfl
@[simp] theorem State.fset_pwr (p : Nat) (f : FRef) (v : Nat) : (s.fset p f v).pwr = s.pwr := rfl
@[simp] theorem State.fset_time (p : Nat) (f : FRef) (v : Nat) : (s.fset p f v).time = s.time := rfl
@[simp] theorem State.fset_boot (p : Nat) (f : FRef) (v : Nat) : (s.fset p f v).boot = s.boot := rfl
@[simp] theorem State.fset_mctp (p : Nat) (f : FRef) (v : Nat) : (s.fset p f v).mctp = s.mctp := rfl
@[simp] theorem State.fset_bar2 (p : Nat) (f : FRef) (v : Nat) : (s.fset p f v).bar2 = s.bar2 := rfl
@[simp] theorem State.fset_out (p : Nat) (f : FRef) (v : Nat) : (s.fset p f v).out = s.out := rfl
@[simp] theorem State.fset_freeCtr (p : Nat) (f : FRef) (v : Nat) : (s.fset p f v).freeCtr = s.freeCtr := rfl
@[simp] theorem State.fset_pending (p : Nat) (f : FRef) (v : Nat) : (s.fset p f v).pending = s.pending := rfl

/-! ### State.finc -/

@[simp] theorem State.finc_mem (p : Nat) (f : FRef) (n : Nat) : (s.finc p f n).mem = s.mem := rfl
@[simp] theorem State.finc_shadows (p : Nat) (f : FRef) (n : Nat) : (s.finc p f n).shadows = s.shadows := rfl
@[simp] theorem State.finc_latches (p : Nat) (f : FRef) (n : Nat) : (s.finc p f n).latches = s.latches := rfl
@[simp] theorem State.finc_idxAddr (p : Nat) (f : FRef) (n : Nat) : (s.finc p f n).idxAddr = s.idxAddr := rfl
@[simp] theorem State.finc_cores (p : Nat) (f : FRef) (n : Nat) : (s.finc p f n).cores = s.cores := rfl
@[simp] theorem State.finc_fab (p : Nat) (f : FRef) (n : Nat) : (s.finc p f n).fab = s.fab := rfl
@[simp] theorem State.finc_units (p : Nat) (f : FRef) (n : Nat) : (s.finc p f n).units = s.units := rfl
@[simp] theorem State.finc_hbm (p : Nat) (f : FRef) (n : Nat) : (s.finc p f n).hbm = s.hbm := rfl
@[simp] theorem State.finc_logs (p : Nat) (f : FRef) (n : Nat) : (s.finc p f n).logs = s.logs := rfl
@[simp] theorem State.finc_wear (p : Nat) (f : FRef) (n : Nat) : (s.finc p f n).wear = s.wear := rfl
@[simp] theorem State.finc_slots (p : Nat) (f : FRef) (n : Nat) : (s.finc p f n).slots = s.slots := rfl
@[simp] theorem State.finc_coll (p : Nat) (f : FRef) (n : Nat) : (s.finc p f n).coll = s.coll := rfl
@[simp] theorem State.finc_zwk (p : Nat) (f : FRef) (n : Nat) : (s.finc p f n).zwk = s.zwk := rfl
@[simp] theorem State.finc_held (p : Nat) (f : FRef) (n : Nat) : (s.finc p f n).held = s.held := rfl
@[simp] theorem State.finc_rpb (p : Nat) (f : FRef) (n : Nat) : (s.finc p f n).rpb = s.rpb := rfl
@[simp] theorem State.finc_sec (p : Nat) (f : FRef) (n : Nat) : (s.finc p f n).sec = s.sec := rfl
@[simp] theorem State.finc_pwr (p : Nat) (f : FRef) (n : Nat) : (s.finc p f n).pwr = s.pwr := rfl
@[simp] theorem State.finc_time (p : Nat) (f : FRef) (n : Nat) : (s.finc p f n).time = s.time := rfl
@[simp] theorem State.finc_boot (p : Nat) (f : FRef) (n : Nat) : (s.finc p f n).boot = s.boot := rfl
@[simp] theorem State.finc_mctp (p : Nat) (f : FRef) (n : Nat) : (s.finc p f n).mctp = s.mctp := rfl
@[simp] theorem State.finc_bar2 (p : Nat) (f : FRef) (n : Nat) : (s.finc p f n).bar2 = s.bar2 := rfl
@[simp] theorem State.finc_out (p : Nat) (f : FRef) (n : Nat) : (s.finc p f n).out = s.out := rfl
@[simp] theorem State.finc_freeCtr (p : Nat) (f : FRef) (n : Nat) : (s.finc p f n).freeCtr = s.freeCtr := rfl
@[simp] theorem State.finc_pending (p : Nat) (f : FRef) (n : Nat) : (s.finc p f n).pending = s.pending := rfl

/-! ### State.inc64 -/

@[simp] theorem State.inc64_mem (p : Nat) (f : FRef) (n : Nat) : (s.inc64 p f n).mem = s.mem := rfl
@[simp] theorem State.inc64_shadows (p : Nat) (f : FRef) (n : Nat) : (s.inc64 p f n).shadows = s.shadows := rfl
@[simp] theorem State.inc64_latches (p : Nat) (f : FRef) (n : Nat) : (s.inc64 p f n).latches = s.latches := rfl
@[simp] theorem State.inc64_idxAddr (p : Nat) (f : FRef) (n : Nat) : (s.inc64 p f n).idxAddr = s.idxAddr := rfl
@[simp] theorem State.inc64_cores (p : Nat) (f : FRef) (n : Nat) : (s.inc64 p f n).cores = s.cores := rfl
@[simp] theorem State.inc64_fab (p : Nat) (f : FRef) (n : Nat) : (s.inc64 p f n).fab = s.fab := rfl
@[simp] theorem State.inc64_units (p : Nat) (f : FRef) (n : Nat) : (s.inc64 p f n).units = s.units := rfl
@[simp] theorem State.inc64_hbm (p : Nat) (f : FRef) (n : Nat) : (s.inc64 p f n).hbm = s.hbm := rfl
@[simp] theorem State.inc64_logs (p : Nat) (f : FRef) (n : Nat) : (s.inc64 p f n).logs = s.logs := rfl
@[simp] theorem State.inc64_wear (p : Nat) (f : FRef) (n : Nat) : (s.inc64 p f n).wear = s.wear := rfl
@[simp] theorem State.inc64_slots (p : Nat) (f : FRef) (n : Nat) : (s.inc64 p f n).slots = s.slots := rfl
@[simp] theorem State.inc64_coll (p : Nat) (f : FRef) (n : Nat) : (s.inc64 p f n).coll = s.coll := rfl
@[simp] theorem State.inc64_zwk (p : Nat) (f : FRef) (n : Nat) : (s.inc64 p f n).zwk = s.zwk := rfl
@[simp] theorem State.inc64_held (p : Nat) (f : FRef) (n : Nat) : (s.inc64 p f n).held = s.held := rfl
@[simp] theorem State.inc64_rpb (p : Nat) (f : FRef) (n : Nat) : (s.inc64 p f n).rpb = s.rpb := rfl
@[simp] theorem State.inc64_sec (p : Nat) (f : FRef) (n : Nat) : (s.inc64 p f n).sec = s.sec := rfl
@[simp] theorem State.inc64_pwr (p : Nat) (f : FRef) (n : Nat) : (s.inc64 p f n).pwr = s.pwr := rfl
@[simp] theorem State.inc64_time (p : Nat) (f : FRef) (n : Nat) : (s.inc64 p f n).time = s.time := rfl
@[simp] theorem State.inc64_boot (p : Nat) (f : FRef) (n : Nat) : (s.inc64 p f n).boot = s.boot := rfl
@[simp] theorem State.inc64_mctp (p : Nat) (f : FRef) (n : Nat) : (s.inc64 p f n).mctp = s.mctp := rfl
@[simp] theorem State.inc64_bar2 (p : Nat) (f : FRef) (n : Nat) : (s.inc64 p f n).bar2 = s.bar2 := rfl
@[simp] theorem State.inc64_out (p : Nat) (f : FRef) (n : Nat) : (s.inc64 p f n).out = s.out := rfl
@[simp] theorem State.inc64_freeCtr (p : Nat) (f : FRef) (n : Nat) : (s.inc64 p f n).freeCtr = s.freeCtr := rfl
@[simp] theorem State.inc64_pending (p : Nat) (f : FRef) (n : Nat) : (s.inc64 p f n).pending = s.pending := rfl

/-! ### State.send -/

@[simp] theorem State.send_mem (o : Out) : (s.send o).mem = s.mem := rfl
@[simp] theorem State.send_regs (o : Out) : (s.send o).regs = s.regs := rfl
@[simp] theorem State.send_shadows (o : Out) : (s.send o).shadows = s.shadows := rfl
@[simp] theorem State.send_latches (o : Out) : (s.send o).latches = s.latches := rfl
@[simp] theorem State.send_idxAddr (o : Out) : (s.send o).idxAddr = s.idxAddr := rfl
@[simp] theorem State.send_cores (o : Out) : (s.send o).cores = s.cores := rfl
@[simp] theorem State.send_fab (o : Out) : (s.send o).fab = s.fab := rfl
@[simp] theorem State.send_units (o : Out) : (s.send o).units = s.units := rfl
@[simp] theorem State.send_hbm (o : Out) : (s.send o).hbm = s.hbm := rfl
@[simp] theorem State.send_logs (o : Out) : (s.send o).logs = s.logs := rfl
@[simp] theorem State.send_wear (o : Out) : (s.send o).wear = s.wear := rfl
@[simp] theorem State.send_slots (o : Out) : (s.send o).slots = s.slots := rfl
@[simp] theorem State.send_coll (o : Out) : (s.send o).coll = s.coll := rfl
@[simp] theorem State.send_zwk (o : Out) : (s.send o).zwk = s.zwk := rfl
@[simp] theorem State.send_held (o : Out) : (s.send o).held = s.held := rfl
@[simp] theorem State.send_rpb (o : Out) : (s.send o).rpb = s.rpb := rfl
@[simp] theorem State.send_sec (o : Out) : (s.send o).sec = s.sec := rfl
@[simp] theorem State.send_pwr (o : Out) : (s.send o).pwr = s.pwr := rfl
@[simp] theorem State.send_time (o : Out) : (s.send o).time = s.time := rfl
@[simp] theorem State.send_boot (o : Out) : (s.send o).boot = s.boot := rfl
@[simp] theorem State.send_mctp (o : Out) : (s.send o).mctp = s.mctp := rfl
@[simp] theorem State.send_bar2 (o : Out) : (s.send o).bar2 = s.bar2 := rfl
@[simp] theorem State.send_freeCtr (o : Out) : (s.send o).freeCtr = s.freeCtr := rfl
@[simp] theorem State.send_pending (o : Out) : (s.send o).pending = s.pending := rfl

/-! ### State.setCore -/

@[simp] theorem State.setCore_mem (i : Nat) (c : CoreSt) : (s.setCore i c).mem = s.mem := rfl
@[simp] theorem State.setCore_regs (i : Nat) (c : CoreSt) : (s.setCore i c).regs = s.regs := rfl
@[simp] theorem State.setCore_shadows (i : Nat) (c : CoreSt) : (s.setCore i c).shadows = s.shadows := rfl
@[simp] theorem State.setCore_latches (i : Nat) (c : CoreSt) : (s.setCore i c).latches = s.latches := rfl
@[simp] theorem State.setCore_idxAddr (i : Nat) (c : CoreSt) : (s.setCore i c).idxAddr = s.idxAddr := rfl
@[simp] theorem State.setCore_fab (i : Nat) (c : CoreSt) : (s.setCore i c).fab = s.fab := rfl
@[simp] theorem State.setCore_units (i : Nat) (c : CoreSt) : (s.setCore i c).units = s.units := rfl
@[simp] theorem State.setCore_hbm (i : Nat) (c : CoreSt) : (s.setCore i c).hbm = s.hbm := rfl
@[simp] theorem State.setCore_logs (i : Nat) (c : CoreSt) : (s.setCore i c).logs = s.logs := rfl
@[simp] theorem State.setCore_wear (i : Nat) (c : CoreSt) : (s.setCore i c).wear = s.wear := rfl
@[simp] theorem State.setCore_slots (i : Nat) (c : CoreSt) : (s.setCore i c).slots = s.slots := rfl
@[simp] theorem State.setCore_coll (i : Nat) (c : CoreSt) : (s.setCore i c).coll = s.coll := rfl
@[simp] theorem State.setCore_zwk (i : Nat) (c : CoreSt) : (s.setCore i c).zwk = s.zwk := rfl
@[simp] theorem State.setCore_held (i : Nat) (c : CoreSt) : (s.setCore i c).held = s.held := rfl
@[simp] theorem State.setCore_rpb (i : Nat) (c : CoreSt) : (s.setCore i c).rpb = s.rpb := rfl
@[simp] theorem State.setCore_sec (i : Nat) (c : CoreSt) : (s.setCore i c).sec = s.sec := rfl
@[simp] theorem State.setCore_pwr (i : Nat) (c : CoreSt) : (s.setCore i c).pwr = s.pwr := rfl
@[simp] theorem State.setCore_time (i : Nat) (c : CoreSt) : (s.setCore i c).time = s.time := rfl
@[simp] theorem State.setCore_boot (i : Nat) (c : CoreSt) : (s.setCore i c).boot = s.boot := rfl
@[simp] theorem State.setCore_mctp (i : Nat) (c : CoreSt) : (s.setCore i c).mctp = s.mctp := rfl
@[simp] theorem State.setCore_bar2 (i : Nat) (c : CoreSt) : (s.setCore i c).bar2 = s.bar2 := rfl
@[simp] theorem State.setCore_out (i : Nat) (c : CoreSt) : (s.setCore i c).out = s.out := rfl
@[simp] theorem State.setCore_freeCtr (i : Nat) (c : CoreSt) : (s.setCore i c).freeCtr = s.freeCtr := rfl
@[simp] theorem State.setCore_pending (i : Nat) (c : CoreSt) : (s.setCore i c).pending = s.pending := rfl

/-! ### State.modCore -/

@[simp] theorem State.modCore_mem (i : Nat) (f : CoreSt → CoreSt) : (s.modCore i f).mem = s.mem := rfl
@[simp] theorem State.modCore_regs (i : Nat) (f : CoreSt → CoreSt) : (s.modCore i f).regs = s.regs := rfl
@[simp] theorem State.modCore_shadows (i : Nat) (f : CoreSt → CoreSt) : (s.modCore i f).shadows = s.shadows := rfl
@[simp] theorem State.modCore_latches (i : Nat) (f : CoreSt → CoreSt) : (s.modCore i f).latches = s.latches := rfl
@[simp] theorem State.modCore_idxAddr (i : Nat) (f : CoreSt → CoreSt) : (s.modCore i f).idxAddr = s.idxAddr := rfl
@[simp] theorem State.modCore_fab (i : Nat) (f : CoreSt → CoreSt) : (s.modCore i f).fab = s.fab := rfl
@[simp] theorem State.modCore_units (i : Nat) (f : CoreSt → CoreSt) : (s.modCore i f).units = s.units := rfl
@[simp] theorem State.modCore_hbm (i : Nat) (f : CoreSt → CoreSt) : (s.modCore i f).hbm = s.hbm := rfl
@[simp] theorem State.modCore_logs (i : Nat) (f : CoreSt → CoreSt) : (s.modCore i f).logs = s.logs := rfl
@[simp] theorem State.modCore_wear (i : Nat) (f : CoreSt → CoreSt) : (s.modCore i f).wear = s.wear := rfl
@[simp] theorem State.modCore_slots (i : Nat) (f : CoreSt → CoreSt) : (s.modCore i f).slots = s.slots := rfl
@[simp] theorem State.modCore_coll (i : Nat) (f : CoreSt → CoreSt) : (s.modCore i f).coll = s.coll := rfl
@[simp] theorem State.modCore_zwk (i : Nat) (f : CoreSt → CoreSt) : (s.modCore i f).zwk = s.zwk := rfl
@[simp] theorem State.modCore_held (i : Nat) (f : CoreSt → CoreSt) : (s.modCore i f).held = s.held := rfl
@[simp] theorem State.modCore_rpb (i : Nat) (f : CoreSt → CoreSt) : (s.modCore i f).rpb = s.rpb := rfl
@[simp] theorem State.modCore_sec (i : Nat) (f : CoreSt → CoreSt) : (s.modCore i f).sec = s.sec := rfl
@[simp] theorem State.modCore_pwr (i : Nat) (f : CoreSt → CoreSt) : (s.modCore i f).pwr = s.pwr := rfl
@[simp] theorem State.modCore_time (i : Nat) (f : CoreSt → CoreSt) : (s.modCore i f).time = s.time := rfl
@[simp] theorem State.modCore_boot (i : Nat) (f : CoreSt → CoreSt) : (s.modCore i f).boot = s.boot := rfl
@[simp] theorem State.modCore_mctp (i : Nat) (f : CoreSt → CoreSt) : (s.modCore i f).mctp = s.mctp := rfl
@[simp] theorem State.modCore_bar2 (i : Nat) (f : CoreSt → CoreSt) : (s.modCore i f).bar2 = s.bar2 := rfl
@[simp] theorem State.modCore_out (i : Nat) (f : CoreSt → CoreSt) : (s.modCore i f).out = s.out := rfl
@[simp] theorem State.modCore_freeCtr (i : Nat) (f : CoreSt → CoreSt) : (s.modCore i f).freeCtr = s.freeCtr := rfl
@[simp] theorem State.modCore_pending (i : Nat) (f : CoreSt → CoreSt) : (s.modCore i f).pending = s.pending := rfl

/-! ### State.setHbmc -/

@[simp] theorem State.setHbmc_mem (n : Nat) (h : HbmCtl) : (s.setHbmc n h).mem = s.mem := rfl
@[simp] theorem State.setHbmc_regs (n : Nat) (h : HbmCtl) : (s.setHbmc n h).regs = s.regs := rfl
@[simp] theorem State.setHbmc_shadows (n : Nat) (h : HbmCtl) : (s.setHbmc n h).shadows = s.shadows := rfl
@[simp] theorem State.setHbmc_latches (n : Nat) (h : HbmCtl) : (s.setHbmc n h).latches = s.latches := rfl
@[simp] theorem State.setHbmc_idxAddr (n : Nat) (h : HbmCtl) : (s.setHbmc n h).idxAddr = s.idxAddr := rfl
@[simp] theorem State.setHbmc_cores (n : Nat) (h : HbmCtl) : (s.setHbmc n h).cores = s.cores := rfl
@[simp] theorem State.setHbmc_fab (n : Nat) (h : HbmCtl) : (s.setHbmc n h).fab = s.fab := rfl
@[simp] theorem State.setHbmc_units (n : Nat) (h : HbmCtl) : (s.setHbmc n h).units = s.units := rfl
@[simp] theorem State.setHbmc_logs (n : Nat) (h : HbmCtl) : (s.setHbmc n h).logs = s.logs := rfl
@[simp] theorem State.setHbmc_wear (n : Nat) (h : HbmCtl) : (s.setHbmc n h).wear = s.wear := rfl
@[simp] theorem State.setHbmc_slots (n : Nat) (h : HbmCtl) : (s.setHbmc n h).slots = s.slots := rfl
@[simp] theorem State.setHbmc_coll (n : Nat) (h : HbmCtl) : (s.setHbmc n h).coll = s.coll := rfl
@[simp] theorem State.setHbmc_zwk (n : Nat) (h : HbmCtl) : (s.setHbmc n h).zwk = s.zwk := rfl
@[simp] theorem State.setHbmc_held (n : Nat) (h : HbmCtl) : (s.setHbmc n h).held = s.held := rfl
@[simp] theorem State.setHbmc_rpb (n : Nat) (h : HbmCtl) : (s.setHbmc n h).rpb = s.rpb := rfl
@[simp] theorem State.setHbmc_sec (n : Nat) (h : HbmCtl) : (s.setHbmc n h).sec = s.sec := rfl
@[simp] theorem State.setHbmc_pwr (n : Nat) (h : HbmCtl) : (s.setHbmc n h).pwr = s.pwr := rfl
@[simp] theorem State.setHbmc_time (n : Nat) (h : HbmCtl) : (s.setHbmc n h).time = s.time := rfl
@[simp] theorem State.setHbmc_boot (n : Nat) (h : HbmCtl) : (s.setHbmc n h).boot = s.boot := rfl
@[simp] theorem State.setHbmc_mctp (n : Nat) (h : HbmCtl) : (s.setHbmc n h).mctp = s.mctp := rfl
@[simp] theorem State.setHbmc_bar2 (n : Nat) (h : HbmCtl) : (s.setHbmc n h).bar2 = s.bar2 := rfl
@[simp] theorem State.setHbmc_out (n : Nat) (h : HbmCtl) : (s.setHbmc n h).out = s.out := rfl
@[simp] theorem State.setHbmc_freeCtr (n : Nat) (h : HbmCtl) : (s.setHbmc n h).freeCtr = s.freeCtr := rfl
@[simp] theorem State.setHbmc_pending (n : Nat) (h : HbmCtl) : (s.setHbmc n h).pending = s.pending := rfl

/-! ### State.modHbmc -/

@[simp] theorem State.modHbmc_mem (n : Nat) (f : HbmCtl → HbmCtl) : (s.modHbmc n f).mem = s.mem := rfl
@[simp] theorem State.modHbmc_regs (n : Nat) (f : HbmCtl → HbmCtl) : (s.modHbmc n f).regs = s.regs := rfl
@[simp] theorem State.modHbmc_shadows (n : Nat) (f : HbmCtl → HbmCtl) : (s.modHbmc n f).shadows = s.shadows := rfl
@[simp] theorem State.modHbmc_latches (n : Nat) (f : HbmCtl → HbmCtl) : (s.modHbmc n f).latches = s.latches := rfl
@[simp] theorem State.modHbmc_idxAddr (n : Nat) (f : HbmCtl → HbmCtl) : (s.modHbmc n f).idxAddr = s.idxAddr := rfl
@[simp] theorem State.modHbmc_cores (n : Nat) (f : HbmCtl → HbmCtl) : (s.modHbmc n f).cores = s.cores := rfl
@[simp] theorem State.modHbmc_fab (n : Nat) (f : HbmCtl → HbmCtl) : (s.modHbmc n f).fab = s.fab := rfl
@[simp] theorem State.modHbmc_units (n : Nat) (f : HbmCtl → HbmCtl) : (s.modHbmc n f).units = s.units := rfl
@[simp] theorem State.modHbmc_logs (n : Nat) (f : HbmCtl → HbmCtl) : (s.modHbmc n f).logs = s.logs := rfl
@[simp] theorem State.modHbmc_wear (n : Nat) (f : HbmCtl → HbmCtl) : (s.modHbmc n f).wear = s.wear := rfl
@[simp] theorem State.modHbmc_slots (n : Nat) (f : HbmCtl → HbmCtl) : (s.modHbmc n f).slots = s.slots := rfl
@[simp] theorem State.modHbmc_coll (n : Nat) (f : HbmCtl → HbmCtl) : (s.modHbmc n f).coll = s.coll := rfl
@[simp] theorem State.modHbmc_zwk (n : Nat) (f : HbmCtl → HbmCtl) : (s.modHbmc n f).zwk = s.zwk := rfl
@[simp] theorem State.modHbmc_held (n : Nat) (f : HbmCtl → HbmCtl) : (s.modHbmc n f).held = s.held := rfl
@[simp] theorem State.modHbmc_rpb (n : Nat) (f : HbmCtl → HbmCtl) : (s.modHbmc n f).rpb = s.rpb := rfl
@[simp] theorem State.modHbmc_sec (n : Nat) (f : HbmCtl → HbmCtl) : (s.modHbmc n f).sec = s.sec := rfl
@[simp] theorem State.modHbmc_pwr (n : Nat) (f : HbmCtl → HbmCtl) : (s.modHbmc n f).pwr = s.pwr := rfl
@[simp] theorem State.modHbmc_time (n : Nat) (f : HbmCtl → HbmCtl) : (s.modHbmc n f).time = s.time := rfl
@[simp] theorem State.modHbmc_boot (n : Nat) (f : HbmCtl → HbmCtl) : (s.modHbmc n f).boot = s.boot := rfl
@[simp] theorem State.modHbmc_mctp (n : Nat) (f : HbmCtl → HbmCtl) : (s.modHbmc n f).mctp = s.mctp := rfl
@[simp] theorem State.modHbmc_bar2 (n : Nat) (f : HbmCtl → HbmCtl) : (s.modHbmc n f).bar2 = s.bar2 := rfl
@[simp] theorem State.modHbmc_out (n : Nat) (f : HbmCtl → HbmCtl) : (s.modHbmc n f).out = s.out := rfl
@[simp] theorem State.modHbmc_freeCtr (n : Nat) (f : HbmCtl → HbmCtl) : (s.modHbmc n f).freeCtr = s.freeCtr := rfl
@[simp] theorem State.modHbmc_pending (n : Nat) (f : HbmCtl → HbmCtl) : (s.modHbmc n f).pending = s.pending := rfl

/-! ### State.setSlot -/

@[simp] theorem State.setSlot_mem (n : Nat) (x : Slot) : (s.setSlot n x).mem = s.mem := rfl
@[simp] theorem State.setSlot_regs (n : Nat) (x : Slot) : (s.setSlot n x).regs = s.regs := rfl
@[simp] theorem State.setSlot_shadows (n : Nat) (x : Slot) : (s.setSlot n x).shadows = s.shadows := rfl
@[simp] theorem State.setSlot_latches (n : Nat) (x : Slot) : (s.setSlot n x).latches = s.latches := rfl
@[simp] theorem State.setSlot_idxAddr (n : Nat) (x : Slot) : (s.setSlot n x).idxAddr = s.idxAddr := rfl
@[simp] theorem State.setSlot_cores (n : Nat) (x : Slot) : (s.setSlot n x).cores = s.cores := rfl
@[simp] theorem State.setSlot_fab (n : Nat) (x : Slot) : (s.setSlot n x).fab = s.fab := rfl
@[simp] theorem State.setSlot_units (n : Nat) (x : Slot) : (s.setSlot n x).units = s.units := rfl
@[simp] theorem State.setSlot_hbm (n : Nat) (x : Slot) : (s.setSlot n x).hbm = s.hbm := rfl
@[simp] theorem State.setSlot_logs (n : Nat) (x : Slot) : (s.setSlot n x).logs = s.logs := rfl
@[simp] theorem State.setSlot_wear (n : Nat) (x : Slot) : (s.setSlot n x).wear = s.wear := rfl
@[simp] theorem State.setSlot_coll (n : Nat) (x : Slot) : (s.setSlot n x).coll = s.coll := rfl
@[simp] theorem State.setSlot_zwk (n : Nat) (x : Slot) : (s.setSlot n x).zwk = s.zwk := rfl
@[simp] theorem State.setSlot_held (n : Nat) (x : Slot) : (s.setSlot n x).held = s.held := rfl
@[simp] theorem State.setSlot_rpb (n : Nat) (x : Slot) : (s.setSlot n x).rpb = s.rpb := rfl
@[simp] theorem State.setSlot_sec (n : Nat) (x : Slot) : (s.setSlot n x).sec = s.sec := rfl
@[simp] theorem State.setSlot_pwr (n : Nat) (x : Slot) : (s.setSlot n x).pwr = s.pwr := rfl
@[simp] theorem State.setSlot_time (n : Nat) (x : Slot) : (s.setSlot n x).time = s.time := rfl
@[simp] theorem State.setSlot_boot (n : Nat) (x : Slot) : (s.setSlot n x).boot = s.boot := rfl
@[simp] theorem State.setSlot_mctp (n : Nat) (x : Slot) : (s.setSlot n x).mctp = s.mctp := rfl
@[simp] theorem State.setSlot_bar2 (n : Nat) (x : Slot) : (s.setSlot n x).bar2 = s.bar2 := rfl
@[simp] theorem State.setSlot_out (n : Nat) (x : Slot) : (s.setSlot n x).out = s.out := rfl
@[simp] theorem State.setSlot_freeCtr (n : Nat) (x : Slot) : (s.setSlot n x).freeCtr = s.freeCtr := rfl
@[simp] theorem State.setSlot_pending (n : Nat) (x : Slot) : (s.setSlot n x).pending = s.pending := rfl

/-! ### State.modSlot -/

@[simp] theorem State.modSlot_mem (n : Nat) (f : Slot → Slot) : (s.modSlot n f).mem = s.mem := rfl
@[simp] theorem State.modSlot_regs (n : Nat) (f : Slot → Slot) : (s.modSlot n f).regs = s.regs := rfl
@[simp] theorem State.modSlot_shadows (n : Nat) (f : Slot → Slot) : (s.modSlot n f).shadows = s.shadows := rfl
@[simp] theorem State.modSlot_latches (n : Nat) (f : Slot → Slot) : (s.modSlot n f).latches = s.latches := rfl
@[simp] theorem State.modSlot_idxAddr (n : Nat) (f : Slot → Slot) : (s.modSlot n f).idxAddr = s.idxAddr := rfl
@[simp] theorem State.modSlot_cores (n : Nat) (f : Slot → Slot) : (s.modSlot n f).cores = s.cores := rfl
@[simp] theorem State.modSlot_fab (n : Nat) (f : Slot → Slot) : (s.modSlot n f).fab = s.fab := rfl
@[simp] theorem State.modSlot_units (n : Nat) (f : Slot → Slot) : (s.modSlot n f).units = s.units := rfl
@[simp] theorem State.modSlot_hbm (n : Nat) (f : Slot → Slot) : (s.modSlot n f).hbm = s.hbm := rfl
@[simp] theorem State.modSlot_logs (n : Nat) (f : Slot → Slot) : (s.modSlot n f).logs = s.logs := rfl
@[simp] theorem State.modSlot_wear (n : Nat) (f : Slot → Slot) : (s.modSlot n f).wear = s.wear := rfl
@[simp] theorem State.modSlot_coll (n : Nat) (f : Slot → Slot) : (s.modSlot n f).coll = s.coll := rfl
@[simp] theorem State.modSlot_zwk (n : Nat) (f : Slot → Slot) : (s.modSlot n f).zwk = s.zwk := rfl
@[simp] theorem State.modSlot_held (n : Nat) (f : Slot → Slot) : (s.modSlot n f).held = s.held := rfl
@[simp] theorem State.modSlot_rpb (n : Nat) (f : Slot → Slot) : (s.modSlot n f).rpb = s.rpb := rfl
@[simp] theorem State.modSlot_sec (n : Nat) (f : Slot → Slot) : (s.modSlot n f).sec = s.sec := rfl
@[simp] theorem State.modSlot_pwr (n : Nat) (f : Slot → Slot) : (s.modSlot n f).pwr = s.pwr := rfl
@[simp] theorem State.modSlot_time (n : Nat) (f : Slot → Slot) : (s.modSlot n f).time = s.time := rfl
@[simp] theorem State.modSlot_boot (n : Nat) (f : Slot → Slot) : (s.modSlot n f).boot = s.boot := rfl
@[simp] theorem State.modSlot_mctp (n : Nat) (f : Slot → Slot) : (s.modSlot n f).mctp = s.mctp := rfl
@[simp] theorem State.modSlot_bar2 (n : Nat) (f : Slot → Slot) : (s.modSlot n f).bar2 = s.bar2 := rfl
@[simp] theorem State.modSlot_out (n : Nat) (f : Slot → Slot) : (s.modSlot n f).out = s.out := rfl
@[simp] theorem State.modSlot_freeCtr (n : Nat) (f : Slot → Slot) : (s.modSlot n f).freeCtr = s.freeCtr := rfl
@[simp] theorem State.modSlot_pending (n : Nat) (f : Slot → Slot) : (s.modSlot n f).pending = s.pending := rfl

/-! ### State.addEvent -/

@[simp] theorem State.addEvent_mem (e : LogRec) : (s.addEvent e).mem = s.mem := rfl
@[simp] theorem State.addEvent_regs (e : LogRec) : (s.addEvent e).regs = s.regs := rfl
@[simp] theorem State.addEvent_shadows (e : LogRec) : (s.addEvent e).shadows = s.shadows := rfl
@[simp] theorem State.addEvent_latches (e : LogRec) : (s.addEvent e).latches = s.latches := rfl
@[simp] theorem State.addEvent_idxAddr (e : LogRec) : (s.addEvent e).idxAddr = s.idxAddr := rfl
@[simp] theorem State.addEvent_cores (e : LogRec) : (s.addEvent e).cores = s.cores := rfl
@[simp] theorem State.addEvent_fab (e : LogRec) : (s.addEvent e).fab = s.fab := rfl
@[simp] theorem State.addEvent_units (e : LogRec) : (s.addEvent e).units = s.units := rfl
@[simp] theorem State.addEvent_hbm (e : LogRec) : (s.addEvent e).hbm = s.hbm := rfl
@[simp] theorem State.addEvent_wear (e : LogRec) : (s.addEvent e).wear = s.wear := rfl
@[simp] theorem State.addEvent_slots (e : LogRec) : (s.addEvent e).slots = s.slots := rfl
@[simp] theorem State.addEvent_coll (e : LogRec) : (s.addEvent e).coll = s.coll := rfl
@[simp] theorem State.addEvent_zwk (e : LogRec) : (s.addEvent e).zwk = s.zwk := rfl
@[simp] theorem State.addEvent_held (e : LogRec) : (s.addEvent e).held = s.held := rfl
@[simp] theorem State.addEvent_rpb (e : LogRec) : (s.addEvent e).rpb = s.rpb := rfl
@[simp] theorem State.addEvent_sec (e : LogRec) : (s.addEvent e).sec = s.sec := rfl
@[simp] theorem State.addEvent_pwr (e : LogRec) : (s.addEvent e).pwr = s.pwr := rfl
@[simp] theorem State.addEvent_time (e : LogRec) : (s.addEvent e).time = s.time := rfl
@[simp] theorem State.addEvent_boot (e : LogRec) : (s.addEvent e).boot = s.boot := rfl
@[simp] theorem State.addEvent_mctp (e : LogRec) : (s.addEvent e).mctp = s.mctp := rfl
@[simp] theorem State.addEvent_bar2 (e : LogRec) : (s.addEvent e).bar2 = s.bar2 := rfl
@[simp] theorem State.addEvent_out (e : LogRec) : (s.addEvent e).out = s.out := rfl
@[simp] theorem State.addEvent_freeCtr (e : LogRec) : (s.addEvent e).freeCtr = s.freeCtr := rfl
@[simp] theorem State.addEvent_pending (e : LogRec) : (s.addEvent e).pending = s.pending := rfl

/-! ### Interrupts and events -/

@[simp] theorem State.sendInt_mem (p : Nat) : (s.sendInt p).mem = s.mem := by
  unfold State.sendInt; dsimp only; split <;> split <;> rfl
@[simp] theorem State.sendInt_regs (p : Nat) : (s.sendInt p).regs = s.regs := by
  unfold State.sendInt; dsimp only; split <;> split <;> rfl
@[simp] theorem State.sendInt_shadows (p : Nat) : (s.sendInt p).shadows = s.shadows := by
  unfold State.sendInt; dsimp only; split <;> split <;> rfl
@[simp] theorem State.sendInt_latches (p : Nat) : (s.sendInt p).latches = s.latches := by
  unfold State.sendInt; dsimp only; split <;> split <;> rfl
@[simp] theorem State.sendInt_idxAddr (p : Nat) : (s.sendInt p).idxAddr = s.idxAddr := by
  unfold State.sendInt; dsimp only; split <;> split <;> rfl
@[simp] theorem State.sendInt_cores (p : Nat) : (s.sendInt p).cores = s.cores := by
  unfold State.sendInt; dsimp only; split <;> split <;> rfl
@[simp] theorem State.sendInt_fab (p : Nat) : (s.sendInt p).fab = s.fab := by
  unfold State.sendInt; dsimp only; split <;> split <;> rfl
@[simp] theorem State.sendInt_units (p : Nat) : (s.sendInt p).units = s.units := by
  unfold State.sendInt; dsimp only; split <;> split <;> rfl
@[simp] theorem State.sendInt_hbm (p : Nat) : (s.sendInt p).hbm = s.hbm := by
  unfold State.sendInt; dsimp only; split <;> split <;> rfl
@[simp] theorem State.sendInt_logs (p : Nat) : (s.sendInt p).logs = s.logs := by
  unfold State.sendInt; dsimp only; split <;> split <;> rfl
@[simp] theorem State.sendInt_wear (p : Nat) : (s.sendInt p).wear = s.wear := by
  unfold State.sendInt; dsimp only; split <;> split <;> rfl
@[simp] theorem State.sendInt_slots (p : Nat) : (s.sendInt p).slots = s.slots := by
  unfold State.sendInt; dsimp only; split <;> split <;> rfl
@[simp] theorem State.sendInt_coll (p : Nat) : (s.sendInt p).coll = s.coll := by
  unfold State.sendInt; dsimp only; split <;> split <;> rfl
@[simp] theorem State.sendInt_zwk (p : Nat) : (s.sendInt p).zwk = s.zwk := by
  unfold State.sendInt; dsimp only; split <;> split <;> rfl
@[simp] theorem State.sendInt_held (p : Nat) : (s.sendInt p).held = s.held := by
  unfold State.sendInt; dsimp only; split <;> split <;> rfl
@[simp] theorem State.sendInt_rpb (p : Nat) : (s.sendInt p).rpb = s.rpb := by
  unfold State.sendInt; dsimp only; split <;> split <;> rfl
@[simp] theorem State.sendInt_sec (p : Nat) : (s.sendInt p).sec = s.sec := by
  unfold State.sendInt; dsimp only; split <;> split <;> rfl
@[simp] theorem State.sendInt_pwr (p : Nat) : (s.sendInt p).pwr = s.pwr := by
  unfold State.sendInt; dsimp only; split <;> split <;> rfl
@[simp] theorem State.sendInt_time (p : Nat) : (s.sendInt p).time = s.time := by
  unfold State.sendInt; dsimp only; split <;> split <;> rfl
@[simp] theorem State.sendInt_boot (p : Nat) : (s.sendInt p).boot = s.boot := by
  unfold State.sendInt; dsimp only; split <;> split <;> rfl
@[simp] theorem State.sendInt_mctp (p : Nat) : (s.sendInt p).mctp = s.mctp := by
  unfold State.sendInt; dsimp only; split <;> split <;> rfl
@[simp] theorem State.sendInt_bar2 (p : Nat) : (s.sendInt p).bar2 = s.bar2 := by
  unfold State.sendInt; dsimp only; split <;> split <;> rfl
@[simp] theorem State.sendInt_freeCtr (p : Nat) : (s.sendInt p).freeCtr = s.freeCtr := by
  unfold State.sendInt; dsimp only; split <;> split <;> rfl
@[simp] theorem State.sendInt_pending (p : Nat) : (s.sendInt p).pending = s.pending := by
  unfold State.sendInt; dsimp only; split <;> split <;> rfl
@[simp] theorem State.raise_mem (p b : Nat) : (s.raise p b).mem = s.mem := by
  unfold State.raise State.countEvt State.withInt; dsimp only; split <;> split <;> simp
@[simp] theorem State.event_mem (p : Nat) (f : FRef) : (s.event p f).mem = s.mem := by
  simp [State.event]
@[simp] theorem State.raise_shadows (p b : Nat) : (s.raise p b).shadows = s.shadows := by
  unfold State.raise State.countEvt State.withInt; dsimp only; split <;> split <;> simp
@[simp] theorem State.event_shadows (p : Nat) (f : FRef) : (s.event p f).shadows = s.shadows := by
  simp [State.event]
@[simp] theorem State.raise_latches (p b : Nat) : (s.raise p b).latches = s.latches := by
  unfold State.raise State.countEvt State.withInt; dsimp only; split <;> split <;> simp
@[simp] theorem State.event_latches (p : Nat) (f : FRef) : (s.event p f).latches = s.latches := by
  simp [State.event]
@[simp] theorem State.raise_idxAddr (p b : Nat) : (s.raise p b).idxAddr = s.idxAddr := by
  unfold State.raise State.countEvt State.withInt; dsimp only; split <;> split <;> simp
@[simp] theorem State.event_idxAddr (p : Nat) (f : FRef) : (s.event p f).idxAddr = s.idxAddr := by
  simp [State.event]
@[simp] theorem State.raise_cores (p b : Nat) : (s.raise p b).cores = s.cores := by
  unfold State.raise State.countEvt State.withInt; dsimp only; split <;> split <;> simp
@[simp] theorem State.event_cores (p : Nat) (f : FRef) : (s.event p f).cores = s.cores := by
  simp [State.event]
@[simp] theorem State.raise_fab (p b : Nat) : (s.raise p b).fab = s.fab := by
  unfold State.raise State.countEvt State.withInt; dsimp only; split <;> split <;> simp
@[simp] theorem State.event_fab (p : Nat) (f : FRef) : (s.event p f).fab = s.fab := by
  simp [State.event]
@[simp] theorem State.raise_units (p b : Nat) : (s.raise p b).units = s.units := by
  unfold State.raise State.countEvt State.withInt; dsimp only; split <;> split <;> simp
@[simp] theorem State.event_units (p : Nat) (f : FRef) : (s.event p f).units = s.units := by
  simp [State.event]
@[simp] theorem State.raise_hbm (p b : Nat) : (s.raise p b).hbm = s.hbm := by
  unfold State.raise State.countEvt State.withInt; dsimp only; split <;> split <;> simp
@[simp] theorem State.event_hbm (p : Nat) (f : FRef) : (s.event p f).hbm = s.hbm := by
  simp [State.event]
@[simp] theorem State.raise_logs (p b : Nat) : (s.raise p b).logs = s.logs := by
  unfold State.raise State.countEvt State.withInt; dsimp only; split <;> split <;> simp
@[simp] theorem State.event_logs (p : Nat) (f : FRef) : (s.event p f).logs = s.logs := by
  simp [State.event]
@[simp] theorem State.raise_wear (p b : Nat) : (s.raise p b).wear = s.wear := by
  unfold State.raise State.countEvt State.withInt; dsimp only; split <;> split <;> simp
@[simp] theorem State.event_wear (p : Nat) (f : FRef) : (s.event p f).wear = s.wear := by
  simp [State.event]
@[simp] theorem State.raise_slots (p b : Nat) : (s.raise p b).slots = s.slots := by
  unfold State.raise State.countEvt State.withInt; dsimp only; split <;> split <;> simp
@[simp] theorem State.event_slots (p : Nat) (f : FRef) : (s.event p f).slots = s.slots := by
  simp [State.event]
@[simp] theorem State.raise_coll (p b : Nat) : (s.raise p b).coll = s.coll := by
  unfold State.raise State.countEvt State.withInt; dsimp only; split <;> split <;> simp
@[simp] theorem State.event_coll (p : Nat) (f : FRef) : (s.event p f).coll = s.coll := by
  simp [State.event]
@[simp] theorem State.raise_zwk (p b : Nat) : (s.raise p b).zwk = s.zwk := by
  unfold State.raise State.countEvt State.withInt; dsimp only; split <;> split <;> simp
@[simp] theorem State.event_zwk (p : Nat) (f : FRef) : (s.event p f).zwk = s.zwk := by
  simp [State.event]
@[simp] theorem State.raise_held (p b : Nat) : (s.raise p b).held = s.held := by
  unfold State.raise State.countEvt State.withInt; dsimp only; split <;> split <;> simp
@[simp] theorem State.event_held (p : Nat) (f : FRef) : (s.event p f).held = s.held := by
  simp [State.event]
@[simp] theorem State.raise_rpb (p b : Nat) : (s.raise p b).rpb = s.rpb := by
  unfold State.raise State.countEvt State.withInt; dsimp only; split <;> split <;> simp
@[simp] theorem State.event_rpb (p : Nat) (f : FRef) : (s.event p f).rpb = s.rpb := by
  simp [State.event]
@[simp] theorem State.raise_sec (p b : Nat) : (s.raise p b).sec = s.sec := by
  unfold State.raise State.countEvt State.withInt; dsimp only; split <;> split <;> simp
@[simp] theorem State.event_sec (p : Nat) (f : FRef) : (s.event p f).sec = s.sec := by
  simp [State.event]
@[simp] theorem State.raise_pwr (p b : Nat) : (s.raise p b).pwr = s.pwr := by
  unfold State.raise State.countEvt State.withInt; dsimp only; split <;> split <;> simp
@[simp] theorem State.event_pwr (p : Nat) (f : FRef) : (s.event p f).pwr = s.pwr := by
  simp [State.event]
@[simp] theorem State.raise_time (p b : Nat) : (s.raise p b).time = s.time := by
  unfold State.raise State.countEvt State.withInt; dsimp only; split <;> split <;> simp
@[simp] theorem State.event_time (p : Nat) (f : FRef) : (s.event p f).time = s.time := by
  simp [State.event]
@[simp] theorem State.raise_boot (p b : Nat) : (s.raise p b).boot = s.boot := by
  unfold State.raise State.countEvt State.withInt; dsimp only; split <;> split <;> simp
@[simp] theorem State.event_boot (p : Nat) (f : FRef) : (s.event p f).boot = s.boot := by
  simp [State.event]
@[simp] theorem State.raise_mctp (p b : Nat) : (s.raise p b).mctp = s.mctp := by
  unfold State.raise State.countEvt State.withInt; dsimp only; split <;> split <;> simp
@[simp] theorem State.event_mctp (p : Nat) (f : FRef) : (s.event p f).mctp = s.mctp := by
  simp [State.event]
@[simp] theorem State.raise_bar2 (p b : Nat) : (s.raise p b).bar2 = s.bar2 := by
  unfold State.raise State.countEvt State.withInt; dsimp only; split <;> split <;> simp
@[simp] theorem State.event_bar2 (p : Nat) (f : FRef) : (s.event p f).bar2 = s.bar2 := by
  simp [State.event]
@[simp] theorem State.raise_freeCtr (p b : Nat) : (s.raise p b).freeCtr = s.freeCtr := by
  unfold State.raise State.countEvt State.withInt; dsimp only; split <;> split <;> simp
@[simp] theorem State.event_freeCtr (p : Nat) (f : FRef) : (s.event p f).freeCtr = s.freeCtr := by
  simp [State.event]
@[simp] theorem State.raise_pending (p b : Nat) : (s.raise p b).pending = s.pending := by
  unfold State.raise State.countEvt State.withInt; dsimp only; split <;> split <;> simp
@[simp] theorem State.event_pending (p : Nat) (f : FRef) : (s.event p f).pending = s.pending := by
  simp [State.event]

/-! ### The error log -/

@[simp] theorem State.logEvent_mem (b i v c d : Nat) : (s.logEvent b i v c d).mem = s.mem := by
  unfold State.logEvent; dsimp only; split
  · split <;> rfl
  · rfl
@[simp] theorem State.logEvent_regs (b i v c d : Nat) : (s.logEvent b i v c d).regs = s.regs := by
  unfold State.logEvent; dsimp only; split
  · split <;> rfl
  · rfl
@[simp] theorem State.logEvent_shadows (b i v c d : Nat) : (s.logEvent b i v c d).shadows = s.shadows := by
  unfold State.logEvent; dsimp only; split
  · split <;> rfl
  · rfl
@[simp] theorem State.logEvent_latches (b i v c d : Nat) : (s.logEvent b i v c d).latches = s.latches := by
  unfold State.logEvent; dsimp only; split
  · split <;> rfl
  · rfl
@[simp] theorem State.logEvent_idxAddr (b i v c d : Nat) : (s.logEvent b i v c d).idxAddr = s.idxAddr := by
  unfold State.logEvent; dsimp only; split
  · split <;> rfl
  · rfl
@[simp] theorem State.logEvent_cores (b i v c d : Nat) : (s.logEvent b i v c d).cores = s.cores := by
  unfold State.logEvent; dsimp only; split
  · split <;> rfl
  · rfl
@[simp] theorem State.logEvent_fab (b i v c d : Nat) : (s.logEvent b i v c d).fab = s.fab := by
  unfold State.logEvent; dsimp only; split
  · split <;> rfl
  · rfl
@[simp] theorem State.logEvent_units (b i v c d : Nat) : (s.logEvent b i v c d).units = s.units := by
  unfold State.logEvent; dsimp only; split
  · split <;> rfl
  · rfl
@[simp] theorem State.logEvent_hbm (b i v c d : Nat) : (s.logEvent b i v c d).hbm = s.hbm := by
  unfold State.logEvent; dsimp only; split
  · split <;> rfl
  · rfl
@[simp] theorem State.logEvent_wear (b i v c d : Nat) : (s.logEvent b i v c d).wear = s.wear := by
  unfold State.logEvent; dsimp only; split
  · split <;> rfl
  · rfl
@[simp] theorem State.logEvent_slots (b i v c d : Nat) : (s.logEvent b i v c d).slots = s.slots := by
  unfold State.logEvent; dsimp only; split
  · split <;> rfl
  · rfl
@[simp] theorem State.logEvent_coll (b i v c d : Nat) : (s.logEvent b i v c d).coll = s.coll := by
  unfold State.logEvent; dsimp only; split
  · split <;> rfl
  · rfl
@[simp] theorem State.logEvent_zwk (b i v c d : Nat) : (s.logEvent b i v c d).zwk = s.zwk := by
  unfold State.logEvent; dsimp only; split
  · split <;> rfl
  · rfl
@[simp] theorem State.logEvent_held (b i v c d : Nat) : (s.logEvent b i v c d).held = s.held := by
  unfold State.logEvent; dsimp only; split
  · split <;> rfl
  · rfl
@[simp] theorem State.logEvent_rpb (b i v c d : Nat) : (s.logEvent b i v c d).rpb = s.rpb := by
  unfold State.logEvent; dsimp only; split
  · split <;> rfl
  · rfl
@[simp] theorem State.logEvent_sec (b i v c d : Nat) : (s.logEvent b i v c d).sec = s.sec := by
  unfold State.logEvent; dsimp only; split
  · split <;> rfl
  · rfl
@[simp] theorem State.logEvent_pwr (b i v c d : Nat) : (s.logEvent b i v c d).pwr = s.pwr := by
  unfold State.logEvent; dsimp only; split
  · split <;> rfl
  · rfl
@[simp] theorem State.logEvent_time (b i v c d : Nat) : (s.logEvent b i v c d).time = s.time := by
  unfold State.logEvent; dsimp only; split
  · split <;> rfl
  · rfl
@[simp] theorem State.logEvent_boot (b i v c d : Nat) : (s.logEvent b i v c d).boot = s.boot := by
  unfold State.logEvent; dsimp only; split
  · split <;> rfl
  · rfl
@[simp] theorem State.logEvent_mctp (b i v c d : Nat) : (s.logEvent b i v c d).mctp = s.mctp := by
  unfold State.logEvent; dsimp only; split
  · split <;> rfl
  · rfl
@[simp] theorem State.logEvent_bar2 (b i v c d : Nat) : (s.logEvent b i v c d).bar2 = s.bar2 := by
  unfold State.logEvent; dsimp only; split
  · split <;> rfl
  · rfl
@[simp] theorem State.logEvent_out (b i v c d : Nat) : (s.logEvent b i v c d).out = s.out := by
  unfold State.logEvent; dsimp only; split
  · split <;> rfl
  · rfl
@[simp] theorem State.logEvent_freeCtr (b i v c d : Nat) : (s.logEvent b i v c d).freeCtr = s.freeCtr := by
  unfold State.logEvent; dsimp only; split
  · split <;> rfl
  · rfl
@[simp] theorem State.logEvent_pending (b i v c d : Nat) : (s.logEvent b i v c d).pending = s.pending := by
  unfold State.logEvent; dsimp only; split
  · split <;> rfl
  · rfl

/-! ### Tables and the register store -/

theorem Tab.get_erase_ne {β : Type} (d : β) {j k : Nat} (h : j ≠ k) (t : Tab β) :
    Tab.get d j (Tab.erase k t) = Tab.get d j t := by
  induction t with
  | nil => rfl
  | cons p t ih =>
    obtain ⟨i, v⟩ := p
    simp only [Tab.erase]
    split
    · next e => subst e; simp [Tab.get, Ne.symm h]
    · simp only [Tab.get, ih]

theorem Tab.get_insert {β : Type} (d : β) (j k : Nat) (v : β) (t : Tab β) :
    Tab.get d j (Tab.insert k v t) = if j = k then v else Tab.get d j t := by
  induction t with
  | nil => simp [Tab.insert, Tab.get, eq_comm]
  | cons p t ih =>
    obtain ⟨i, w⟩ := p
    simp only [Tab.insert]
    split
    · simp [Tab.get, eq_comm]
    · split
      · next _ e => subst e; simp only [Tab.get, eq_comm (a := i)]; split <;> rfl
      · next h1 h2 =>
        simp only [Tab.get, ih]
        by_cases e : i = j
        · subst e; simp [h2]
        · simp [e]

/-- Every other number than the one that is set reads as before. -/
theorem Tab.get_set_ne {β : Type} [DecidableEq β] (c d : β) {j k : Nat} (h : j ≠ k) (v : β) (t : Tab β) :
    Tab.get c j (Tab.set d k v t) = Tab.get c j t := by
  unfold Tab.set; split
  · exact Tab.get_erase_ne c h t
  · rw [Tab.get_insert]; simp [h]

end Sys2Proof.Machine
end

