-- ==== Sys2Proof/Laws/Memory.lean ====
section
/-! SUPPORT. Tables stay in their canonical form, a value set reads back, and every memory operation keeps the canonical
form of memory. -/

namespace Sys2Proof.Machine

/-! ### Tables -/

/-- Every number of a table exceeds a bound. -/
def Tab.above {β : Type} (k : Nat) (t : Tab β) : Prop := ∀ e ∈ t, k < e.1

theorem Tab.rising_cons {β : Type} (j : Nat) (v : β) (t : Tab β) :
    Tab.rising ((j, v) :: t) = true ↔ Tab.above j t ∧ Tab.rising t = true := by
  induction t generalizing j v with
  | nil => simp [Tab.rising, Tab.above]
  | cons p t ih =>
    obtain ⟨k, w⟩ := p
    simp only [Tab.rising, Bool.and_eq_true, decide_eq_true_eq, ih]
    constructor
    · rintro ⟨h, ha, hr⟩
      refine ⟨?_, ha, hr⟩
      intro e he
      rcases List.mem_cons.1 he with rfl | he
      · exact h
      · exact Nat.lt_trans h (ha e he)
    · rintro ⟨h, ha, hr⟩
      exact ⟨h (k, w) (List.mem_cons_self ..), ha, hr⟩

theorem Tab.mem_erase {β : Type} (k : Nat) (t : Tab β) (e : Nat × β) (h : e ∈ Tab.erase k t) : e ∈ t := by
  induction t with
  | nil => exact h
  | cons p t ih =>
    obtain ⟨j, v⟩ := p
    simp only [Tab.erase] at h
    split at h
    · exact List.mem_cons_of_mem _ h
    · rcases List.mem_cons.1 h with rfl | h
      · exact List.mem_cons_self ..
      · exact List.mem_cons_of_mem _ (ih h)

theorem Tab.mem_insert {β : Type} (k : Nat) (v : β) (t : Tab β) (e : Nat × β) (h : e ∈ Tab.insert k v t) :
    e = (k, v) ∨ e ∈ t := by
  induction t with
  | nil => exact .inl (by simpa [Tab.insert] using h)
  | cons p t ih =>
    obtain ⟨j, w⟩ := p
    simp only [Tab.insert] at h
    split at h
    · rcases List.mem_cons.1 h with rfl | h
      · exact .inl rfl
      · exact .inr h
    · split at h
      · rcases List.mem_cons.1 h with rfl | h
        · exact .inl rfl
        · exact .inr (List.mem_cons_of_mem _ h)
      · rcases List.mem_cons.1 h with rfl | h
        · exact .inr (List.mem_cons_self ..)
        · rcases ih h with h | h
          · exact .inl h
          · exact .inr (List.mem_cons_of_mem _ h)

theorem Tab.rising_erase {β : Type} (k : Nat) (t : Tab β) (h : Tab.rising t = true) : Tab.rising (Tab.erase k t) = true := by
  induction t with
  | nil => exact h
  | cons p t ih =>
    obtain ⟨j, v⟩ := p
    obtain ⟨ha, hr⟩ := (Tab.rising_cons ..).1 h
    simp only [Tab.erase]
    split
    · exact hr
    · exact (Tab.rising_cons ..).2 ⟨fun e he => ha e (Tab.mem_erase k t e he), ih hr⟩

theorem Tab.rising_insert {β : Type} (k : Nat) (v : β) (t : Tab β) (h : Tab.rising t = true) :
    Tab.rising (Tab.insert k v t) = true := by
  induction t with
  | nil => rfl
  | cons p t ih =>
    obtain ⟨j, w⟩ := p
    obtain ⟨ha, hr⟩ := (Tab.rising_cons ..).1 h
    simp only [Tab.insert]
    split
    · next hk =>
      refine (Tab.rising_cons ..).2 ⟨?_, h⟩
      intro e he
      rcases List.mem_cons.1 he with rfl | he
      · exact hk
      · exact Nat.lt_trans hk (ha e he)
    · split
      · next _ e => subst e; exact (Tab.rising_cons ..).2 ⟨ha, hr⟩
      · next h1 h2 =>
        refine (Tab.rising_cons ..).2 ⟨?_, ih hr⟩
        intro e he
        rcases Tab.mem_insert k v t e he with rfl | he
        · show j < k; omega
        · exact ha e he

/-- A table stays rising when an entry is set. -/
theorem Tab.rising_set {β : Type} [DecidableEq β] (d : β) (k : Nat) (v : β) (t : Tab β) (h : Tab.rising t = true) :
    Tab.rising (Tab.set d k v t) = true := by
  unfold Tab.set; split
  · exact Tab.rising_erase k t h
  · exact Tab.rising_insert k v t h

theorem Tab.get_above {β : Type} (d : β) (k : Nat) (t : Tab β) (h : Tab.above k t) : Tab.get d k t = d := by
  induction t with
  | nil => rfl
  | cons p t ih =>
    obtain ⟨j, v⟩ := p
    have hj : k < j := h (j, v) (List.mem_cons_self ..)
    simp only [Tab.get]
    rw [if_neg (by omega)]
    exact ih fun e he => h e (List.mem_cons_of_mem _ he)

theorem Tab.get_erase_self {β : Type} (d : β) (k : Nat) (t : Tab β) (h : Tab.rising t = true) :
    Tab.get d k (Tab.erase k t) = d := by
  induction t with
  | nil => rfl
  | cons p t ih =>
    obtain ⟨j, v⟩ := p
    obtain ⟨ha, hr⟩ := (Tab.rising_cons ..).1 h
    simp only [Tab.erase]
    split
    · next e => subst e; exact Tab.get_above d j t ha
    · next e => simp only [Tab.get, if_neg e]; exact ih hr

/-- A value set in a rising table reads back. -/
theorem Tab.get_set_self {β : Type} [DecidableEq β] (d : β) (k : Nat) (v : β) (t : Tab β) (h : Tab.rising t = true) :
    Tab.get d k (Tab.set d k v t) = v := by
  unfold Tab.set; split
  · next e => rw [Tab.get_erase_self d k t h, e]
  · rw [Tab.get_insert, if_pos rfl]

/-! ### The register store -/

theorem State.reg_setReg_ne (s : State) {a b : Nat} (h : b ≠ a) (w : Word) : (s.setReg a w).reg b = s.reg b :=
  Tab.get_set_ne _ _ h w s.regs

theorem State.reg_setReg (s : State) (a : Nat) (w : Word) (h : Tab.rising s.regs = true) : (s.setReg a w).reg a = w :=
  Tab.get_set_self _ a w s.regs h

theorem State.regs_setReg_rising (s : State) (a : Nat) (w : Word) (h : Tab.rising s.regs = true) :
    Tab.rising (s.setReg a w).regs = true := Tab.rising_set _ a w s.regs h

/-! ### Memory -/

theorem Tab.all_erase {β : Type} (p : Nat × β → Bool) (k : Nat) (t : Tab β) (h : t.all p = true) : (Tab.erase k t).all p = true := by
  rw [List.all_eq_true] at *
  exact fun e he => h e (Tab.mem_erase k t e he)

theorem Tab.all_insert {β : Type} (p : Nat × β → Bool) (k : Nat) (v : β) (t : Tab β) (h : t.all p = true) (hv : p (k, v) = true) :
    (Tab.insert k v t).all p = true := by
  rw [List.all_eq_true] at *
  intro e he
  rcases Tab.mem_insert k v t e he with rfl | he
  · exact hv
  · exact h e he

/-- The canonical form of a cell list. -/
def Mem.cellsOk (c : List Host.Cell) : Prop := Tab.rising c = true ∧ (c.all fun x => x.2 != Mem.blank) = true

theorem Mem.wf_iff (m : Mem) : m.wf = true ↔ Mem.cellsOk m.cells := by
  simp [Mem.wf, Mem.cellsOk]

theorem Mem.cellsOk_set (c : List Host.Cell) (a : Nat) (b : Byte) (h : Mem.cellsOk c) :
    Mem.cellsOk (Tab.set Mem.blank a b c) := by
  refine ⟨Tab.rising_set _ _ _ _ h.1, ?_⟩
  unfold Tab.set; split
  · exact Tab.all_erase _ a c h.2
  · next hb => exact Tab.all_insert _ a b c h.2 (by simpa using hb)

theorem Mem.cellsOk_putCells (c : List Host.Cell) (a : Nat) (bs : List Byte) (h : Mem.cellsOk c) :
    Mem.cellsOk (Mem.putCells c a bs) := by
  induction bs generalizing c a with
  | nil => exact h
  | cons b bs ih => exact ih _ _ (Mem.cellsOk_set c a b h)

/-- A store keeps the canonical form. -/
theorem Mem.wf_put (m : Mem) (a : Nat) (bs : List Byte) (h : m.wf = true) : (m.put a bs).wf = true :=
  (Mem.wf_iff _).2 (Mem.cellsOk_putCells _ a bs ((Mem.wf_iff _).1 h))

theorem Mem.cellsOk_filter (c : List Host.Cell) (p : Host.Cell → Bool) (h : Mem.cellsOk c) : Mem.cellsOk (c.filter p) := by
  refine ⟨?_, ?_⟩
  · have hr := h.1
    clear h
    induction c with
    | nil => exact hr
    | cons e c ih =>
      obtain ⟨j, v⟩ := e
      obtain ⟨ha, hr⟩ := (Tab.rising_cons ..).1 hr
      rw [List.filter_cons]
      split
      · exact (Tab.rising_cons ..).2 ⟨fun e he => ha e (List.mem_filter.1 he).1, ih hr⟩
      · exact ih hr
  · rw [List.all_eq_true]
    exact fun e he => List.all_eq_true.1 h.2 e (List.mem_filter.1 he).1

/-- A wipe keeps the canonical form. -/
theorem Mem.wf_wipe (m : Mem) (a n : Nat) (h : m.wf = true) : (m.wipe a n).wf = true :=
  (Mem.wf_iff _).2 (Mem.cellsOk_filter _ _ ((Mem.wf_iff _).1 h))

/-- A correction changes no byte. -/
@[simp] theorem Mem.heal_cells (m : Mem) (k : Nat) : (m.heal k).cells = m.cells := rfl

@[simp] theorem Mem.wf_heal (m : Mem) (k : Nat) : (m.heal k).wf = m.wf := rfl

@[simp] theorem Mem.put_errs (m : Mem) (a : Nat) (bs : List Byte) : (m.put a bs).errs = m.errs := rfl

/-- An error changes no byte. -/
@[simp] theorem Mem.hit_cells (m : Mem) (k x : Nat) : (m.hit k x).cells = m.cells := by unfold Mem.hit; split <;> rfl

@[simp] theorem Mem.wf_hit (m : Mem) (k x : Nat) : (m.hit k x).wf = m.wf := by unfold Mem.wf; rw [Mem.hit_cells]

theorem CodedWrite.wf_step (w : CodedWrite) (p : Nat × List Byte) (h : w.mem.wf = true) : (w.step p).mem.wf = true := by
  unfold CodedWrite.step; dsimp only
  split
  · exact h
  · exact Mem.wf_put _ _ _ (by rw [Mem.wf_heal]; exact h)

/-- A coded write keeps the canonical form. -/
theorem Mem.wf_write (m : Mem) (a : Nat) (bs : List Byte) (h : m.wf = true) : (m.write a bs).mem.wf = true := by
  unfold Mem.write
  generalize cutAt (codeSize a) (bs.length + 1) a bs = l
  suffices H : ∀ (w : CodedWrite), w.mem.wf = true → (l.foldl CodedWrite.step w).mem.wf = true from H ⟨m, false, [], []⟩ h
  induction l with
  | nil => exact fun _ h => h
  | cons p l ih => exact fun w h => ih _ (CodedWrite.wf_step w p h)

theorem Mem.wf_init : Mem.init.wf = true := rfl

/-- A byte stored reads back, and other bytes read as before. -/
theorem Mem.byte_put_lt (m : Mem) (a k : Nat) (bs : List Byte) (h : k < a) : (m.put a bs).byte k = m.byte k := by
  unfold Mem.put Mem.byte
  induction bs generalizing a m with
  | nil => rfl
  | cons b bs ih =>
    have := ih { m with cells := Tab.set Mem.blank a b m.cells } (a + 1) (by omega)
    simp only [Mem.putCells] at this ⊢
    rw [this]
    exact Tab.get_set_ne _ _ (by omega) b m.cells

theorem Mem.byte_put_out (m : Mem) (a k : Nat) (bs : List Byte) (h : k < a ∨ a + bs.length ≤ k) :
    (m.put a bs).byte k = m.byte k := by
  rcases h with h | h
  · exact Mem.byte_put_lt m a k bs h
  unfold Mem.put Mem.byte
  induction bs generalizing a m with
  | nil => rfl
  | cons b bs ih =>
    simp only [List.length_cons] at h
    have := ih { m with cells := Tab.set Mem.blank a b m.cells } (a + 1) (by omega)
    simp only [Mem.putCells] at this ⊢
    rw [this]
    exact Tab.get_set_ne _ _ (by omega) b m.cells

theorem Mem.read_put (m : Mem) (a : Nat) (bs : List Byte) (h : m.wf = true) : (m.put a bs).read a bs.length = bs := by
  induction bs generalizing a m with
  | nil => rfl
  | cons b bs ih =>
    have h' : ({ m with cells := Tab.set Mem.blank a b m.cells } : Mem).wf = true :=
      (Mem.wf_iff _).2 (Mem.cellsOk_set _ a b ((Mem.wf_iff _).1 h))
    have e : m.put a (b :: bs) = ({ m with cells := Tab.set Mem.blank a b m.cells } : Mem).put (a + 1) bs := rfl
    rw [e]
    show _ :: _ = _
    rw [Mem.byte_put_lt _ (a + 1) a bs (by omega), ih _ (a + 1) h']
    congr 1
    exact Tab.get_set_self _ a b m.cells ((Mem.wf_iff m).1 h).1

/-! ### Coded writes of memory without errors -/

theorem Mem.putCells_append (c : List Host.Cell) (a : Nat) (x y : List Byte) :
    Mem.putCells c a (x ++ y) = Mem.putCells (Mem.putCells c a x) (a + x.length) y := by
  induction x generalizing c a with
  | nil => rfl
  | cons b x ih => rw [List.cons_append, Mem.putCells, ih, Mem.putCells, List.length_cons]; congr 1; omega

theorem Mem.put_append (m : Mem) (a : Nat) (x y : List Byte) : m.put a (x ++ y) = (m.put a x).put (a + x.length) y := by
  unfold Mem.put; dsimp only; rw [Mem.putCells_append]

/-- A code word without an error needs no correction. -/
theorem Mem.heal_clean (m : Mem) (k : Nat) (h : m.wrong k = 0) : m.heal k = m := by
  unfold Mem.heal
  have : m.errs.filter (fun e => e.1 != k) = m.errs := by
    refine List.filter_eq_self.2 fun e he => ?_
    unfold Mem.wrong at h
    have := List.filter_eq_nil_iff.1 (List.length_eq_zero_iff.1 h) e he
    simpa using this
  rw [this]

/-- A piece of a write into a code word without an error. -/
theorem CodedWrite.step_clean (w : CodedWrite) (p : Nat × List Byte) (h : w.mem.wrong (codeKey p.1) = 0) :
    w.step p = { w with mem := w.mem.put p.1 p.2 } := by
  unfold CodedWrite.step Mem.isBad Mem.isSoft
  simp [h, Mem.heal_clean]

/-- The code word that holds a key lies in the same memory. -/
theorem isSp_codeKey (a : Nat) : isSp (codeKey a) = isSp a := by
  unfold codeKey codeSize isSp
  by_cases h : spBase ≤ a
  · simp only [h, decide_true, if_true, decide_eq_true_eq]; unfold spBase at *; omega
  · simp only [h, decide_false, Bool.false_eq_true, if_false, decide_eq_false_iff_not]; omega

theorem Mem.wrong_of_spClean (m : Mem) (k : Nat) (h : m.spClean = true) (hk : isSp k = true) : m.wrong k = 0 := by
  unfold Mem.wrong
  rw [List.length_eq_zero_iff, List.filter_eq_nil_iff]
  intro e he hh
  have := List.all_eq_true.1 h e he
  simp only [beq_iff_eq] at hh
  rw [hh, hk] at this
  exact absurd this (by decide)

theorem Mem.wrong_of_hbmClean (m : Mem) (k : Nat) (h : m.hbmClean = true) (hk : isSp k = false) : m.wrong k = 0 := by
  unfold Mem.wrong
  rw [List.length_eq_zero_iff, List.filter_eq_nil_iff]
  intro e he hh
  have := List.all_eq_true.1 h e he
  simp only [beq_iff_eq] at hh
  rw [hh, hk] at this
  exact absurd this (by decide)

/-- Pieces in turn, where no code word has an error. -/
theorem cutAt_foldl (P : Nat → Prop) (Q : Mem → Prop) (hput : ∀ m a bs, Q m → Q (m.put a bs))
    (hstep : ∀ (w : CodedWrite) (p : Nat × List Byte), P p.1 → Q w.mem → w.step p = { w with mem := w.mem.put p.1 p.2 }) (g : Nat) :
    ∀ (f a : Nat) (bs : List Byte) (w : CodedWrite), 0 < g → bs.length < f → (∀ k < bs.length, P (a + k)) → Q w.mem →
      (cutAt g f a bs).foldl CodedWrite.step w = { w with mem := w.mem.put a bs } := by
  intro f
  induction f with
  | zero => intro a bs w _ h; omega
  | succ f ih =>
    intro a bs w hg hf hP hQ
    unfold cutAt
    by_cases he : bs = []
    · subst he; rfl
    · have hl : 0 < bs.length := List.length_pos_iff.2 he
      have hn : 0 < g - a % g := by have := Nat.mod_lt a hg; omega
      rw [if_neg (by simpa using he)]
      dsimp only
      rw [List.foldl_cons, hstep _ _ (by simpa using hP 0 hl) hQ]
      by_cases hs : bs.length ≤ g - a % g
      · rw [List.drop_eq_nil_of_le hs, List.take_of_length_le hs]
        cases f <;> rfl
      · rw [ih _ _ _ hg (by rw [List.length_drop]; omega) (fun k hk => by rw [List.length_drop] at hk; have := hP (g - a % g + k) (by omega); rwa [← Nat.add_assoc] at this) (hput _ _ _ hQ)]
        dsimp only
        have ht : a + (g - a % g) = a + (bs.take (g - a % g)).length := by rw [List.length_take]; omega
        rw [ht, ← Mem.put_append, List.take_append_drop]

/-- A write to a scratchpad without errors. -/
theorem Mem.write_sp (m : Mem) (a : Nat) (bs : List Byte) (h : isSp a = true) (hc : m.spClean = true) :
    m.write a bs = ⟨m.put a bs, false, [], []⟩ := by
  unfold Mem.write
  refine cutAt_foldl (fun x => isSp x = true) (fun m => m.spClean = true) (fun m a bs h => h) ?_ _ _ _ _ _ ?_ (by omega) ?_ hc
  · exact fun w p hp hq => w.step_clean p (w.mem.wrong_of_spClean _ hq (by rw [isSp_codeKey]; exact hp))
  · unfold codeSize; split <;> decide
  · intro k _
    unfold isSp at *
    simp only [decide_eq_true_eq] at *; omega

/-- A write to HBM without errors. -/
theorem Mem.write_hbm (m : Mem) (a : Nat) (bs : List Byte) (h : a + bs.length ≤ spBase) (hc : m.hbmClean = true) :
    m.write a bs = ⟨m.put a bs, false, [], []⟩ := by
  unfold Mem.write
  refine cutAt_foldl (fun x => isSp x = false) (fun m => m.hbmClean = true) (fun m a bs h => h) ?_ _ _ _ _ _ ?_ (by omega) ?_ hc
  · exact fun w p hp hq => w.step_clean p (w.mem.wrong_of_hbmClean _ hq (by rw [isSp_codeKey]; exact hp))
  · unfold codeSize; split <;> decide
  · intro k _
    unfold isSp
    simp only [decide_eq_false_iff_not]; omega

theorem Mem.read_length (m : Mem) (a n : Nat) : (m.read a n).length = n := by
  induction n generalizing a with
  | zero => rfl
  | succ n ih => rw [Mem.read, List.length_cons, ih]

theorem Mem.read_getD (m : Mem) (a n k : Nat) (h : k < n) : (m.read a n).getD k 0 = m.byte (a + k) := by
  induction n generalizing a k with
  | zero => omega
  | succ n ih =>
    cases k with
    | zero => rfl
    | succ k => rw [Mem.read, List.getD_cons_succ, ih _ _ (by omega)]; congr 1; omega

/-- Two memories that agree on n bytes read alike there. -/
theorem Mem.read_congr (m m' : Mem) (a n : Nat) (h : ∀ k, a ≤ k → k < a + n → m.byte k = m'.byte k) : m.read a n = m'.read a n := by
  induction n generalizing a with
  | zero => rfl
  | succ n ih => rw [Mem.read, Mem.read, h a (by omega) (by omega), ih _ fun k h1 h2 => h k (by omega) (by omega)]

/-- Every byte after a store. -/
theorem Mem.byte_put (m : Mem) (a k : Nat) (bs : List Byte) (h : m.wf = true) :
    (m.put a bs).byte k = if a ≤ k ∧ k < a + bs.length then bs.getD (k - a) 0 else m.byte k := by
  by_cases e : a ≤ k ∧ k < a + bs.length
  · rw [if_pos e]
    have h1 := Mem.read_getD (m.put a bs) a bs.length (k - a) (by omega)
    rw [Mem.read_put m a bs h] at h1
    rw [h1]; congr 1; omega
  · rw [if_neg e]
    exact Mem.byte_put_out m a k bs (by omega)

end Sys2Proof.Machine
end

