-- ==== Sys2Proof/Laws/Registers.lean ====
section
/-! SUPPORT. Where register addresses lead, what an access that is served at once does, and that a quiet state is settled. -/

namespace Sys2Proof.Machine

/-! ### Addresses -/

theorem findSome_congr {α β : Type} (l : List α) (f g : α → Option β) (h : ∀ c ∈ l, f c = g c) :
    l.findSome? f = l.findSome? g := by
  induction l with
  | nil => rfl
  | cons a l ih =>
    rw [List.findSome?_cons, List.findSome?_cons, h a (List.mem_cons_self ..), ih fun c hc => h c (List.mem_cons_of_mem _ hc)]

/-- A place of BAR0 belongs to the page of the one block whose range holds it. -/
theorem pageOf_page (b : Block) (i k : Nat) (hb : b ∈ Block.all) (hi : i < b.info.2.2) (hk : k < 0x4000) :
    pageOf (b.page i + k) = some (b, i) := by
  unfold pageOf
  have key : ∀ c ∈ Block.all, (if c.info.1 ≤ b.page i + k ∧ b.page i + k < c.info.1 + c.info.2.2 * 0x4000 then
      some (c, (b.page i + k - c.info.1) / 0x4000) else none) = if c = b then some (b, i) else none := by
    intro c _
    have hp : b.page i = b.info.1 + i * 0x4000 := rfl
    by_cases e : c = b
    · subst e
      rw [if_pos ⟨by omega, by omega⟩, if_pos rfl, hp]
      congr 2; omega
    · rw [if_neg e, if_neg]
      rw [hp]
      cases b <;> cases c <;> first | exact absurd rfl e | (simp only [Block.info] at *; omega)
  rw [findSome_congr _ _ _ key]
  cases b <;> rfl

/-- The register of a logical core's page, through any view (R452, R563). -/
theorem State.regLoc_core (s : State) (n : CoreId) (ph off : Nat) (v : Fin 4) (h : s.phys n.val = some ph)
    (ho : off < 0x400) (h4 : off % 4 = 0) :
    s.regLoc (coreA n off + v.val * 0x1000) = some ⟨.core, n.val, ph, pCore ph, off, v.val⟩ := by
  have hv := v.isLt
  have e : coreA n off + v.val * 0x1000 = Block.core.page n.val + (off + v.val * 0x1000) := by unfold coreA; omega
  unfold State.regLoc
  rw [e, pageOf_page .core n.val _ (by decide) n.isLt (by omega)]
  have hb : Block.core.page n.val = 0x1000000 + n.val * 0x4000 := rfl
  simp only [h, hb, Option.some.injEq, RegAt.mk.injEq, true_and]
  constructor <;> omega

/-- The register of any other page, through any view (R452). -/
theorem State.regLoc_page (s : State) (b : Block) (i off : Nat) (v : Fin 4) (hb : b ∈ Block.all) (hc : b ≠ .core)
    (hi : i < b.info.2.2) (ho : off < 0x400) (h4 : off % 4 = 0) :
    s.regLoc (b.page i + off + v.val * 0x1000) = some ⟨b, i, i, b.page i, off, v.val⟩ := by
  have hv := v.isLt
  have e : b.page i + off + v.val * 0x1000 = b.page i + (off + v.val * 0x1000) := by omega
  have hp : b.page i % 0x4000 = 0 := by
    have : b.page i = b.info.1 + i * 0x4000 := rfl
    have hz : b.info.1 % 0x4000 = 0 := by cases b <;> rfl
    omega
  unfold State.regLoc
  rw [e, pageOf_page b i _ hb hi (by omega)]
  have h1 : (b.page i + (off + v.val * 0x1000)) % 0x400 / 4 * 4 = off := by omega
  have h2 : (b.page i + (off + v.val * 0x1000)) / 0x1000 % 4 = v.val := by omega
  rw [h1, h2]
  cases b <;> first | rfl | exact absurd rfl hc

theorem isIdx_core (n : CoreId) (k off : Nat) : isIdx (Block.core.page n.val + k) off = false := by
  unfold isIdx
  have : (Block.core.page n.val + k) / 0x4000 ≠ 0 := by
    have : Block.core.page n.val = 0x1000000 + n.val * 0x4000 := rfl
    omega
  simp [this]

/-! ### Accesses served at once -/

theorem State.writeAcc_serves (s : State) (rq : Requester) (a : Nat) (be : BitVec 4) (v : Word) (h : s.serves rq a) :
    s.writeAcc ⟨rq, a, be, v⟩ =
      if (s.regWrite rq a be v).2 then (s.regWrite rq a be v).1
      else (s.regWrite rq a be v).1.send (.regData rq none) := by
  obtain ⟨h1, h2, h3, h4⟩ := h
  unfold State.writeAcc
  dsimp only
  rw [h1, h2, h4]
  by_cases e : rq = .fabric
  · obtain ⟨h5, h6⟩ := h3 e
    simp [e, h5, h6]
  · simp [e]

theorem State.readAcc_serves (s : State) (rq : Requester) (a : Nat) (h : s.serves rq a) :
    s.readAcc ⟨rq, a⟩ = (s.regRead rq a).1.send (.regData rq (some (s.regRead rq a).2)) := by
  obtain ⟨h1, h2, h3, h4⟩ := h
  unfold State.readAcc
  dsimp only
  rw [h1, h2, h4]
  by_cases e : rq = .fabric
  · obtain ⟨h5, h6⟩ := h3 e
    simp [e, h5, h6]
  · simp [e]

/-- A served write of a register of a page that takes writes, and of no compatibility register. -/
theorem State.writeAcc_loc (s : State) (rq : Requester) (a : Nat) (be : BitVec 4) (v : Word) (r : RegAt)
    (h : s.serves rq a) (hr : s.regLoc a = some r) (hw : s.pageWritable r = true) (hi : ∀ k, isIdx a k = false) :
    s.writeAcc ⟨rq, a, be, v⟩ =
      if (s.writeLoc rq r a (v &&& beMask be) (beMask be)).2 then (s.writeLoc rq r a (v &&& beMask be) (beMask be)).1
      else (s.writeLoc rq r a (v &&& beMask be) (beMask be)).1.send (.regData rq none) := by
  rw [State.writeAcc_serves s rq a be v h]
  unfold State.regWrite State.regWrite1
  simp only [hi, Bool.false_eq_true, if_false, hr, hw, if_true]

/-- A served read of a register, and of no compatibility register. -/
theorem State.readAcc_loc (s : State) (rq : Requester) (a : Nat) (r : RegAt)
    (h : s.serves rq a) (hr : s.regLoc a = some r) (hi : ∀ k, isIdx a k = false) :
    s.readAcc ⟨rq, a⟩ = (s.readLoc rq r).1.send (.regData rq (some (s.readLoc rq r).2)) := by
  rw [State.readAcc_serves s rq a h]
  unfold State.regRead State.regRead1
  simp only [hi, Bool.false_eq_true, if_false, hr]

/-- A plain write of a register without W1C and RWS bits (R454). -/
theorem State.plainWrite_rw (s : State) (r : RegAt) (m en rw : Word) (h1 : accMask (r.blk.fieldsAt r.off) .rw = rw)
    (h2 : accMask (r.blk.fieldsAt r.off) .w1c = 0) (h3 : accMask (r.blk.fieldsAt r.off) .rws = 0) :
    s.plainWrite r m en = s.setReg (r.page + r.off) (viewPut r.view (s.reg (r.page + r.off)) m rw en) := by
  unfold State.plainWrite
  dsimp only
  rw [h1, h2, h3]
  have e : ∀ w : Word, w &&& ~~~ (m &&& (0 : Word)) = w := fun w => by
    rw [show m &&& (0 : Word) = 0 from BitVec.and_zero, show ~~~(0 : Word) = BitVec.allOnes 32 from rfl, BitVec.and_allOnes]
  rw [e, ite_self, if_pos rfl]

/-! ### Quiet states -/

theorem State.settle_quiet (s : State) (h : s.quiet) : s.settle = s := by
  obtain ⟨h1, h0, h2⟩ := h
  have e1 : State.releaseHeld (s.held.length + 1) s = s := by
    rw [h1]; show (if s.held.isEmpty = true then s else _) = s; rw [h1]; rfl
  have e2 : ∀ (l : List (Nat × CoreSt)) , (∀ e ∈ l, e.2.inflight = []) →
      l.foldl (fun s e => if e.2.inflight.isEmpty then s else (((s.vxNext e.1).nmNext e.1).chainAgain e.1).txnNext e.1) s = s := by
    intro l
    induction l with
    | nil => intro _; rfl
    | cons a l ih =>
      intro hl
      have ha := hl a (List.mem_cons_self ..)
      rw [List.foldl_cons, ha]
      exact ih fun e he => hl e (List.mem_cons_of_mem _ he)
  have e3 : s.cores.filter (fun k => (k.2.inflight.any fun e => hType e.words == tCOLL)) = [] := by
    rw [List.filter_eq_nil_iff]
    intro e he
    simp [h2 e he]
  have e0 : State.unstall s.fab.stalled.length s = s := by rw [h0]; rfl
  unfold State.settle
  rw [e0]
  dsimp only
  rw [e1, e2 _ h2]
  unfold State.collSettle
  dsimp only
  rw [e3]
  rfl

end Sys2Proof.Machine
end

