-- ==== Sys2Proof/Laws/Cores.lean ====
section
/-! SUPPORT. What taking and issuing descriptors does to a core, and which parts of the state it leaves alone. -/

namespace Sys2Proof.Machine


theorem State.core_setCore (s : State) (i : Nat) (c : CoreSt) (h : s.coresOk) : (s.setCore i c).core i = c := by
  unfold State.core State.setCore
  exact Tab.get_set_self _ _ _ _ h

theorem State.core_setCore_ne (s : State) {i j : Nat} (c : CoreSt) (h : j ≠ i) : (s.setCore i c).core j = s.core j := by
  unfold State.core State.setCore
  exact Tab.get_set_ne _ _ h _ _

theorem State.coresOk_setCore (s : State) (i : Nat) (c : CoreSt) (h : s.coresOk) : (s.setCore i c).coresOk :=
  Tab.rising_set _ _ _ _ h

theorem State.issuable_heads (s : State) (ph : Nat) (f : Fetched) (ty : Nat) (p : List Word → Bool) (h : s.heads ph f ty)
    (hp : p f.words = true) : s.issuable ph p = some f := by
  obtain ⟨h1, h2, h3, h4⟩ := h
  subst h2
  unfold State.issuable
  simp [h1, h3, h4, hp]

theorem State.core_issue (s : State) (ph : Nat) (f : Fetched) (p : Prog) (h : s.coresOk) :
    (s.issue ph f p).core ph = { s.core ph with fetched := (s.core ph).fetched.drop 1, inflight := (s.core ph).inflight ++ [⟨f.idx, f.words, p, (s.core ph).attach⟩] } := by
  have h1 : (s.popHead ph).core ph = { s.core ph with fetched := (s.core ph).fetched.drop 1 } := by
    show Tab.get _ _ _ = _
    unfold State.popHead
    exact State.core_setCore s ph _ h
  have h2 : (s.popHead ph).coresOk := State.coresOk_setCore s ph _ h
  unfold State.issue
  dsimp only
  split
  · rw [State.modCore, State.core_setCore]
    · have : ((s.popHead ph).setTok ph (hWaitTok f.words) ((s.popHead ph).tok ph (hWaitTok f.words) - hWaitCnt f.words)).core ph = (s.popHead ph).core ph := rfl
      rw [this, h1]
    · exact h2
  · rw [State.modCore, State.core_setCore _ _ _ h2, h1]

theorem State.issue_slots (s : State) (ph : Nat) (f : Fetched) (p : Prog) : (s.issue ph f p).slots = s.slots := by
  unfold State.issue State.popHead; dsimp only; split <;> rfl

theorem State.issue_units (s : State) (ph : Nat) (f : Fetched) (p : Prog) : (s.issue ph f p).units = s.units := by
  unfold State.issue State.popHead; dsimp only; split <;> rfl

theorem State.queue_issue (s : State) (ph : Nat) (f : Fetched) (p : Prog) (h : s.coresOk) (ty : Nat) :
    (s.issue ph f p).queue ph ty = s.queue ph ty ++ (if hType f.words = ty ∧ p.isDone = false then [⟨f.idx, f.words, p, (s.core ph).attach⟩] else []) := by
  unfold State.queue
  rw [State.core_issue s ph f p h]
  simp only [List.filter_append, List.filter_cons, List.filter_nil, Bool.and_eq_true, beq_iff_eq, Bool.not_eq_true']

theorem State.lockedEntries_congr (s t : State) (h : t.slots = s.slots) : t.lockedEntries = s.lockedEntries := by
  unfold State.lockedEntries State.slot; rw [h]

theorem State.spLocked_congr (s t : State) (h : t.slots = s.slots) (h2 : t.units = s.units) (ph : Nat) (r : List (Nat × Nat)) : t.spLocked ph r = s.spLocked ph r := by
  unfold State.spLocked State.logical State.lockedMem; rw [State.lockedEntries_congr s t h, h2]

end Sys2Proof.Machine
end

