-- ==== Sys2Proof/Laws/Crypto.lean ====
section
/-! SUPPORT. Laws of AES-GCM as the parcels and the Saffron engines use it: opening what was sealed gives the plaintext. -/

namespace Sys2Proof.Machine

@[simp] theorem xorList_length (a b : List Nat) : (xorList a b).length = min a.length b.length := by simp [xorList]

/-- A fold that adds one word of four bytes at each step to at least eight of them. -/
theorem foldl_words (f : List (List Nat) → Nat → List (List Nat))
    (hf : ∀ ws n, 8 ≤ ws.length → (∀ w ∈ ws, w.length = 4) → (f ws n).length = ws.length + 1 ∧ ∀ w ∈ f ws n, w.length = 4)
    (l : List Nat) (ws : List (List Nat)) (hl : 8 ≤ ws.length) (hw : ∀ w ∈ ws, w.length = 4) :
    (l.foldl f ws).length = ws.length + l.length ∧ ∀ w ∈ l.foldl f ws, w.length = 4 := by
  induction l generalizing ws with
  | nil => exact ⟨rfl, hw⟩
  | cons n l ih =>
    obtain ⟨h1, h2⟩ := hf ws n hl hw
    obtain ⟨h3, h4⟩ := ih (f ws n) (by omega) h2
    exact ⟨by rw [List.foldl_cons, h3, h1, List.length_cons]; omega, h4⟩

/-- The key schedule of a 32-byte key: 60 words of four bytes. -/
theorem aesExpand_words (key : List Nat) (h : key.length = 32) :
    (aesExpand key).length = 60 ∧ ∀ w ∈ aesExpand key, w.length = 4 := by
  have h0 : ∀ w ∈ ((List.range 8).map fun i => (key.drop (4 * i)).take 4), w.length = 4 := by
    intro w h1
    obtain ⟨i, hi, rfl⟩ := List.mem_map.1 h1
    have := List.mem_range.1 hi
    simp only [List.length_take, List.length_drop]; omega
  unfold aesExpand
  refine (fun (a : _ ∧ _) => ⟨?_, fun w h1 => a.2 w (List.mem_reverse.1 h1)⟩)
    (foldl_words _ ?_ (List.range 52) ((List.range 8).map fun i => (key.drop (4 * i)).take 4).reverse ?_ ?_)
  · intro ws n hl hw
    have g : ∀ i < 8, (ws.getD i []).length = 4 := by
      intro i hi
      have hi' : i < ws.length := by omega
      rw [List.getD_eq_getElem _ _ hi']
      exact hw _ (List.getElem_mem _)
    have g0 := g 0 (by omega)
    have g7 := g 7 (by omega)
    refine ⟨rfl, fun w h1 => ?_⟩
    rcases List.mem_cons.1 h1 with rfl | h1
    · simp only [List.length_map, List.length_zip, g7]
      split
      · simp only [List.length_cons, List.length_drop, List.length_map, List.length_append, List.length_take, g0]; rfl
      · split
        · simp only [List.length_map, g0]; rfl
        · simp only [g0]; rfl
    · exact hw w h1
  · simp only [List.length_reverse, List.length_map, List.length_range]; exact Nat.le_refl _
  · intro w h1; exact h0 w (List.mem_reverse.1 h1)
  · rw [List.length_reverse]; refine a.1.trans ?_
    simp only [List.length_reverse, List.length_map, List.length_range]

theorem aes256_length (key blk : List Nat) (h : key.length = 32) : (aes256 key blk).length = 16 := by
  obtain ⟨hl, hw⟩ := aesExpand_words key h
  have hr : ((((aesExpand key).drop 56).take 4).flatten).length = 16 := by
    have hs : ∀ w ∈ ((aesExpand key).drop 56).take 4, w.length = 4 := fun w h1 => hw w (List.mem_of_mem_drop (List.mem_of_mem_take h1))
    have : ((((aesExpand key).drop 56).take 4).map List.length) = List.replicate 4 4 :=
      List.eq_replicate_iff.2 ⟨by simp [hl], fun b hb => by obtain ⟨w, h1, rfl⟩ := List.mem_map.1 hb; exact hs w h1⟩
    rw [List.length_flatten, this]; rfl
  simp only [aes256, xorList_length, shiftRows, List.length_map, List.length_range]
  rw [hr]; rfl

/-- One block of the counter mode. -/
def ctrBlock (key : List Nat) (iv : Nat) (b : List Byte) (j : Nat) : List Byte :=
  (b.zip (aes256 key ((beBytes 12 iv ++ beBytes 4 (j + 2)).map (·.toNat)))).map fun q => q.1 ^^^ BitVec.ofNat 8 q.2

theorem ctrBlock_length (key : List Nat) (iv : Nat) (b : List Byte) (j : Nat) (h : key.length = 32) (hb : b.length ≤ 16) :
    (ctrBlock key iv b j).length = b.length := by simp [ctrBlock, aes256_length _ _ h, hb]

theorem zip_xor_twice (b : List Byte) (ks : List Nat) (h : b.length ≤ ks.length) :
    ((((b.zip ks).map fun q => q.1 ^^^ BitVec.ofNat 8 q.2).zip ks).map fun q => q.1 ^^^ BitVec.ofNat 8 q.2) = b := by
  induction b generalizing ks with
  | nil => simp
  | cons x b ih =>
    cases ks with
    | nil => simp at h
    | cons k ks =>
      simp only [List.length_cons] at h
      simp only [List.zip_cons_cons, List.map_cons, List.cons.injEq]
      exact ⟨by rw [BitVec.xor_assoc, BitVec.xor_self, BitVec.xor_zero], ih ks (by omega)⟩

theorem ctrBlock_twice (key : List Nat) (iv : Nat) (b : List Byte) (j : Nat) (h : key.length = 32) (hb : b.length ≤ 16) :
    ctrBlock key iv (ctrBlock key iv b j) j = b :=
  zip_xor_twice b _ (by rw [aes256_length _ _ h]; exact hb)

/-- The counter mode from block j on, by fuel. -/
def ctrFrom (key : List Nat) (iv : Nat) : Nat → Nat → List Byte → List Byte
  | 0, _, _ => []
  | f + 1, j, bs => if bs.isEmpty then [] else ctrBlock key iv (bs.take 16) j ++ ctrFrom key iv f (j + 1) (bs.drop 16)

theorem gcmCtr_eq (key : List Nat) (iv : Nat) (bs : List Byte) : gcmCtr key iv bs = ctrFrom key iv (cdiv bs.length 16) 0 bs := by
  have main : ∀ (f j : Nat) (bs : List Byte), (((chunksOf 16 f bs).zip (List.range' j (chunksOf 16 f bs).length)).flatMap fun p =>
      (p.1.zip (aes256 key ((beBytes 12 iv ++ beBytes 4 (p.2 + 2)).map (·.toNat)))).map fun q => q.1 ^^^ BitVec.ofNat 8 q.2)
      = ctrFrom key iv f j bs := by
    intro f
    induction f with
    | zero => intro j bs; rfl
    | succ f ih =>
      intro j bs
      unfold chunksOf ctrFrom
      split
      · rfl
      · rw [List.length_cons, List.range'_succ, List.zip_cons_cons, List.flatMap_cons, ih]
        rfl
  unfold gcmCtr
  simp only [List.range_eq_range']
  exact main _ 0 bs

theorem ctrFrom_twice (key : List Nat) (iv : Nat) (h : key.length = 32) (f j : Nat) (bs : List Byte) (hb : bs.length ≤ 16 * f) :
    (ctrFrom key iv f j bs).length = bs.length ∧ ctrFrom key iv f j (ctrFrom key iv f j bs) = bs := by
  induction f generalizing j bs with
  | zero => have : bs = [] := by simpa using hb
            subst this; exact ⟨rfl, rfl⟩
  | succ f ih =>
    by_cases he : bs = []
    · subst he; exact ⟨rfl, rfl⟩
    · have hc := ctrBlock_length key iv (bs.take 16) j h (by simp)
      obtain ⟨il, it⟩ := ih (j + 1) (bs.drop 16) (by simp; omega)
      have hpos : 0 < bs.length := List.length_pos_iff.2 he
      have e1 : ctrFrom key iv (f + 1) j bs = ctrBlock key iv (bs.take 16) j ++ ctrFrom key iv f (j + 1) (bs.drop 16) := by
        simp [ctrFrom, he]
      have hlen : (ctrFrom key iv (f + 1) j bs).length = bs.length := by
        rw [e1, List.length_append, hc, il]; simp; omega
      refine ⟨hlen, ?_⟩
      have hne : ctrFrom key iv (f + 1) j bs ≠ [] := by intro hx; rw [hx] at hlen; simp at hlen; omega
      conv_lhs => unfold ctrFrom
      rw [if_neg (by simpa using hne), e1]
      have hsplit : (ctrBlock key iv (bs.take 16) j ++ ctrFrom key iv f (j + 1) (bs.drop 16)).take 16 = ctrBlock key iv (bs.take 16) j
          ∧ (ctrBlock key iv (bs.take 16) j ++ ctrFrom key iv f (j + 1) (bs.drop 16)).drop 16 = ctrFrom key iv f (j + 1) (bs.drop 16) := by
        by_cases hl : 16 ≤ bs.length
        · have : (ctrBlock key iv (bs.take 16) j).length = 16 := by rw [hc]; simp; omega
          exact ⟨List.take_left' this, List.drop_left' this⟩
        · have h0 : ctrFrom key iv f (j + 1) (bs.drop 16) = [] := List.length_eq_zero_iff.1 (by rw [il]; simp; omega)
          have : (ctrBlock key iv (bs.take 16) j).length ≤ 16 := by rw [hc]; simp
          rw [h0, List.append_nil]
          exact ⟨List.take_of_length_le this, List.drop_of_length_le this⟩
      rw [hsplit.1, hsplit.2, ctrBlock_twice _ _ _ _ h (by simp), it, List.take_append_drop]

theorem gcmCtr_length (key : List Nat) (iv : Nat) (bs : List Byte) (h : key.length = 32) : (gcmCtr key iv bs).length = bs.length := by
  rw [gcmCtr_eq]; exact (ctrFrom_twice key iv h _ 0 bs (by unfold cdiv; omega)).1

theorem gcmCtr_twice (key : List Nat) (iv : Nat) (bs : List Byte) (h : key.length = 32) : gcmCtr key iv (gcmCtr key iv bs) = bs := by
  rw [gcmCtr_eq key iv (gcmCtr key iv bs), gcmCtr_length key iv bs h, gcmCtr_eq]
  exact (ctrFrom_twice key iv h _ 0 bs (by unfold cdiv; omega)).2

/-- Opening what was sealed under the same key, IV and additional data gives the plaintext, with a tag that matches. -/
theorem gcmOpen_gcmSeal (key : List Byte) (iv : Nat) (aad pt : List Byte) (h : key.length = 32) :
    gcmOpen key iv aad (gcmSeal key iv aad pt).1 (gcmSeal key iv aad pt).2 = (pt, true) := by
  simp only [gcmOpen, gcmSeal, beq_self_eq_true]
  rw [gcmCtr_twice _ _ _ (by simpa using h)]

theorem gcmSeal_length (key : List Byte) (iv : Nat) (aad pt : List Byte) (h : key.length = 32) :
    (gcmSeal key iv aad pt).1.length = pt.length := gcmCtr_length _ _ _ (by simpa using h)

end Sys2Proof.Machine
end

