-- ==== Sys2Proof/Laws/Fields.lean ====
section
/-! SUPPORT. What a field of a register reads after a field, or a register, has been written. -/

namespace Sys2Proof.Machine

/-! ### Bit fields of a word -/

theorem testBit_maskBits (hi lo i : Nat) (h : hi < 32) (hl : lo ≤ hi) :
    (maskBits hi lo).toNat.testBit i = decide (lo ≤ i ∧ i ≤ hi) := by
  unfold maskBits
  rw [BitVec.toNat_ofNat, Nat.testBit_mod_two_pow, Nat.testBit_shiftLeft, Nat.testBit_two_pow_sub_one]
  by_cases h1 : lo ≤ i <;> by_cases h2 : i ≤ hi
  · have : i < 32 := by omega
    have : i - lo < hi + 1 - lo := by omega
    simp [*]
  · have : ¬ (i - lo < hi + 1 - lo) := by omega
    simp [*]
  · simp [*]
  · simp [*]

theorem bit_lt (w : Word) (i : Nat) (h : 32 ≤ i) : bit w i = false := by
  unfold bit
  exact Nat.testBit_lt_two_pow (Nat.lt_of_lt_of_le w.isLt (Nat.pow_le_pow_right (by decide) h))

theorem bit_eq_getLsbD (w : Word) (i : Nat) : bit w i = w.getLsbD i := rfl

/-- Bit i of a word after bits [hi:lo] have been replaced. -/
theorem bit_setBits (w : Word) (hi lo v i : Nat) (h : hi < 32) (hl : lo ≤ hi) :
    bit (setBits w hi lo v) i = if lo ≤ i ∧ i ≤ hi then v.testBit (i - lo) else bit w i := by
  by_cases hi32 : i < 32
  · have hm := testBit_maskBits hi lo i h hl
    unfold setBits
    rw [bit_eq_getLsbD, BitVec.getLsbD_or, BitVec.getLsbD_and, BitVec.getLsbD_and, BitVec.getLsbD_not]
    have hm' : (maskBits hi lo).getLsbD i = decide (lo ≤ i ∧ i ≤ hi) := hm
    rw [hm', BitVec.getLsbD_ofNat, Nat.testBit_shiftLeft]
    by_cases hc : lo ≤ i ∧ i ≤ hi
    · simp [hc, hi32]
    · simp [hc, hi32, bit_eq_getLsbD]
  · have h1 : 32 ≤ i := by omega
    rw [bit_lt _ i h1, bit_lt _ i h1, if_neg (by omega)]

theorem testBit_bits (w : Word) (hi lo j : Nat) : (bits w hi lo).testBit j = (decide (j < hi + 1 - lo) && bit w (lo + j)) := by
  unfold bits nbits bit
  rw [Nat.testBit_mod_two_pow, Nat.testBit_shiftRight]

theorem bits_lt (w : Word) (hi lo : Nat) : bits w hi lo < 2 ^ (hi + 1 - lo) := Nat.mod_lt _ (Nat.two_pow_pos _)

/-- A field that has just been written. -/
theorem bits_setBits (w : Word) (hi lo v : Nat) (h : hi < 32) (hl : lo ≤ hi) :
    bits (setBits w hi lo v) hi lo = v % 2 ^ (hi + 1 - lo) := by
  apply Nat.eq_of_testBit_eq
  intro j
  rw [testBit_bits, bit_setBits w hi lo v _ h hl, Nat.testBit_mod_two_pow]
  by_cases hj : j < hi + 1 - lo
  · have : lo ≤ lo + j ∧ lo + j ≤ hi := by omega
    simp [hj, this]
  · simp [hj]

/-- A field beside the one that has been written. -/
theorem bits_setBits_ne (w : Word) (hi lo v hi' lo' : Nat) (h : hi < 32) (hl : lo ≤ hi) (hd : hi' < lo ∨ hi < lo') :
    bits (setBits w hi lo v) hi' lo' = bits w hi' lo' := by
  apply Nat.eq_of_testBit_eq
  intro j
  rw [testBit_bits, testBit_bits, bit_setBits w hi lo v _ h hl]
  by_cases hj : j < hi' + 1 - lo'
  · rw [if_neg (by omega)]
  · simp [hj]

theorem bit_setBits_ne (w : Word) (hi lo v i : Nat) (h : hi < 32) (hl : lo ≤ hi) (hd : i < lo ∨ hi < i) :
    bit (setBits w hi lo v) i = bit w i := by
  rw [bit_setBits w hi lo v i h hl, if_neg (by omega)]

/-! ### Fields of the register store -/

/-- A field whose bits lie within a word. -/
def FRef.ok (f : FRef) : Bool := decide (f.hi < 32) && decide (f.lo ≤ f.hi)

theorem State.reg_fset (s : State) (p : Nat) (f : FRef) (v : Nat) (h : Tab.rising s.regs = true) :
    (s.fset p f v).reg (p + f.off) = setBits (s.reg (p + f.off)) f.hi f.lo v := State.reg_setReg s _ _ h

theorem State.reg_fset_ne (s : State) (p : Nat) (f : FRef) (v : Nat) {a : Nat} (h : a ≠ p + f.off) :
    (s.fset p f v).reg a = s.reg a := State.reg_setReg_ne s h _

theorem State.regs_fset_rising (s : State) (p : Nat) (f : FRef) (v : Nat) (h : Tab.rising s.regs = true) :
    Tab.rising (s.fset p f v).regs = true := State.regs_setReg_rising s _ _ h

theorem State.fget_fset (s : State) (p : Nat) (f : FRef) (v : Nat) (h : Tab.rising s.regs = true) (hf : f.ok = true) :
    (s.fset p f v).fget p f = v % 2 ^ (f.hi + 1 - f.lo) := by
  unfold FRef.ok at hf
  simp only [Bool.and_eq_true, decide_eq_true_eq] at hf
  show bits ((s.fset p f v).reg (p + f.off)) f.hi f.lo = _
  rw [State.reg_fset s p f v h, bits_setBits _ _ _ _ hf.1 hf.2]

/-- Another register. -/
theorem State.fget_fset_off (s : State) (p q : Nat) (f g : FRef) (v : Nat) (h : q + g.off ≠ p + f.off) :
    (s.fset p f v).fget q g = s.fget q g := by
  show bits ((s.fset p f v).reg (q + g.off)) g.hi g.lo = _
  rw [State.reg_fset_ne s p f v h]; rfl

/-- Another field, of the same or of another register. -/
theorem State.fget_fset_ne (s : State) (p : Nat) (f g : FRef) (v : Nat) (h : Tab.rising s.regs = true) (hf : f.ok = true)
    (hd : g.off ≠ f.off ∨ g.hi < f.lo ∨ f.hi < g.lo) : (s.fset p f v).fget p g = s.fget p g := by
  unfold FRef.ok at hf
  simp only [Bool.and_eq_true, decide_eq_true_eq] at hf
  by_cases ho : g.off = f.off
  · show bits ((s.fset p f v).reg (p + g.off)) g.hi g.lo = bits (s.reg (p + g.off)) g.hi g.lo
    rw [ho, State.reg_fset s p f v h, bits_setBits_ne _ _ _ _ _ _ hf.1 hf.2 (by omega)]
  · exact State.fget_fset_off s p p f g v (by omega)

theorem State.fget_setReg_ne (s : State) (a : Nat) (w : Word) (p : Nat) (f : FRef) (h : p + f.off ≠ a) :
    (s.setReg a w).fget p f = s.fget p f := by
  show bits ((s.setReg a w).reg (p + f.off)) f.hi f.lo = _
  rw [State.reg_setReg_ne s h]; rfl

theorem State.fget_lt (s : State) (p : Nat) (f : FRef) : s.fget p f < 2 ^ (f.hi + 1 - f.lo) := bits_lt _ _ _

end Sys2Proof.Machine
end

