-- ==== Sys2Proof/Laws/Records.lean ====
section
/-! SUPPORT. What the writes of scratchpad, token counters and completion records leave, and a register put through a view. -/

namespace Sys2Proof.Machine

/-- A number as bytes has the bytes asked for. -/
@[simp] theorem leBytes_length (n v : Nat) : (leBytes n v).length = n := by
  induction n generalizing v with
  | zero => rfl
  | succ n ih => simp [leBytes, ih]

/-- A record has 16 bytes (R157). -/
@[simp] theorem recBytes_length (a b c d e f g h : Nat) : (recBytes a b c d e f g h).length = 16 := by
  simp [recBytes, leBytes_length]

/-- A token counter after one has been set. -/
theorem State.tok_setTok (s : State) (ph k v j : Nat) (h : s.regsOk) :
    (s.setTok ph k v).tok ph j = if j = k then v % 65536 else s.tok ph j := by
  unfold State.tok State.setTok
  by_cases e : j = k
  · subst e
    rw [State.reg_setReg s _ _ h, if_pos rfl]
    unfold bits nbits
    simp only [BitVec.toNat_ofNat, Nat.shiftRight_zero]
    omega
  · rw [State.reg_setReg_ne s (by omega), if_neg e]

/-- A scratchpad write where no word has an error. -/
theorem State.spWrite_clean (s : State) (ph x : Nat) (bs : List Byte) (hc : s.mem.spClean = true) :
    s.spWrite ph x bs = ⟨{ s with mem := s.mem.put (spKey ph x) bs }, 0, 0, []⟩ := by
  unfold State.spWrite
  dsimp only
  rw [Mem.write_sp _ _ _ (by unfold isSp spKey; simp; omega) hc]
  rfl

/-- A completion record in a scratchpad ring (R157). -/
theorem State.putRecord_sp (s : State) (ph idx ty tag : Nat) (r : Rec) (hc : s.mem.spClean = true)
    (hp : bit (s.reg (pCore ph + 0x060)) 31 = true) :
    s.putRecord ph idx ty tag r =
      ({ s with
        freeCtr := s.freeCtr + 1
        mem := s.mem.put (spKey ph ((bits (s.reg (pCore ph + 0x05C)) 31 12 * 4096 + idx % s.ringSize ph * 16) % 0x1000000))
          (recBytes r.status r.flags ty idx tag r.det r.w2
            (match r.w3 with | some v => v | none => (Config.cycles s.freeCtr).toNat)) } : State).setReg
        (pCore ph + 0x064) (s.reg (pCore ph + 0x064) + 1) := by
  unfold State.putRecord State.draw State.ringWrite
  dsimp only
  have e : ({ s with freeCtr := s.freeCtr + 1 } : State).reg (pCore ph + 0x060) = s.reg (pCore ph + 0x060) := rfl
  rw [if_pos (by rw [e]; exact hp), State.spWrite_clean { s with freeCtr := s.freeCtr + 1 } _ _ _ hc]
  rfl

/-- Bit i of the mask of the byte enables (R451). -/
theorem beMask_bit (be : BitVec 4) (i : Nat) (h : i < 32) : bit (beMask be) i = be.getLsbD (i / 8) := by
  revert be i; decide

/-- Bit i of a register after a put through a view (R452, R454). -/
theorem viewPut_bit (view : Nat) (old m rw : Word) (be : BitVec 4) (i : Nat) (h : i < 32) :
    bit (viewPut view old (m &&& beMask be) rw (beMask be)) i =
          (if bit rw i = false then bit old i
           else
             let en := be.getLsbD (i / 8)
             let w := en && bit m i
             match view with
             | 0 => if en then bit m i else bit old i
             | 1 => bit old i || w
             | 2 => bit old i && !w
             | _ => bit old i ^^ w) := by
  have hb := beMask_bit be i h
  unfold viewPut
  rcases view with _ | _ | _ | v <;>
    simp only [bit_eq_getLsbD] at * <;>
    simp only [BitVec.getLsbD_or, BitVec.getLsbD_and, BitVec.getLsbD_not, BitVec.getLsbD_xor, hb, h] <;>
    generalize be.getLsbD (i / 8) = e <;> cases e <;> cases rw.getLsbD i <;> cases m.getLsbD i <;> cases old.getLsbD i <;> rfl

end Sys2Proof.Machine
end

