-- ==== Sys2Proof/Laws/Updates.lean ====
section
/-! SUPPORT. What the updates of the engines, the fabric, the keys and the exchange leave unchanged, field by field, and all that
the link layer of a port changes. -/

namespace Sys2Proof.Machine

variable (s : State)

/-! ### State.setMx -/

@[simp] theorem State.setMx_mem (ph : Nat) (m : Mx) : (s.setMx ph m).mem = s.mem := rfl
@[simp] theorem State.setMx_regs (ph : Nat) (m : Mx) : (s.setMx ph m).regs = s.regs := rfl
@[simp] theorem State.setMx_shadows (ph : Nat) (m : Mx) : (s.setMx ph m).shadows = s.shadows := rfl
@[simp] theorem State.setMx_latches (ph : Nat) (m : Mx) : (s.setMx ph m).latches = s.latches := rfl
@[simp] theorem State.setMx_idxAddr (ph : Nat) (m : Mx) : (s.setMx ph m).idxAddr = s.idxAddr := rfl
@[simp] theorem State.setMx_fab (ph : Nat) (m : Mx) : (s.setMx ph m).fab = s.fab := rfl
@[simp] theorem State.setMx_units (ph : Nat) (m : Mx) : (s.setMx ph m).units = s.units := rfl
@[simp] theorem State.setMx_hbm (ph : Nat) (m : Mx) : (s.setMx ph m).hbm = s.hbm := rfl
@[simp] theorem State.setMx_logs (ph : Nat) (m : Mx) : (s.setMx ph m).logs = s.logs := rfl
@[simp] theorem State.setMx_wear (ph : Nat) (m : Mx) : (s.setMx ph m).wear = s.wear := rfl
@[simp] theorem State.setMx_slots (ph : Nat) (m : Mx) : (s.setMx ph m).slots = s.slots := rfl
@[simp] theorem State.setMx_coll (ph : Nat) (m : Mx) : (s.setMx ph m).coll = s.coll := rfl
@[simp] theorem State.setMx_zwk (ph : Nat) (m : Mx) : (s.setMx ph m).zwk = s.zwk := rfl
@[simp] theorem State.setMx_held (ph : Nat) (m : Mx) : (s.setMx ph m).held = s.held := rfl
@[simp] theorem State.setMx_rpb (ph : Nat) (m : Mx) : (s.setMx ph m).rpb = s.rpb := rfl
@[simp] theorem State.setMx_sec (ph : Nat) (m : Mx) : (s.setMx ph m).sec = s.sec := rfl
@[simp] theorem State.setMx_pwr (ph : Nat) (m : Mx) : (s.setMx ph m).pwr = s.pwr := rfl
@[simp] theorem State.setMx_time (ph : Nat) (m : Mx) : (s.setMx ph m).time = s.time := rfl
@[simp] theorem State.setMx_boot (ph : Nat) (m : Mx) : (s.setMx ph m).boot = s.boot := rfl
@[simp] theorem State.setMx_mctp (ph : Nat) (m : Mx) : (s.setMx ph m).mctp = s.mctp := rfl
@[simp] theorem State.setMx_bar2 (ph : Nat) (m : Mx) : (s.setMx ph m).bar2 = s.bar2 := rfl
@[simp] theorem State.setMx_out (ph : Nat) (m : Mx) : (s.setMx ph m).out = s.out := rfl
@[simp] theorem State.setMx_freeCtr (ph : Nat) (m : Mx) : (s.setMx ph m).freeCtr = s.freeCtr := rfl
@[simp] theorem State.setMx_pending (ph : Nat) (m : Mx) : (s.setMx ph m).pending = s.pending := rfl

/-! ### State.modMx -/

@[simp] theorem State.modMx_mem (ph : Nat) (f : Mx → Mx) : (s.modMx ph f).mem = s.mem := rfl
@[simp] theorem State.modMx_regs (ph : Nat) (f : Mx → Mx) : (s.modMx ph f).regs = s.regs := rfl
@[simp] theorem State.modMx_shadows (ph : Nat) (f : Mx → Mx) : (s.modMx ph f).shadows = s.shadows := rfl
@[simp] theorem State.modMx_latches (ph : Nat) (f : Mx → Mx) : (s.modMx ph f).latches = s.latches := rfl
@[simp] theorem State.modMx_idxAddr (ph : Nat) (f : Mx → Mx) : (s.modMx ph f).idxAddr = s.idxAddr := rfl
@[simp] theorem State.modMx_fab (ph : Nat) (f : Mx → Mx) : (s.modMx ph f).fab = s.fab := rfl
@[simp] theorem State.modMx_units (ph : Nat) (f : Mx → Mx) : (s.modMx ph f).units = s.units := rfl
@[simp] theorem State.modMx_hbm (ph : Nat) (f : Mx → Mx) : (s.modMx ph f).hbm = s.hbm := rfl
@[simp] theorem State.modMx_logs (ph : Nat) (f : Mx → Mx) : (s.modMx ph f).logs = s.logs := rfl
@[simp] theorem State.modMx_wear (ph : Nat) (f : Mx → Mx) : (s.modMx ph f).wear = s.wear := rfl
@[simp] theorem State.modMx_slots (ph : Nat) (f : Mx → Mx) : (s.modMx ph f).slots = s.slots := rfl
@[simp] theorem State.modMx_coll (ph : Nat) (f : Mx → Mx) : (s.modMx ph f).coll = s.coll := rfl
@[simp] theorem State.modMx_zwk (ph : Nat) (f : Mx → Mx) : (s.modMx ph f).zwk = s.zwk := rfl
@[simp] theorem State.modMx_held (ph : Nat) (f : Mx → Mx) : (s.modMx ph f).held = s.held := rfl
@[simp] theorem State.modMx_rpb (ph : Nat) (f : Mx → Mx) : (s.modMx ph f).rpb = s.rpb := rfl
@[simp] theorem State.modMx_sec (ph : Nat) (f : Mx → Mx) : (s.modMx ph f).sec = s.sec := rfl
@[simp] theorem State.modMx_pwr (ph : Nat) (f : Mx → Mx) : (s.modMx ph f).pwr = s.pwr := rfl
@[simp] theorem State.modMx_time (ph : Nat) (f : Mx → Mx) : (s.modMx ph f).time = s.time := rfl
@[simp] theorem State.modMx_boot (ph : Nat) (f : Mx → Mx) : (s.modMx ph f).boot = s.boot := rfl
@[simp] theorem State.modMx_mctp (ph : Nat) (f : Mx → Mx) : (s.modMx ph f).mctp = s.mctp := rfl
@[simp] theorem State.modMx_bar2 (ph : Nat) (f : Mx → Mx) : (s.modMx ph f).bar2 = s.bar2 := rfl
@[simp] theorem State.modMx_out (ph : Nat) (f : Mx → Mx) : (s.modMx ph f).out = s.out := rfl
@[simp] theorem State.modMx_freeCtr (ph : Nat) (f : Mx → Mx) : (s.modMx ph f).freeCtr = s.freeCtr := rfl
@[simp] theorem State.modMx_pending (ph : Nat) (f : Mx → Mx) : (s.modMx ph f).pending = s.pending := rfl

/-! ### State.modInfl -/

@[simp] theorem State.modInfl_mem (ph idx : Nat) (f : Infl → Infl) : (s.modInfl ph idx f).mem = s.mem := rfl
@[simp] theorem State.modInfl_regs (ph idx : Nat) (f : Infl → Infl) : (s.modInfl ph idx f).regs = s.regs := rfl
@[simp] theorem State.modInfl_shadows (ph idx : Nat) (f : Infl → Infl) : (s.modInfl ph idx f).shadows = s.shadows := rfl
@[simp] theorem State.modInfl_latches (ph idx : Nat) (f : Infl → Infl) : (s.modInfl ph idx f).latches = s.latches := rfl
@[simp] theorem State.modInfl_idxAddr (ph idx : Nat) (f : Infl → Infl) : (s.modInfl ph idx f).idxAddr = s.idxAddr := rfl
@[simp] theorem State.modInfl_fab (ph idx : Nat) (f : Infl → Infl) : (s.modInfl ph idx f).fab = s.fab := rfl
@[simp] theorem State.modInfl_units (ph idx : Nat) (f : Infl → Infl) : (s.modInfl ph idx f).units = s.units := rfl
@[simp] theorem State.modInfl_hbm (ph idx : Nat) (f : Infl → Infl) : (s.modInfl ph idx f).hbm = s.hbm := rfl
@[simp] theorem State.modInfl_logs (ph idx : Nat) (f : Infl → Infl) : (s.modInfl ph idx f).logs = s.logs := rfl
@[simp] theorem State.modInfl_wear (ph idx : Nat) (f : Infl → Infl) : (s.modInfl ph idx f).wear = s.wear := rfl
@[simp] theorem State.modInfl_slots (ph idx : Nat) (f : Infl → Infl) : (s.modInfl ph idx f).slots = s.slots := rfl
@[simp] theorem State.modInfl_coll (ph idx : Nat) (f : Infl → Infl) : (s.modInfl ph idx f).coll = s.coll := rfl
@[simp] theorem State.modInfl_zwk (ph idx : Nat) (f : Infl → Infl) : (s.modInfl ph idx f).zwk = s.zwk := rfl
@[simp] theorem State.modInfl_held (ph idx : Nat) (f : Infl → Infl) : (s.modInfl ph idx f).held = s.held := rfl
@[simp] theorem State.modInfl_rpb (ph idx : Nat) (f : Infl → Infl) : (s.modInfl ph idx f).rpb = s.rpb := rfl
@[simp] theorem State.modInfl_sec (ph idx : Nat) (f : Infl → Infl) : (s.modInfl ph idx f).sec = s.sec := rfl
@[simp] theorem State.modInfl_pwr (ph idx : Nat) (f : Infl → Infl) : (s.modInfl ph idx f).pwr = s.pwr := rfl
@[simp] theorem State.modInfl_time (ph idx : Nat) (f : Infl → Infl) : (s.modInfl ph idx f).time = s.time := rfl
@[simp] theorem State.modInfl_boot (ph idx : Nat) (f : Infl → Infl) : (s.modInfl ph idx f).boot = s.boot := rfl
@[simp] theorem State.modInfl_mctp (ph idx : Nat) (f : Infl → Infl) : (s.modInfl ph idx f).mctp = s.mctp := rfl
@[simp] theorem State.modInfl_bar2 (ph idx : Nat) (f : Infl → Infl) : (s.modInfl ph idx f).bar2 = s.bar2 := rfl
@[simp] theorem State.modInfl_out (ph idx : Nat) (f : Infl → Infl) : (s.modInfl ph idx f).out = s.out := rfl
@[simp] theorem State.modInfl_freeCtr (ph idx : Nat) (f : Infl → Infl) : (s.modInfl ph idx f).freeCtr = s.freeCtr := rfl
@[simp] theorem State.modInfl_pending (ph idx : Nat) (f : Infl → Infl) : (s.modInfl ph idx f).pending = s.pending := rfl

/-! ### State.setLink -/

@[simp] theorem State.setLink_mem (n : Nat) (l : LinkSt) : (s.setLink n l).mem = s.mem := rfl
@[simp] theorem State.setLink_regs (n : Nat) (l : LinkSt) : (s.setLink n l).regs = s.regs := rfl
@[simp] theorem State.setLink_shadows (n : Nat) (l : LinkSt) : (s.setLink n l).shadows = s.shadows := rfl
@[simp] theorem State.setLink_latches (n : Nat) (l : LinkSt) : (s.setLink n l).latches = s.latches := rfl
@[simp] theorem State.setLink_idxAddr (n : Nat) (l : LinkSt) : (s.setLink n l).idxAddr = s.idxAddr := rfl
@[simp] theorem State.setLink_cores (n : Nat) (l : LinkSt) : (s.setLink n l).cores = s.cores := rfl
@[simp] theorem State.setLink_units (n : Nat) (l : LinkSt) : (s.setLink n l).units = s.units := rfl
@[simp] theorem State.setLink_hbm (n : Nat) (l : LinkSt) : (s.setLink n l).hbm = s.hbm := rfl
@[simp] theorem State.setLink_logs (n : Nat) (l : LinkSt) : (s.setLink n l).logs = s.logs := rfl
@[simp] theorem State.setLink_wear (n : Nat) (l : LinkSt) : (s.setLink n l).wear = s.wear := rfl
@[simp] theorem State.setLink_slots (n : Nat) (l : LinkSt) : (s.setLink n l).slots = s.slots := rfl
@[simp] theorem State.setLink_coll (n : Nat) (l : LinkSt) : (s.setLink n l).coll = s.coll := rfl
@[simp] theorem State.setLink_zwk (n : Nat) (l : LinkSt) : (s.setLink n l).zwk = s.zwk := rfl
@[simp] theorem State.setLink_held (n : Nat) (l : LinkSt) : (s.setLink n l).held = s.held := rfl
@[simp] theorem State.setLink_rpb (n : Nat) (l : LinkSt) : (s.setLink n l).rpb = s.rpb := rfl
@[simp] theorem State.setLink_sec (n : Nat) (l : LinkSt) : (s.setLink n l).sec = s.sec := rfl
@[simp] theorem State.setLink_pwr (n : Nat) (l : LinkSt) : (s.setLink n l).pwr = s.pwr := rfl
@[simp] theorem State.setLink_time (n : Nat) (l : LinkSt) : (s.setLink n l).time = s.time := rfl
@[simp] theorem State.setLink_boot (n : Nat) (l : LinkSt) : (s.setLink n l).boot = s.boot := rfl
@[simp] theorem State.setLink_mctp (n : Nat) (l : LinkSt) : (s.setLink n l).mctp = s.mctp := rfl
@[simp] theorem State.setLink_bar2 (n : Nat) (l : LinkSt) : (s.setLink n l).bar2 = s.bar2 := rfl
@[simp] theorem State.setLink_out (n : Nat) (l : LinkSt) : (s.setLink n l).out = s.out := rfl
@[simp] theorem State.setLink_freeCtr (n : Nat) (l : LinkSt) : (s.setLink n l).freeCtr = s.freeCtr := rfl
@[simp] theorem State.setLink_pending (n : Nat) (l : LinkSt) : (s.setLink n l).pending = s.pending := rfl

/-! ### State.modReq -/

@[simp] theorem State.modReq_mem (r : Req) (f : Req → Req) : (s.modReq r f).mem = s.mem := rfl
@[simp] theorem State.modReq_regs (r : Req) (f : Req → Req) : (s.modReq r f).regs = s.regs := rfl
@[simp] theorem State.modReq_shadows (r : Req) (f : Req → Req) : (s.modReq r f).shadows = s.shadows := rfl
@[simp] theorem State.modReq_latches (r : Req) (f : Req → Req) : (s.modReq r f).latches = s.latches := rfl
@[simp] theorem State.modReq_idxAddr (r : Req) (f : Req → Req) : (s.modReq r f).idxAddr = s.idxAddr := rfl
@[simp] theorem State.modReq_cores (r : Req) (f : Req → Req) : (s.modReq r f).cores = s.cores := rfl
@[simp] theorem State.modReq_units (r : Req) (f : Req → Req) : (s.modReq r f).units = s.units := rfl
@[simp] theorem State.modReq_hbm (r : Req) (f : Req → Req) : (s.modReq r f).hbm = s.hbm := rfl
@[simp] theorem State.modReq_logs (r : Req) (f : Req → Req) : (s.modReq r f).logs = s.logs := rfl
@[simp] theorem State.modReq_wear (r : Req) (f : Req → Req) : (s.modReq r f).wear = s.wear := rfl
@[simp] theorem State.modReq_slots (r : Req) (f : Req → Req) : (s.modReq r f).slots = s.slots := rfl
@[simp] theorem State.modReq_coll (r : Req) (f : Req → Req) : (s.modReq r f).coll = s.coll := rfl
@[simp] theorem State.modReq_zwk (r : Req) (f : Req → Req) : (s.modReq r f).zwk = s.zwk := rfl
@[simp] theorem State.modReq_held (r : Req) (f : Req → Req) : (s.modReq r f).held = s.held := rfl
@[simp] theorem State.modReq_rpb (r : Req) (f : Req → Req) : (s.modReq r f).rpb = s.rpb := rfl
@[simp] theorem State.modReq_sec (r : Req) (f : Req → Req) : (s.modReq r f).sec = s.sec := rfl
@[simp] theorem State.modReq_pwr (r : Req) (f : Req → Req) : (s.modReq r f).pwr = s.pwr := rfl
@[simp] theorem State.modReq_time (r : Req) (f : Req → Req) : (s.modReq r f).time = s.time := rfl
@[simp] theorem State.modReq_boot (r : Req) (f : Req → Req) : (s.modReq r f).boot = s.boot := rfl
@[simp] theorem State.modReq_mctp (r : Req) (f : Req → Req) : (s.modReq r f).mctp = s.mctp := rfl
@[simp] theorem State.modReq_bar2 (r : Req) (f : Req → Req) : (s.modReq r f).bar2 = s.bar2 := rfl
@[simp] theorem State.modReq_out (r : Req) (f : Req → Req) : (s.modReq r f).out = s.out := rfl
@[simp] theorem State.modReq_freeCtr (r : Req) (f : Req → Req) : (s.modReq r f).freeCtr = s.freeCtr := rfl
@[simp] theorem State.modReq_pending (r : Req) (f : Req → Req) : (s.modReq r f).pending = s.pending := rfl

/-! ### State.setKey -/

@[simp] theorem State.setKey_mem (n : Nat) (k : KeySlot) : (s.setKey n k).mem = s.mem := rfl
@[simp] theorem State.setKey_regs (n : Nat) (k : KeySlot) : (s.setKey n k).regs = s.regs := rfl
@[simp] theorem State.setKey_shadows (n : Nat) (k : KeySlot) : (s.setKey n k).shadows = s.shadows := rfl
@[simp] theorem State.setKey_latches (n : Nat) (k : KeySlot) : (s.setKey n k).latches = s.latches := rfl
@[simp] theorem State.setKey_idxAddr (n : Nat) (k : KeySlot) : (s.setKey n k).idxAddr = s.idxAddr := rfl
@[simp] theorem State.setKey_cores (n : Nat) (k : KeySlot) : (s.setKey n k).cores = s.cores := rfl
@[simp] theorem State.setKey_fab (n : Nat) (k : KeySlot) : (s.setKey n k).fab = s.fab := rfl
@[simp] theorem State.setKey_units (n : Nat) (k : KeySlot) : (s.setKey n k).units = s.units := rfl
@[simp] theorem State.setKey_hbm (n : Nat) (k : KeySlot) : (s.setKey n k).hbm = s.hbm := rfl
@[simp] theorem State.setKey_logs (n : Nat) (k : KeySlot) : (s.setKey n k).logs = s.logs := rfl
@[simp] theorem State.setKey_wear (n : Nat) (k : KeySlot) : (s.setKey n k).wear = s.wear := rfl
@[simp] theorem State.setKey_slots (n : Nat) (k : KeySlot) : (s.setKey n k).slots = s.slots := rfl
@[simp] theorem State.setKey_coll (n : Nat) (k : KeySlot) : (s.setKey n k).coll = s.coll := rfl
@[simp] theorem State.setKey_zwk (n : Nat) (k : KeySlot) : (s.setKey n k).zwk = s.zwk := rfl
@[simp] theorem State.setKey_held (n : Nat) (k : KeySlot) : (s.setKey n k).held = s.held := rfl
@[simp] theorem State.setKey_rpb (n : Nat) (k : KeySlot) : (s.setKey n k).rpb = s.rpb := rfl
@[simp] theorem State.setKey_pwr (n : Nat) (k : KeySlot) : (s.setKey n k).pwr = s.pwr := rfl
@[simp] theorem State.setKey_time (n : Nat) (k : KeySlot) : (s.setKey n k).time = s.time := rfl
@[simp] theorem State.setKey_boot (n : Nat) (k : KeySlot) : (s.setKey n k).boot = s.boot := rfl
@[simp] theorem State.setKey_mctp (n : Nat) (k : KeySlot) : (s.setKey n k).mctp = s.mctp := rfl
@[simp] theorem State.setKey_bar2 (n : Nat) (k : KeySlot) : (s.setKey n k).bar2 = s.bar2 := rfl
@[simp] theorem State.setKey_out (n : Nat) (k : KeySlot) : (s.setKey n k).out = s.out := rfl
@[simp] theorem State.setKey_freeCtr (n : Nat) (k : KeySlot) : (s.setKey n k).freeCtr = s.freeCtr := rfl
@[simp] theorem State.setKey_pending (n : Nat) (k : KeySlot) : (s.setKey n k).pending = s.pending := rfl

/-! ### State.setSaf -/

@[simp] theorem State.setSaf_mem (n : Nat) (x : SafSt) : (s.setSaf n x).mem = s.mem := rfl
@[simp] theorem State.setSaf_regs (n : Nat) (x : SafSt) : (s.setSaf n x).regs = s.regs := rfl
@[simp] theorem State.setSaf_shadows (n : Nat) (x : SafSt) : (s.setSaf n x).shadows = s.shadows := rfl
@[simp] theorem State.setSaf_latches (n : Nat) (x : SafSt) : (s.setSaf n x).latches = s.latches := rfl
@[simp] theorem State.setSaf_idxAddr (n : Nat) (x : SafSt) : (s.setSaf n x).idxAddr = s.idxAddr := rfl
@[simp] theorem State.setSaf_cores (n : Nat) (x : SafSt) : (s.setSaf n x).cores = s.cores := rfl
@[simp] theorem State.setSaf_fab (n : Nat) (x : SafSt) : (s.setSaf n x).fab = s.fab := rfl
@[simp] theorem State.setSaf_units (n : Nat) (x : SafSt) : (s.setSaf n x).units = s.units := rfl
@[simp] theorem State.setSaf_hbm (n : Nat) (x : SafSt) : (s.setSaf n x).hbm = s.hbm := rfl
@[simp] theorem State.setSaf_logs (n : Nat) (x : SafSt) : (s.setSaf n x).logs = s.logs := rfl
@[simp] theorem State.setSaf_wear (n : Nat) (x : SafSt) : (s.setSaf n x).wear = s.wear := rfl
@[simp] theorem State.setSaf_slots (n : Nat) (x : SafSt) : (s.setSaf n x).slots = s.slots := rfl
@[simp] theorem State.setSaf_coll (n : Nat) (x : SafSt) : (s.setSaf n x).coll = s.coll := rfl
@[simp] theorem State.setSaf_zwk (n : Nat) (x : SafSt) : (s.setSaf n x).zwk = s.zwk := rfl
@[simp] theorem State.setSaf_held (n : Nat) (x : SafSt) : (s.setSaf n x).held = s.held := rfl
@[simp] theorem State.setSaf_rpb (n : Nat) (x : SafSt) : (s.setSaf n x).rpb = s.rpb := rfl
@[simp] theorem State.setSaf_pwr (n : Nat) (x : SafSt) : (s.setSaf n x).pwr = s.pwr := rfl
@[simp] theorem State.setSaf_time (n : Nat) (x : SafSt) : (s.setSaf n x).time = s.time := rfl
@[simp] theorem State.setSaf_boot (n : Nat) (x : SafSt) : (s.setSaf n x).boot = s.boot := rfl
@[simp] theorem State.setSaf_mctp (n : Nat) (x : SafSt) : (s.setSaf n x).mctp = s.mctp := rfl
@[simp] theorem State.setSaf_bar2 (n : Nat) (x : SafSt) : (s.setSaf n x).bar2 = s.bar2 := rfl
@[simp] theorem State.setSaf_out (n : Nat) (x : SafSt) : (s.setSaf n x).out = s.out := rfl
@[simp] theorem State.setSaf_freeCtr (n : Nat) (x : SafSt) : (s.setSaf n x).freeCtr = s.freeCtr := rfl
@[simp] theorem State.setSaf_pending (n : Nat) (x : SafSt) : (s.setSaf n x).pending = s.pending := rfl

/-! ### State.setZwk -/

@[simp] theorem State.setZwk_mem (f : ZwkSt → ZwkSt) : (s.setZwk f).mem = s.mem := rfl
@[simp] theorem State.setZwk_regs (f : ZwkSt → ZwkSt) : (s.setZwk f).regs = s.regs := rfl
@[simp] theorem State.setZwk_shadows (f : ZwkSt → ZwkSt) : (s.setZwk f).shadows = s.shadows := rfl
@[simp] theorem State.setZwk_latches (f : ZwkSt → ZwkSt) : (s.setZwk f).latches = s.latches := rfl
@[simp] theorem State.setZwk_idxAddr (f : ZwkSt → ZwkSt) : (s.setZwk f).idxAddr = s.idxAddr := rfl
@[simp] theorem State.setZwk_cores (f : ZwkSt → ZwkSt) : (s.setZwk f).cores = s.cores := rfl
@[simp] theorem State.setZwk_fab (f : ZwkSt → ZwkSt) : (s.setZwk f).fab = s.fab := rfl
@[simp] theorem State.setZwk_units (f : ZwkSt → ZwkSt) : (s.setZwk f).units = s.units := rfl
@[simp] theorem State.setZwk_hbm (f : ZwkSt → ZwkSt) : (s.setZwk f).hbm = s.hbm := rfl
@[simp] theorem State.setZwk_logs (f : ZwkSt → ZwkSt) : (s.setZwk f).logs = s.logs := rfl
@[simp] theorem State.setZwk_wear (f : ZwkSt → ZwkSt) : (s.setZwk f).wear = s.wear := rfl
@[simp] theorem State.setZwk_slots (f : ZwkSt → ZwkSt) : (s.setZwk f).slots = s.slots := rfl
@[simp] theorem State.setZwk_coll (f : ZwkSt → ZwkSt) : (s.setZwk f).coll = s.coll := rfl
@[simp] theorem State.setZwk_held (f : ZwkSt → ZwkSt) : (s.setZwk f).held = s.held := rfl
@[simp] theorem State.setZwk_rpb (f : ZwkSt → ZwkSt) : (s.setZwk f).rpb = s.rpb := rfl
@[simp] theorem State.setZwk_sec (f : ZwkSt → ZwkSt) : (s.setZwk f).sec = s.sec := rfl
@[simp] theorem State.setZwk_pwr (f : ZwkSt → ZwkSt) : (s.setZwk f).pwr = s.pwr := rfl
@[simp] theorem State.setZwk_time (f : ZwkSt → ZwkSt) : (s.setZwk f).time = s.time := rfl
@[simp] theorem State.setZwk_boot (f : ZwkSt → ZwkSt) : (s.setZwk f).boot = s.boot := rfl
@[simp] theorem State.setZwk_mctp (f : ZwkSt → ZwkSt) : (s.setZwk f).mctp = s.mctp := rfl
@[simp] theorem State.setZwk_bar2 (f : ZwkSt → ZwkSt) : (s.setZwk f).bar2 = s.bar2 := rfl
@[simp] theorem State.setZwk_out (f : ZwkSt → ZwkSt) : (s.setZwk f).out = s.out := rfl
@[simp] theorem State.setZwk_freeCtr (f : ZwkSt → ZwkSt) : (s.setZwk f).freeCtr = s.freeCtr := rfl
@[simp] theorem State.setZwk_pending (f : ZwkSt → ZwkSt) : (s.setZwk f).pending = s.pending := rfl

/-! ### State.setConv -/

@[simp] theorem State.setConv_mem (f : Convener → Convener) : (s.setConv f).mem = s.mem := rfl
@[simp] theorem State.setConv_regs (f : Convener → Convener) : (s.setConv f).regs = s.regs := rfl
@[simp] theorem State.setConv_shadows (f : Convener → Convener) : (s.setConv f).shadows = s.shadows := rfl
@[simp] theorem State.setConv_latches (f : Convener → Convener) : (s.setConv f).latches = s.latches := rfl
@[simp] theorem State.setConv_idxAddr (f : Convener → Convener) : (s.setConv f).idxAddr = s.idxAddr := rfl
@[simp] theorem State.setConv_cores (f : Convener → Convener) : (s.setConv f).cores = s.cores := rfl
@[simp] theorem State.setConv_fab (f : Convener → Convener) : (s.setConv f).fab = s.fab := rfl
@[simp] theorem State.setConv_units (f : Convener → Convener) : (s.setConv f).units = s.units := rfl
@[simp] theorem State.setConv_hbm (f : Convener → Convener) : (s.setConv f).hbm = s.hbm := rfl
@[simp] theorem State.setConv_logs (f : Convener → Convener) : (s.setConv f).logs = s.logs := rfl
@[simp] theorem State.setConv_wear (f : Convener → Convener) : (s.setConv f).wear = s.wear := rfl
@[simp] theorem State.setConv_slots (f : Convener → Convener) : (s.setConv f).slots = s.slots := rfl
@[simp] theorem State.setConv_coll (f : Convener → Convener) : (s.setConv f).coll = s.coll := rfl
@[simp] theorem State.setConv_held (f : Convener → Convener) : (s.setConv f).held = s.held := rfl
@[simp] theorem State.setConv_rpb (f : Convener → Convener) : (s.setConv f).rpb = s.rpb := rfl
@[simp] theorem State.setConv_sec (f : Convener → Convener) : (s.setConv f).sec = s.sec := rfl
@[simp] theorem State.setConv_pwr (f : Convener → Convener) : (s.setConv f).pwr = s.pwr := rfl
@[simp] theorem State.setConv_time (f : Convener → Convener) : (s.setConv f).time = s.time := rfl
@[simp] theorem State.setConv_boot (f : Convener → Convener) : (s.setConv f).boot = s.boot := rfl
@[simp] theorem State.setConv_mctp (f : Convener → Convener) : (s.setConv f).mctp = s.mctp := rfl
@[simp] theorem State.setConv_bar2 (f : Convener → Convener) : (s.setConv f).bar2 = s.bar2 := rfl
@[simp] theorem State.setConv_out (f : Convener → Convener) : (s.setConv f).out = s.out := rfl
@[simp] theorem State.setConv_freeCtr (f : Convener → Convener) : (s.setConv f).freeCtr = s.freeCtr := rfl
@[simp] theorem State.setConv_pending (f : Convener → Convener) : (s.setConv f).pending = s.pending := rfl

/-! ### State.modB2 -/

@[simp] theorem State.modB2_mem (id : Nat) (f : Bar2Acc → Bar2Acc) : (s.modB2 id f).mem = s.mem := rfl
@[simp] theorem State.modB2_regs (id : Nat) (f : Bar2Acc → Bar2Acc) : (s.modB2 id f).regs = s.regs := rfl
@[simp] theorem State.modB2_shadows (id : Nat) (f : Bar2Acc → Bar2Acc) : (s.modB2 id f).shadows = s.shadows := rfl
@[simp] theorem State.modB2_latches (id : Nat) (f : Bar2Acc → Bar2Acc) : (s.modB2 id f).latches = s.latches := rfl
@[simp] theorem State.modB2_idxAddr (id : Nat) (f : Bar2Acc → Bar2Acc) : (s.modB2 id f).idxAddr = s.idxAddr := rfl
@[simp] theorem State.modB2_cores (id : Nat) (f : Bar2Acc → Bar2Acc) : (s.modB2 id f).cores = s.cores := rfl
@[simp] theorem State.modB2_fab (id : Nat) (f : Bar2Acc → Bar2Acc) : (s.modB2 id f).fab = s.fab := rfl
@[simp] theorem State.modB2_units (id : Nat) (f : Bar2Acc → Bar2Acc) : (s.modB2 id f).units = s.units := rfl
@[simp] theorem State.modB2_hbm (id : Nat) (f : Bar2Acc → Bar2Acc) : (s.modB2 id f).hbm = s.hbm := rfl
@[simp] theorem State.modB2_logs (id : Nat) (f : Bar2Acc → Bar2Acc) : (s.modB2 id f).logs = s.logs := rfl
@[simp] theorem State.modB2_wear (id : Nat) (f : Bar2Acc → Bar2Acc) : (s.modB2 id f).wear = s.wear := rfl
@[simp] theorem State.modB2_slots (id : Nat) (f : Bar2Acc → Bar2Acc) : (s.modB2 id f).slots = s.slots := rfl
@[simp] theorem State.modB2_coll (id : Nat) (f : Bar2Acc → Bar2Acc) : (s.modB2 id f).coll = s.coll := rfl
@[simp] theorem State.modB2_zwk (id : Nat) (f : Bar2Acc → Bar2Acc) : (s.modB2 id f).zwk = s.zwk := rfl
@[simp] theorem State.modB2_held (id : Nat) (f : Bar2Acc → Bar2Acc) : (s.modB2 id f).held = s.held := rfl
@[simp] theorem State.modB2_rpb (id : Nat) (f : Bar2Acc → Bar2Acc) : (s.modB2 id f).rpb = s.rpb := rfl
@[simp] theorem State.modB2_sec (id : Nat) (f : Bar2Acc → Bar2Acc) : (s.modB2 id f).sec = s.sec := rfl
@[simp] theorem State.modB2_pwr (id : Nat) (f : Bar2Acc → Bar2Acc) : (s.modB2 id f).pwr = s.pwr := rfl
@[simp] theorem State.modB2_time (id : Nat) (f : Bar2Acc → Bar2Acc) : (s.modB2 id f).time = s.time := rfl
@[simp] theorem State.modB2_boot (id : Nat) (f : Bar2Acc → Bar2Acc) : (s.modB2 id f).boot = s.boot := rfl
@[simp] theorem State.modB2_mctp (id : Nat) (f : Bar2Acc → Bar2Acc) : (s.modB2 id f).mctp = s.mctp := rfl
@[simp] theorem State.modB2_out (id : Nat) (f : Bar2Acc → Bar2Acc) : (s.modB2 id f).out = s.out := rfl
@[simp] theorem State.modB2_freeCtr (id : Nat) (f : Bar2Acc → Bar2Acc) : (s.modB2 id f).freeCtr = s.freeCtr := rfl
@[simp] theorem State.modB2_pending (id : Nat) (f : Bar2Acc → Bar2Acc) : (s.modB2 id f).pending = s.pending := rfl

/-! ### The link layer: links, outputs and free values, and nothing else -/

/-- Equal but for the fabric, the outputs and the counter of free values. -/
def SameButLinks (s t : State) : Prop := t = { s with fab := t.fab, out := t.out, freeCtr := t.freeCtr }

theorem SameButLinks.refl (s : State) : SameButLinks s s := rfl

theorem SameButLinks.trans {s t u : State} (h : SameButLinks s t) (g : SameButLinks t u) : SameButLinks s u := by
  unfold SameButLinks at *; rw [g, h]

theorem SameButLinks.foldl {α : Type} (f : State → α → State) (h : ∀ s x, SameButLinks s (f s x)) (l : List α) (s : State) :
    SameButLinks s (l.foldl f s) := by
  induction l generalizing s with
  | nil => exact .refl s
  | cons x l ih => exact (h s x).trans (ih (f s x))

theorem State.newFlit_same (n : Nat) (x : Option Packet × List Byte) : SameButLinks s (s.newFlit n x) := by
  unfold State.newFlit
  cases x.1 <;> rfl

/-- What PUMP can do: send flits of one port. -/
theorem State.pump_same (n : Nat) : SameButLinks s (s.pump n) := by
  unfold State.pump
  dsimp only
  split
  · exact .refl s
  · exact SameButLinks.trans (t := s.setLink n { s.link n with queue := (s.link n).queue.drop (min (s.link n).queue.length (256 - (s.link n).unacked.length)) })
      rfl (.foldl _ (fun s x => s.newFlit_same n x) _ _)

theorem State.toPort_same (n : Nat) (p : Packet) : SameButLinks s (s.toPort n p) :=
  SameButLinks.trans (t := s.setLink n { s.link n with queue := (s.link n).queue ++ p.flits }) rfl (State.pump_same _ n)

theorem State.putFlit_same (n : Nat) (f : Flit) : SameButLinks s (s.putFlit n f) := rfl

theorem State.replayFrom_same (n seq : Nat) : SameButLinks s (s.replayFrom n seq) :=
  .foldl _ (fun s f => s.putFlit_same n f) _ _

theorem State.replayAll_same (n : Nat) : SameButLinks s (s.replayAll n) :=
  SameButLinks.trans (.foldl _ (fun s f => s.putFlit_same n f) _ _) (State.pump_same _ n)

/-- An answer sent changes links, outputs and free values at most. -/
theorem State.sendAnswer_same (p : Packet) : SameButLinks s (s.sendAnswer p) := by
  unfold State.sendAnswer
  split
  · split
    · exact .refl s
    · exact s.toPort_same _ _
  · exact .refl s

theorem State.respond_same (p : Packet) (status detail : Nat) (data : List Byte) : SameButLinks s (s.respond p status detail data) :=
  s.sendAnswer_same _

end Sys2Proof.Machine
end

