-- ==== Sys2Proof/WellFormed.lean ====
section
/-! DEFINITION. Which commands are well formed: their operands lie in the ranges that the spec gives them. A command's
effect is defined for every operand; well-formedness says which operands the outside can bring. -/

namespace Sys2Proof

/-- BAR0 addresses are word addresses within 64 MiB (R451, R562). -/
def barOk (a : Nat) : Bool := decide (a < 0x4000000) && a % 4 == 0

def RegWr.ok (w : RegWr) : Bool := barOk w.addr
def RegRd.ok (r : RegRd) : Bool := barOk r.addr

/-- A packet carries at most 256 bytes (R294, R302). -/
def Packet.ok (p : Packet) : Bool := decide (p.payload.length ≤ 256)
def Arrival.ok (a : Arrival) : Bool := a.pkt.ok

def RegAcc.ok : RegAcc → Bool
  | .rd r => r.ok
  | .wr w => w.ok
  | .pkt a => a.ok

/-- A link width and rate that PCI Express has (R437). -/
def HostLink.ok (l : HostLink) : Bool := decide (l.width ≤ 16) && decide (l.rate < 16)

/-- Modules, cores, groups and sequence numbers within their fields (R302, R369). -/
def CollMsg.ok (m : CollMsg) : Bool :=
  decide (m.fromLid < 4096) && decide (m.fromCore < 1024) && decide (m.lid < 4096) && decide (m.core < 1024)

def CollIn.ok : CollIn → Bool
  | .here _ => true
  | .net a m => a.ok && m.ok

/-- A frame is within the 9,216 bytes of R410. -/
def ParcelIn.ok : ParcelIn → Bool
  | .frame _ bs => decide (bs.length ≤ 9216)
  | .fabric ps => ps.all fun a => a.ok

/-- The numbers of a decision within the fields of its record (R404). -/
def Decision.ok (d : Decision) : Bool :=
  decide (d.round < 2 ^ 32) && decide (d.epoch < 65536) && decide (d.members < 65536) && decide (d.kind < 3) && decide (d.decider < 16)
    && decide (d.contribs.length ≤ 32) && decide (d.drops.length ≤ 8) && decide (d.n < 2 ^ 32) && decide (d.observers < 65536)
    && (d.contribs.all fun c => decide (c.round < 2 ^ 32) && decide (c.site < 16) && decide (c.tau < 16) && decide (c.weight < 2 ^ 32))
    && d.drops.all fun x => decide (x.1 < 2 ^ 32) && decide (x.2 < 16)

/-- Ranges that an exclusion list can hold (R395): at most 1,024, by 32-bit offsets; each starts at a parcel of a stream. -/
def rangesOk (r : Ranges) : Bool :=
  match r with
  | none => true
  | some l => decide (l.length ≤ 1024) && l.all fun x => x.1 % 8192 == 0 && decide (x.1 < 2 ^ 32) && decide (x.2 < 2 ^ 32)

/-- The numbers of a message within their fields (R420). -/
def ZCtrl.ok : ZCtrl → Bool
  | .nak g m => decide (g < 2 ^ 24) && decide (m < 2 ^ 48)
  | .complete => true
  | .missing r => rangesOk r
  | .final r => rangesOk r
  | .ping => true
  | .have_ r held jump => decide (r < 2 ^ 32) && decide (held.length ≤ 9) && decide (jump < 2 ^ 32)
      && held.all fun x => decide (x.1 < 2 ^ 32) && decide (x.2 < 65536)
  | .decide_ d => d.ok
  | .dack r => decide (r < 2 ^ 32)
  | .commit r => decide (r < 2 ^ 32)
  | .beat e m st r f => decide (e < 65536) && decide (m < 65536) && decide (st < 4) && decide (r < 2 ^ 32) && decide (f < 2 ^ 32)
  | .newEpoch e m b => decide (e < 65536) && decide (m < 65536) && decide (b < 2 ^ 32)
  | .ledger f r n => decide (f < 2 ^ 32) && decide (r < 2 ^ 32) && decide (n < 17)
  | .join x => decide (x < 16)
  | .ready x r => decide (x < 16) && decide (r < 2 ^ 32)

def CtrlIn.ok (p : CtrlIn) : Bool := p.carrier.ok && p.body.ok
def ConvIn.ok (m : ConvIn) : Bool := m.pkt.ok

/-- Boot steps are numbered 1 to 14, dies 0 to 7 (R539). -/
def BootIn.ok (b : BootIn) : Bool :=
  decide (b.hang ≤ 14) && decide (b.hangDie < 8) && decide (b.dies.length ≤ 8) && decide (b.hbms.length ≤ 32)
    && decide (b.saf.length ≤ 5) && decide (b.ports.length ≤ 16) && decide (b.sites.length ≤ 2)

/-- A page of BAR0, by its place (R562). -/
def pageOk (p : Nat) : Bool := decide (p < 4096)

/-- A BAR2 access: its bytes within one TLP of 4,096 bytes (R442). -/
def bar2Ok (len : Nat) : Bool := decide (0 < len ∧ len ≤ 4096)

/-- An error lies in memory. -/
def HbmHit.wellFormed (h : HbmHit) : Bool := decide (h.x < 0x24000000000)
def SpHit.wellFormed (h : SpHit) : Bool := decide (h.x < 0x600000)

/-- The checks of a command, one arm per constructor. -/
def Instr.wellFormed : Instr → Bool
  | .drTailWrite _ _ => true
  | .descriptorFetch _ => true
  | .reservedType _ => true
  | .waitTimeout _ => true
  | .matmul _ => true
  | .maxExponentScan _ => true
  | .sweepStart _ => true
  | .sweepDrain _ => true
  | .attemptRepeat _ => true
  | .passComplete _ => true
  | .issuePause _ => true
  | .pauseEnd _ => true
  | .preemptRequest _ _ _ => true
  | .preemptSave _ _ => true
  | .saveComplete _ => true
  | .preemptRelease _ _ _ => true
  | .restoreComplete _ => true
  | .datapathFault _ => true
  | .operandUe _ x => decide (x < 0x600000)
  | .chain _ => true
  | .chainTile _ => true
  | .move _ => true
  | .registerMove _ => true
  | .sync _ => true
  | .fence _ => true
  | .fprint _ => true
  | .add _ => true
  | .sub _ => true
  | .mul _ => true
  | .fma _ => true
  | .max _ => true
  | .min _ => true
  | .scale _ => true
  | .cvt _ => true
  | .abs _ => true
  | .neg _ => true
  | .exp2 _ => true
  | .log2 _ => true
  | .rcp _ => true
  | .rsqrt _ => true
  | .sqrt _ => true
  | .tanh _ => true
  | .erf _ => true
  | .rowsum _ => true
  | .rowmax _ => true
  | .rowssq _ => true
  | .rowmul _ => true
  | .colmul _ => true
  | .zenc _ => true
  | .zacc _ => true
  | .zundo _ => true
  | .zmean _ => true
  | .zfield _ => true
  | .vectorComplete _ => true
  | .rule _ => true
  | .seed _ => true
  | .derive _ => true
  | .fold _ => true
  | .norms _ => true
  | .nmerge _ => true
  | .audit _ => true
  | .eval _ => true
  | .extract _ => true
  | .cmp _ => true
  | .outer _ => true
  | .updateComplete _ => true
  | .barrier _ => true
  | .allreduce _ => true
  | .reduceScatter _ => true
  | .allgather _ => true
  | .broadcast _ => true
  | .alltoall _ => true
  | .txnBegin _ => true
  | .txnAttach _ => true
  | .txnDetach _ => true
  | .txnAction _ => true
  | .txnCommit _ => true
  | .txnAbort _ => true
  | .zwkSend _ => true
  | .zwkCollect _ => true
  | .zwkSnapSend _ => true
  | .zwkSnapRecv _ => true
  | .zwkCatchup _ => true
  | .coreRst _ _ _ => true
  | .haltWrite _ _ => true
  | .tokenWrite _ _ _ => true
  | .tabClr _ _ _ => true
  | .flagClear _ _ _ _ => true
  | .readClear r => r.ok
  | .loRead r => r.ok
  | .registerWrite w => w.ok
  | .pgEvtWrite page _ => pageOk page
  | .pgEvtInj page _ _ => pageOk page
  | .pgCntSel page _ => pageOk page
  | .updStrobe _ _ => true
  | .updateApply _ => true
  | .hsemRead _ _ => true
  | .hsemWrite _ _ => true
  | .idxData _ _ => true
  | .h2fWrite _ _ _ _ => true
  | .h2fRead _ _ => true
  | .f2hWrite _ _ _ => true
  | .f2hRead _ _ _ => true
  | .doorbellRing _ _ _ _ => true
  | .routeGen _ => true
  | .routeFillDone => true
  | .rtDataWrite _ => true
  | .modIdWrite _ => true
  | .forceAbort _ _ => true
  | .forceCommit _ _ => true
  | .forceRelease _ _ => true
  | .d1Set _ => true
  | .d1Clear _ => true
  | .d2Exit _ _ => true
  | .arbCommit _ _ => true
  | .verify => true
  | .attest => true
  | .nonceNew => true
  | .slotErase _ _ => true
  | .untrRel _ _ => true
  | .jrTailWrite _ _ => true
  | .encrypt _ => true
  | .decrypt _ => true
  | .safJobComplete _ => true
  | .selfTest _ _ => true
  | .rngFail => true
  | .safStallTimeout _ => true
  | .reqP0 _ _ => true
  | .reqP2 _ _ => true
  | .reqP3 _ _ => true
  | .reqP4 _ _ => true
  | .spareCore _ _ => true
  | .spareBank _ _ _ => true
  | .spareHbmRebuild _ _ => true
  | .logDataRead _ => true
  | .portEnable _ _ _ => true
  | .portDisable _ _ _ => true
  | .portTraining _ _ => true
  | .trainingTimeout _ => true
  | .laneFailure _ _ => true
  | .retrainDone _ _ => true
  | .retrainTimeout _ => true
  | .flitReceive _ f => f.data.length == 248
  | .packetForward a => a.ok
  | .rd a => a.ok
  | .wr a => a.ok
  | .sig a => a.ok
  | .rsp a _ => a.ok
  | .fabNak a _ => a.ok
  | .c2Resend _ => true
  | .trackerAdmit _ => true
  | .requestTimeout _ => true
  | .c2Timeout _ => true
  | .join a => a.ok
  | .vote a => a.ok
  | .decideMsg a => a.ok
  | .ack a => a.ok
  | .query a => a.ok
  | .voteTimeout _ => true
  | .decideResend _ => true
  | .inDoubt _ => true
  | .applyDone _ _ => true
  | .enter x => x.ok
  | .collStart x => x.ok
  | .pre x => x.ok
  | .go x => x.ok
  | .chunkMsg x => x.ok
  | .collFree x => x.ok
  | .report x => x.ok
  | .stop x => x.ok
  | .verdict x => x.ok
  | .excluded x => x.ok
  | .entryDeadline _ => true
  | .entryTimeout _ => true
  | .startTimeout _ => true
  | .chunkTimeout _ => true
  | .stopTimeout _ => true
  | .lateTimeout _ => true
  | .dataParcel p => p.ok
  | .parityParcel p => p.ok
  | .frameDrop f => decide (f.bytes.length ≤ 9216)
  | .zwkNak p => p.ok
  | .complete p => p.ok
  | .missing p => p.ok
  | .finalMsg p => p.ok
  | .ping p => p.ok
  | .haveMsg p => p.ok
  | .zwkDecide p => p.ok
  | .dack p => p.ok
  | .zwkCommit p => p.ok
  | .beat p => p.ok
  | .newepoch p => p.ok
  | .ledger p => p.ok
  | .zwkJoin p => p.ok
  | .ready p => p.ok
  | .nakTimeout _ _ _ _ _ => true
  | .missingTime _ _ _ _ => true
  | .finalTime _ => true
  | .haveTime => true
  | .roundClose => true
  | .zwkDecideResend => true
  | .pingTimer => true
  | .beatTimer => true
  | .unreachable _ => true
  | .rejoinHold _ => true
  | .rejoinTimeout => true
  | .joinRetry => true
  | .snapTimeout _ => true
  | .configRetry _ => true
  | .bar2Read _ _ len => bar2Ok len
  | .bar2Write _ _ data be => bar2Ok data.length && be.length == data.length
  | .poisonedTlp _ => true
  | .flr _ => true
  | .perstAssert _ => true
  | .perstRelease _ => true
  | .registerTimeout x => x.ok
  | .hbmRefresh _ => true
  | .patrolScrub _ hbm sp => hbm.all HbmHit.wellFormed && sp.all SpHit.wellFormed
  | .hbmTempRead _ _ => true
  | .softPpr _ _ => true
  | .stackNoAnswer _ => true
  | .pcSelfRefresh _ _ => true
  | .hbmTrainingDone _ _ => true
  | .mapRebuild _ => true
  | .refclkWindow _ => true
  | .pllUnlock _ => true
  | .powerTick _ _ _ => true
  | .dutyStep => true
  | .throttleAssert => true
  | .throttleAck => true
  | .throttleCheck => true
  | .throttleRelease => true
  | .throttleRamp => true
  | .thrLong => true
  | .dieTempRead ts => ts.length == 9
  | .voltageSample _ _ => true
  | .railFault _ _ => true
  | .pwrOkLow => true
  | .idleTimeout => true
  | .p3Entry => true
  | .p3Timeout => true
  | .p3Exit b => b.ok
  | .ppsPulse _ => true
  | .slotEnd => true
  | .acquireTimeout => true
  | .modResetAssert => true
  | .strapSample _ b => b.ok
  | .modResetRelease b => b.ok
  | .loadModeImage b => b.ok
  | .watchdog b => b.ok
  | .heartbeat => true
  | .logCoalesceFlush => true
  | .setEndpointId _ _ _ => true
  | .getEndpointId _ => true
  | .getMctpVersionSupport _ _ => true
  | .getMessageTypeSupport _ => true
  | .getVendorDefinedMsgSupport _ _ => true
  | .mctpStatus _ => true
  | .mctpPower => true
  | .mctpThermal => true
  | .mctpHealth => true
  | .mctpLog _ _ => true
  | .smbusTimeout => true
  | .pwrOkRise => true
  | .runPhase => true
  | .ppsEcho => true
  | .siteLinkUp _ _ => true
  | .siteLinkFailed _ => true
  | .hostLinkChange _ l => l.ok
  | .convenerMsg m => m.ok
  | .opDone => true
  | .spareDone => true
  | .spprDone _ => true
  | .localMoveDone _ _ => true
  | .randomnessReturn => true

end Sys2Proof
end

