-- ==== Sys2Proof/Tests/Slice0.lean ====
section
/-! SUPPORT. Tests: commands that are not well formed, single steps with results taken from the spec, and for every
statement a concrete state and operands that meet the hypotheses of its clauses. -/

namespace Sys2Proof.Tests

open Sys2Proof.Machine

set_option Elab.async false

/-! ### Small states -/

/-- A module that runs: core 0 and one stack of die 0 in service, host port A linked, in P0. -/
def up : State := { State.reset with
  units := ⟨1, (List.range 127).map (· + 1), []⟩
  hbm := [(0, { HbmCtl.init with st := .active, inMap := true })]
  boot := { State.reset.boot with resetLow := false, running := true, ready := true }
  regs := [(pHp .a + 0x040, 1)] }

/-- A descriptor with the given words; the others are 0. -/
def desc (l : List (Nat × Word)) : List Word := (List.range 16).map fun i => ((l.find? fun x => x.1 == i).map (·.2)).getD 0

/-- The state with core 0 running and a descriptor at the head of its ring. -/
def onRing (s : State) (w : List Word) : State :=
  (s.setReg (pCore 0 + 0x040) 0).modCore 0 fun c => { c with fetched := [⟨0, w⟩], fetchNext := 1 }

/-- The state with descriptors of core 0 in flight. -/
def flying (s : State) (es : List Infl) : State := s.modCore 0 fun c => { c with inflight := es }

/-- A descriptor of a type, its words from word 2 on as given. -/
def ofType (ty : Word) (l : List (Nat × Word)) : List Word := desc ((0, ty) :: l)

/-- The module on the fabric: number 0, enabled, accepting requests, with a route through port 0 to module 5. -/
def onNet (s : State) : State :=
  let s := (((s.fset pOgs F.OGS_CFG_EN 1).fset pOgs F.OGS_CFG_ACCEPT 1).setReg (pOgs + 0x040) 0x80000000).fset (pFp 0) F.FP_LINK_STAT_STATE 2
  { s with fab := { s.fab with routes := Tab.set Route.init 5 ⟨0, false, true⟩ s.fab.routes } }

/-! ### States and operands that meet the hypotheses of the statements -/

theorem meets_stepRunsFrontCommand : ({ up with pending := [.fence 0, .ppsEcho] } : State).pending = .fence 0 :: [.ppsEcho] := rfl

theorem meets_everyStepKeepsForm : up.formOk ∧ up.rpb.ok ∧ ∃ t, step { up with pending := [.powerTick 1 1 1] } = .next t := by
  refine ⟨?_, ?_, ⟨_, rfl⟩⟩
  · unfold State.formOk State.memOk State.regsOk State.coresOk State.tabsOk; decide +kernel
  · unfold Rpb.ok; decide +kernel

theorem meets_upkeepFrame : ∃ t, exec .dutyStep up = .next t := ⟨_, rfl⟩

/-- Module in P2 with core 0 HALTED, and in P0 with REQ at P2 and core 0 the only one that runs. -/
def inP2 : State := up.fset pPwr F.PWR_STAT_STATE 2
def reqP2At : State := (up.fset pPwr F.PWR_CTRL_REQ 2).setReg (pCore 0 + 0x040) 0

theorem meets_coreRegisterCommands :
    up.phys 0 = some 0 ∧ up.pState ≠ 2 ∧ up.fget pPwr F.PWR_CTRL_REQ ≠ 2
    ∧ (∀ rq ∈ [Requester.portA, .firmware], ∀ o ∈ [0x058, 0x200, 0x2FC, 0x158, 0x040], up.serves rq (coreA 0 o))
    ∧ (Put.mk .firmware 3 0xF 1).addr (coreA 0 0x058) = coreA 0 0x058 + 0x3000 ∧ up.serves .firmware (coreA 0 0x058 + 0x3000)
    ∧ inP2.regsOk ∧ inP2.phys 0 = some 0 ∧ inP2.serves .firmware (coreA 0 0x040) ∧ inP2.fget (pCore 0) F.SQ_CTRL_HALT = 1
    ∧ inP2.pState = 2
    ∧ reqP2At.regsOk ∧ reqP2At.serves .firmware (coreA 0 0x040) ∧ reqP2At.fget pPwr F.PWR_CTRL_REQ = 2 ∧ reqP2At.pState ≤ 1
    ∧ (reqP2At.setReg (pCore 0 + 0x040) (setBits (reqP2At.reg (pCore 0 + 0x040)) 0 0 1)).allHalted = true := by
  unfold State.serves State.regsOk; decide +kernel

theorem meets_coreResetClears : up.regsOk ∧ up.coresOk ∧ (up.core 0).inflight = [] := by
  unfold State.regsOk State.coresOk; decide +kernel

/-- Slot 0 is PREPARED with one entry in its log, which locks what the entry writes. -/
def locking (e : LogEntry) (s : State) : State :=
  s.setSlot 0 { Slot.init with st := .prepared, isCoord := true, members := 1, log := [e] }

/-- Core 0 runs, DR_TAIL has passed index 0, and its ring lies in its own scratchpad or nowhere. -/
def toFetch (base : Word) : State :=
  (((up.setReg (pCore 0 + 0x040) 0).setReg (pCore 0 + 0x058) 1).setReg (pCore 0 + 0x048) 0).setReg (pCore 0 + 0x04C) base

theorem meets_descriptorFetch :
    (toFetch 0).phys 0 = some 0 ∧ ((toFetch 0).core 0).fetchNext = 0 ∧ tailPassed ((toFetch 0).reg (pCore 0 + 0x058)) 0 = true
    ∧ ((toFetch 0).core 0).fetched.length < 16 ∧ ((toFetch 0).ringRead 0 0 0 0 64).status = 0
    ∧ tailPassed ((toFetch 0x300).reg (pCore 0 + 0x058)) 0 = true ∧ ((toFetch 0x300).ringRead 0 0 0x300 0 64).status ≠ 0
    ∧ (toFetch 0).ringHeld 0 0 0 0 64 = false ∧ (toFetch 0).recordHeld 0 0 = false
    ∧ (toFetch 0x300).ringHeld 0 0 0x300 0 64 = false ∧ (toFetch 0x300).recordHeld 0 0 = false
    ∧ (locking (.mem 0 (List.replicate 64 0)) (toFetch 0)).ringHeld 0 0 0 0 64 = true := by
  decide +kernel

/-- A reserved TYPE, a header wait that is not met, a FENCE, a SYNC with two signals, and one of SYNC's waits not met. -/
def aReserved : List Word := ofType 0 []
def aWait : List Word := ofType 9 [(1, 0x80010000)]
def aFence : List Word := ofType 9 [(2, 1)]
def aSync : List Word := ofType 7 [(5, 0xC0000000), (7, 0xC0000001)]
def aSyncWait : List Word := ofType 7 [(2, 0x8001)]
def waitTmo (s : State) : State := s.fset (pCore 0) F.SQ_WAIT_TMO_US 5

theorem meets_reservedAndWait :
    (onRing up aReserved).head 0 = some ⟨0, aReserved⟩ ∧ hType aReserved = 0 ∧ (onRing up aReserved).waitOk 0 aReserved = true
    ∧ (onRing up (ofType 12 [])).head 0 = some ⟨0, ofType 12 []⟩ ∧ hType (ofType 12 []) = 12
    ∧ (waitTmo (onRing up aWait)).head 0 = some ⟨0, aWait⟩ ∧ (waitTmo (onRing up aWait)).fget (pCore 0) F.SQ_WAIT_TMO_US ≠ 0
    ∧ (waitTmo (onRing up aWait)).waitOk 0 aWait = false
    ∧ (waitTmo (onRing up aSyncWait)).head 0 = some ⟨0, aSyncWait⟩ ∧ hType aSyncWait = tSYNC
    ∧ (waitTmo (onRing up aSyncWait)).syncOk 0 aSyncWait = false := by decide +kernel

theorem meets_fence : (onRing up aFence).phys 0 = some 0 ∧ (onRing up aFence).issuable 0 (fun w => hType w == tFENCE) = some ⟨0, aFence⟩
    ∧ ((onRing up aFence).core 0).inflight = [] ∧ bit (wd aFence 2) 0 = true := by decide +kernel

/-- Slot 0 is open and core 0 attached to it, with n actions logged. -/
def attached (n : Nat) (s : State) : State :=
  (s.setSlot 0 { Slot.init with st := .opened, isCoord := true, members := 1, actions := n }).modCore 0 fun c => { c with attach := some 0 }

/-- A SYNC with no signal, with one to this core, with one to another module, and one whose core is not in service. -/
def syncTo (l : List (Nat × Word)) : List Word := ofType 7 l

theorem meets_sync :
    (∀ w ∈ [syncTo [], syncTo [(4, 1), (5, 0xC0000000)], syncTo [(4, 0x00500001), (5, 0x80000000)], syncTo [(4, 0x400), (5, 0xC0000000)]],
      (onRing up w).phys 0 = some 0 ∧ (onRing up w).coresOk ∧ (onRing up w).heads 0 ⟨0, w⟩ tSYNC ∧ (onRing up w).syncOk 0 w = true)
    ∧ ((onRing up aSync).core 0).attach = none
    ∧ ((attached 65536 up).countActions 0 1).2 = false ∧ ((attached 0 up).countActions 0 1).2 = true
    ∧ (up.sendSig 0 0 none ⟨true, 0, 0, 0, 1⟩).2 = (none, false) ∧ (up.sendSig 0 0 none ⟨true, 0, 1, 0, 1⟩).2 = (some (0x0B, 0), false)
    ∧ ((onNet up).sendSig 0 0 none ⟨false, 5, 0, 0, 1⟩).2 = (none, true) := by
  unfold State.coresOk State.heads; decide +kernel

theorem meets_issueTakesHead : (onRing up aWait).regsOk ∧ (onRing up aWait).coresOk ∧ ((onRing up aWait).core 0).fetched = ⟨0, aWait⟩ :: []
    ∧ hWaitEn aWait = true := by
  unfold State.regsOk State.coresOk; decide +kernel

/-- Core 0's completion ring lies in its scratchpad. -/
def spRing (s : State) : State := s.setReg (pCore 0 + 0x060) 0x80000000

theorem meets_completion : (spRing up).memOk ∧ (spRing up).regsOk ∧ (spRing up).coresOk ∧ (spRing up).mem.spClean = true
    ∧ (spRing up).recordHeld 0 0 = false ∧ (spRing up).lockedReg (tokAddr 0 0) = false ∧ bit ((spRing up).reg (pCore 0 + 0x060)) 31 = true ∧ (0 : Nat) < 64 := by
  unfold State.memOk State.regsOk State.coresOk; decide +kernel

theorem meets_signalSaturates : up.regsOk ∧ (63 : Nat) < 64 ∧ 65535 < (up.setTok 0 63 65535).tok 0 63 + 1 ∧ up.tok 0 63 + 65535 ≤ 65535
    ∧ up.lockedReg (tokAddr 0 63) = false ∧ (locking (.signal 0) up).lockedReg (tokAddr 0 63) = false
    ∧ (locking (.reg (Block.core.page 0 + 0x2FC) 1) up).lockedReg (tokAddr 0 63) = true := by
  unfold State.regsOk; decide +kernel
/-- A VECTOR of an OP on FP32 tiles of a rows × cols matrix at 0, 0x10000 and 0x20000, its D at the given place. -/
def vec (op rows cols d : Nat) : List Word :=
  ofType 2 [(2, BitVec.ofNat 32 (op * 2 ^ 24)), (3, BitVec.ofNat 32 (cols * 65536 + rows)), (5, 0x10000), (6, 0x20000), (7, BitVec.ofNat 32 d)]

def vectorOps : List Nat := [0x01, 0x02, 0x03, 0x04, 0x05, 0x06, 0x07, 0x08, 0x09, 0x0A, 0x10, 0x11, 0x12, 0x13, 0x14, 0x15, 0x16,
  0x20, 0x21, 0x22, 0x23, 0x24]

theorem meets_vector : ∀ op ∈ vectorOps,
    (vectorD (vec op 1 1 0x30000)).op = op
    ∧ (onRing up (vec op 1 1 0x30000)).phys 0 = some 0 ∧ (onRing up (vec op 1 1 0x30000)).coresOk
    ∧ (onRing up (vec op 1 1 0x30000)).heads 0 ⟨0, vec op 1 1 0x30000⟩ tVECTOR
    ∧ (onRing up (vec op 1 1 0x30000)).vectorReasons 0 (vectorD (vec op 1 1 0x30000)) = []
    ∧ (onRing up (vec op 1 1 0x30000)).queue 0 tVECTOR = []
    ∧ (onRing up (vec op 1 1 0x30000)).spLocked 0 (vxRegion (vec op 1 1 0x30000)) = false
    ∧ (onRing up (vec op 1 0 0x30000)).vectorReasons 0 (vectorD (vec op 1 0 0x30000)) = []
    ∧ (onRing up (vec op 1 1 0x30001)).vectorReasons 0 (vectorD (vec op 1 1 0x30001)) = [0x13] := by
  unfold State.coresOk State.heads; decide +kernel

theorem meets_vectorFrame : up.vectorReasons 0 (vectorD (vec 1 64 64 0x30000)) = [] ∧ up.memOk := by
  unfold State.memOk; decide +kernel

/-- A Zwikai quantiser operation on a number of slices, of 64-byte records. -/
def zop (op slices d : Nat) : List Word :=
  ofType 2 [(2, BitVec.ofNat 32 (op * 2 ^ 24 + (if op = 0xC0 then 9 * 256 else if op < 0xC3 then 9 * 2 ^ 20 else 0))), (3, BitVec.ofNat 32 slices), (5, 0x100000), (6, 0x200000), (7, BitVec.ofNat 32 d),
    (8, 0x3F800000), (9, 0x10080440)]

/-- The whole scratchpad is accumulator buffer. -/
def wideBuf (s : State) : State := s.fset (pCore 0) F.SP_ACCBUF_UNITS 1536

theorem meets_quantiser : ∀ op ∈ [0xC0, 0xC1, 0xC2, 0xC3, 0xC4],
    (zopD (zop op 1 0x300000)).op = op
    ∧ (onRing (wideBuf up) (zop op 1 0x300000)).phys 0 = some 0 ∧ (onRing (wideBuf up) (zop op 1 0x300000)).coresOk
    ∧ (onRing (wideBuf up) (zop op 1 0x300000)).heads 0 ⟨0, zop op 1 0x300000⟩ tVECTOR
    ∧ (onRing (wideBuf up) (zop op 1 0x300000)).zopReasons 0 (zopD (zop op 1 0x300000)) = []
    ∧ (onRing (wideBuf up) (zop op 1 0x300000)).queue 0 tVECTOR = []
    ∧ (onRing (wideBuf up) (zop op 1 0x300000)).spLocked 0 (vxRegion (zop op 1 0x300000)) = false
    ∧ (onRing (wideBuf up) (zop op 0 0x300000)).zopReasons 0 (zopD (zop op 0 0x300000)) = []
    ∧ (op ≠ 0xC2 → ((onRing (wideBuf up) (zop op 1 0x300001)).zopReasons 0 (zopD (zop op 1 0x300001))).head? = some 0x13) := by
  unfold State.coresOk State.heads; decide +kernel

/-- An UPDATE of an OP and RULE on a number of slices of records of one replica, in scratchpad. -/
def upd (op rule slices : Nat) : List Word :=
  ofType 5 [(2, BitVec.ofNat 32 (op * 2 ^ 28 + rule * 2 ^ 24 + 2 ^ 21 + 2 * 4096 + (if op = 4 then 18 else 10))), (3, BitVec.ofNat 32 (slices * 65536 + 1)), (12, 0x04000000)]

theorem meets_update : ∀ x ∈ [(0, 0), (1, 0), (2, 0), (3, 0), (4, 5), (5, 0), (6, 0), (7, 0), (8, 0), (9, 0), (10, 0)],
    (updateD (upd x.1 x.2 1)).op = x.1
    ∧ (onRing (wideBuf up) (upd x.1 x.2 1)).phys 0 = some 0 ∧ (onRing (wideBuf up) (upd x.1 x.2 1)).coresOk
    ∧ (onRing (wideBuf up) (upd x.1 x.2 1)).heads 0 ⟨0, upd x.1 x.2 1⟩ tUPDATE
    ∧ (onRing (wideBuf up) (upd x.1 x.2 1)).updateReasons 0 (updateD (upd x.1 x.2 1)) = []
    ∧ (onRing (wideBuf up) (upd x.1 x.2 1)).queue 0 tUPDATE = []
    ∧ (onRing (wideBuf up) (upd x.1 x.2 1)).updateLocked 0 (updateD (upd x.1 x.2 1)) = false
    ∧ (onRing (wideBuf up) (upd x.1 x.2 0)).updateReasons 0 (updateD (upd x.1 x.2 0)) = [] := by
  unfold State.coresOk State.heads; decide +kernel

theorem meets_engineRefusals : up.zopReasons 0 (zopD (ofType 2 [(2, 0xC2000000), (9, 0xFF0000FF)])) ≠ []
    ∧ ∀ op ∈ [0, 1, 2, 3, 4, 5, 6, 7, 8, 9, 10], (updateD (ofType 5 [(2, BitVec.ofNat 32 (op * 2 ^ 28)), (3, 0x10000)])).op = op
      ∧ (onRing up (ofType 5 [(2, BitVec.ofNat 32 (op * 2 ^ 28)), (3, 0x10000)])).updateReasons 0
          (updateD (ofType 5 [(2, BitVec.ofNat 32 (op * 2 ^ 28)), (3, 0x10000)])) ≠ [] := by decide +kernel

/-- A descriptor that has run, at the head of its unit's queue. -/
def ran (ty : Word) : Infl := ⟨0, ofType ty [], .ran (Rec.of 0), none⟩

/-- An UPDATE that has started and whose slices are due. -/
def begun : Infl := ⟨0, upd 5 0 1, .nm ⟨[], 0, 0, 0, 0, []⟩, none⟩

theorem meets_engineCompletes : (flying up [ran 2]).phys 0 = some 0 ∧ (flying up [ran 2]).queue 0 tVECTOR = ran 2 :: []
    ∧ (flying up [ran 5]).queue 0 tUPDATE = ran 5 :: [] ∧ (ran 2).prog = .ran (Rec.of 0) ∧ (ran 5).prog = .ran (Rec.of 0)
    ∧ (flying (wideBuf up) [begun]).queue 0 tUPDATE = begun :: [] ∧ begun.prog = .nm ⟨[], 0, 0, 0, 0, []⟩
    ∧ (flying (wideBuf up) [begun]).updateLocked 0 (updateD begun.words) = false := by
  decide +kernel
/-- A MATMUL of BF16 operands at 0 and 0x40000 with FP32 D at 0x80000: M, N, K, its HINT_EN and word 7. -/
def mm (m n k : Nat) (w11 w7 : Word) : List Word :=
  ofType 1 [(2, BitVec.ofNat 32 (n * 65536 + m)), (3, BitVec.ofNat 32 k), (4, 0x20000000), (5, 0x20040000), (7, w7), (11, w11)]
def mmD : Word := 0x40080000
/-- The same on unscaled FP8: FIXED mode. -/
def mmFixed : List Word := ofType 1 [(2, 0x10001), (3, 1), (4, 0), (5, 0x40000), (7, mmD)]

theorem meets_matmul :
    (onRing up (mm 1 1 1 0 mmD)).phys 0 = some 0 ∧ (onRing up (mm 1 1 1 0 mmD)).coresOk
    ∧ (onRing up (mm 1 1 1 0 mmD)).heads 0 ⟨0, mm 1 1 1 0 mmD⟩ tMATMUL
    ∧ (onRing up (mm 1 1 1 0 mmD)).matmulReasons 0 (matmulD (mm 1 1 1 0 mmD)) = []
    ∧ ((onRing up (mm 1 1 1 0 mmD)).mx 0).st = .idle ∧ (onRing up (mm 1 1 1 0 mmD)).queue 0 tMATMUL = []
    ∧ (onRing up (mm 1 1 1 0 mmD)).fget (pCore 0) F.MX_CTRL_PREEMPT = 0
    ∧ (matmulD (mm 1 1 1 0 mmD)).m ≠ 0 ∧ (matmulD (mm 1 1 1 0 mmD)).n ≠ 0
    ∧ (onRing up (mm 0 1 1 0 mmD)).matmulReasons 0 (matmulD (mm 0 1 1 0 mmD)) = [] ∧ (matmulD (mm 0 1 1 0 mmD)).m = 0
    ∧ (onRing up (mm 1 1 1 0 1)).matmulReasons 0 (matmulD (mm 1 1 1 0 1)) = [0x13]
    ∧ ((up.setMx 0 { Mx.init with st := .issue }).mx 0).st ≠ .idle
    ∧ ((onRing (up.fset (pCore 0) F.MX_CTRL_PREEMPT 1) (mm 1 1 1 0 mmD)).issue 0 ⟨0, mm 1 1 1 0 mmD⟩ .queued).fget (pCore 0)
        F.MX_CTRL_PREEMPT = 1
    ∧ ((onRing (up.fset (pCore 0) F.MX_CTRL_PREEMPT 1) (mm 1 1 1 0 mmD)).mx 0).saveErr = false := by
  unfold State.coresOk State.heads; decide +kernel

theorem meets_beginPass : up.coresOk ∧ (matmulD (mm 1 1 0 0 mmD)).k = 0 ∧ (matmulD mmFixed).k ≠ 0 ∧ (matmulD mmFixed).fixed = true
    ∧ (matmulD (mm 1 1 1 0x8000 mmD)).fixed = false ∧ (matmulD (mm 1 1 1 0x8000 mmD)).hintEn = true
    ∧ (matmulD (mm 1 1 1 0 mmD)).fixed = false ∧ (matmulD (mm 1 1 1 0 mmD)).hintEn = false
    ∧ up.anchorHit 0 (matmulD (mm 1 1 1 0 mmD)).tensor = none ∧ (up.putAnchor 0 0 5).anchorHit 0 0 = some 5 := by
  unfold State.coresOk; decide +kernel

/-- A pass of the descriptor with the given words that stands in a phase, with its sweeps. -/
def passOf (w : List Word) (ph : PassPhase) (next : Nat) (active : List Sweep) (again : Bool) (repeats : Nat := 0) : State :=
  (flying up [⟨0, w, .queued, none⟩]).setMx 0 { Mx.init with
    st := .issue, pass := some ⟨0, false, true, ph, -32, 1, repeats, false, 0, next, active, false, again, 0, -150, -150, 0, none⟩ }

theorem meets_pass :
    (passOf (mm 1 1 1 0 mmD) .scan 0 [] false).phys 0 = some 0 ∧ ((passOf (mm 1 1 1 0 mmD) .scan 0 [] false).mx 0).st = .issue
    ∧ (((passOf (mm 1 1 1 0 mmD) .scan 0 [] false).mx 0).pass.map fun p => (p.phase, p.idx)) = some (.scan, 0)
    ∧ ((passOf (mm 1 1 1 0 mmD) .scan 0 [] false).infl 0 0).isSome = true
    ∧ (passOf (mm 1 1 1 0 mmD) .scan 0 [] false).spLocked 0 ((passOf (mm 1 1 1 0 mmD) .scan 0 [] false).abReads 0 (matmulD (mm 1 1 1 0 mmD))
        ++ (passOf (mm 1 1 1 0 mmD) .scan 0 [] false).cReads 0 (matmulD (mm 1 1 1 0 mmD))) = false
    ∧ ((passOf (mm 1 1 1 0 mmD) .scan 0 [] false).mx 0).tail = none
    ∧ ((passOf (mm 1 1 1 0 mmD) .sweeps 0 [] true).mx 0).oldest.map (·.idx) = some 0
    ∧ ((passOf (mm 1 1 1 0 mmD) .scan 0 [] false).touch 0 [(0, 8192)]).2 = false
    ∧ (({ up with mem := { Mem.init with errs := [(codeKey (spKey 0 0), 0), (codeKey (spKey 0 0), 1)] } } : State).touch 0 [(0, 8192)]).2 = true
    ∧ (matmulD (mm 1 1 1 0 mmD)).sweeps = 1 ∧ ((passOf (mm 1 1 1 0 mmD) .sweeps 0 [] false).mx 0).pass.map (·.next) = some 0
    ∧ ((passOf (mm 1 1 1 0 mmD) .sweeps 0 [] true 0).mx 0).pass.map (·.again) = some true
    ∧ 0 < up.fget (pCore 0) F.MX_ACFG_REPEAT_MAX ∧ up.fget (pCore 0) F.MX_ACFG_REPEAT_MAX ≤ 15
    ∧ ((passOf (mm 1 1 1 0 mmD) .sweeps 1 [] false).mx 0).pass.map (fun p => (p.next, p.active)) = some (1, [])
    ∧ (matmulD (mm 1 1 0 0 mmD)).k = 0 ∧ (matmulD mmFixed).fixed = true ∧ (matmulD (mm 1 1 1 0 mmD)).fixed = false := by decide +kernel

/-- A pass whose sweeps have all started, with another MATMUL queued behind it. -/
def thePass : Pass := ⟨0, false, true, .sweeps, -32, 1, 0, false, 0, 1, [], false, false, 0, -150, -150, 0, none⟩
def twoPasses : State :=
  (flying up [⟨0, mm 1 1 1 0 mmD, .queued, none⟩, ⟨1, mm 1 1 1 0 mmD, .queued, none⟩]).setMx 0 { Mx.init with st := .issue, pass := some thePass }

theorem meets_passesFollow :
    twoPasses.phys 0 = some 0 ∧ twoPasses.regsOk ∧ twoPasses.coresOk ∧ (twoPasses.infl 0 thePass.idx).isSome = true
    ∧ (matmulD (mm 1 1 1 0 mmD)).fixed = false ∧ thePass.attempts ≠ 0 ∧ (twoPasses.mx 0).st = .issue ∧ (twoPasses.mx 0).pass = some thePass
    ∧ (twoPasses.mx 0).tail = none ∧ (twoPasses.mx 0).want = false ∧ (matmulD (mm 1 1 1 0 mmD)).sweeps ≤ thePass.next
    ∧ (twoPasses.nextMatmul 0 thePass.idx).map (·.idx) = some 1 ∧ (matmulD (mm 1 1 1 0 mmD)).k ≠ 0
    ∧ (matmulD (mm 1 1 1 0 mmD)).hintEn = false ∧ twoPasses.anchorHit 0 (matmulD (mm 1 1 1 0 mmD)).tensor = none := by
  unfold State.regsOk State.coresOk; decide +kernel

/-- The same pass with its sweep 0 at its drain. -/
def atDrain : State := passOf (mm 1 1 1 0 mmD) .sweeps 1 [⟨0, 0, [], []⟩] false

theorem meets_sweepDrains :
    atDrain.phys 0 = some 0 ∧ atDrain.coresOk ∧ (atDrain.mx 0).st = .issue ∧ (atDrain.infl 0 0).isSome = true
    ∧ ((atDrain.mx 0).pass.map fun p => (p.phase, p.again, p.active)) = some (.sweeps, false, [⟨0, 0, [], []⟩])
    ∧ (matmulD (mm 1 1 1 0 mmD)).k ≠ 0
    ∧ atDrain.spLocked 0 ((atDrain.cReads 0 (matmulD (mm 1 1 1 0 mmD))) ++ (matmulD (mm 1 1 1 0 mmD)).dReg) = false
    ∧ ((atDrain.setMx 0 ((atDrain.mx 0).drainsOn ((atDrain.mx 0).oldest.getD thePass))).touch 0 (atDrain.cReads 0 (matmulD (mm 1 1 1 0 mmD)))).2 = false
    ∧ atDrain.rawCBad 0 (matmulD (mm 1 1 1 0 mmD)) 0 = false
    ∧ (atDrain.drain 0 (matmulD (mm 1 1 1 0 mmD)) (-32)
        (atDrain.finishSweep 0 (matmulD (mm 1 1 1 0 mmD)) (-32) ⟨0, 0, [], []⟩).1).2.2.2 = false
    ∧ ((passOf (mm 1 1 0 0 mmD) .sweeps 0 [] false).mx 0).pass.map (·.next) = some 0 ∧ 0 < (matmulD (mm 1 1 0 0 mmD)).sweeps
    ∧ (passOf (mm 1 1 0 0 mmD) .sweeps 0 [] false).rawCBad 0 (matmulD (mm 1 1 0 0 mmD)) 0 = false
    ∧ ((passOf (mm 1 1 0 0 mmD) .sweeps 0 [] false).zeroDrain 0 (matmulD (mm 1 1 0 0 mmD)) 0).2.2 = false
    ∧ (∀ st ∈ [MxState.paused, .saving], ((atDrain.setMx 0 { atDrain.mx 0 with st := st }).mx 0).st = st
        ∧ ((atDrain.setMx 0 { atDrain.mx 0 with st := st }).mx 0).hdr = none
        ∧ ((atDrain.setMx 0 { atDrain.mx 0 with st := st }).mx 0).tail = none) := by
  unfold State.coresOk; decide +kernel
/-- Core 0's engine in a state, with or without a pass that injects. -/
def mxIn (st : MxState) (s : State := up) : State := s.setMx 0 { Mx.init with st := st }

theorem meets_pauses :
    ((passOf (mm 1 1 1 0 mmD) .sweeps 1 [⟨0, 0, [], []⟩] false).mx 0).st = .issue
    ∧ ((mxIn .restoring).mx 0).st = .restoring
    ∧ up.regsOk ∧ up.serves .firmware (coreA 0 0x140) ∧ up.fget (pCore 0) F.MX_CTRL_PREEMPT = 0
    ∧ (up.fset (pCore 0) F.MX_CTRL_PREEMPT 1).regsOk ∧ (up.fset (pCore 0) F.MX_CTRL_PREEMPT 1).serves .firmware (coreA 0 0x140)
    ∧ (up.fset (pCore 0) F.MX_CTRL_PREEMPT 1).fget (pCore 0) F.MX_CTRL_PREEMPT = 1
    ∧ (up.fset (pCore 0) F.SP_ACCBUF_UNITS 16).saveOk 0 = false ∧ (wideBuf up).saveOk 0 = true ∧ ((wideBuf up).mx 0).st = .idle
    ∧ (wideBuf (passOf (mm 1 1 1 0 mmD) .sweeps 1 [⟨0, 0, [], []⟩] false)).saveOk 0 = true
    ∧ ((mxIn .paused (wideBuf up)).mx 0).st = .paused ∧ (mxIn .paused (wideBuf up)).saveOk 0 = true
    ∧ (up.setMx 0 { Mx.init with st := .saved, hdr := some { SaveHdr.empty with valid := true } }).coresOk := by
  unfold State.regsOk State.serves State.coresOk; decide +kernel

theorem meets_passFaults :
    atDrain.phys 0 = some 0 ∧ ((atDrain.mx 0).pass.map (·.restarts)) = some 0 ∧ (atDrain.infl 0 0).isSome = true ∧ (atDrain.mx 0).st = .issue
    ∧ ((mxIn .saving atDrain).mx 0).st = .saving ∧ ((mxIn .saving atDrain).mx 0).release = false
    ∧ 0 < ((atDrain.logEvent 0x0013 0 1 0x0001 0).coreFault 0).fget (pCore 0) F.MX_CTRL_RESTART_MAX
    ∧ ((atDrain.logEvent 0x0013 0 1 0x0001 0).coreFault 0).coresOk
    ∧ ((atDrain.fset (pCore 0) F.MX_CTRL_RESTART_MAX 0).coreFault 0).fget (pCore 0) F.MX_CTRL_RESTART_MAX ≤ 0
    ∧ (0, 8192) ∈ atDrain.abReads 0 (matmulD (mm 1 1 1 0 mmD)) ++ atDrain.cReads 0 (matmulD (mm 1 1 1 0 mmD)) ∧ (0 : Nat) ≤ 8191 ∧ 8191 < 0 + 8192 := by
  unfold State.coresOk; decide +kernel

/-- The pass of atDrain under pre-emption: while it saves, and while it is restored from a saved header. -/
def saving : State := (wideBuf atDrain).setMx 0 { atDrain.mx 0 with st := .saving }
def saved : State := (wideBuf atDrain).setMx 0 { atDrain.mx 0 with st := .saving, hdr := some { SaveHdr.empty with valid := true } }
def restoring : State := saved.setMx 0 { saved.mx 0 with st := .restoring }

theorem meets_saveAndRestore :
    saving.phys 0 = some 0 ∧ saving.coresOk ∧ ((saving.mx 0).pass.map (·.active)) = some [⟨0, 0, [], []⟩] ∧ (saving.infl 0 0).isSome = true
    ∧ (saving.mx 0).st = .saving ∧ (0 : Nat) ≤ 1 ∧ 1 ≤ (matmulD (mm 1 1 1 0 mmD)).k
    ∧ (saving.touch 0 (saving.abReads 0 (matmulD (mm 1 1 1 0 mmD)))).2 = false ∧ saving.memOk ∧ saving.regsOk
    ∧ saving.mem.spClean = true ∧ (saving.mx 0).tail = none ∧ (saving.mx 0).hdr = none ∧ (saving.mx 0).release = false
    ∧ (saved.mx 0).hdr.isSome = true ∧ (saved.mx 0).release = false ∧ (saved.mx 0).st = .saving
    ∧ (restoring.mx 0).st = .restoring ∧ (restoring.mx 0).hdr.isSome = true ∧ (restoring.touch 0 [(0, 69632)]).2 = false := by
  unfold State.memOk State.regsOk State.coresOk; decide +kernel

/-- A CHAIN of LEN 2 at POS with one tile: its slot at 0x100000, the incoming one at 0x120000, D at 0x200000. -/
def chainOf (pos : Nat) (src : Word) : List Word :=
  ofType 4 [(2, BitVec.ofNat 32 (65536 + 512 + pos)), (3, 0x40200000), (4, src), (5, 0x120000), (7, 0xC00), (9, 1)]

/-- The engine of position 1 waits for its tile, and token 0 holds a count. -/
def atTile : State :=
  (flying (wideBuf up) [⟨0, chainOf 1 0x100000, .chain ⟨0, 0, false, false, false, 0, 0, false, 0⟩, none⟩]).setTok 0 0 1

theorem meets_chain :
    (onRing (wideBuf up) (chainOf 0 0x100000)).phys 0 = some 0 ∧ (onRing (wideBuf up) (chainOf 0 0x100000)).coresOk
    ∧ (onRing (wideBuf up) (chainOf 0 0x100000)).heads 0 ⟨0, chainOf 0 0x100000⟩ tCHAIN
    ∧ (wideBuf up).chainReasons 0 (chainD (chainOf 0 0x100000)) = [] ∧ (wideBuf up).chainReasons 0 (chainD (chainOf 0 0x100001)) = [0x13]
    ∧ (onRing (wideBuf up) (chainOf 0 0x100000)).queue 0 tCHAIN = []
    ∧ (onRing (wideBuf up) (chainOf 0 0x100000)).spLocked 0 (slotsRegion 0x100000 1) = false
    ∧ atTile.phys 0 = some 0 ∧ atTile.coresOk ∧ (atTile.queue 0 tCHAIN).length = 1 ∧ (chainD (chainOf 1 0x100000)).pos ≠ 0
    ∧ 0 < (chainD (chainOf 1 0x100000)).tiles ∧ atTile.tok 0 (chainD (chainOf 1 0x100000)).rcvTok ≠ 0
    ∧ atTile.spLocked 0 ([(0x120000, rawSlot), (0x100000, rawSlot)] ++ (chainD (chainOf 1 0x100000)).dReg) = false
    ∧ (chainD (chainOf 1 0x100000)).last = true ∧ (chainD (chainOf 0 0x100000)).last = false := by
  unfold State.coresOk State.heads; decide +kernel

/-- A RAW tile of zeros. -/
def zeroTile : RawTile := ⟨⟨0, false, false, false, -32, 0, 0, 0, 0, 0, 0⟩, [], [], []⟩

theorem zeroTile_v (i : Nat) : zeroTile.v i = 0 := by simp [RawTile.v, zeroTile, leNat, sint]

theorem meets_rawTilesAdd : zeroTile.hdr.anchor = zeroTile.hdr.anchor
    ∧ ∀ i < 4096, fits128 (zeroTile.v i) = true ∧ fits128 (zeroTile.v i) = true ∧ fits128 (zeroTile.v i + zeroTile.v i) = true := by
  refine ⟨rfl, fun i _ => ?_⟩
  rw [zeroTile_v]; decide

/-- A MOVE between places of HBM of this module, and a register MOVE. -/
def moveOf (rows rowBytes : Nat) : List Word :=
  ofType 3 [(3, 0x80000000), (4, 0x10000), (5, 0x80000000), (6, BitVec.ofNat 32 rowBytes), (7, BitVec.ofNat 32 rows)]
def regMoveOf (rows : Nat) : List Word :=
  ofType 3 [(3, 0x80000000), (4, 0), (5, 0x80000F00), (6, 4), (7, BitVec.ofNat 32 rows)]
/-- An FPRINT of a number of slices in this module. -/
def fprintOf (slices : Nat) : List Word :=
  ofType 11 [(3, 0x80000000), (4, 0x100000), (5, 0x80000000), (6, BitVec.ofNat 32 (slices * 65536 + 0x0400)), (7, 4)]

theorem meets_move :
    (∀ w ∈ [moveOf 0 64, moveOf 1 64, moveOf 1 65, regMoveOf 1], (onRing up w).phys 0 = some 0 ∧ (onRing up w).coresOk ∧ (onRing up w).heads 0 ⟨0, w⟩ tMOVE)
    ∧ up.isRegMove (moveD (moveOf 1 64)) = false ∧ up.isRegMove (moveD (regMoveOf 1)) = true
    ∧ (moveD (moveOf 0 64)).rows = 0 ∧ up.moveReasons (moveD (moveOf 1 64)) = [] ∧ up.moveReasons (moveD (moveOf 1 65)) = [0x1D]
    ∧ up.moveReasons (moveD (regMoveOf 1)) = []
    ∧ ((onRing (attached 0 up) (moveOf 1 64)).core 0).attach = some 0 ∧ ((onRing up (moveOf 1 64)).core 0).attach = none
    ∧ (∀ w ∈ [fprintOf 0, fprintOf 1, ofType 11 []], (onRing up w).heads 0 ⟨0, w⟩ tFPRINT)
    ∧ fprintBad (fprintD (ofType 11 [])) = true ∧ fprintBad (fprintD (fprintOf 0)) = false ∧ (fprintD (fprintOf 0)).slices = 0
    ∧ (fprintD (fprintOf 1)).slices ≠ 0 ∧ (onRing up (fprintOf 1)).queue 0 tFPRINT = [] := by
  unfold State.coresOk State.heads; decide +kernel

/-- A MOVE and an FPRINT whose local accesses are under way; an untrusted entry covers the MOVE's source. -/
def moving (w : List Word) : Infl := ⟨0, w, .move { MoveSt.init with pieces := [⟨0, 0x10000, 64, 0⟩], full := 1 }, none⟩
def untrusted (s : State) : State := { s with sec := { s.sec with untr := [(0, 0, 4096)] } }

theorem meets_localMoveDone :
    (flying up [moving (moveOf 1 64)]).phys 0 = some 0 ∧ (flying up [moving (moveOf 1 64)]).coresOk
    ∧ (flying up [moving (moveOf 1 64)]).infl 0 0 = some (moving (moveOf 1 64))
    ∧ (flying up [moving (moveOf 1 64)]).held.contains (.piece 0 0) = false ∧ hType (moving (moveOf 1 64)).words = tMOVE
    ∧ (untrusted up).readsCovered [⟨0, 0x10000, 64, 0⟩] = true ∧ up.readsCovered [⟨0, 0x10000, 64, 0⟩] = false
    ∧ hType (moving (fprintOf 1)).words = tFPRINT ∧ (flying up [moving (fprintOf 1)]).infl 0 0 = some (moving (fprintOf 1)) := by
  unfold State.coresOk; decide +kernel

theorem meets_movePieceCopies : up.memOk ∧ up.tabsOk ∧ MoveSt.init.stopped = false ∧ up.mem.hbmClean = true
    ∧ up.isLocal 192 = true ∧ up.isLocal 0x100C0 = true ∧ 192 % 256 + 64 ≤ 256 ∧ 0x100C0 % 256 + 64 ≤ 256
    ∧ up.place 192 64 = .hbm 192 ∧ up.place 0x100C0 64 = .hbm 0x100C0 ∧ up.hbmBlocked 192 = none ∧ up.hbmBlocked 0x100C0 = none
    ∧ up.endHeld 192 64 = false ∧ up.endHeld 0x100C0 64 = false ∧ up.covered 192 64 = false := by
  unfold State.memOk State.tabsOk; decide +kernel
theorem meets_registerViews : up.phys 0 = some 0 ∧ up.regsOk ∧ (∀ o ∈ [0x068, 0x148, 0x180, 0x184], ∀ v : Fin 4, up.serves .portA ((Put.mk .portA v 0xF 1).addr (coreA 0 o))) := by
  unfold State.regsOk State.serves; decide +kernel

/-- IDX_ADDR of the firmware names an address. -/
def indexed (a : Nat) : State := { up with idxAddr := [(rqNo .firmware, a)] }

theorem meets_registerWrites :
    up.serves .firmware 0x3FFFFF0 ∧ up.regLoc 0x3FFFFF0 = none ∧ isIdx 0x3FFFFF0 aIdxAddr = false ∧ isIdx 0x3FFFFF0 aIdxData = false
    ∧ up.serves .firmware (pCore 135 + 0x068) ∧ (up.regLoc (pCore 135 + 0x068)).map up.pageWritable = some false
    ∧ up.serves .firmware (pHp .a + 0x044) ∧ (up.regLoc (pHp .a + 0x044)).map up.pageWritable = some true
    ∧ (up.regLoc (pHp .a + 0x044)).map (fun r => (r.blk, (up.headerWrite r 0 0).isNone)) = some (Block.hp, true)
    ∧ isIdx (pGctl + aIdxAddr) aIdxAddr = true ∧ isIdx (pGctl + aIdxData) aIdxAddr = false ∧ isIdx (pGctl + aIdxData) aIdxData = true
    ∧ (indexed (pGctl + aIdxData)).serves .firmware (pGctl + aIdxData) ∧ isIdx ((indexed (pGctl + aIdxData)).idxOf .firmware) aIdxData = true
    ∧ (indexed (pHp .a + 0x044)).serves .firmware (pGctl + aIdxData)
    ∧ isIdx ((indexed (pHp .a + 0x044)).idxOf .firmware) aIdxAddr = false ∧ isIdx ((indexed (pHp .a + 0x044)).idxOf .firmware) aIdxData = false := by
  unfold State.serves; decide +kernel

/-- LOG_IDX at the last word of an EVENT entry, at that of a journal entry, and at the first word of one. -/
def logAt (word section_ : Nat) : State :=
  { (up.fset pCdm F.CDM_LOG_IDX_WORD word).fset pCdm F.CDM_LOG_IDX_SECTION section_ with
    logs := ⟨[⟨0, 0, 0, 0, 0, 0, 1, 0⟩], 1, [], [[1, 2, 3, 4]], false⟩ }

theorem meets_reads : (∀ o ∈ [0x14C, 0x160, 0x170, 0x18C, 0x190, 0x194, 0x1A0, 0x1AC, 0x048, 0x04C, 0x05C, 0x060, 0x150, 0x154, 0x1B0, 0x1B4],
      up.serves .portB (coreA 0 o) ∨ up.serves .portA (coreA 0 o)) ∧ up.noLatch .portA (pCore 0 + 0x14C) ∧ up.noLatch .portA (pCore 0 + 0x048)
    ∧ (logAt 7 0).regsOk ∧ (logAt 7 0).serves .firmware (pCdm + 0x074) ∧ (logAt 7 0).noLatch .firmware (pCdm + 0x074)
    ∧ ((logAt 7 0).logEntryAt 0 0).isSome = true ∧ (logAt 7 0).fget pCdm F.CDM_LOG_IDX_WORD = 7
    ∧ (logAt 3 2).fget pCdm F.CDM_LOG_IDX_WORD = 3 ∧ ((logAt 3 2).logEntryAt 2 0).isSome = true
    ∧ (logAt 0 0).fget pCdm F.CDM_LOG_IDX_WORD < 7 ∧ (logAt 2 2).fget pCdm F.CDM_LOG_IDX_WORD < 3 := by
  unfold State.regsOk State.serves State.noLatch; decide +kernel

theorem meets_flagClear : up.regsOk ∧ ∀ k < 3, up.serves .firmware (pGctl + 0x100 + 4 * k) ∧ up.serves .firmware (pDie 7 + 0x100 + 4 * k) := by
  unfold State.regsOk State.serves; decide +kernel

theorem meets_pageHeader : (∀ o ∈ [0x010, 0x018, 0x02C], up.serves .firmware (2 * 0x4000 + o) ∧ (up.regLoc (2 * 0x4000 + o)).isSome = true)
    ∧ ((up.regLoc (2 * 0x4000 + 0x010)).map up.pageWritable) = some true := by
  unfold State.serves; decide +kernel

/-- A word written to a shadowed register of host port A's page waits, and its page is strobed. -/
def shadowed : State := { up with shadows := ⟨[(pHp .a + 0x044, 1)], [pHp .a]⟩ }

theorem meets_updateGroups : up.serves .firmware (pGctl + 0x040) ∧ shadowed.live = true ∧ shadowed.shadows.strobed.contains (pHp .a) = true
    ∧ shadowed.regsOk ∧ shadowed.shadows.words = [(pHp .a + 0x044, 1)] := by
  unfold State.serves State.regsOk; decide +kernel

theorem meets_semaphoresAndIndex : (∀ k < 16, up.serves .firmware (pGctl + 0x080 + 4 * k) ∧ up.noLatch .firmware (pGctl + 0x080 + 4 * k)) ∧ up.regsOk
    ∧ ((0 : Word) &&& beMask 0xF &&& 3 = 0) ∧ ((1 : Word) &&& beMask 0xF &&& 3 ≠ 0)
    ∧ up.serves .firmware (pGctl + aIdxData) ∧ isIdx (({ up with idxAddr := [(rqNo .firmware, pGctl + 0x080)] } : State).idxOf .firmware) aIdxAddr = false
    ∧ isIdx (up.idxOf .firmware) aIdxData = false
    ∧ (up.regWrite1 .firmware (pGctl + 0x080) 0xF 0).2 = true := by
  unfold State.serves State.noLatch State.regsOk; decide +kernel

theorem meets_mailbox : up.hostOn .a = true ∧ up.serves (portRq .a) (pMbx .a + 0x040) ∧ up.serves (portRq .a) (pMbx .a + 0x07C)
    ∧ bit (up.reg (pMbx .a + 0x0C0)) 15 = false ∧ bit ((up.setReg (pMbx .a + 0x0C0) 0x8000).reg (pMbx .a + 0x0C0)) 15 = true
    ∧ up.serves .firmware (pMbx .a + 0x040) ∧ up.noLatch .firmware (pMbx .a + 0x040)
    ∧ up.serves .firmware (pMbx .a + 0x0BC) ∧ bit (up.reg (pMbx .a + 0x0C4)) 15 = false
    ∧ bit ((up.setReg (pMbx .a + 0x0C4) 0x8000).reg (pMbx .a + 0x0C4)) 15 = true
    ∧ up.serves (portRq .a) (pMbx .a + 0x080) ∧ up.noLatch (portRq .a) (pMbx .a + 0x080)
    ∧ up.serves .firmware (pMbx .a + 0x10D0) ∧ up.serves .portA (pMbx .a + 0x10C8) := by
  unfold State.serves State.noLatch; decide +kernel

theorem meets_events : (31 : Nat) < 32 ∧ up.regsOk ∧ up.intOf pCdm = false ∧ bit (up.reg (pCdm + 0x014)) 3 = false
    ∧ bit ((up.setReg (pCdm + 0x014) 8).reg (pCdm + 0x014)) 3 = true ∧ (up.setReg (pCdm + 0x014) 8).intOf pCdm = false
    ∧ ((up.setReg (pCdm + 0x014) 8).setReg (pCdm + 0x010) 8).intOf pCdm = true := by
  unfold State.regsOk; decide +kernel

/-- A torus of 4 × 3 × 2 modules; this module is number m. -/
def torus (m : Nat) : State :=
  (((up.fset pOgs F.OGS_COORD_XS 3).fset pOgs F.OGS_COORD_YS 2).fset pOgs F.OGS_COORD_ZS 1).setReg (pOgs + 0x040) (BitVec.ofNat 32 (2 ^ 31 + m))

theorem meets_routes : up.serves .firmware (pOgs + 0x04C) ∧ up.fab.fill = false ∧ ({ up.fab with fill := true } : Fab).fill = true
    ∧ up.serves .firmware (pOgs + 0x054) ∧ up.serves .firmware (pOgs + 0x3054) ∧ up.serves .firmware (pOgs + 0x040)
    ∧ (torus 5).lid = 5 ∧ 24 < 4 * 3 * 2 + 1 ∧ (torus 24).lid = 24 ∧ (23 : Nat) < 24
    ∧ ((torus 5).routeTo 4).isSome = true ∧ ((torus 5).routeTo 9).isSome = true ∧ ((torus 5).routeTo 17).isSome = true
    ∧ (torus 5).routeTo 5 = none ∧ (torus 5).routeTo 24 = none := by
  unfold State.serves; decide +kernel

/-- A TXN of an OP on slot 0 and SEQ 7, with word 4. -/
def txnOf (op : Nat) (w4 : Word := 0) (flags : Nat := 0) : List Word :=
  ofType 8 [(2, BitVec.ofNat 32 (op * 2 ^ 28 + flags)), (3, 0x00070000), (4, w4)]

/-- CLV is enabled, slot 0 holds transaction 7 in a state, and a TXN heads the ring. -/
def atTxn (st : SlotState) (w : List Word) : State :=
  onRing ((up.fset pClv F.CLV_CFG_EN 1).setSlot 0 { Slot.init with st := st, seq := 7, isCoord := true, members := 1 }) w

theorem meets_txn :
    (∀ op ∈ [0, 1, 2, 3, 4, 5], (atTxn .opened (txnOf op)).phys 0 = some 0
      ∧ (atTxn .opened (txnOf op)).heads 0 ⟨0, txnOf op⟩ tTXN ∧ (txnD (txnOf op)).op = op)
    ∧ (atTxn .free (txnOf 0)).txnReasons 0 (txnD (txnOf 0)) = [] ∧ (atTxn .opened (txnOf 0)).txnReasons 0 (txnD (txnOf 0)) = [0x51]
    ∧ 6 ≤ (txnD (txnOf 9)).op ∧ (atTxn .free (txnOf 9)).txnReasons 0 (txnD (txnOf 9)) ≠ []
    ∧ (∀ op ∈ [1, 2, 3, 4, 5], (atTxn .opened (txnOf op 0x60000000)).txnReasons 0 (txnD (txnOf op 0x60000000)) = []
      ∧ (atTxn .free (txnOf op)).txnReasons 0 (txnD (txnOf op)) ≠ [])
    ∧ (((atTxn .opened (txnOf 3)).issue 0 ⟨0, txnOf 3⟩ .queued).countActions 0 1).2 = true
    ∧ ((((atTxn .opened (txnOf 3)).modSlot 0 fun x => { x with actions := 4096 }).issue 0 ⟨0, txnOf 3⟩ .queued).countActions 0 1).2 = false := by
  unfold State.heads; decide +kernel

/-- CLV is enabled, slot 0 holds transaction 7 in a state, and a TXN stands in front of core 0's Clove port. -/
def atPort (st : SlotState) (w : List Word) (p : Prog := .queued) : State := flying (atTxn st []) [⟨0, w, p, none⟩]

theorem meets_clovePort :
    (∀ op ∈ [0, 1, 2, 3, 4, 5], (atPort .opened (txnOf op)).queue 0 tTXN = ⟨0, txnOf op, .queued, none⟩ :: [] ∧ (txnD (txnOf op)).op = op)
    ∧ (atPort .free (txnOf 4)).txnSlotOk (txnD (txnOf 4)) = false ∧ (atPort .opened (txnOf 3)).txnSlotOk (txnD (txnOf 3)) = true
    ∧ (txnD (txnOf 3 0x60000000)).toLocal = true ∧ (txnD (txnOf 3 0x60000000)).kind = 1
    ∧ ((atPort .opened (txnOf 3 0x60000000)).logEntry 0 (txnD (txnOf 3 0x60000000)).entry).2.1 = 0
    ∧ ((atPort .ended (txnOf 3 0x60000000)).logEntry 0 (txnD (txnOf 3 0x60000000)).entry).2.1 ≠ 0
    ∧ (txnD (txnOf 3 0x80000005)).toLocal = false ∧ (txnD (txnOf 3 0x80000005)).module ≠ (onNet up).lid ∧ (txnD (txnOf 3 0x80000005)).kind = 2
    ∧ (((onNet (atPort .opened (txnOf 3 0x80000005))).request opSIG 0 (5 * 2 ^ 44) 4 (leBytes 4 0) (some 0) (.sync 0 0)).2) = none
    ∧ ((atPort .opened (txnOf 4)).slot 0).st ≠ .ended
    ∧ (((atPort .ended (txnOf 4)).modSlot 0 fun x => { x with outcome := some .aborted }).slot 0).outcome ≠ none
    ∧ (atPort .opened (txnOf 4) (.sync 0 none)).queue 0 tTXN = ⟨0, txnOf 4, .sync 0 none, none⟩ :: [] := by decide +kernel

theorem meets_localCommit : (atTxn .opened []).tabsOk ∧ ((atTxn .opened []).slot 0).st = .opened ∧ ((atTxn .opened []).slot 0).hall = false
    ∧ ((atTxn .opened []).slot 0).isCoord = true ∧ ((atTxn .opened []).slot 0).step = false ∧ ((atTxn .opened []).slot 0).cause = 0
    ∧ ((atTxn .opened []).slot 0).voted = none ∧ ((atTxn .opened []).slot 0).outcome = none ∧ ((atTxn .opened []).slot 0).joined = []
    ∧ ((atTxn .opened []).slot 0).joins ≤ ((atTxn .opened []).slot 0).members ∧ (atTxn .opened []).attachedDone 0 = true := by
  unfold State.tabsOk; decide +kernel

theorem meets_stepOutcomes : up.regsOk ∧ (up.fset pGctl F.GCTL_LS_GOOD_INTERVAL 2000).fget pGctl F.GCTL_LS_GOOD_GOOD + 1
      < (up.fset pGctl F.GCTL_LS_GOOD_INTERVAL 2000).fget pGctl F.GCTL_LS_GOOD_INTERVAL
    ∧ sint 8 ((up.fset pGctl F.GCTL_LSCALE_EXP 0xF0).fget pGctl F.GCTL_LSCALE_EXP) = -16
    ∧ sint 8 (((up.fset pGctl F.GCTL_LSCALE_EXP 5).fset pGctl F.GCTL_LSCALE_MIN 5).fget pGctl F.GCTL_LSCALE_EXP) = 5
    ∧ sint 8 (((up.fset pGctl F.GCTL_LSCALE_EXP 5).fset pGctl F.GCTL_LSCALE_MIN 4).fget pGctl F.GCTL_LSCALE_MIN) < 5 := by
  unfold State.regsOk; decide +kernel
/-- A packet of an OP and class from module src to dst, with words 2 and 3 and a payload. -/
def pktOf (op cls src dst : Nat) (w2 w3 : Word) (payload : List Byte) (len : Nat := 1) : Packet :=
  ⟨BitVec.ofNat 32 (op * 2 ^ 28 + cls * 2 ^ 26 + len * 2 ^ 22), BitVec.ofNat 32 (src * 2 ^ 20 + dst), w2, w3, payload⟩

/-- A packet from module 5 to this module 0, with queued requests before it. -/
def arrives (op cls : Nat) (w2 w3 : Word) (data : List Byte) (queued : Nat := 0) : Arrival := ⟨0, pktOf op cls 5 0 w2 w3 data, queued⟩

/-- A Clove message of a kind for slot 0 and a SEQ, from module 5. -/
def clovePkt (kind seq : Nat) : Arrival := ⟨0, pktOf opMSG 0 5 0 0 0 (cloveBytes kind 0 seq voteCommit 1 (0, 0, 0)), 0⟩

theorem meets_cloveMessages : ∀ k ∈ [kJOIN, kVOTE, kDECIDE, kACK, kQUERY],
    (clovePkt k 7).pkt.op = opMSG ∧ (clovePkt k 7).pkt.cls = 0 ∧ (onNet (atTxn .opened [])).consumes (clovePkt k 7).pkt = true
    ∧ (cloveMsg (clovePkt k 7).pkt.payload).kind = k ∧ (onNet (atTxn .opened [])).turnAway (clovePkt k 7) = none
    ∧ ((onNet (atTxn .opened [])).cloveSlot (cloveMsg (clovePkt k 7).pkt.payload)).isSome = true
    ∧ (onNet (atTxn .opened [])).cloveSlot (cloveMsg (clovePkt k 8).pkt.payload) = none
    ∧ (((onNet (atTxn .opened [])).fset pOgs F.OGS_CFG_ACCEPT 0).turnAway (clovePkt k 7)).isSome = true := by decide +kernel

/-- A coordinator's slot of HALL scope, with its outcome and its members. -/
def coord (o : Option Outcome4) (js : List Member) : State :=
  onNet (up.setSlot 0 { Slot.init with st := .opened, seq := 7, hall := true, isCoord := true, members := 2, outcome := o, joined := js, joins := js.length })
def member (vote : Option Nat) : Member := ⟨5, true, vote, (0, 0, 0), false, 1⟩

theorem meets_cloveEffects : (coord (some .aborted) []).tabsOk ∧ ((coord (some .aborted) []).slot 0).isCoord = true
    ∧ ((coord (some .aborted) []).slot 0).hall = true ∧ ((coord (some .aborted) []).slot 0).outcome = some .aborted
    ∧ (((coord (some .aborted) []).slot 0).joined.any fun j => j.lid == 5) = false
    ∧ ((up.setSlot 0 { Slot.init with st := .prepared, coord := 5 }).slot 0).isCoord = false ∧ outcomeOf 0x10 = some .committed
    ∧ (((coord none [member none]).slot 0).joined.map (·.lid)).Nodup ∧ ((coord none [member none]).slot 0).outcome = none
    ∧ (cloveMsg (cloveBytes kVOTE 0 7 voteNumeric 1 (0, 0, 0))).code = voteNumeric := by
  unfold State.tabsOk; decide +kernel

/-- A slot whose members have voted, with a cause. -/
def votes (cause : Nat) (vs : List Nat) : Slot := { Slot.init with cause := cause, joined := vs.map fun v => member (some v) }

theorem meets_verdictOrder : (votes 0 [voteConflict, voteOther]).verdict = .conflict ∧ (votes 0 [voteOther, voteNumeric]).verdict = .aborted
    ∧ (votes 6 [voteNumeric]).verdict = .aborted ∧ (votes 0 [voteNumeric, voteCommit]).verdict = .skipped
    ∧ (votes 0 [voteCommit]).verdict = .committed := by decide

def ending (st : SlotState) (s : Slot) : State := up.setSlot 0 { s with st := st }

def voting : Slot := (ending .opened { Slot.init with isCoord := true, hall := true, voted := some 0 }).slot 0
def doubting : Slot := (ending .prepared { Slot.init with hall := true }).slot 0

theorem meets_txnTimers :
    voting.isCoord = true ∧ voting.hall = true ∧ voting.voted ≠ none ∧ voting.outcome = none ∧ voting.st ≠ .free
    ∧ ((coord (some .aborted) [member none]).slot 0).outcome = some .aborted
    ∧ doubting.st = .prepared ∧ doubting.hall = true ∧ doubting.isCoord = false
    ∧ ((ending .applying Slot.init).slot 0).st = .applying
    ∧ (∀ st ∈ [SlotState.opened, .prepared, .ended], (ending st Slot.init).serves .firmware (pClv + 0x054) ∧ ((ending st Slot.init).slot 0).st = st) := by
  unfold State.serves; decide +kernel

theorem meets_securityWrites : up.serves .firmware (pSec + 0x050) ∧ up.serves .portA (pSec + 0x050) ∧ up.serves .firmware (pSec + 0x0E4)
    ∧ up.serves .firmware (pSec + 0x0EC) := by
  unfold State.serves; decide +kernel

/-- A SEC operation that runs on an object of a length at an address of HBM, whose header is that of a FIRMWARE object or zeros. -/
def secOp (op addr len : Nat) (hdr : List Byte) : State :=
  { ((up.setReg (pSec + 0x058) (BitVec.ofNat 32 addr)).setReg (pSec + 0x060) (BitVec.ofNat 32 len)) with
    sec := { up.sec with op := some ⟨op, none, 0⟩ }, mem := Mem.init.put addr hdr }
def fwHdr : List Byte := (leBytes 4 0xCA795E0D ++ leBytes 4 0x01010000)

theorem meets_secOps :
    (secOp 1 4096 17000 []).opDue 1 = true ∧ (secOp 1 4096 255 []).opLen < 256 ∧ 256 ≤ (secOp 1 4096 17000 []).opLen
    ∧ (({ secOp 1 4096 17000 [] with hbm := [] } : State).hbmOnlyRead 4096 256).status ≠ 0
    ∧ ((secOp 1 4096 17000 []).hbmOnlyRead 4096 256).status = 0 ∧ (envelopeOf ((secOp 1 4096 17000 []).hbmOnlyRead 4096 256).data).magic ≠ 0xCA795E0D
    ∧ ((secOp 1 4096 17000 fwHdr).hbmOnlyRead 4096 256).status = 0
    ∧ ((envelopeOf ((secOp 1 4096 17000 fwHdr).hbmOnlyRead 4096 256).data).magic = 0xCA795E0D
      ∧ (envelopeOf ((secOp 1 4096 17000 fwHdr).hbmOnlyRead 4096 256).data).format = 1
      ∧ (envelopeOf ((secOp 1 4096 17000 fwHdr).hbmOnlyRead 4096 256).data).kind = 1
      ∧ (envelopeOf ((secOp 1 4096 17000 fwHdr).hbmOnlyRead 4096 256).data).size = 16864)
    ∧ (secOp 2 4096 34384 []).opDue 2 = true ∧ (secOp 2 4096 34384 []).sec.identityOk = false
    ∧ (secOp 2 4096 34383 []).opLen < 34384 ∧ ((secOp 2 4096 34384 []).hbmOnlyRead 4096 32).status = 0
    ∧ (secOp 3 0 0 []).opDue 3 = true ∧ (∀ op ∈ [1, 2], (secOp op 4096 17000 []).opHeld = false) ∧ (secOp 2 4096 34384 []).opHeld = false := by
  decide +kernel

theorem meets_secBody : ((secOp 1 4096 17000 fwHdr).hbmOnlyRead 4352 16608).status = 0 := by decide +kernel

/-- Engine 0 of Saffron has a job ring at HBM offset 0 with one job given, of an OP. -/
def safJob (op : Nat) : State :=
  { ((up.setReg (pSaf 0 + 0x050) 1).fset (pSaf 0) F.SAF_CTRL_EN 1) with mem := Mem.init.put 0 (leBytes 4 (op * 2 ^ 28)) }
/-- It runs a job: formed, erased, or stalled. -/
def safRuns (erased stalled : Bool) : State :=
  up.setSaf 0 ⟨some ⟨0, [], KeySlot.init, 0, none, [], [], [], 0, 0, true, some (0, 0), erased⟩, stalled, false⟩

theorem meets_saffron : up.serves .portA (pSaf 0 + 0x050) ∧ (((safJob 0).headJob 0).map (·.status)) = some 0
    ∧ (((safJob 0).headJob 0).map fun r => jobDecrypt (wordsOf 16 r.data)) = some false
    ∧ (((safJob 1).headJob 0).map fun r => jobDecrypt (wordsOf 16 r.data)) = some true
    ∧ ((({ safJob 0 with hbm := [] } : State).headJob 0).map (·.status)) = some 0x0B
    ∧ ((safRuns false true).safSt 0).job.isSome = true ∧ ((safRuns false true).safSt 0).stalled = true
    ∧ ((safRuns true false).safSt 0).job.map (·.erased) = some true ∧ ((safRuns false false).safSt 0).stalled = false
    ∧ ((safRuns false false).safSt 0).job.map (fun j => (j.erased, j.formed, j.writes, j.reads)) = some (false, true, 0, 0)
    ∧ up.tabsOk ∧ (safRuns false false).tabsOk ∧ ((safRuns false false).safSt 0).retired = false
    ∧ (∀ b ∈ [false, true], ∀ c ∈ [false, true], (((safRuns b c).safSt 0).job.map fun j => (safRuns b c).recHeld 0 j) = some false) := by
  unfold State.serves State.tabsOk; decide +kernel

theorem meets_decryptUndoesEncrypt : (List.replicate 32 (7 : Byte)).length = 32 := by decide

/-- Core 0 HALTED with AUTO_P2; a begun P3 entry whose conditions hold, or whose slot 0 is in use; and P3 with a wake-up. -/
def autoP2 : State := up.fset pPwr F.PWR_CTRL_AUTO_P2 1
def toP3 (s : State) : State := { s with pwr := { s.pwr with p3From := some 0 } }
def inP3 : State := { up.fset pPwr F.PWR_STAT_STATE 3 with boot := { up.boot with wake := true } }

theorem meets_powerStates : up.regsOk ∧ up.serves .firmware (pPwr + 0x040) ∧ up.boot.ready = true
    ∧ ({ up with boot := { up.boot with ready := false } } : State).serves .firmware (pPwr + 0x040)
    ∧ autoP2.memOk ∧ autoP2.regsOk ∧ autoP2.tabsOk ∧ autoP2.fget pPwr F.PWR_CTRL_AUTO_P2 = 1 ∧ autoP2.pState ≤ 1 ∧ autoP2.allHalted = true
    ∧ (toP3 up).pwr.p3From.isSome = true ∧ (toP3 up).p3Unmet = 0 ∧ (toP3 up).powered = true ∧ (up.hbmc 0).st = .active
    ∧ aonReg (pPwr + 0x080) = true ∧ (up.fset pSec F.SEC_POLICY_RETAIN_KEYS 1).fget pSec F.SEC_POLICY_RETAIN_KEYS = 1 ∧ up.sec.dbg = 0
    ∧ (toP3 (ending .opened Slot.init)).p3Unmet = 1 ∧ inP3.pState = 3 ∧ inP3.boot.wake = true := by
  unfold State.regsOk State.serves State.memOk State.tabsOk; decide +kernel

/-- Limits: 3,600 W free; CAP at 100 W, which counts as 900; the throttle at FLOOR; a hot I/O die; and two equal terms. -/
def capped (w : Nat) : State := up.fset pPwr F.PWR_CAP_WATTS w
def throttled : State := (up.fset pPwr F.PWR_STAT_THR 1).fset pSumac F.SUMAC_PHASE_PHASE 2

theorem meets_effectiveLimit : up.limitW = 3600 ∧ up.limiter = 0 ∧ (capped 100).limitW = 900 ∧ (capped 100).limiter = 2
    ∧ throttled.throttled = true ∧ throttled.limitW = throttled.floorW
    ∧ ({ up with pwr := { up.pwr with ioHot := true, vLimit := true } } : State).limiter = 4 ∧ (895 : Nat) ≤ 895 ∧ dOpen 895 = 0 ∧ dOpen 3600 = 64 := by
  decide +kernel

theorem meets_dutyAndThrottle : up.regsOk ∧ throttled.regsOk ∧ up.powered = true ∧ throttled.powered = true ∧ up.throttled = false ∧ up.pwr.ramp = false
    ∧ up.peakW ≤ up.limitW ∧ up.pState ≤ 1 ∧ 2 ≤ (up.fset pSumac F.SUMAC_PHASE_PHASE 2).fget pSumac F.SUMAC_PHASE_PHASE
    ∧ throttled.fget pPwr F.PWR_STAT_ACK = 0 ∧ throttled.peakW ≤ throttled.floorW ∧ (throttled.fset pPwr F.PWR_STAT_ACK 1).fget pPwr F.PWR_STAT_ACK ≠ 0
    ∧ ({ up with pwr := { up.pwr with ramp := true } } : State).pwr.ramp = true
    ∧ (throttled.fset pPwr F.PWR_THR_CFG_LONG_S 1).fget pPwr F.PWR_THR_CFG_LONG_S ≠ 0 ∧ throttled.pwr.thrLong = false := by
  unfold State.regsOk; decide +kernel

theorem meets_sensors : up.regsOk ∧ up.powered = true ∧ (105 : Int) ≤ 105 ∧ (114 : Int) < 115 ∧ (95 : Int) ≤ 95 ∧ (99 : Int) < 100 ∧ up.pwr.thermal = []
    ∧ (115 : Int) ≤ 115 ∧ (150 : Int) ≤ 150 ∧ (40000 : Nat) ≤ 40000 ∧ (60000 : Nat) ≤ 60000 ∧ (38000 : Nat) ≤ 38000 ∧ (39999 : Nat) < 40000
    ∧ (37999 : Nat) < 38000 ∧ 1 ≤ ({ up with pwr := { up.pwr with vFar := 1, refBad := 1 } } : State).pwr.vFar
    ∧ (99970000 : Nat) ≤ 100030000 ∧ ({ up with pwr := { up.pwr with vFar := 1, refBad := 1 } } : State).pwr.refBad = 1 := by
  unfold State.regsOk; decide +kernel

theorem meets_flashOutlives : up.regsOk ∧ up.boot.pwrOk = true ∧ ({ up with boot := { up.boot with pwrOk := false } } : State).boot.pwrOk = false
    ∧ flashReg (pHbm 31 + 0x04C) = true ∧ pendReg (pHbm 0 + 0x050) = true ∧ flashReg (pCore 0 + 0x040) = false
    ∧ pendReg (pCore 0 + 0x040) = false := by
  unfold State.regsOk; decide +kernel

/-- The time unit in a state, at a count, with an expected pulse. -/
def timeIn (st now expect : Nat) : State :=
  { ((up.setTimeState st).setPair64 aNow now) with time := { TimeSt.init with expect := expect } }

theorem meets_time : up.regsOk ∧ up.powered = true ∧ up.pending = [] ∧ up.boot.resetLow = false ∧ up.time.span = 0 ∧ up.trim = 0
    ∧ up.time.trimAcc < 1000000000 ∧ up.time.deferred = 0 ∧ (50 : Nat) ≤ 50 ∧ (up.fset pTime F.TIME_CTRL_ARM 1).fget pTime F.TIME_CTRL_ARM = 1
    ∧ (timeIn 1 999500000 0).timeState = 1 ∧ (timeIn 1 999500000 0).fget pTime F.TIME_CTRL_ARM = 0
    ∧ (timeIn 1 999500000 0).pair64 aEdge + 999500000 ≤ (timeIn 1 999500000 0).now
    ∧ (timeIn 1 1000500000 0).now ≤ (timeIn 1 1000500000 0).pair64 aEdge + 1000500000
    ∧ (timeIn 2 98000 100000).timeState = 2 ∧ (timeIn 2 98000 100000).time.expect ≤ (timeIn 2 98000 100000).now + 2000
    ∧ (timeIn 2 102000 100000).now ≤ (timeIn 2 102000 100000).time.expect + 2000
    ∧ ((timeIn 2 0 0).fset pTime F.TIME_STAT_REJ_RUN 2).fget pTime F.TIME_STAT_REJ_RUN = 2 ∧ 2 ≤ (timeIn 3 0 0).timeState := by
  unfold State.regsOk; decide +kernel

/-- One controller, one core and the queues of a stack, changed in the state above. -/
def stack (f : HbmCtl → HbmCtl) : State := up.modHbmc 0 f

theorem meets_hbmCommands : up.regsOk ∧ up.tabsOk ∧ (up.hbmc 0).st = .active ∧ up.powered = true
    ∧ (-20 : Int) ≤ -20 ∧ (130 : Int) ≤ 130 ∧ (-21 : Int) < -20 ∧ (130 : Int) < 131
    ∧ ((up.fset pPwr F.PWR_STAT_STATE 2).fset (pHbm 0) F.HBM_HC_CFG_PARTIAL_SR_EN 1).pState = 2
    ∧ ((up.fset pPwr F.PWR_STAT_STATE 2).fset (pHbm 0) F.HBM_HC_CFG_PARTIAL_SR_EN 1).fget (pHbm 0) F.HBM_HC_CFG_PARTIAL_SR_EN = 1
    ∧ ((stack fun h => { h with candidates := [5, 6] }).hbmc 0).candidates = 5 :: [6]
    ∧ ((stack fun h => { h with candidates := [5, 6] }).hbmc 0).repairing = none ∧ 2 ^ 53 - 1 < 2 ^ 53
    ∧ ((stack fun h => { h with st := .training }).hbmc 0).st = .training
    ∧ ((stack fun h => { h with repairing := some 5 }).hbmc 0).repairing = some 5
    ∧ (up.hbmc 0).st ≠ .off ∧ up.boot.resetLow = false
    ∧ up.fget (pHbm 0) F.HBM_RAS_CFG_SCRUB_H ≠ 0 ∧ (up.stripeOff 0 (up.hbmc 0).scrub).isSome = true
    ∧ (∀ x ∈ up.stripeOff 0 (up.hbmc 0).scrub, up.memHeld x 256 = false) ∧ up.dieHalted 0 = true
    ∧ ({ up with wear := { up.wear with running := some ⟨3, 0, 0, 7, 0, false⟩ } } : State).wear.running = some ⟨3, 0, 0, (7 : Fin 8), 0, false⟩ := by
  unfold State.regsOk State.tabsOk; decide +kernel

/-- The spare cores of die 0 used up. -/
def noSpare : State := { up with wear := { up.wear with retired := (List.range 8).map (128 + ·) } }

theorem meets_sparingCommands : up.serves .firmware (pCdm + 0x060) ∧ up.powered = true ∧ up.regsOk
    ∧ up.phys 1 = none ∧ up.phys 0 = some 0 ∧ (0 : Nat) < 1088 ∧ up.halted 0 = true ∧ (up.mx 0).st = .idle
    ∧ (up.setReg (pCore 0 + 0x040) 0).halted 0 = false ∧ noSpare.findSpare 0 = none ∧ up.findSpare 0 = some 128
    ∧ up.logs.repairs.length < 2048 := by
  unfold State.regsOk State.serves; decide +kernel

/-- A replacement of core 0 by the spare 128 that runs. -/
def sparing : State := { up with wear := { up.wear with running := some ⟨1, 0, 0, 0, 128, true⟩ } }

theorem meets_spareTakesOver : sparing.memOk ∧ sparing.regsOk ∧ sparing.coresOk
    ∧ sparing.wear.running = some ⟨1, 0, 0, 0, 128, true⟩ ∧ sparing.phys 0 = some 0 ∧ sparing.units.posOf 0 = some 0 ∧ (0 : Nat) ≠ 128 := by
  unfold State.memOk State.regsOk State.coresOk; decide +kernel

/-- The operations on a bank and on a die of HBM, as they run. -/
def sparingBank : State := { up with wear := { up.wear with running := some ⟨2, 0, 5, 0, 0, false⟩ } }
def sparingDie : State := { up with wear := { up.wear with running := some ⟨3, 0, 0, 7, 0, false⟩ } }

theorem meets_spareEnds : sparingBank.regsOk ∧ sparingBank.wear.running = some ⟨2, 0, 5, 0, 0, false⟩ ∧ sparingBank.phys 0 = some 0 ∧ 5 < 8
    ∧ sparingDie.regsOk ∧ sparingDie.wear.running = some ⟨3, 0, 0, 7, 0, false⟩ ∧ sparingDie.dieHalted 7 = true := by
  unfold State.regsOk; decide +kernel

/-- Port 0 in a state of R299, with lanes 0 to 7 active. -/
def portIn (st : Nat) : State := (up.fset (pFp 0) F.FP_LINK_STAT_STATE st).fset (pFp 0) F.FP_LANE_MAP_ACTIVE 0xFF

theorem meets_linkCommands : up.regsOk ∧ up.serves .firmware (pFp 0 + 0x040) ∧ (portIn 1).fpState 0 = 1 ∧ (portIn 2).fpState 0 = 2
    ∧ (portIn 3).fpState 0 = 3 ∧ ((portIn 2).fget (pFp 0) F.FP_LANE_MAP_ACTIVE).testBit 7 = true
    ∧ (up.fset (pSite 1) F.SITE_LINK_STAT_STATE 1).fget (pSite 1) F.SITE_LINK_STAT_STATE = 1
    ∧ up.hostOn .a = true ∧ up.powered = true ∧ up.boot.perst.testBit (HostPort.ix .a) = false := by
  unfold State.regsOk State.serves; decide +kernel

/-- A flit with its packet bytes and control word, as it arrives, and the same with each bit of its CRC turned. -/
def flitWith (body : List Byte) (ctrl : Nat) (rp : Option (Fin 4096)) (bad : Bool) : FlitRx :=
  let a := body ++ leBytes 4 ctrl
  ⟨a ++ leBytes 4 (if bad then ~~~Config.crc32 a else Config.crc32 a).toNat, false, rp⟩

/-- A flit of zeros with a SEQ and an ACK. -/
def flitRx (seq ack : Nat) (rp : Option (Fin 4096)) (bad : Bool) : FlitRx :=
  flitWith (List.replicate 240 0) (flitWord seq ack 0) rp bad

theorem leNat_word (w : Word) : leNat (leBytes 4 w.toNat) = w.toNat := by
  simp [leBytes, leNat]; omega

theorem flitWith_crcOk (body : List Byte) (ctrl : Nat) (rp : Option (Fin 4096)) (bad : Bool) (h : body.length = 240) :
    (flitWith body ctrl rp bad).crcOk = !bad := by
  have hl : (body ++ leBytes 4 ctrl).length = 244 := by simp [leBytes, h]
  unfold FlitRx.crcOk flitWith
  simp only []
  rw [List.drop_left' hl, List.take_left' hl, List.take_of_length_le (by simp [leBytes]), leNat_word]
  generalize Config.crc32 _ = w
  cases bad with
  | true =>
    simp only [if_true, Bool.not_true, beq_eq_false_iff_ne, ne_eq]
    intro h
    simpa using congrArg (fun v : BitVec 32 => v.getLsbD 0) (BitVec.eq_of_toNat_eq h)
  | false => simp

theorem flitRx_crcOk (seq ack : Nat) (rp : Option (Fin 4096)) (bad : Bool) : (flitRx seq ack rp bad).crcOk = !bad :=
  flitWith_crcOk _ _ rp bad List.length_replicate

theorem seq_of_flitRx (seq ack : Nat) (rp : Option (Fin 4096)) (bad : Bool) :
    (flitRx seq ack rp bad).seq = nbits (leNat (leBytes 4 (flitWord seq ack 0))) 31 20 := by
  unfold FlitRx.seq FlitRx.ctrl flitRx flitWith
  simp only []
  rw [List.append_assoc, List.drop_left' List.length_replicate, List.take_left' (by simp [leBytes])]

theorem meets_flitsReceived : (portIn 2).fpState 0 = 2 ∧ ((portIn 2).link 0).rxNext = 0 ∧ ((portIn 2).link 0).discarding = false
    ∧ (∀ rp, (flitRx 0 4095 rp false).crcOk = true ∧ (flitRx 0 4095 rp false).seq = 0 ∧ (flitRx 0 4095 rp false).replay = rp)
    ∧ (flitRx 5 4095 none false).crcOk = true ∧ (flitRx 5 4095 none false).seq ≠ 0 ∧ (flitRx 0 4095 none true).crcOk = false
    ∧ (((portIn 2).setLink 0 { LinkSt.init with discarding := true }).link 0).discarding = true :=
  ⟨by decide +kernel, by decide +kernel, by decide +kernel,
    fun rp => ⟨flitRx_crcOk 0 4095 rp false, (seq_of_flitRx 0 4095 rp false).trans (by decide), rfl⟩, flitRx_crcOk 5 4095 none false,
    by rw [seq_of_flitRx]; decide, flitRx_crcOk 0 4095 none true, by decide +kernel⟩

theorem meets_flitLayout : (List.replicate 240 (7 : Byte)).length = 240 ∧ 4095 < 4096 ∧ 255 < 256
    ∧ (pktOf opWR 1 4 5 0 0 (List.replicate 256 1)).payload.length = 256 := by decide +kernel

theorem meets_registerTimeoutAnswers : up.live = true ∧ up.bar2 = [] ∧ up.regsOk
    ∧ toRegs (arrives opWR 0 0 0xF0000000 []).pkt = true ∧ (onNet up).consumes (arrives opWR 0 0 0xF0000000 []).pkt = true := by
  unfold State.regsOk; decide +kernel

theorem meets_trainingChoosesLanes : up.regsOk ∧ up.fget (pFp 0) F.FP_LINK_CTRL_RATE_CAP = 0
    ∧ (up.fset (pFp 0) F.FP_LINK_CTRL_RATE_CAP 1).fget (pFp 0) F.FP_LINK_CTRL_RATE_CAP = 1
    ∧ up.badLanes 0 ||| up.fget (pFp 0) F.FP_LANE_MAP_FAILED = 0
    ∧ 7 ≤ popcount 0x07F ∧ 7 ≤ popcount 0x1FF ∧ popcount 0x03F < 7 := by
  unfold State.regsOk; decide +kernel

/-- Port A before it is ready; held in reset; in load mode. -/
def portReady (s : State) : State := { s with boot := { s.boot with hostReady := 1 } }
def inReset (s : State) : State := { s with boot := { s.boot with perst := 1 } }
def loadMode : State := { up with boot := { up.boot with loading := true, running := false, ready := false, hostReady := 1 } }

theorem meets_hostPortCommands : up.regsOk ∧ up.hostOn .a = true ∧ up.powered = true ∧ up.boot.resetLow = false
    ∧ up.boot.perst.testBit 0 = false ∧ up.boot.hostReady.testBit 0 = false ∧ loadMode.hostOn .a = true ∧ loadMode.loadLive .portA = true
    ∧ (portReady up).loadLive .portA = false ∧ (portReady up).rqLive .portA = true ∧ up.pState ≠ 4 ∧ up.live = true ∧ up.bar2 = []
    ∧ (inReset up).hostOn .a = true ∧ (inReset up).boot.perst.testBit 0 = true
    ∧ ((inReset up).fset pPwr F.PWR_STAT_STATE 3).pState = 3 := by
  unfold State.regsOk; decide +kernel

/-- BAR2 of port A over the scratchpad of core 0. -/
def overSp : State := (portReady up).fset (pHp .a) F.HP_B2_BASE_HI_ADDR_HI 0xC00

theorem meets_bar2ReachesMemory : overSp.loadLive .portA = false ∧ overSp.rqLive .portA = true ∧ overSp.memOk ∧ overSp.bar2 = []
    ∧ overSp.b2Ogs .a = false ∧ 0 % 32 = 0 ∧ overSp.b2Base .a % 32 = 0 ∧ overSp.mem.spClean = true
    ∧ overSp.place (overSp.b2Base .a % 2 ^ 44 + 0) 32 = .sp 0 0 ∧ overSp.endHeld (overSp.b2Base .a % 2 ^ 44 + 0) 32 = false
    ∧ (List.replicate 32 (1 : Byte)).length = 32 := by
  unfold State.memOk; decide +kernel

theorem meets_startAndTelemetry : State.reset.boot.pwrOk = true ∧ State.reset.boot.resetLow = true ∧ State.reset.boot.waitSample = false
    ∧ 3 ≤ ({ State.reset with boot := { State.reset.boot with samples := [1, 1, 1] } } : State).boot.samples.length
    ∧ up.powered = true ∧ up.boot.resetLow = false ∧ (up.fset pSumac F.SUMAC_PHASE_PHASE 1).fget pSumac F.SUMAC_PHASE_PHASE = 1
    ∧ up.boot.waitSample = false ∧ up.boot.loading = false ∧ up.boot.fault = false
    ∧ 2 ≤ (up.fset pSumac F.SUMAC_PHASE_PHASE 2).fget pSumac F.SUMAC_PHASE_PHASE
    ∧ loadMode.boot.loading = true ∧ loadMode.powered = true
    ∧ bit ((loadMode.setReg (pMbx loadMode.loadPort + 0x0C8) 1).reg (pMbx loadMode.loadPort + 0x0C8)) 0 = true
    ∧ loadMode.imageReason (loadMode.bufferBytes 0 0) 1 ≠ 0 ∧ up.mctpLive = true ∧ up.boot.pwrOk = true
    ∧ ((6 : Byte) = 0 ∨ 5 < (6 : Byte).toNat) ∧ 3 ≤ (3 : Byte).toNat
    ∧ (up.logEvent 0x0011 0 2 0x0013 0).logEntryAt 0 0 ≠ none := by
  decide +kernel

/-- A packet for module 5 that has passed some modules. -/
def passing (hops : Nat) : Arrival := ⟨0, { pktOf opRD 1 4 5 0 0 [] with w1 := BitVec.ofNat 32 (4 * 2 ^ 20 + hops * 4096 + 5) }, 0⟩

theorem meets_fabricTarget : (∀ op ∈ [opRD, opWR, opSIG], (onNet up).consumes (arrives op 1 4096 0 []).pkt = true
      ∧ (onNet up).turnAway (arrives op 1 4096 0 []) = none ∧ (onNet up).packetHeld (arrives op 1 4096 0 []).pkt = false
      ∧ (arrives op 1 4096 0 []).pkt.op = op)
    ∧ ({ onNet up with held := [.packet (arrives opWR 1 4096 0 [])] } : State).packetHeld (arrives opRD 1 4096 0 []).pkt = true
    ∧ ({ onNet up with held := [.packet (arrives opWR 1 4096 0 [])] } : State).turnAway (arrives opRD 1 4096 0 []) = none
    ∧ (arrives 5 1 0 0 []).pkt.op ∉ [1, 2, 3, 4, 8, 9]
    ∧ (onNet up).consumes (passing 3).pkt = false ∧ 1 ≤ (passing 3).pkt.op ∧ (passing 3).pkt.op ≤ 4
    ∧ up.egress (passing 3).pkt.dst = none ∧ up.consumes (passing 3).pkt = false ∧ (onNet up).egress (passing 3).pkt.dst = some 0 := by decide +kernel

theorem meets_targetTurnsAway : ((onNet up).fset pOgs F.OGS_CFG_ACCEPT 0).consumes (arrives opSIG 1 0 0 []).pkt = true
    ∧ ((onNet up).fset pOgs F.OGS_CFG_ACCEPT 0).fget pOgs F.OGS_CFG_ACCEPT = 0 ∧ toRegs (arrives opRD 1 4096 0 []).pkt = false
    ∧ (onNet up).fget pOgs F.OGS_CFG_ACCEPT = 1 ∧ (arrives opRD 2 4096 0 []).pkt.cls = 2 ∧ (arrives opRD 3 4096 0 []).pkt.cls = 3
    ∧ ((onNet up).fset pOgs F.OGS_CFG_C2_DEPTH 0).fget pOgs F.OGS_CFG_C2_DEPTH = 0
    ∧ ((onNet up).fset pOgs F.OGS_CFG_C2_DEPTH 1).fget pOgs F.OGS_CFG_C2_DEPTH ≠ 0 ∧ 2048 ≤ (onNet up).queuedAt (arrives opRD 2 4096 0 [] 2048)
    ∧ 512 ≤ (onNet up).queuedAt (arrives opRD 3 4096 0 [] 512)
    ∧ 256 ≤ (onNet up).queuedAt (arrives opRD 0 4096 0 [] 256) ∧ 4096 ≤ (onNet up).queuedAt (arrives opRD 1 4096 0 [] 4096)
    ∧ (arrives opRD 0 4096 0 [] 256).pkt.cls = 0 ∧ (arrives opRD 1 4096 0 [] 4096).pkt.cls = 1 := by decide +kernel

/-- A read of module 5 at the tracker, in a phase and class, with tag 7. -/
def reqIn (cls : Nat) (ph : ReqPhase) : Req := ⟨7, opRD, cls, 5, 4096, 32, [], none, .move 0 0 0 none 0, ph, 0, 1, false⟩
def asking (cls : Nat) (ph : ReqPhase) : State := { onNet up with fab := { (onNet up).fab with reqs := [reqIn cls ph] } }
def answered (op : Nat) : Arrival := ⟨0, { pktOf op 2 5 0 0 0 [] with w0 := BitVec.ofNat 32 (op * 2 ^ 28 + 2 * 2 ^ 26 + 7) }, 0⟩

theorem meets_fabricSource : (answered opRSP).pkt.op = opRSP ∧ (asking 2 .admitted).matchReq (answered opRSP).pkt 1 = some (reqIn 2 .admitted)
    ∧ (asking 2 .admitted).matchReq (answered opRSP).pkt 2 = none ∧ (asking 2 .admitted).consumes (answered opRSP).pkt = true
    ∧ (answered opNAK).pkt.op = opNAK ∧ (asking 2 .admitted).matchReq (answered opNAK).pkt 1 = some (reqIn 2 .admitted) ∧ (reqIn 2 .admitted).cls = 2
    ∧ ((asking 2 (.naked 3)).fab.reqs.find? fun r => r.tag == 7 && (match r.phase with | .naked _ => true | _ => false)) = some (reqIn 2 (.naked 3))
    ∧ (asking 2 (.naked 3)).egress 5 = some 0 ∧ 1 ≤ (asking 2 (.naked 3)).fget pOgs F.OGS_CFG_HOP_MAX
    ∧ ((asking 2 .waiting).fab.reqs.find? fun r => r.cls == 2 && !r.holds) = some (reqIn 2 .waiting)
    ∧ (asking 2 .waiting).inUse 2 < classEntries 2
    ∧ (asking 2 .admitted).fget pOgs ⟨0x05C, 23, 0⟩ ≠ 0
    ∧ ((asking 2 (.resent 3)).fab.reqs.find? fun r => r.tag == 7 && (match r.phase with | .admitted | .resent _ => true | _ => false))
        = some (reqIn 2 (.resent 3))
    ∧ (asking 2 .waiting).heldC2[0]? = some (reqIn 2 .waiting) ∧ (reqIn 2 .waiting).phase = .waiting
    ∧ (asking 2 (.naked 3)).heldC2[0]? = some (reqIn 2 (.naked 3)) ∧ (asking 2 (.resent 3)).heldC2[0]? = some (reqIn 2 (.resent 3))
    ∧ ({ onNet up with fab := { (onNet up).fab with reqs := [{ reqIn 2 .admitted with delayed := true }] } } : State).heldC2[0]?
        = some { reqIn 2 .admitted with delayed := true }
    ∧ (asking 2 (.naked 3)).fget pOgs F.OGS_CFG_EN ≠ 0 := by decide +kernel

/-- A COLL of an OP; a running one as its member holds it, and as its leader does. -/
def collOf (op : Nat) : List Word := ofType 6 [(2, BitVec.ofNat 32 (op * 2 ^ 28)), (3, 64)]
def inColl (ph : CollPhase) (lead : Option CollLead) : CollSt :=
  { phase := ph, rank := 0, n := 2, leadLid := 0, leadCore := 0, sig := [], me := 0, peers := [⟨0, 0, 0, 0, 4, 0⟩, ⟨0, 1, 1, 0, 4, 0⟩],
    agreed := [], fixed := [], got := [], txn := false, begun := false, ready := [], sent := [], freed := [], waiting := 0, target := 0,
    arrived := [], taken := [], busy := [], fail := none, stopped := false, reported := false, consumed := false, flags := 0,
    verdict := none, lead := lead }
def leading (stop : Bool) (excl : List Nat) : CollLead :=
  { table := [(0, 0), (0, 1)], turn := [0, 0], entered := [⟨[], ⟨0, 0, 0, 0, 4, 0⟩⟩], closed := false, incl := [], pres := [], sums := [],
    fixed := [], reports := [], fail := none, stopSent := stop, stopOver := false, verdict := none, excluded := excl, late := [],
    lateReady := [], serving := none, served := [], lateOver := false }
def colling (w2 : Word) (c : CollSt) : State := flying up [⟨0, ofType 6 [(2, w2), (3, 64)], .coll c, none⟩]
def said (b : CollBody) : CollMsg := ⟨0, 1, 0, 0, 0, 0, b⟩
def telling (b : CollBody) : State := { up with coll := { up.coll with msgs := [said b] } }

theorem meets_collectiveCommands : (∀ op ∈ [0, 1, 2, 3, 4, 5], (collD (collOf op)).op = op) ∧ (onRing up (collOf 1)).phys 0 = some 0
    ∧ (onRing up (collOf 1)).heads 0 ⟨0, collOf 1⟩ tCOLL
    ∧ (∀ b ∈ [CollBody.enter [] ⟨0, 1, 1, 0, 4, 0⟩, .start 0 [], .pre [] [], .go [], .chunk, .free, .report 0 false, .stop, .verdict 0 0 0 0, .excluded],
        ((telling b).collTaken (.here 0)).map (·.1) = some (said b)
        ∧ ((onNet up).collTaken (.net (arrives opMSG 0 0 0 (leBytes 4 ((0x80 + b.sub) * 2 ^ 24))) { said b with fromLid := 5 })).map (·.1) = some { said b with fromLid := 5 })
    ∧ (telling .chunk).phys (said .chunk).core = some 0
    ∧ (colling 0x10008000 (inColl .entered (some (leading false [])))).entryOpen 0 true = true
    ∧ (colling 0x10000000 (inColl .entered (some (leading false [])))).entryOpen 0 false = true
    ∧ ((colling 0x10000000 (inColl .entered none)).collHead 0).map (·.2) = some (inColl .entered none)
    ∧ (inColl .entered none).phase = .entered ∧ (inColl .entered none).lead = none ∧ (inColl .entered none).verdict = none
    ∧ (inColl .data none).arrived = [] ∧ (inColl .data none).reported = false ∧ (0 : Nat) < (inColl .data none).due (collD (collOf 1))
    ∧ (leading true []).stopSent = true ∧ (leading true []).verdict = none
    ∧ ((leading true [1]).excluded.filter fun r => !(leading true [1]).served.contains r).length ≠ 0 ∧ (leading true [1]).lateOver = false := by
  unfold State.heads; decide +kernel

/-- This module in the exchange as the convener of site 0, in a state of its epoch, with member and enrolled sites and a key
for site 1. -/
def exch (st members : Nat) : State :=
  ((((up.fset pZwk F.ZWK_CFG_EN 1).fset pZwk F.ZWK_EPOCH_STATE st).fset pZwk F.ZWK_MEMB_MEMBERS members).fset pZwk F.ZWK_MEMB_ENROLLED 7).setKey 0
    ⟨true, false, 0, 1, 0, 0, 32, 0, List.replicate 32 0⟩

/-- The same with a stream of 64 bytes of core 0 in its scratchpad. -/
def streaming : State := { exch 1 1 with mem := Mem.init.put (spKey 0 8) (leBytes 4 64) }
def zwkOf (op off : Nat) : List Word :=
  ofType 10 [(2, BitVec.ofNat 32 (op * 2 ^ 28)), (3, 0), (4, BitVec.ofNat 32 off), (5, 0x80000000), (6, 64), (7, 4096), (8, 0x80000000)]

/-- A parcel of a kind from module 0 of site 1 to a module of a site, as it comes from a gateway, module 5. -/
def hdrOf (kind dst lid : Nat) (plen : Nat) : ParcelHdr := ⟨kind, 1, dst, 0, 0, lid, 0, 0, 0, 0, 0, 2, 1, plen, 0, 1, 0⟩
def parcelBytes (h : ParcelHdr) (pt : List Byte) : List Byte :=
  let s := gcmSeal (List.replicate 32 0) (parcelIv h.src h.lid h.route 0 h.ctr) h.bytes pt
  h.bytes ++ s.1 ++ s.2
def packed (bs : List Byte) : ParcelIn := .fabric [arrives opMSG 2 0 0 bs]
def ctrlOf (b : ZCtrl) : CtrlIn := ⟨packed (parcelBytes (hdrOf 3 0 0 (zBytes b).length) (zBytes b)), b⟩
def decisionOf1 : Decision := ⟨0, 0, 3, 0, 1, [], [], 0, 0⟩

/-- A stream that core 0 receives from site 1, with one parcel of two; and one that it sends. -/
def groupRx : GroupIn := ⟨0, 2, 1, [(0, [1])], none, []⟩
def streamRx : StreamIn := ⟨1, 0, 0, 0, [groupRx], 2, none, false, false⟩
def streamTx : StreamOut := ⟨0, 0, 0, 0, 0, true, [], 1, 0, [1], [], none⟩
def receiving : State := (exch 1 3).setZwk fun z => { z with ins := [streamRx] }
def sending : State := flying ((exch 1 3).setZwk fun z => { z with outs := [streamTx] }) [⟨0, zwkOf 0 0, .queued, none⟩]
def draftOf (s : State) : State := s.setConv fun c => { c with draft := some decisionOf1, held := [decisionOf1], observers := 4 }

theorem meets_zwikaiRing : (∀ op ∈ [0, 1, 2, 3, 4], (zwkD (zwkOf op 0)).op = op ∧ (onRing streaming (zwkOf op 1)).heads 0 ⟨0, zwkOf op 1⟩ tZWK
        ∧ (onRing streaming (zwkOf op 1)).zwkCheck 0 0 (zwkD (zwkOf op 1)) = some 0x70)
    ∧ (∀ op ∈ [1, 3], (zwkD (zwkOf op 0)).sends = false ∧ streaming.zwkCheck 0 0 (zwkD (zwkOf op 0)) = none)
    ∧ (∀ op ∈ [0, 2], (zwkD (zwkOf op 0)).sends = true ∧ streaming.zwkCheck 0 0 (zwkD (zwkOf op 0)) = none
        ∧ (streaming.locRead 0 (zwkD (zwkOf op 0)).buf 64).status = 0
        ∧ field (streaming.locRead 0 (zwkD (zwkOf op 0)).buf 64).data 8 4 = (zwkD (zwkOf op 0)).bytes)
    ∧ (exch 3 1).zwkCheck 0 0 (zwkD (zwkOf 4 0)) = none := by
  unfold State.heads; decide +kernel

/-- A read of HBM that a stack not in service answers. -/
def dark : List Word := ofType 10 [(3, 0), (4, 0), (5, 0), (6, 64), (7, 4096), (8, 0x80000000)]

theorem meets_zwikaiStreams : (zwkD (zwkOf 0 0)).sends = true ∧ (exch 1 1).zwkCheck 0 0 (zwkD (zwkOf 0 0)) = none
    ∧ ((exch 1 1).locRead 0 (zwkD (zwkOf 0 0)).buf 64).status = 0
    ∧ field ((exch 1 1).locRead 0 (zwkD (zwkOf 0 0)).buf 64).data 8 4 ≠ (zwkD (zwkOf 0 0)).bytes
    ∧ (streaming.fset pZwk F.ZWK_CFG_EN 0).zwkCheck 0 0 (zwkD (zwkOf 0 0)) = some 0x71
    ∧ (streaming.modHbmc 0 fun h => { h with st := .failed }).zwkCheck 0 0 (zwkD dark) = none
    ∧ ((streaming.modHbmc 0 fun h => { h with st := .failed }).locRead 0 (zwkD dark).buf 64).status ≠ 0 := by decide +kernel

/-- A module of the exchange as the fabric reaches it. -/
def near (st members : Nat) : State := onNet (exch st members)

theorem field_append (a b : List Byte) (o n : Nat) (h : o + n ≤ a.length) : field (a ++ b) o n = field a o n := by
  unfold field
  rw [List.drop_append_of_le_length (by omega), List.take_append_of_le_length (by rw [List.length_drop]; omega)]

theorem ofBytes_append (a b : List Byte) (h : a.length = 48) : ParcelHdr.ofBytes (a ++ b) = ParcelHdr.ofBytes a := by
  unfold ParcelHdr.ofBytes
  simp only [field_append a b (4 * 0) 4 (by omega), field_append a b (4 * 1) 4 (by omega), field_append a b (4 * 2) 4 (by omega),
    field_append a b (4 * 3) 4 (by omega), field_append a b (4 * 4) 4 (by omega), field_append a b 24 8 (by omega),
    field_append a b 32 8 (by omega), field_append a b 40 8 (by omega)]

theorem headBytes_length (h : ParcelHdr) : h.bytes.length = 48 := by simp [ParcelHdr.bytes]

theorem beBytes_length (n v : Nat) : (beBytes n v).length = n := by simp [beBytes]

theorem parcelOf_bytes (h : ParcelHdr) (pt : List Byte) (hh : ParcelHdr.ofBytes h.bytes = h) (hv : field h.bytes 3 1 / 16 = 1)
    (hk : 1 ≤ h.kind ∧ h.kind ≤ 3) (hp : 16 ≤ h.plen ∧ h.plen ≤ 8192) (hl : pt.length = h.plen) :
    parcelOf (parcelBytes h pt) = some ⟨h, h.bytes, (gcmSeal (List.replicate 32 0) (parcelIv h.src h.lid h.route 0 h.ctr) h.bytes pt).1,
      (gcmSeal (List.replicate 32 0) (parcelIv h.src h.lid h.route 0 h.ctr) h.bytes pt).2⟩ := by
  have hb := headBytes_length h
  unfold parcelBytes
  simp only []
  have hc := gcmSeal_length (List.replicate 32 0) (parcelIv h.src h.lid h.route 0 h.ctr) h.bytes pt (List.length_replicate ..)
  have ht : (gcmSeal (List.replicate 32 0) (parcelIv h.src h.lid h.route 0 h.ctr) h.bytes pt).2.length = 16 := beBytes_length 16 _
  generalize gcmSeal (List.replicate 32 0) (parcelIv h.src h.lid h.route 0 h.ctr) h.bytes pt = x at hc ht ⊢
  unfold parcelOf
  simp only [List.append_assoc, ofBytes_append _ _ hb, hh, field_append h.bytes _ 3 1 (by rw [hb]; decide)]
  rw [if_neg (by simp only [List.length_append, hb, hc, hl, ht]; omega)]
  rw [List.take_left' hb, List.drop_left' hb, List.take_left' (hc.trans hl), ← List.append_assoc,
    List.drop_left' (by rw [List.length_append, hb, hc, hl]), List.take_of_length_le (Nat.le_of_eq ht)]

/-- What a module holds once it has answered the packet of a parcel. -/
def answers (s : State) : State := s.respond (arrives opMSG 2 0 0 []).pkt 0 0 []

/-- The module takes the packet of a parcel, and the header is one for its KIND, its site and module, with a key. -/
def fitFor (s : State) (h : ParcelHdr) : Prop :=
  ParcelHdr.ofBytes h.bytes = h ∧ field h.bytes 3 1 / 16 = 1 ∧ (1 ≤ h.kind ∧ h.kind ≤ 3) ∧ (16 ≤ h.plen ∧ h.plen ≤ 8192)
    ∧ s.consumes (arrives opMSG 2 0 0 []).pkt = true ∧ s.turnAway (arrives opMSG 2 0 0 []) = none
    ∧ h.dst = (answers s).siteId ∧ h.lid = (answers s).lid ∧ (answers s).zOn = true
    ∧ ((answers s).parcelKey h).2 = some 0 ∧ ((answers s).invoke 0).2.map (·.1.key) = some (List.replicate 32 0)

theorem consumes_payload (s : State) (p : Packet) (bs : List Byte) : s.consumes { p with payload := bs } = s.consumes p := rfl
theorem respond_payload (s : State) (p : Packet) (bs : List Byte) (st d : Nat) (out : List Byte) :
    s.respond { p with payload := bs } st d out = s.respond p st d out := rfl
theorem turnAway_payload (s : State) (n : FpId) (p : Packet) (bs : List Byte) (q : Nat) :
    s.turnAway ⟨n, { p with payload := bs }, q⟩ = s.turnAway ⟨n, p, q⟩ := rfl

theorem receive_packed (s : State) (bs : List Byte) (h1 : s.consumes (arrives opMSG 2 0 0 []).pkt = true)
    (h2 : s.turnAway (arrives opMSG 2 0 0 []) = none) : s.receive (packed bs) = (answers s, some bs) := by
  have e : arrives opMSG 2 0 0 bs = ⟨0, { (arrives opMSG 2 0 0 []).pkt with payload := bs }, 0⟩ := rfl
  have e1 : (arrives opMSG 2 0 0 []).pkt.op = opMSG := by decide
  have e2 : (arrives opMSG 2 0 0 []).pkt.cls = 2 := by decide
  have e0 : arrives opMSG 2 0 0 [] = ⟨0, (arrives opMSG 2 0 0 []).pkt, 0⟩ := rfl
  unfold answers packed
  rw [e]
  rw [e0] at h2
  generalize (arrives opMSG 2 0 0 []).pkt = p at h1 h2 e1 e2 ⊢
  have e3 : Packet.op { p with payload := bs } = opMSG := e1
  have e4 : Packet.cls { p with payload := bs } = 2 := e2
  unfold State.receive
  simp only [State.rxPackets, List.isEmpty_cons, List.all_cons, List.all_nil, e3, e4, consumes_payload, h1, beq_self_eq_true, Bool.and_self,
    Bool.not_true, Bool.false_eq_true, or_self, if_false, List.foldl_cons, List.foldl_nil, turnAway_payload, h2, if_true, List.flatMap_cons,
    List.flatMap_nil, List.append_nil, respond_payload]

theorem arriveParcel_of (s u : State) (p : ParcelIn) (bs : List Byte) (x : Parcel) (h1 : s.receive p = (u, some bs)) (h2 : parcelOf bs = some x)
    (h3 : x.hdr.dst = u.siteId) (h4 : x.hdr.lid = u.lid) (h5 : u.zOn = true) : s.arriveParcel p = (u, some x) := by
  unfold State.arriveParcel
  rw [h1]
  simp only [h2, h3, h4, h5, and_self, if_true]

/-- A parcel sealed for this module under the zero key. -/
def sealed (h : ParcelHdr) (pt : List Byte) : Parcel :=
  let x := gcmSeal (List.replicate 32 0) (parcelIv h.src h.lid h.route 0 h.ctr) h.bytes pt
  ⟨h, h.bytes, x.1, x.2⟩

theorem arrives_packed (s : State) (h : ParcelHdr) (pt : List Byte) (hf : fitFor s h) (hl : pt.length = h.plen) :
    s.arriveParcel (packed (parcelBytes h pt)) = (answers s, some (sealed h pt)) := by
  obtain ⟨h1, h2, h3, h4, h5, h6, h7, h8, h9, -⟩ := hf
  exact arriveParcel_of s (answers s) _ _ _ (receive_packed s _ h5 h6) (parcelOf_bytes h pt h1 h2 h3 h4 hl) h7 h8 h9

theorem parcelKey_some (s : State) (h : ParcelHdr) (n : Nat) (hn : (s.parcelKey h).2 = some n) : s.parcelKey h = (s, some n) := by
  unfold State.parcelKey at hn ⊢
  split at hn
  · simp at hn
  · rename_i m hm
    by_cases hr : s.replayed h.lid h.route m h.ctr = true
    · simp [hr] at hn
    · simpa [hr] using hn

theorem openParcel_of (s v w : State) (x : Parcel) (n : Nat) (k : KeySlot) (c : Nat) (pt : List Byte)
    (h1 : s.parcelKey x.hdr = (v, some n)) (h2 : v.invoke n = (w, some (k, c)))
    (h3 : gcmOpen k.key (parcelIv x.hdr.src x.hdr.lid x.hdr.route 0 x.hdr.ctr) x.head x.cipher x.tag = (pt, true)) :
    s.openParcel x = (w.parcelGood x.hdr n, some pt) := by
  unfold State.openParcel
  rw [h1]
  simp only [h2, h3, if_true]

theorem opens (s : State) (h : ParcelHdr) (pt : List Byte) (hf : fitFor s h) :
    (answers s).openParcel (sealed h pt) = (((answers s).invoke 0).1.parcelGood h 0, some pt) := by
  obtain ⟨-, -, -, -, -, -, -, -, -, h10, h11⟩ := hf
  match hr : (answers s).invoke 0 with
  | (w, none) => rw [hr] at h11; cases h11
  | (w, some (k, c)) =>
    rw [hr] at h11
    have hk : k.key = List.replicate 32 0 := Option.some.inj h11
    refine openParcel_of _ _ w (sealed h pt) 0 k c pt (parcelKey_some _ _ _ h10) hr ?_
    rw [hk]
    exact gcmOpen_gcmSeal (List.replicate 32 0) _ h.bytes pt List.length_replicate

/-- What a module holds once a message has been taken, and once it has been noted. -/
def heard (s : State) (b : ZCtrl) : State := ((answers s).invoke 0).1.parcelGood (hdrOf 3 0 0 (zBytes b).length) 0
def noted (s : State) (b : ZCtrl) : State := (heard s b).noteCopy (hdrOf 3 0 0 (zBytes b).length) b

theorem ctrlTaken_of (s : State) (b : ZCtrl) (hf : fitFor s (hdrOf 3 0 0 (zBytes b).length)) :
    s.ctrlTaken (ctrlOf b) = some (heard s b, hdrOf 3 0 0 (zBytes b).length) := by
  unfold State.ctrlTaken ctrlOf
  simp only [arrives_packed s _ (zBytes b) hf rfl, opens s _ (zBytes b) hf]
  rfl

theorem meets_frameDrop : (up.fset (pSite 0) F.SITE_LINK_STAT_STATE 2).fget (pSite 0) F.SITE_LINK_STAT_STATE = 2
    ∧ frameIn ((up.fset (pSite 0) F.SITE_LINK_STAT_STATE 2).siteMac 0) 0 [] = none := by decide +kernel

theorem meets_zwikaiParcels : fitFor (near 1 3) (hdrOf 1 0 0 16) ∧ fitFor (near 1 3) (hdrOf 2 0 0 16)
    ∧ ((near 1 3).parcelKey { hdrOf 1 0 0 16 with src := 2 }).2 = none
 := by unfold fitFor; decide +kernel

theorem meets_ownParcel : ∀ k ∈ [1, 2], (near 1 3).arriveParcel (packed (parcelBytes (hdrOf k 0 0 16) (List.replicate 16 7)))
    = (answers (near 1 3), some (sealed (hdrOf k 0 0 16) (List.replicate 16 7))) := by
  have h : ∀ k ∈ [1, 2], fitFor (near 1 3) (hdrOf k 0 0 16) := by unfold fitFor; decide +kernel
  exact fun k hk => arrives_packed _ _ _ (h k hk) rfl

theorem meets_parcelForAnother : ∃ u bs x, (near 1 3).receive (packed (parcelBytes (hdrOf 1 0 1 16) (List.replicate 16 7))) = (u, some bs)
    ∧ parcelOf bs = some x ∧ ¬(x.hdr.dst = u.siteId ∧ x.hdr.lid = u.lid) :=
  ⟨answers (near 1 3), _, _, receive_packed (near 1 3) _ (by decide +kernel) (by decide +kernel),
    parcelOf_bytes (hdrOf 1 0 1 16) (List.replicate 16 7) (by decide +kernel) (by decide +kernel) (by decide +kernel) (by decide +kernel) rfl,
    (by decide +kernel : ¬((hdrOf 1 0 1 16).dst = (answers (near 1 3)).siteId ∧ (hdrOf 1 0 1 16).lid = (answers (near 1 3)).lid))⟩

theorem meets_zwikaiMessages : ∀ b ∈ [ZCtrl.nak 0 1, .complete, .missing none, .final none, .ping, .have_ 0 [] 0, .decide_ decisionOf1, .dack 0,
      .commit 0, .beat 0 3 1 0 0, .newEpoch 1 3 0, .ledger 0 0 1, .join 2, .ready 2 0],
    (near 1 3).ctrlTaken (ctrlOf b) = some (heard (near 1 3) b, hdrOf 3 0 0 (zBytes b).length) := by
  have h : ∀ b ∈ [ZCtrl.nak 0 1, .complete, .missing none, .final none, .ping, .have_ 0 [] 0, .decide_ decisionOf1, .dack 0,
      .commit 0, .beat 0 3 1 0 0, .newEpoch 1 3 0, .ledger 0 0 1, .join 2, .ready 2 0],
      fitFor (near 1 3) (hdrOf 3 0 0 (zBytes b).length) := by unfold fitFor; decide +kernel
  exact fun b hb => ctrlTaken_of _ b (h b hb)

theorem meets_copies : (heard (near 1 3) (.dack 0)).isConvener = true ∧ (heard (near 1 3) (.dack 0)).isCopy (hdrOf 3 0 0 16) (.dack 0) = false
    ∧ (noted (near 1 3) (.dack 0)).isCopy (hdrOf 3 0 0 16) (.dack 0) = true
    ∧ fitFor (noted (near 1 3) (.dack 0)) { hdrOf 3 0 0 16 with ctr := 2 }
    ∧ fitFor ((near 1 3).fset pZwk F.ZWK_CFG_CONVENER 1) (hdrOf 3 0 0 16)
    ∧ (heard ((near 1 3).fset pZwk F.ZWK_CFG_CONVENER 1) .ping).isConvener = false := by unfold fitFor; decide +kernel

theorem meets_decisionMessages : fitFor (near 0 3) (hdrOf 3 0 0 (zBytes (.decide_ decisionOf1)).length)
    ∧ fitFor (draftOf (near 0 3)) (hdrOf 3 0 0 16) ∧ (zBytes (.dack 0)).length = 16 ∧ (zBytes (.commit 0)).length = 16
    ∧ decisionOf1.decider = 1 ∧ (noted (near 0 3) (.decide_ decisionOf1)).fits decisionOf1 = true
    ∧ (noted (draftOf (near 0 3)) (.dack 0)).zwk.conv.draft = some decisionOf1
    ∧ ((noted (draftOf (near 0 3)) (.commit 0)).zwk.conv.held.find? fun d => d.round == 0 && (noted (draftOf (near 0 3)) (.commit 0)).fits d
        && d.decider == 1) = some decisionOf1 := by unfold fitFor; decide +kernel

/-- The module with a BEAT of site 2 before it. -/
def heardBeat (s : State) : State := s.setConv fun c => { c with beats := [⟨2, 0, 4, 1, 0, 0⟩] }

theorem meets_beats : (noted (near 1 3) (.beat 0 3 1 0 0)).zState ≤ 1 ∧ (noted (near 2 2) (.beat 0 2 3 0 0)).zState = 2
    ∧ lowest (noted (near 2 2) (.beat 0 2 3 0 0)).zMembers = 1 ∧ (noted (near 2 2) (.beat 0 2 3 0 0)).zEpoch = 0
    ∧ (noted (heardBeat (near 2 3)) (.beat 0 3 3 0 0)).isDecider = true ∧ (noted (heardBeat (near 2 3)) (.beat 0 3 3 0 0)).otherSide.isSome = true
    ∧ (noted (near 3 3) (.beat 0 3 3 0 0)).zState = 3
    ∧ (noted (near 3 3) (.beat 0 3 3 0 0)).otherMembers = (noted (near 3 3) (.beat 0 3 3 0 0)).zwk.other := by decide +kernel

theorem meets_epochMessages : (3 : Nat).testBit (near 0 3).siteId = true ∧ (noted (near 0 3) (.newEpoch 1 3 0)).zEpoch ≠ 1
    ∧ (noted (near 0 3) (.newEpoch 1 3 0)).zState = 0 ∧ (2 : Nat).testBit (near 0 3).siteId = false
    ∧ (noted (near 3 3) (.ledger 0 0 1)).isDecider = true ∧ (noted (near 3 3) (.ledger 0 0 1)).zState = 3
    ∧ (noted (near 2 3) (.ledger 0 0 1)).isDecider = true ∧ (noted (near 2 3) (.ledger 0 0 1)).zState = 2 := by decide +kernel

/-- The module with site 2 as an observer. -/
def observed (s : State) : State := s.setConv fun c => { c with observers := 4 }

theorem meets_joinMessages : (noted (near 1 2) (.join 2)).isDecider = false ∧ (noted (near 2 3) (.join 2)).isDecider = true
    ∧ (noted (near 2 3) (.join 2)).zState ≠ 1 ∧ (noted (near 1 3) (.join 2)).isDecider = true ∧ (noted (near 1 3) (.join 2)).zState = 1
    ∧ (noted (near 1 3) (.join 2)).zMembers.testBit 2 = false ∧ (noted (near 1 3) (.join 2)).zwk.conv.observers.testBit 2 = false
    ∧ (noted (observed (near 1 3)) (.ready 2 (near 1 3).zRound)).zwk.conv.observers.testBit 2 = true
    ∧ (noted (observed (near 1 3)) (.ready 2 (near 1 3).zRound)).zRound = (near 1 3).zRound
    ∧ (noted (observed (near 1 3)) (.ready 2 (near 1 3).zRound)).zwk.conv.draft = none := by decide +kernel

theorem meets_zwikaiTimers : (exch 1 3).zOn = true ∧ receiving.streamIn 1 0 0 0 = some streamRx
    ∧ (streamRx.groups.find? fun y => y.group == 0) = some groupRx ∧ groupRx.data = none ∧ groupRx.parcels ≠ [] ∧ streamRx.final = none
    ∧ streamRx.told = false ∧ streamRx.whole = false ∧ sending.phys 0 = some 0
    ∧ (sending.zwk.outs.find? fun x => x.phys == 0 && x.skind != 2 && x.started && x.final.isNone && (sending.infl 0 x.idx).isSome) = some streamTx
    ∧ (flying up [⟨0, zwkOf 2 0, .ran (Rec.of 0), none⟩]).queue 0 tZWK = [⟨0, zwkOf 2 0, .ran (Rec.of 0), none⟩] ∧ (zwkD (zwkOf 2 0)).op = 2
    ∧ (exch 1 3).isConvener = true ∧ (exch 1 3).zState ≠ 0
    ∧ ((exch 1 3).setConv fun c => { c with sent := [(0, 0, (exch 1 3).zNext)] }).roundOpen = true
    ∧ (draftOf (exch 1 3)).zwk.conv.draft = some decisionOf1 ∧ (1 : Nat) ≠ (exch 1 3).siteId ∧ (exch 1 3).zEnrolled.testBit 1 = true
    ∧ (exch 2 1).isDecider = true ∧ (exch 2 1).zState = 2 ∧ (exch 2 1).zEnrolled.testBit 1 = true ∧ (exch 2 1).zMembers.testBit 1 = false
    ∧ (((exch 2 1).setConv fun c => { c with beats := [⟨1, 0, 6, 1, 0, 0⟩] }).zwk.conv.beats.any fun b => b.site == 1) = true
    ∧ (exch 2 2).isDecider = false ∧ (exch 2 2).zState = 2 ∧ (exch 0 3).zwk.conv.readyFor = none
    ∧ ((exch 0 3).setConv fun c => { c with readyFor := some 4 }).zwk.conv.readyFor = some 4 ∧ (exch 3 2).isDecider = false ∧ (exch 3 2).zState = 3
    ∧ (∀ r, streamRx.final = some r → streamRx.excused r 0 = false)
    ∧ (((onNet (exch 1 3)).fset pZwk F.ZWK_CFG_CONVENER 5).respond (arrives opMSG 0 0 0 (leBytes 4 0xA0000000)).pkt 0 0 []).isConvener = false
    ∧ (((onNet (exch 1 3)).fset pZwk F.ZWK_CFG_CONVENER 5).respond (arrives opMSG 0 0 0 (leBytes 4 0xA0000000)).pkt 0 0 []).zOn = true
    ∧ (arrives opMSG 0 0 0 (leBytes 4 0xA0000000)).pkt.src
        = (((onNet (exch 1 3)).fset pZwk F.ZWK_CFG_CONVENER 5).respond (arrives opMSG 0 0 0 (leBytes 4 0xA0000000)).pkt 0 0 []).fget pZwk F.ZWK_CFG_CONVENER
    ∧ ((onNet (exch 1 3)).respond (arrives opMSG 0 0 0 (leBytes 4 0xA0000000)).pkt 0 0 []).isConvener = true
    ∧ (exch 3 3).isDecider = true ∧ (exch 0 3).zState = 0 ∧ ((exch 0 3).fset pZwk F.ZWK_CFG_JOIN 1).fget pZwk F.ZWK_CFG_JOIN = 1
    ∧ (arrives opMSG 0 0 0 (leBytes 4 0xA0000000)).pkt.op = opMSG ∧ (arrives opMSG 0 0 0 (leBytes 4 0xA0000000)).pkt.cls = 0
    ∧ (onNet (exch 1 3)).consumes (arrives opMSG 0 0 0 (leBytes 4 0xA0000000)).pkt = true
    ∧ leNat ((arrives opMSG 0 0 0 (leBytes 4 0xA0000000)).pkt.payload.take 4) / 2 ^ 28 = 0xA
    ∧ (onNet (exch 1 3)).turnAway ⟨0, (arrives opMSG 0 0 0 (leBytes 4 0xA0000000)).pkt, 0⟩ = none := by decide +kernel

theorem meets_replaysAreSeen : (1, 0, 0) ≠ ((2, 0, 0) : Nat × Nat × Nat)
    ∧ ∀ w ∈ (up.windowAccept 1 0 0 5).zwk.windows, w.high < 6 ∧ ∀ c ∈ w.seen, c < 6 := by decide +kernel

/-! ### Commands that are not well formed: one for each check -/

theorem smoke_operandUe : (Instr.operandUe 0 0x5FFFFF).wellFormed = true ∧ (Instr.operandUe 0 0x600000).wellFormed = false := by decide
theorem smoke_registerAddress : (Instr.registerWrite ⟨.firmware, 0x3FFFFFC, 0xF, 0⟩).wellFormed = true
    ∧ (Instr.registerWrite ⟨.firmware, 0x4000000, 0xF, 0⟩).wellFormed = false ∧ (Instr.registerWrite ⟨.firmware, 2, 0xF, 0⟩).wellFormed = false
    ∧ (Instr.readClear ⟨.portA, 1⟩).wellFormed = false ∧ (Instr.loRead ⟨.portA, 0x4000000⟩).wellFormed = false
    ∧ (Instr.registerTimeout (.rd ⟨.portA, 6⟩)).wellFormed = false ∧ (Instr.registerTimeout (.wr ⟨.portA, 0x4000000, 0xF, 0⟩)).wellFormed = false := by
  decide
theorem smoke_page : (Instr.pgCntSel 4095 ⟨.firmware, 0, 0xF, 0⟩).wellFormed = true
    ∧ (Instr.pgEvtWrite 4096 ⟨.firmware, 0, 0xF, 0⟩).wellFormed = false
    ∧ (Instr.pgCntSel 4096 ⟨.firmware, 0, 0xF, 0⟩).wellFormed = false := by decide
theorem smoke_packet : (Instr.wr ⟨0, ⟨0, 0, 0, 0, List.replicate 256 0⟩, 0⟩).wellFormed = true
    ∧ (Instr.wr ⟨0, ⟨0, 0, 0, 0, List.replicate 257 0⟩, 0⟩).wellFormed = false
    ∧ (Instr.registerTimeout (.pkt ⟨0, ⟨0, 0, 0, 0, List.replicate 257 0⟩, 0⟩)).wellFormed = false := by decide +kernel
theorem smoke_collMessage : (Instr.chunkMsg (.net (clovePkt 0 0) ⟨4095, 1023, 4095, 1023, 0, 0, .chunk⟩)).wellFormed = true
    ∧ (Instr.chunkMsg (.net (clovePkt 0 0) ⟨4096, 0, 0, 0, 0, 0, .chunk⟩)).wellFormed = false
    ∧ (Instr.chunkMsg (.net (clovePkt 0 0) ⟨0, 0, 0, 1024, 0, 0, .chunk⟩)).wellFormed = false := by decide +kernel
theorem smoke_parcel : (Instr.dataParcel (.frame 0 (List.replicate 9216 0))).wellFormed = true
    ∧ (Instr.dataParcel (.frame 0 (List.replicate 9217 0))).wellFormed = false
    ∧ (Instr.parityParcel (.fabric [⟨0, ⟨0, 0, 0, 0, List.replicate 257 0⟩, 0⟩])).wellFormed = false
    ∧ (Instr.frameDrop ⟨0, List.replicate 9217 0⟩).wellFormed = false := by decide +kernel
theorem smoke_message : (Instr.ping ⟨.fabric [], .ping⟩).wellFormed = true ∧ (Instr.zwkNak ⟨.fabric [], .nak 0 (2 ^ 48)⟩).wellFormed = false
    ∧ (Instr.missing ⟨.fabric [], .missing (some [(1, 8192)])⟩).wellFormed = false
    ∧ (Instr.missing ⟨.fabric [], .missing (some [(8192, 16384)])⟩).wellFormed = true
    ∧ (Instr.beat ⟨.fabric [], .beat 0 0 4 0 0⟩).wellFormed = false
    ∧ (Instr.zwkDecide ⟨.fabric [], .decide_ ⟨0, 0, 0, 3, 0, [], [], 0, 0⟩⟩).wellFormed = false
    ∧ (Instr.zwkJoin ⟨.fabric [], .join 16⟩).wellFormed = false := by decide +kernel
theorem smoke_bar2 : (Instr.bar2Read .a 0 4096).wellFormed = true ∧ (Instr.bar2Read .a 0 0).wellFormed = false
    ∧ (Instr.bar2Read .a 0 4097).wellFormed = false ∧ (Instr.bar2Write .a 0 [1, 2] [true]).wellFormed = false := by decide
theorem smoke_scrub : (Instr.patrolScrub 0 [⟨0x23FFFFFFFFF, 34⟩] [⟨1087, 0x5FFFFF, 71⟩]).wellFormed = true
    ∧ (Instr.patrolScrub 0 [⟨0x24000000000, 0⟩] []).wellFormed = false ∧ (Instr.patrolScrub 0 [] [⟨0, 0x600000, 0⟩]).wellFormed = false := by decide
theorem smoke_flit : (Instr.flitReceive 0 ⟨List.replicate 248 0, false, none⟩).wellFormed = true
    ∧ (Instr.flitReceive 0 ⟨List.replicate 247 0, false, none⟩).wellFormed = false := by decide +kernel
theorem smoke_dieTemperatures : (Instr.dieTempRead (List.replicate 9 40)).wellFormed = true
    ∧ (Instr.dieTempRead (List.replicate 8 40)).wellFormed = false := by decide

/-- A start in which everything passes. -/
def goodStart : BootIn :=
  ⟨none, none, 0, 0, true, none, [], [], [], true, true, [], [], [], [], [], true, true⟩

theorem smoke_start : (Instr.modResetRelease goodStart).wellFormed = true
    ∧ (Instr.modResetRelease { goodStart with hang := 15 }).wellFormed = false
    ∧ (Instr.watchdog { goodStart with hangDie := 8 }).wellFormed = false
    ∧ (Instr.p3Exit { goodStart with hbms := List.replicate 33 true }).wellFormed = false := by decide
theorem smoke_hostLink : (Instr.hostLinkChange .a ⟨true, 16, 6⟩).wellFormed = true
    ∧ (Instr.hostLinkChange .a ⟨true, 17, 6⟩).wellFormed = false ∧ (Instr.hostLinkChange .a ⟨true, 16, 16⟩).wellFormed = false := by decide

/-! ### Single steps, with results that the spec states -/

/-- No row of the table spells a command by bits. -/
theorem test_decodeTableWord : decodeTableWord 32 0 = none ∧ decodeTableWord 128 12345 = none := by decide
theorem test_withFetchWord : up.withFetchWord 32 5 = up := rfl

/-- What a step leaves, asked by a function. -/
def after (i : Instr) (s : State) (p : State → Bool) : Bool :=
  match step { s with pending := [i] } with
  | .next t => p t
  | _ => false

-- Expected values: the rules named, worked by hand.
/-- R464: a 1 written to PG_EVT clears that bit and no other. -/
theorem test_pgEvt : after (.pgEvtWrite (pHbm 0 / 0x4000) ⟨.firmware, 0, 0xF, 1⟩) (up.setReg (pHbm 0 + 0x010) 3)
    (fun t => t.reg (pHbm 0 + 0x010) == 2) = true := by decide +kernel
/-- What is left of a flit whose CRC fails. -/
def failedFlit (n : FpId) (s : State) : State :=
  if s.fpState n ≠ 2 then s
  else
    let s := s.finc (pFp n) F.FP_LINK_CNT0_CRC_ERR
    if (s.link n).discarding then s
    else ((s.setLink n { s.link n with discarding := true }).finc (pFp n) F.FP_LINK_CNT0_REPLAYS).send (.replay n (s.link n).rxNext)

theorem flitReceive_failed (n : FpId) (f : FlitRx) (s : State) (h : f.crcOk = false) (hc : f.corrected = false) :
    flitReceive n f s = failedFlit n s := by
  unfold flitReceive failedFlit
  simp only [h, hc, Bool.false_eq_true, if_false]
  rfl

/-- R298: a flit whose CRC fails counts a CRC error and a replay and asks for the replay from the SEQ due; a second one counts
only an error. -/
theorem test_flitReceive : ∃ t u, exec (.flitReceive 0 (flitRx 0 4095 none true)) (portIn 2) = .next t
    ∧ exec (.flitReceive 0 (flitRx 1 4095 none true)) t = .next u
    ∧ t.out = [.replay 0 0] ∧ t.fget (pFp 0) F.FP_LINK_CNT0_CRC_ERR = 1 ∧ t.fget (pFp 0) F.FP_LINK_CNT0_REPLAYS = 1
    ∧ u.out = [.replay 0 0] ∧ u.fget (pFp 0) F.FP_LINK_CNT0_CRC_ERR = 2 ∧ u.fget (pFp 0) F.FP_LINK_CNT0_REPLAYS = 1 :=
  ⟨failedFlit 0 (portIn 2), failedFlit 0 (failedFlit 0 (portIn 2)),
    congrArg _ (flitReceive_failed 0 _ _ (flitRx_crcOk 0 4095 none true) rfl),
    congrArg _ (flitReceive_failed 0 _ _ (flitRx_crcOk 1 4095 none true) rfl), by decide +kernel⟩
/-- R296: the 256 bytes of a flit over eight lanes at 112 Gb/s: each lane carries four units of 8 bytes. -/
theorem test_stripe : (stripe [0, 1, 2, 3, 4, 5, 6, 8] 8 ((List.range 256).map (BitVec.ofNat 8))).map (fun l => (l.1, l.2.length))
      = [(0, 32), (1, 32), (2, 32), (3, 32), (4, 32), (5, 32), (6, 32), (8, 32)]
    ∧ (((stripe [0, 1, 2, 3, 4, 5, 6, 8] 8 ((List.range 256).map (BitVec.ofNat 8))).getD 1 (0, [])).2).take 9
      = [8, 9, 10, 11, 12, 13, 14, 15, 72] := by decide +kernel
/-- R410, R414: a frame reaches the port of its MAC and UDP_PORT, and no other; one byte changed, it is discarded. -/
theorem test_frame : let f := (⟨0x020000000001, 0x020000000002, some (3, 5), 8, 64, 1, 2, 4791⟩ : FrameHdr).frame [1, 2, 3, 4]
    frameIn 0x020000000001 4791 f = some [1, 2, 3, 4] ∧ frameIn 0x020000000003 4791 f = none ∧ frameIn 0x020000000001 4790 f = none
      ∧ frameIn 0x020000000001 4791 (f.set 70 9) = none := by decide +kernel
/-- R415: 0x8E is the inverse of 2 under 0x11D, and the inverse of every element gives 1. -/
theorem test_gfInv : gfInv 2 = 0x8E ∧ (∀ a ∈ [1, 2, 3, 0x53, 0xFF], gfMul a (gfInv a) = 1) := by decide +kernel
/-- R300: with eight good lanes a port runs eight lanes at 224 Gb/s; with seven, seven; with six at neither rate it is FAILED. -/
theorem test_portTraining : after (.portTraining 0 ⟨0x0FF, 0x1FF, 0, 0⟩) (portIn 1) (fun t => t.fpState 0 == 2
    && t.fget (pFp 0) F.FP_LINK_STAT_WIDTH == 8 && t.fget (pFp 0) F.FP_LINK_STAT_RATE == 2) = true
    ∧ after (.portTraining 0 ⟨0x03F, 0x07F, 0, 0⟩) (portIn 1) (fun t => t.fget (pFp 0) F.FP_LINK_STAT_WIDTH == 7
      && t.fget (pFp 0) F.FP_LINK_STAT_RATE == 1) = true
    ∧ after (.portTraining 0 ⟨0x03F, 0x03F, 0, 0⟩) (portIn 1) (fun t => t.fpState 0 == 4) = true := by decide +kernel
/-- R286: above 85 °C the refresh interval is the short one. -/
theorem test_hbmTempRead : after (.hbmTempRead 0 86) up (fun t => (t.hbmc 0).fast && t.fget (pHbm 0) F.HBM_TEMP_DEG_C == 150) = true
    ∧ after (.hbmTempRead 0 85) up (fun t => !(t.hbmc 0).fast) = true := by decide +kernel
/-- R320: an answer that matches no entry is counted as late. -/
theorem test_lateRsp : after (.rsp (answered opRSP) 2) (asking 2 .admitted) (fun t => t.fget pOgs F.OGS_ADM_CNT2_LATE_RSP == 1
    && t.fab.reqs.length == 1) = true := by decide +kernel
/-- An empty queue idles: the module stays as it is but for time. -/
theorem test_idle : (match step State.reset with | .next t => decide (t = State.reset) | _ => false) = true := by decide +kernel

end Sys2Proof.Tests
end

/-! SUPPORT. Every operation of the model keeps the canonical form of the state.

The lemma about an operation `f` is `State.formOk.f`, so that a run of operations is a chain: `h.finc.event` says that
the state after `finc` and `event` has the form when `h` says it of the state before. A proof follows the branches of
its operation. -/

namespace Sys2Proof.Machine

-- One lemma after another: elaborated side by side, so many of them need more threads than the check's memory allows.
set_option Elab.async false

/-! ### Tables and memories in canonical form -/

theorem Tab.rising_iff_pairwise {β : Type} (t : Tab β) : Tab.rising t = true ↔ t.Pairwise fun a b => a.1 < b.1 := by
  induction t with
  | nil => simp [Tab.rising]
  | cons p t ih => rw [Tab.rising_cons, List.pairwise_cons, ih]; rfl

theorem Tab.rising_filter {β : Type} {t : Tab β} (h : Tab.rising t = true) (p : ℕ × β → Bool) :
    Tab.rising (t.filter p) = true :=
  (Tab.rising_iff_pairwise _).2 (((Tab.rising_iff_pairwise _).1 h).filter p)

/-- A table whose entries are changed or dropped, each under its own number. -/
theorem Tab.rising_filterMap {β γ : Type} {t : Tab β} (h : Tab.rising t = true) {f : ℕ × β → Option (ℕ × γ)}
    (hf : ∀ e x, f e = some x → x.1 = e.1) : Tab.rising (t.filterMap f) = true :=
  (Tab.rising_iff_pairwise _).2 (((Tab.rising_iff_pairwise _).1 h).filterMap f fun a b hab x hx y hy => by
    rw [hf a x hx, hf b y hy]; exact hab)

theorem Tab.rising_map {β γ : Type} {t : Tab β} (h : Tab.rising t = true) {f : ℕ × β → ℕ × γ}
    (hf : ∀ e, (f e).1 = e.1) : Tab.rising (t.map f) = true := by
  rw [← List.filterMap_eq_map]
  exact Tab.rising_filterMap h fun e x hx => by rw [← Option.some.inj hx, hf]

theorem Mem.wf_loseSp {m : Mem} (h : m.wf = true) : m.loseSp.wf = true :=
  (Mem.wf_iff _).2 (Mem.cellsOk_filter _ _ ((Mem.wf_iff _).1 h))

theorem Mem.wf_moveSp {m : Mem} (h : m.wf = true) (src dst : ℕ) : (m.moveSp src dst).wf = true := by
  have hset : ∀ (l c : List Host.Cell), Mem.cellsOk c →
      Mem.cellsOk (l.foldl (fun t x => Tab.set Mem.blank (x.1 - spKey src 0 + spKey dst 0) x.2 t) c) := by
    intro l
    induction l with
    | nil => exact fun _ hc => hc
    | cons x l ih => exact fun c hc => ih _ (Mem.cellsOk_set c _ _ hc)
  exact (Mem.wf_iff _).2 (hset _ _ (Mem.cellsOk_filter _ _ ((Mem.wf_iff _).1 h)))

theorem Mem.wf_takeAll {m : Mem} (h : m.wf = true) (hbm : List HbmHit) (sp : List SpHit) :
    (sp.foldl Mem.takeSp (hbm.foldl Mem.takeHbm m)).wf = true := by
  have hsp : ∀ (l : List SpHit) (m : Mem), (l.foldl Mem.takeSp m).wf = m.wf := by
    intro l
    induction l with
    | nil => exact fun _ => rfl
    | cons x l ih => exact fun m => (ih _).trans (Mem.wf_hit _ _ _)
  have hhb : ∀ (l : List HbmHit) (m : Mem), (l.foldl Mem.takeHbm m).wf = m.wf := by
    intro l
    induction l with
    | nil => exact fun _ => rfl
    | cons x l ih => exact fun m => (ih _).trans (Mem.wf_hit _ _ _)
  rw [hsp, hhb]; exact h

theorem Tab.rising_hbmReleased (s : State) : Tab.rising s.hbmReleased = true := by
  refine (Tab.rising_iff_pairwise _).2 (List.pairwise_map.2 ?_)
  exact List.pairwise_lt_range.imp fun {_ _} hlt => hlt

/-! ### The canonical form -/

theorem State.formOk.mem {s : State} (h : s.formOk) : s.mem.wf = true := h.1

theorem State.formOk.regs {s : State} (h : s.formOk) : Tab.rising s.regs = true := h.2.1

theorem State.formOk.cores {s : State} (h : s.formOk) : Tab.rising s.cores = true := h.2.2.1

theorem State.formOk.hbm {s : State} (h : s.formOk) : Tab.rising s.hbm = true := h.2.2.2.1

theorem State.formOk.slots {s : State} (h : s.formOk) : Tab.rising s.slots = true := h.2.2.2.2.1

theorem State.formOk.saf {s : State} (h : s.formOk) : Tab.rising s.sec.saf = true := h.2.2.2.2.2

/-- A memory in canonical form may take the place of the memory. -/
theorem State.formOk.withMem {s : State} (h : s.formOk) {m : Mem} (hm : m.wf = true) :
    ({ s with mem := m } : State).formOk :=
  ⟨hm, h.2⟩

/-- The canonical form speaks of the bytes of memory and of five tables only. -/
theorem State.formOk.same {s t : State} (h : s.formOk) (hm : t.mem.cells = s.mem.cells := by rfl)
    (hr : t.regs = s.regs := by rfl) (hc : t.cores = s.cores := by rfl) (hh : t.hbm = s.hbm := by rfl)
    (hs : t.slots = s.slots := by rfl) (hf : t.sec.saf = s.sec.saf := by rfl) : t.formOk := by
  have hw : t.mem.wf = s.mem.wf := by unfold Mem.wf; rw [hm]
  unfold State.formOk State.memOk State.regsOk State.coresOk State.tabsOk
  rw [hw, hr, hc, hh, hs, hf]
  exact h

/-! ### Parts of the state that the canonical form does not speak of -/

theorem State.formOk.withLatches {s : State} (h : s.formOk) {x : List (ℕ × ℕ × Word)} :
    ({ s with latches := x } : State).formOk := h

theorem State.formOk.withFab {s : State} (h : s.formOk) {x : Fab} : ({ s with fab := x } : State).formOk := h

theorem State.formOk.withColl {s : State} (h : s.formOk) {x : CollNet} : ({ s with coll := x } : State).formOk := h

theorem State.formOk.withZwk {s : State} (h : s.formOk) {x : ZwkSt} : ({ s with zwk := x } : State).formOk := h

theorem State.formOk.withHeld {s : State} (h : s.formOk) {x : List HeldAcc} : ({ s with held := x } : State).formOk := h

theorem State.formOk.withPwr {s : State} (h : s.formOk) {x : PwrSt} : ({ s with pwr := x } : State).formOk := h

theorem State.formOk.withTime {s : State} (h : s.formOk) {x : TimeSt} : ({ s with time := x } : State).formOk := h

theorem State.formOk.withBoot {s : State} (h : s.formOk) {x : BootSt} : ({ s with boot := x } : State).formOk := h

theorem State.formOk.withBar2 {s : State} (h : s.formOk) {x : List Bar2Acc} : ({ s with bar2 := x } : State).formOk := h

theorem State.formOk.withFreeCtr {s : State} (h : s.formOk) {x : ℕ} : ({ s with freeCtr := x } : State).formOk := h

theorem State.formOk.withSec {s : State} (h : s.formOk) {x : SecSt} (hx : x.saf = s.sec.saf := by rfl) :
    ({ s with sec := x } : State).formOk := h.same (hf := hx)

/-- Parts that the canonical form does not speak of, several at once. -/
theorem State.formOk.others {s : State} (h : s.formOk) {shadows : Shadows} {latches : List (ℕ × ℕ × Word)}
    {idxAddr : Tab ℕ} {fab : Fab} {units : Units} {logs : Logs} {wear : Wear} {coll : CollNet} {zwk : ZwkSt}
    {held : List HeldAcc} {rpb : Rpb} {sec : SecSt} {pwr : PwrSt} {time : TimeSt} {boot : BootSt} {mctp : MctpSt}
    {bar2 : List Bar2Acc} {out : List Out} {freeCtr : ℕ} {pending : List Instr}
    (hs : sec.saf = s.sec.saf := by rfl) :
    (⟨s.mem, s.regs, shadows, latches, idxAddr, s.cores, fab, units, s.hbm, logs, wear, s.slots, coll, zwk, held, rpb,
      sec, pwr, time, boot, mctp, bar2, out, freeCtr, pending⟩ : State).formOk :=
  h.same (hf := hs)

theorem State.formOk.withHbm {s : State} (h : s.formOk) {x : Tab HbmCtl} (hx : Tab.rising x = true) :
    ({ s with hbm := x } : State).formOk := ⟨h.mem, h.regs, h.cores, hx, h.slots, h.saf⟩

theorem State.formOk.withSaf {s : State} (h : s.formOk) {x : SecSt} (hx : Tab.rising x.saf = true) :
    ({ s with sec := x } : State).formOk := ⟨h.mem, h.regs, h.cores, h.hbm, h.slots, hx⟩

/-! ### What an operation is made of -/

/-- The state of a pair that is known by an equation. -/
theorem State.formOk.ofFst {α : Type} {p : State × α} {t : State} {a : α} (e : p = (t, a)) (h : p.1.formOk) :
    t.formOk := by
  subst e
  exact h

theorem State.formOk.res {s : State} (h : s.formOk) {st det : ℕ} {bs : List Byte} : (Res.mk s st det bs).st.formOk := h

theorem State.formOk.pair {α : Type} {s : State} (h : s.formOk) {a : α} : (s, a).1.formOk := h

theorem State.formOk.setReg {s : State} (h : s.formOk) {a : Nat} {w : Word} : (s.setReg a w).formOk :=
  ⟨h.mem, s.regs_setReg_rising a w h.regs, h.cores, h.hbm, h.slots, h.saf⟩

theorem State.formOk.setCore {s : State} (h : s.formOk) {i : Nat} {c : CoreSt} : (s.setCore i c).formOk :=
  ⟨h.mem, h.regs, Tab.rising_set _ _ _ _ h.cores, h.hbm, h.slots, h.saf⟩

theorem State.formOk.setHbmc {s : State} (h : s.formOk) {n : Nat} {c : HbmCtl} : (s.setHbmc n c).formOk :=
  ⟨h.mem, h.regs, h.cores, Tab.rising_set _ _ _ _ h.hbm, h.slots, h.saf⟩

theorem State.formOk.setSlot {s : State} (h : s.formOk) {n : Nat} {x : Slot} : (s.setSlot n x).formOk :=
  ⟨h.mem, h.regs, h.cores, h.hbm, Tab.rising_set _ _ _ _ h.slots, h.saf⟩

theorem State.formOk.setSaf {s : State} (h : s.formOk) {n : Nat} {x : SafSt} : (s.setSaf n x).formOk :=
  ⟨h.mem, h.regs, h.cores, h.hbm, h.slots, Tab.rising_set _ _ _ _ h.saf⟩

theorem State.formOk.ite {c : Prop} [Decidable c] {s t : State} (hs : s.formOk) (ht : t.formOk) :
    (if c then s else t).formOk := by
  split
  · exact hs
  · exact ht

/-- An operation that is done when a condition holds. -/
theorem State.formOk.thenOp {c : Prop} [Decidable c] {s t : State} (ht : s.formOk → t.formOk) (hs : s.formOk) :
    (if c then t else s).formOk := .ite (ht hs) hs

/-- An operation that is done unless a condition holds. -/
theorem State.formOk.elseOp {c : Prop} [Decidable c] {s t : State} (ht : s.formOk → t.formOk) (hs : s.formOk) :
    (if c then s else t).formOk := .ite hs (ht hs)

/-- A fold whose every turn keeps the canonical form of the state that its accumulator holds. -/
theorem State.formOk.foldlOf {α β : Type} (st : α → State) {f : α → β → α} {l : List β} {a : α} (h : (st a).formOk)
    (hf : ∀ a x, (st a).formOk → (st (f a x)).formOk) : (st (l.foldl f a)).formOk := by
  induction l generalizing a with
  | nil => exact h
  | cons x l ih => exact ih (hf a x h)

theorem State.formOk.foldl {β : Type} {f : State → β → State} {l : List β} {s : State} (h : s.formOk)
    (hf : ∀ t x, t.formOk → (f t x).formOk) : (l.foldl f s).formOk := .foldlOf id h hf

/-- The scratchpads lose their contents. -/
theorem State.formOk.lostSp {s : State} (h : s.formOk) : ({ s with mem := s.mem.loseSp } : State).formOk :=
  h.withMem (Mem.wf_loseSp h.mem)

/-- A region of memory is blank again, and its errors are gone. -/
theorem State.formOk.wiped {s : State} (h : s.formOk) {a n : ℕ} {errs : List (ℕ × ℕ)} {x : SecSt}
    (hx : x.saf = s.sec.saf := by rfl) : ({ s with mem := ⟨(s.mem.wipe a n).cells, errs⟩, sec := x } : State).formOk :=
  (h.withMem (Mem.wf_wipe s.mem a n h.mem)).same (hf := hx)

/-- The scratchpad of one core moves to another. -/
theorem State.formOk.movedSp {s : State} (h : s.formOk) {src dst : ℕ} :
    ({ s with mem := s.mem.moveSp src dst } : State).formOk :=
  h.withMem (Mem.wf_moveSp h.mem src dst)

/-! ### Results that hold a state

The projections of pairs and of results unfold too early in the kernel; a definition that names the part keeps the state
that an operation starts from apart from the state that it reaches. -/

/-- The state of a pair has the canonical form. -/
def State.fstOk {α : Type} (p : State × α) : Prop := p.1.formOk

theorem State.fstOk.st {α : Type} {p : State × α} (h : State.fstOk p) : p.1.formOk := h

theorem State.formOk.fst {α : Type} {s : State} (h : s.formOk) {a : α} : State.fstOk (s, a) := h

theorem State.fstOk.ite {α : Type} {c : Prop} [Decidable c] {p q : State × α} (hp : State.fstOk p)
    (hq : State.fstOk q) : State.fstOk (if c then p else q) := by
  split
  · exact hp
  · exact hq

theorem State.fstOk.foldl {α β : Type} {f : State × α → β → State × α} {l : List β} {a : State × α} (h : State.fstOk a)
    (hf : ∀ a x, State.fstOk a → State.fstOk (f a x)) : State.fstOk (l.foldl f a) := by
  induction l generalizing a with
  | nil => exact h
  | cons x l ih => exact ih (hf a x h)

/-- The state of a result has the canonical form. -/
def State.resOk (r : Res) : Prop := r.st.formOk

theorem State.resOk.st {r : Res} (h : State.resOk r) : r.st.formOk := h

theorem State.resOk.ite {c : Prop} [Decidable c] {p q : Res} (hp : State.resOk p) (hq : State.resOk q) :
    State.resOk (if c then p else q) := by
  split
  · exact hp
  · exact hq

/-! ### Operations of Machine/Ops.lean -/

theorem State.formOk.fset {s : State} (h : s.formOk) {p : ℕ} {f : FRef} {v : ℕ} : (s.fset p f v).formOk := h.setReg

theorem State.formOk.finc {s : State} (h : s.formOk) {p : ℕ} {f : FRef} {n : ℕ} : (s.finc p f n).formOk :=
  h.fset

theorem State.formOk.inc64 {s : State} (h : s.formOk) {p : ℕ} {lo : FRef} {n : ℕ} : (s.inc64 p lo n).formOk :=
  h.setReg.setReg

theorem State.formOk.send {s : State} (h : s.formOk) {o : Out} : (s.send o).formOk := h

theorem State.formOk.draw {s : State} (h : s.formOk) : s.draw.2.formOk := h

theorem State.formOk.drawBytes {s : State} (h : s.formOk) {n : ℕ} : (s.drawBytes n).2.formOk := h

theorem State.formOk.sendInt {s : State} (h : s.formOk) {p : ℕ} : (s.sendInt p).formOk :=
  .ite (.send (.ite h.send h)) (.ite h.send h)

theorem State.formOk.withInt {s : State} (h : s.formOk) {p : ℕ} {f : State → State}
    (hf : ∀ t, t.formOk → (f t).formOk) : (s.withInt p f).formOk := .thenOp (fun hu => hu.sendInt) (hf _ h)

theorem State.formOk.countEvt {s : State} (h : s.formOk) {p b : ℕ} : (s.countEvt p b).formOk := .ite h.inc64 h

theorem State.formOk.raise {s : State} (h : s.formOk) {p b : ℕ} : (s.raise p b).formOk :=
  (h.withInt (fun _ h₁ => h₁.setReg)).countEvt

theorem State.formOk.event {s : State} (h : s.formOk) {p : ℕ} {f : FRef} : (s.event p f).formOk := h.raise

theorem State.formOk.modCore {s : State} (h : s.formOk) {i : ℕ} {f : CoreSt → CoreSt} : (s.modCore i f).formOk :=
  h.setCore

theorem State.formOk.modHbmc {s : State} (h : s.formOk) {n : ℕ} {f : HbmCtl → HbmCtl} : (s.modHbmc n f).formOk :=
  h.setHbmc

theorem State.formOk.modSlot {s : State} (h : s.formOk) {n : ℕ} {f : Slot → Slot} : (s.modSlot n f).formOk :=
  h.setSlot

theorem State.formOk.addEvent {s : State} (h : s.formOk) {e : LogRec} : (s.addEvent e).formOk := h

theorem State.formOk.logEvent {s : State} (h : s.formOk) {block inst sev code detail : ℕ} :
    (s.logEvent block inst sev code detail).formOk := by
  unfold State.logEvent
  dsimp only
  split
  · exact .ite h h.addEvent
  · exact h.addEvent

theorem State.formOk.logRepair {s : State} (h : s.formOk) {block inst sev code detail : ℕ} :
    (s.logRepair block inst sev code detail).formOk := .ite h h.event.fset

theorem State.formOk.candidate {s : State} (h : s.formOk) {n row : ℕ} : (s.candidate n row).formOk := .ite h.modHbmc h

theorem State.formOk.rowCe {s : State} (h : s.formOk) {n row : ℕ} : (s.rowCe n row).formOk := by
  unfold State.rowCe
  dsimp only
  split
  · exact .ite h.modHbmc.event.candidate h.modHbmc
  · exact h.modHbmc

theorem State.formOk.hbmCe {s : State} (h : s.formOk) {x : ℕ} : (s.hbmCe x).formOk := h.finc.rowCe

theorem State.formOk.countUePc {s : State} (h : s.formOk) {n pc : ℕ} : (s.countUePc n pc).formOk :=
  .ite h.modHbmc.setReg.event h.modHbmc

theorem State.formOk.hbmUe {s : State} (h : s.formOk) {x : ℕ} {capture : Bool} : (s.hbmUe x capture).formOk :=
  .countUePc (.candidate (.logEvent (.ite h.finc.event.setReg.setReg h.finc.event)))

theorem State.formOk.bankPending {s : State} (h : s.formOk) {ph b : ℕ} : (s.bankPending ph b).formOk :=
  .ite h (.event h.same)

theorem State.formOk.mark {s : State} (h : s.formOk) {ph kind : ℕ} : (s.mark ph kind).formOk := h

theorem State.formOk.spCe {s : State} (h : s.formOk) {ph x : ℕ} : (s.spCe ph x).formOk :=
  .ite h.finc.logEvent.mark.bankPending h.finc.logEvent.mark

theorem State.formOk.spUe {s : State} (h : s.formOk) {ph x : ℕ} : (s.spUe ph x).formOk := h.finc.logEvent.bankPending

theorem State.formOk.spRead {s : State} (h : s.formOk) {ph x n : ℕ} : (s.spRead ph x n).st.formOk :=
  (h.foldl fun _ _ h₁ => h₁.spCe).foldl fun _ _ h₁ => h₁.spUe

theorem State.formOk.spWrite {s : State} (h : s.formOk) {ph x : ℕ} {bs : List Byte} : (s.spWrite ph x bs).st.formOk :=
  ((h.withMem (Mem.wf_write _ _ _ h.mem)).foldl fun _ _ h₁ => h₁.spCe).foldl fun _ _ h₁ => h₁.spUe

theorem State.formOk.wakePc {s : State} (h : s.formOk) {x : ℕ} : (s.wakePc x).formOk := .ite h h.setHbmc

theorem State.formOk.healed {s : State} (h : s.formOk) {k : ℕ} : ({ s with mem := s.mem.heal k } : State).formOk := h

theorem State.formOk.hbmRead {s : State} (h : s.formOk) {x n : ℕ} : (s.hbmRead x n).st.formOk := by
  unfold State.hbmRead
  split
  · exact h
  · exact (h.wakePc.foldl fun _ _ h₁ => h₁.healed.hbmCe).foldl fun _ _ h₁ => h₁.hbmUe

theorem State.formOk.hbmWrite {s : State} (h : s.formOk) {x : ℕ} {bs : List Byte} : (s.hbmWrite x bs).st.formOk := by
  unfold State.hbmWrite
  split
  · exact h
  · exact ((h.wakePc.withMem (Mem.wf_write _ _ _ h.mem)).foldl fun _ _ h₁ => h₁.hbmCe).foldl fun _ _ h₁ => h₁.hbmUe

theorem State.formOk.memRead1 {s : State} (h : s.formOk) {off n : ℕ} : (s.memRead1 off n).st.formOk := by
  unfold State.memRead1
  split
  · exact h.hbmRead
  · exact h.spRead
  · exact h

theorem State.formOk.memWrite1 {s : State} (h : s.formOk) {off : ℕ} {bs : List Byte} :
    (s.memWrite1 off bs).st.formOk := by
  unfold State.memWrite1
  split
  · exact h.hbmWrite
  · exact h.spWrite
  · exact h

theorem State.formOk.memRead {s : State} (h : s.formOk) {off n : ℕ} : (s.memRead off n).st.formOk :=
  .foldlOf Res.st h fun _ _ h₁ => h₁.memRead1

theorem State.formOk.memWrite {s : State} (h : s.formOk) {off : ℕ} {bs : List Byte} : (s.memWrite off bs).st.formOk :=
  .foldlOf Res.st h fun _ _ h₁ => h₁.memWrite1

/-! ### Operations of Machine/Completion.lean -/

theorem State.formOk.setTok {s : State} (h : s.formOk) {ph t v : ℕ} : (s.setTok ph t v).formOk := h.setReg

theorem State.formOk.signalNow {s : State} (h : s.formOk) {ph t n : ℕ} : (s.signalNow ph t n).formOk :=
  .ite h.setTok.fset h.setTok

theorem State.formOk.signal {s : State} (h : s.formOk) {ph t n : ℕ} : (s.signal ph t n).formOk := .ite h h.signalNow

theorem State.formOk.signalCore {s : State} (h : s.formOk) {n t k : ℕ} : (s.signalCore n t k).1.formOk := by
  unfold State.signalCore
  split
  · exact h.signal
  · exact h

theorem State.formOk.ringWrite {s : State} (h : s.formOk) {ph : ℕ} {lo hi : Word} {off : ℕ} {bs : List Byte} :
    (s.ringWrite ph lo hi off bs).formOk := .ite h.spWrite h.memWrite

theorem State.formOk.ringRead {s : State} (h : s.formOk) {ph : ℕ} {lo hi : Word} {off n : ℕ} :
    (s.ringRead ph lo hi off n).st.formOk := by
  unfold State.ringRead
  split
  · exact h.spRead
  · exact h.memRead

theorem State.formOk.putRecord {s : State} (h : s.formOk) {ph idx ty tag : ℕ} {r : Rec} :
    (s.putRecord ph idx ty tag r).formOk := by
  unfold State.putRecord
  dsimp only
  exact h.draw.ringWrite.setReg

theorem State.formOk.recordFor {s : State} (h : s.formOk) {ph idx : ℕ} {w : List Word} {r : Rec} :
    (s.recordFor ph idx w r).formOk := by
  unfold State.recordFor
  dsimp only
  refine .thenOp (fun hu => hu.event) ?_
  exact .thenOp (fun hu => hu.signal) (.elseOp (fun hu => hu.modCore) (.ite h.putRecord.inc64 h.putRecord))

theorem State.formOk.modInfl {s : State} (h : s.formOk) {ph idx : ℕ} {f : Infl → Infl} :
    (s.modInfl ph idx f).formOk :=
  h.modCore

theorem State.formOk.complete {s : State} (h : s.formOk) {ph : ℕ} {e : Infl} {r : Rec} : (s.complete ph e r).formOk :=
  .ite h.modInfl h.modCore.recordFor

theorem State.formOk.popHead {s : State} (h : s.formOk) {ph : ℕ} : (s.popHead ph).formOk := h.modCore.setReg

theorem State.formOk.issue {s : State} (h : s.formOk) {ph : ℕ} {f : Fetched} {prog : Prog} :
    (s.issue ph f prog).formOk := .modCore (.ite h.popHead.setTok h.popHead)

theorem State.formOk.issueDone {s : State} (h : s.formOk) {ph : ℕ} {f : Fetched} {r : Rec} :
    (s.issueDone ph f r).formOk := h.issue.complete

theorem State.formOk.onCore {s : State} (h : s.formOk) {n : ℕ} {f : State → ℕ → State}
    (hf : ∀ t x1, t.formOk → (f t x1).formOk) : (s.onCore n f).formOk := by
  unfold State.onCore
  split
  · exact hf _ _ h
  · exact h

/-! ### Operations of Machine/Tiles.lean -/

theorem State.formOk.touch {s : State} (h : s.formOk) {ph : ℕ} {r : Region} : (s.touch ph r).1.formOk :=
  (h.foldl fun _ _ h₁ => h₁.spCe).foldl fun _ _ h₁ => h₁.spUe

theorem State.formOk.sput {s : State} (h : s.formOk) {ph x : ℕ} {bs : List Byte} : (s.sput ph x bs).formOk :=
  h.spWrite

theorem State.formOk.putElem {s : State} (h : s.formOk) {ph e base ld r c v : ℕ} :
    (s.putElem ph e base ld r c v).formOk := h.sput

theorem State.formOk.raiseFlags {s : State} (h : s.formOk) {a fl : ℕ} : (s.raiseFlags a fl).formOk := h.setReg

theorem State.formOk.deliver1 {s : State} (h : s.formOk) {ph : ℕ} {k : Sink} {x : Cell} :
    (s.deliver1 ph k x).1.formOk := by
  unfold State.deliver1
  dsimp only
  split
  · exact h.putElem
  · split
    · exact h
    · exact h.putElem

theorem State.formOk.deliverBlock {s : State} (h : s.formOk) {ph : ℕ} {k : Sink} {xs : List Cell} :
    (s.deliverBlock ph k xs).1.formOk := by
  unfold State.deliverBlock
  dsimp only
  split
  · exact .foldlOf Prod.fst h.sput fun _ _ h₁ => h₁.putElem
  · exact h

theorem State.formOk.freshCode {s : State} (h : s.formOk) {ph : ℕ} {sp : Region} : (s.freshCode ph sp).formOk := h

theorem State.formOk.deliver {s : State} (h : s.formOk) {ph : ℕ} {k : Sink} {xs : List Cell} :
    (s.deliver ph k xs).1.formOk := by
  unfold State.deliver
  dsimp only
  split
  · exact .foldlOf Prod.fst h.freshCode fun _ _ h₁ => h₁.deliverBlock
  · exact .foldlOf Prod.fst h.freshCode fun _ _ h₁ => h₁.deliver1

theorem State.formOk.putRaw {s : State} (h : s.formOk) {ph x : ℕ} {t : RawTile} : (s.putRaw ph x t).formOk :=
  h.foldl fun _ _ h₁ => h₁.sput

/-! ### Operations of Machine/Vector.lean -/

theorem State.formOk.freeCells {s : State} (h : s.formOk) {ph : ℕ} {k : Sink} {cs : List (ℕ × ℕ)} :
    (s.freeCells ph k cs).formOk := by
  unfold State.freeCells
  dsimp only
  exact h.foldl fun _ _ h₁ => .ite h₁.drawBytes.sput.drawBytes.sput h₁.drawBytes.sput

theorem State.formOk.freeFlags {s : State} (h : s.formOk) : s.freeFlags.2.formOk := h

theorem State.formOk.vectorRun {s : State} (h : s.formOk) {ph : ℕ} {w : List Word} : (s.vectorRun ph w).1.formOk := by
  unfold State.vectorRun
  dsimp only
  split
  · exact h.touch.freeCells.freeFlags.raiseFlags
  · split
    · exact h.touch.deliver.freeCells.freeFlags.raiseFlags
    · exact h.touch.deliver.raiseFlags

/-! ### Operations of Machine/Arith.lean -/

theorem State.formOk.locRead {s : State} (h : s.formOk) {ph : ℕ} {l : Loc} {n : ℕ} :
    (s.locRead ph l n).st.formOk := by
  unfold State.locRead
  dsimp only
  split
  · exact h
  · refine .foldlOf Got.st h fun _ _ h₁ => ?_
    split
    · exact h₁
    · split
      · split
        · exact h₁
        · exact h₁.spRead
      · split
        · exact h₁
        · exact h₁.memRead1

theorem State.formOk.locWrite {s : State} (h : s.formOk) {ph : ℕ} {l : Loc} {bs : List Byte} :
    (s.locWrite ph l bs).1.formOk := by
  unfold State.locWrite
  dsimp only
  split
  · split
    · exact h
    · exact h.spWrite
  · split
    · exact h
    · exact h.memWrite

theorem State.formOk.readSlot {s : State} (h : s.formOk) {ph x : ℕ} : (s.readSlot ph x).1.formOk :=
  (h.foldl fun _ _ h₁ => h₁.spCe).foldl fun _ _ h₁ => h₁.spUe

/-! ### Operations of Machine/Matrix.lean -/

theorem State.formOk.putRawCells {s : State} (h : s.formOk) {ph : ℕ} {d : MatmulD} {anchor : ℤ}
    {xs : List (TileCell × Acc128)} :
    (s.putRawCells ph d anchor xs).formOk := (h.foldl fun _ _ h₁ => h₁.sput.sput).foldl fun _ _ h₁ => h₁.sput

theorem State.formOk.drain {s : State} (h : s.formOk) {ph : ℕ} {d : MatmulD} {anchor : ℤ}
    {xs : List (TileCell × Acc128)} : (s.drain ph d anchor xs).1.formOk := by
  unfold State.drain
  dsimp only
  split
  · exact h.freshCode.putRawCells
  · split
    · exact h.deliver
    · exact h.deliver

theorem State.formOk.setMx {s : State} (h : s.formOk) {ph : ℕ} {m : Mx} : (s.setMx ph m).formOk := h.modCore

theorem State.formOk.modMx {s : State} (h : s.formOk) {ph : ℕ} {f : Mx → Mx} : (s.modMx ph f).formOk := h.setMx

theorem State.formOk.setPass {s : State} (h : s.formOk) {ph : ℕ} {p : Pass} : (s.setPass ph p).formOk := h.setMx

theorem State.formOk.passFlags {s : State} (h : s.formOk) {ph : ℕ} {p : Pass} {fl : ℕ} :
    (s.passFlags ph p fl).1.formOk := h.raiseFlags

theorem State.formOk.putSaveHdr {s : State} (h : s.formOk) {ph : ℕ} : (s.putSaveHdr ph).formOk := by
  unfold State.putSaveHdr
  dsimp only
  exact h.drawBytes.sput

theorem State.formOk.savedEmpty {s : State} (h : s.formOk) {ph : ℕ} : (s.savedEmpty ph).formOk := h.putSaveHdr.setMx

theorem State.formOk.beginPass {s : State} (h : s.formOk) {ph idx : ℕ} {d : MatmulD} :
    (s.beginPass ph idx d).formOk :=
  h.setMx

theorem State.formOk.mxNext {s : State} (h : s.formOk) {ph : ℕ} : (s.mxNext ph).formOk := by
  refine .ite h ?_
  refine .ite h.savedEmpty ?_
  split
  · exact h
  · exact h.beginPass

theorem State.formOk.invCapture {s : State} (h : s.formOk) {ph n : ℕ} {p : Pass} : (s.invCapture ph n p).formOk := by
  unfold State.invCapture
  dsimp only
  split
  · exact .ite (.ite h h.finc) (.setReg (.setReg (.setReg (.ite h h.finc))))
  · exact .ite h h.finc

theorem State.formOk.passRegs {s : State} (h : s.formOk) {ph : ℕ} {d : MatmulD} {p : Pass} :
    (s.passRegs ph d p).formOk := .ite h.invCapture h.invCapture.setReg

theorem State.formOk.endPass {s : State} (h : s.formOk) {ph : ℕ} {p : Pass} {status : ℕ} :
    (s.endPass ph p status).formOk := by
  unfold State.endPass
  dsimp only
  split
  · exact h
  · exact h.passRegs.complete.setMx.mxNext

theorem State.formOk.restartPass {s : State} (h : s.formOk) {ph : ℕ} {p : Pass} : (s.restartPass ph p).formOk :=
  .ite h.endPass h.finc.setMx

theorem State.formOk.matmul {s : State} (h : s.formOk) {n : ℕ} : (Machine.matmul n s).formOk := by
  unfold Machine.matmul
  dsimp only
  refine h.onCore fun _ _ h₁ => ?_
  split
  · exact h₁
  · split
    · exact h₁.issueDone
    · exact .ite h₁.issueDone h₁.issue.mxNext

theorem State.formOk.maxExponentScan {s : State} (h : s.formOk) {n : ℕ} : (Machine.maxExponentScan n s).formOk := by
  refine h.onCore fun _ _ h₁ => ?_
  split
  · exact h₁
  · refine .ite h₁ ?_
    split
    · exact h₁
    · refine .ite h₁ ?_
      refine .ite ((h₁.foldl fun _ _ h₂ => h₂.spCe).foldl fun _ _ h₂ => h₂.spUe).endPass ?_
      exact ((h₁.foldl fun _ _ h₂ => h₂.spCe).foldl fun _ _ h₂ => h₂.spUe).setPass

theorem State.formOk.startSweep {s : State} (h : s.formOk) {ph : ℕ} {p : Pass} {d : MatmulD} :
    (s.startSweep ph p d).formOk := by
  refine .ite h ?_
  refine .ite ((h.foldl fun _ _ h₁ => h₁.spCe).foldl fun _ _ h₁ => h₁.spUe).endPass ?_
  exact ((h.foldl fun _ _ h₁ => h₁.spCe).foldl fun _ _ h₁ => h₁.spUe).setPass.modMx

theorem State.formOk.startNext {s : State} (h : s.formOk) {ph : ℕ} {p : Pass} : (s.startNext ph p).formOk := by
  unfold State.startNext
  dsimp only
  refine .ite h.setPass ?_
  split
  · exact h.setPass
  · refine .ite h.setPass ?_
    split
    · exact .thenOp (fun hu => hu.startSweep) h.setPass.setMx.beginPass
    · exact h.setPass.setMx.beginPass

theorem State.formOk.sweepStart {s : State} (h : s.formOk) {n : ℕ} : (Machine.sweepStart n s).formOk := by
  unfold Machine.sweepStart
  dsimp only
  refine h.onCore fun _ _ h₁ => ?_
  split
  · exact h₁
  · split
    · exact h₁
    · exact .ite h₁ (.ite h₁.startSweep h₁.startNext)

theorem State.formOk.deliverMerged {s : State} (h : s.formOk) {ph : ℕ} {k : Sink} {xs : List Cell} :
    (s.deliverMerged ph k xs).1.formOk := h.deliver

theorem State.formOk.putRawMerged {s : State} (h : s.formOk) {ph : ℕ} {d : MatmulD} {a : ℤ}
    {xs : List (TileCell × Acc128)} : (s.putRawMerged ph d a xs).1.formOk := h.freshCode.putRawCells

theorem State.formOk.zeroDrain {s : State} (h : s.formOk) {ph : ℕ} {d : MatmulD} {j : ℕ} :
    (s.zeroDrain ph d j).1.formOk := by
  unfold State.zeroDrain
  dsimp only
  split
  · split
    · exact .foldlOf Prod.fst h fun _ _ h₁ => h₁.putRawMerged
    · exact h.putRawMerged
  · exact h.deliverMerged

theorem State.formOk.drainSweep {s : State} (h : s.formOk) {ph : ℕ} {p : Pass} {d : MatmulD} {w : Sweep}
    {rest : List Sweep} : (s.drainSweep ph p d w rest).formOk := by
  unfold State.drainSweep
  dsimp only
  exact .ite h.touch.endPass (.ite h.touch.drain.passFlags.endPass h.touch.drain.passFlags.setPass)

theorem State.formOk.sweepDrain {s : State} (h : s.formOk) {n : ℕ} : (Machine.sweepDrain n s).formOk := by
  unfold Machine.sweepDrain
  dsimp only
  refine h.onCore fun _ _ h₁ => ?_
  split
  · exact h₁
  · split
    · exact h₁
    · refine .ite h₁ ?_
      refine State.formOk.ite ?_ ?_
      · refine .ite h₁ ?_
        exact .ite h₁.touch.endPass (.ite h₁.touch.zeroDrain.passFlags.endPass h₁.touch.zeroDrain.passFlags.setPass)
      · split
        · exact h₁
        · exact h₁.setMx.drainSweep

theorem State.formOk.attemptRepeat {s : State} (h : s.formOk) {n : ℕ} : (Machine.attemptRepeat n s).formOk := by
  unfold Machine.attemptRepeat
  dsimp only
  refine h.onCore fun _ _ h₁ => ?_
  split
  · exact h₁
  · exact .ite h₁ (.ite h₁.finc.setMx h₁.finc.setMx)

theorem State.formOk.putAnchor {s : State} (h : s.formOk) {ph tensor : ℕ} {sum : ℤ} :
    (s.putAnchor ph tensor sum).formOk := h.modCore

theorem State.formOk.passComplete {s : State} (h : s.formOk) {n : ℕ} : (Machine.passComplete n s).formOk := by
  unfold Machine.passComplete
  dsimp only
  refine h.onCore fun _ _ h₁ => ?_
  split
  · exact h₁
  · split
    · exact h₁
    · exact .ite h₁ (.ite h₁.endPass h₁.putAnchor.endPass)

theorem State.formOk.issuePause {s : State} (h : s.formOk) {n : ℕ} : (Machine.issuePause n s).formOk := by
  unfold Machine.issuePause
  dsimp only
  refine h.onCore fun _ _ h₁ => ?_
  split
  · exact h₁.setMx
  · exact h₁.setMx
  · exact h₁

theorem State.formOk.pauseEnd {s : State} (h : s.formOk) {n : ℕ} : (Machine.pauseEnd n s).formOk :=
  h.onCore (fun _ _ h₁ => h₁.setMx)

theorem State.formOk.preemptSet {s : State} (h : s.formOk) {ph : ℕ} : (s.preemptSet ph).formOk := by
  refine .ite h.setMx ?_
  split
  · exact h.savedEmpty
  · exact h.setMx
  · exact h.setMx
  · exact h.setMx
  · exact h

theorem State.formOk.preemptClear {s : State} (h : s.formOk) {ph : ℕ} : (s.preemptClear ph).formOk := by
  unfold State.preemptClear
  extract_lets x m t
  have ht : t.formOk := h.setMx
  clear_value t
  split
  · exact ht.setMx
  · refine .ite ?_ (.ite ht.setMx ht.setMx.mxNext)
    split
    · exact ht.restartPass
    · exact ht.setMx.mxNext
  · exact ht

theorem State.formOk.preemptWrite {s : State} (h : s.formOk) {ph old new : ℕ} : (s.preemptWrite ph old new).formOk :=
  .ite h.preemptSet (.ite h.preemptClear (.ite h.setMx h))

theorem State.formOk.saveFails {s : State} (h : s.formOk) {ph : ℕ} : (s.saveFails ph).formOk := by
  unfold State.saveFails
  dsimp only
  exact .ite h.putSaveHdr.setMx.preemptClear h.putSaveHdr.setMx

theorem State.formOk.stopSweep {s : State} (h : s.formOk) {ph : ℕ} {p : Pass} {d : MatmulD} {w : Sweep} {ks : ℕ} :
    (s.stopSweep ph p d w ks).1.formOk := h.raiseFlags

theorem State.formOk.preemptSave {s : State} (h : s.formOk) {n : ℕ} {v : SaveIn} :
    (Machine.preemptSave n v s).formOk := by
  unfold Machine.preemptSave
  dsimp only
  refine h.onCore fun _ _ h₁ => ?_
  split
  · split
    · exact .ite h₁ (.ite h₁.stopSweep.setPass.saveFails h₁.stopSweep.setPass.putSaveHdr.sput.modMx)
    · exact h₁
  · exact h₁

theorem State.formOk.saveComplete {s : State} (h : s.formOk) {n : ℕ} : (Machine.saveComplete n s).formOk := by
  unfold Machine.saveComplete
  dsimp only
  refine h.onCore fun _ _ h₁ => ?_
  split
  · exact .thenOp (fun hu => hu.preemptClear) h₁.finc.setMx
  · exact h₁

theorem State.formOk.restoreComplete {s : State} (h : s.formOk) {n : ℕ} : (Machine.restoreComplete n s).formOk := by
  unfold Machine.restoreComplete
  dsimp only
  refine h.onCore fun _ _ h₁ => ?_
  split
  · split
    · exact .ite h₁ (.ite h₁.touch.restartPass (.thenOp (fun hu => hu.endPass) h₁.touch.touch.setMx))
    · exact h₁
  · exact h₁

theorem State.formOk.coreFault {s : State} (h : s.formOk) {ph : ℕ} : (s.coreFault ph).formOk :=
  .ite (.event h.same) h.mark

theorem State.formOk.noteFault {s : State} (h : s.formOk) {ph n : ℕ} {p : Pass} : (s.noteFault ph n p).formOk :=
  h.logEvent.coreFault

theorem State.formOk.datapathFault {s : State} (h : s.formOk) {n : ℕ} : (Machine.datapathFault n s).formOk := by
  unfold Machine.datapathFault
  dsimp only
  refine h.onCore fun _ _ h₁ => ?_
  split
  · exact h₁
  · split
    · exact h₁.noteFault.restartPass
    · exact .ite h₁.noteFault.restartPass h₁.noteFault.saveFails
    · exact h₁.noteFault.restartPass
    · exact h₁

theorem State.formOk.operandUe {s : State} (h : s.formOk) {n x : ℕ} : (Machine.operandUe n x s).formOk := by
  refine h.onCore fun t ph ht => ?_
  split
  · exact ht
  · split
    · exact ht
    · exact State.formOk.endPass (.spUe (ht.withMem (by rw [Mem.wf_hit, Mem.wf_hit]; exact ht.mem)))

theorem State.formOk.clearAnchors {s : State} (h : s.formOk) {ph : ℕ} : (s.clearAnchors ph).formOk := h.modCore

/-! ### Operations of Machine/Flits.lean -/

theorem State.formOk.putFlit {s : State} (h : s.formOk) {n : ℕ} {f : Flit} : (s.putFlit n f).formOk := h.send

theorem State.formOk.setLink {s : State} (h : s.formOk) {n : ℕ} {l : LinkSt} : (s.setLink n l).formOk := h

theorem State.formOk.newFlit {s : State} (h : s.formOk) {n : ℕ} {x : Option Packet × List Byte} :
    (s.newFlit n x).formOk := by
  unfold State.newFlit
  dsimp only
  refine State.formOk.putFlit ?_
  split
  · exact h.drawBytes.draw.setLink.send
  · exact h.drawBytes.draw.setLink

theorem State.formOk.pump {s : State} (h : s.formOk) {n : ℕ} : (s.pump n).formOk :=
  .ite h (h.setLink.foldl fun _ _ h₁ => h₁.newFlit)

theorem State.formOk.toPort {s : State} (h : s.formOk) {port : ℕ} {p : Packet} : (s.toPort port p).formOk :=
  h.setLink.pump

theorem State.formOk.replayFrom {s : State} (h : s.formOk) {n seq : ℕ} : (s.replayFrom n seq).formOk :=
  h.foldl fun _ _ h₁ => h₁.putFlit

theorem State.formOk.replayAll {s : State} (h : s.formOk) {n : ℕ} : (s.replayAll n).formOk :=
  (h.foldl fun _ _ h₁ => h₁.putFlit).pump

theorem State.formOk.flitTake {s : State} (h : s.formOk) {n : ℕ} {f : FlitRx} : (s.flitTake n f).formOk := by
  refine .ite h ?_
  refine State.formOk.pump ?_
  split
  · exact h.setLink.replayFrom
  · exact h.setLink

theorem State.formOk.flitReceive {s : State} (h : s.formOk) {n : FpId} {f : FlitRx} :
    (Machine.flitReceive n f s).formOk := by
  refine .ite h ?_
  refine .ite (.flitTake (.ite h.finc h)) ?_
  exact .elseOp (fun hu => hu.setLink.finc.send) (.finc (.ite h.finc h))

/-! ### Operations of Machine/Tracker.lean -/

theorem State.formOk.sendAnswer {s : State} (h : s.formOk) {p : Packet} : (s.sendAnswer p).formOk := by
  unfold State.sendAnswer
  split
  · exact .ite h h.toPort
  · exact h

theorem State.formOk.respond {s : State} (h : s.formOk) {p : Packet} {status detail : ℕ} {data : List Byte} :
    (s.respond p status detail data).formOk := h.sendAnswer

theorem State.formOk.turnAway {s t : State} (h : s.formOk) {a : Arrival} (e : s.turnAway a = some t) : t.formOk := by
  unfold State.turnAway at e
  dsimp only at e
  split at e
  · exact Option.some.inj e ▸ h.respond
  split at e
  · exact Option.some.inj e ▸ h.respond
  split at e
  · exact Option.some.inj e ▸ h
  split at e
  · exact Option.some.inj e ▸ h.sendAnswer
  split at e
  · exact Option.some.inj e ▸ h.respond
  · cases e

theorem State.formOk.grant {s : State} (h : s.formOk) {r : Req} : (s.grant r).1.formOk := by
  unfold State.grant
  dsimp only
  split
  · exact h
  · split
    · exact h
    · split
      · exact h
      · exact .toPort h.same

theorem State.formOk.captureFail {s : State} (h : s.formOk) {status detail part cls core dst : ℕ} :
    (s.captureFail status detail part cls core dst).formOk := .ite h h.setReg.setReg

theorem State.formOk.captureOwner {s : State} (h : s.formOk) {o : Owner} {cls dst : ℕ} {f : ℕ × ℕ} :
    (s.captureOwner o cls dst f).formOk := by
  unfold State.captureOwner
  split
  · exact h.captureFail
  · exact h.captureFail
  · exact h.captureFail
  · exact h

theorem State.formOk.reachTracker {s : State} (h : s.formOk) {r : Req} {more : Bool} :
    (s.reachTracker r more).1.formOk := by
  unfold State.reachTracker
  dsimp only
  split
  · exact h
  · split
    · exact h.grant
    · split
      · exact h
      · exact .ite h.finc h
      · split
        · exact h
        · exact h.finc
      · exact h.finc

theorem State.formOk.requestNow {s : State} (h : s.formOk) {op cls g len : ℕ} {data : List Byte} {txn : Option ℕ}
    {owner : Owner} : (s.requestNow op cls g len data txn owner).1.formOk := by
  unfold State.requestNow
  dsimp only
  split
  · exact h
  · split
    · exact h
    · split
      · exact h
      · exact h.reachTracker

theorem State.formOk.request {s : State} (h : s.formOk) {op cls g len : ℕ} {data : List Byte} {txn : Option ℕ}
    {owner : Owner} : (s.request op cls g len data txn owner).1.formOk := by
  unfold State.request
  dsimp only
  split
  · exact h.requestNow
  · exact h.requestNow.captureOwner

theorem State.formOk.dropReqs {s : State} (h : s.formOk) {p : Req → Bool} : (s.dropReqs p).formOk := h

theorem State.formOk.dropWaiting {s : State} (h : s.formOk) {mine : Owner → Bool} : (s.dropWaiting mine).1.formOk :=
  h.dropReqs

theorem State.formOk.dropReq {s : State} (h : s.formOk) {p : Req → Bool} : (s.dropReq p).formOk := h

/-! ### Operations of Machine/Chain.lean -/

theorem State.formOk.setChain {s : State} (h : s.formOk) {ph idx : ℕ} {c : ChainSt} : (s.setChain ph idx c).formOk :=
  h.modInfl

theorem State.formOk.chainWrites {s : State} (h : s.formOk) {g : ℕ} {owner : Owner} {ws : List (ℕ × List Byte)} :
    (s.chainWrites g owner ws).1.formOk := by
  refine .foldlOf Prod.fst h fun _ _ h₁ => ?_
  split
  · exact h₁
  · split
    · exact .ofFst ‹_› h₁.request
    · exact .ofFst ‹_› h₁.request

theorem State.formOk.chainDrop {s : State} (h : s.formOk) {ph idx : ℕ} : (s.chainDrop ph idx).1.formOk := h.dropReqs

theorem State.formOk.chainLocal {s : State} (h : s.formOk) {d : ChainD} {t : ℕ} {ws : List (ℕ × List Byte)} :
    (s.chainLocal d t ws).1.formOk := by
  unfold State.chainLocal
  dsimp only
  split
  · exact State.formOk.pair (.foldlOf Prod.fst h fun _ _ h₁ => by split; exacts [h₁, h₁.memWrite])
  · exact State.formOk.pair (.signalCore (.foldlOf Prod.fst h fun _ _ h₁ => by split; exacts [h₁, h₁.memWrite]))

theorem State.formOk.chainSignal {s : State} (h : s.formOk) {ph idx : ℕ} {d : ChainD} {c : ChainSt} :
    (s.chainSignal ph idx d c).1.formOk := by
  unfold State.chainSignal
  split
  · exact .setChain (.ofFst ‹_› h.request)
  · split
    · exact .setChain (.ofFst ‹_› h.request)
    · exact .setChain (.ofFst ‹_› h.request)

theorem State.formOk.chainLost {s : State} (h : s.formOk) {ph idx : ℕ} {c : ChainSt} :
    (s.chainLost ph idx c).1.formOk := by
  unfold State.chainLost
  split
  · exact h.setChain
  · exact h.setChain

theorem State.formOk.chainSend {s : State} (h : s.formOk) {ph idx : ℕ} {d : ChainD} {c : ChainSt}
    {ws : List (ℕ × List Byte)} : (s.chainSend ph idx d c ws).1.formOk := by
  unfold State.chainSend
  dsimp only
  split
  · split
    · exact .setChain (.ite h.chainLocal h.chainLocal.captureFail)
    · exact .setChain (.ite h.chainLocal h.chainLocal.captureFail)
  · split
    · exact h.chainWrites.chainDrop.chainLost
    · split
      · exact h.chainWrites.setChain
      · exact h.chainWrites.chainSignal

theorem State.formOk.chainStep {s : State} (h : s.formOk) {ph idx : ℕ} : (s.chainStep ph idx).1.formOk := by
  unfold State.chainStep
  dsimp only
  split
  · exact h
  · split
    · split
      · exact h.complete
      · split
        · exact h
        · split
          · split
            · split
              · split
                · exact h
                · exact h.touch.chainSend
              · split
                · exact h
                · exact h.touch.chainSend
            · split
              · split
                · exact h
                · exact h.touch.chainSend
              · split
                · exact h
                · exact h.touch.chainSend
          · split
            · split
              · split
                · exact h
                · exact h.chainSend
              · split
                · exact h
                · exact h.chainSend
            · split
              · exact h
              · exact h.chainSend
    · exact h

theorem State.formOk.chainRun {s : State} (h : s.formOk) {fuel ph idx : ℕ} : (s.chainRun fuel ph idx).formOk := by
  induction fuel generalizing s with
  | zero => exact h
  | succ fuel ih => exact .ite (ih h.chainStep) h.chainStep

theorem State.formOk.chainConvert {s : State} (h : s.formOk) {ph : ℕ} {d : ChainD} {t : ℕ} {x : RawTile}
    {c : ChainSt} : (s.chainConvert ph d t x c).1.formOk := by
  unfold State.chainConvert
  dsimp only
  split
  · exact h.putRaw.pair
  · exact h.deliver.raiseFlags.pair

theorem State.formOk.chainSolo {s : State} (h : s.formOk) {ph : ℕ} {d : ChainD} : (s.chainSolo ph d).1.formOk := by
  unfold State.chainSolo
  dsimp only
  refine .foldlOf Prod.fst h fun _ _ h₁ => ?_
  split
  · exact h₁
  · split
    · exact h₁.touch
    · exact h₁.touch.chainConvert

theorem State.formOk.chainStart {s : State} (h : s.formOk) {ph : ℕ} {e : Infl} : (s.chainStart ph e).formOk := by
  unfold State.chainStart
  dsimp only
  exact .ite h.chainSolo.setChain.chainRun h.setChain.chainRun

theorem State.formOk.chainNext {s : State} (h : s.formOk) {fuel ph : ℕ} : (s.chainNext fuel ph).formOk := by
  induction fuel generalizing s with
  | zero => exact h
  | succ fuel ih =>
    unfold State.chainNext
    split
    · exact h
    · exact .ite (ih h.chainStart) h

theorem State.formOk.chain {s : State} (h : s.formOk) {n : ℕ} : (Machine.chain n s).formOk := by
  refine h.onCore fun _ _ h₁ => ?_
  split
  · exact h₁
  · split
    · exact h₁.issueDone
    · exact h₁.issue.chainNext

theorem State.formOk.chainTile {s : State} (h : s.formOk) {n : ℕ} : (Machine.chainTile n s).formOk := by
  unfold Machine.chainTile
  dsimp only
  refine h.onCore fun _ _ h₁ => ?_
  split
  · exact h₁
  · split
    · refine .ite h₁ ?_
      refine .ite h₁.setTok.touch.touch.setChain.chainRun.chainNext ?_
      refine .ite h₁.setTok.touch.touch.chainConvert.setChain.chainRun.chainNext ?_
      exact .ite h₁ (.thenOp (fun hu => hu.chainRun.chainNext) h₁.setTok.touch.touch.chainSend)
    · exact h₁

theorem State.formOk.chainAgain {s : State} (h : s.formOk) {ph : ℕ} : (s.chainAgain ph).formOk := by
  unfold State.chainAgain
  split
  · exact h
  · split
    · exact h.chainRun.chainNext
    · exact h.chainNext

theorem State.formOk.chainDone {s : State} (h : s.formOk) {ph idx : ℕ} {isSignal : Bool} {status detail : ℕ} :
    (s.chainDone ph idx isSignal status detail).formOk := by
  unfold State.chainDone
  dsimp only
  split
  · exact h
  · split
    · refine .ite (.ite h.setChain.chainRun.chainNext h.setChain.chainRun.chainNext) ?_
      refine .ite (.thenOp (fun hu => hu.chainRun.chainNext) h.chainDrop.chainLost) ?_
      refine .ite (.ite h.chainLost.chainRun.chainNext h.chainLost) ?_
      exact .ite h.setChain (.ite h.chainSignal.chainRun.chainNext h.chainSignal)
    · exact h

/-! ### Operations of Machine/Sequencer.lean -/

theorem State.formOk.descriptorFetch {s : State} (h : s.formOk) {n : ℕ} : (Machine.descriptorFetch n s).formOk := by
  unfold Machine.descriptorFetch
  dsimp only
  refine h.onCore fun _ _ h₁ => ?_
  refine .ite h₁ ?_
  refine .ite h₁ ?_
  exact .ite h₁.ringRead.modCore (.fset (.fset (.thenOp (fun hu => hu.setReg) h₁.ringRead.draw.putRecord.modCore)))

theorem State.formOk.reservedType {s : State} (h : s.formOk) {n : ℕ} : (Machine.reservedType n s).formOk := by
  refine h.onCore fun _ _ h₁ => ?_
  split
  · exact .ite h₁.issueDone h₁
  · exact h₁

theorem State.formOk.waitTimeout {s : State} (h : s.formOk) {n : ℕ} : (Machine.waitTimeout n s).formOk := by
  refine h.onCore fun _ _ h₁ => ?_
  split
  · exact .ite h₁ h₁.popHead.recordFor.fset
  · exact h₁

theorem State.formOk.syncDone {s : State} (h : s.formOk) {ph idx status detail : ℕ} :
    (s.syncDone ph idx status detail).formOk := by
  unfold State.syncDone
  dsimp only
  split
  · exact h
  · split
    · exact .ite h.complete h.modInfl
    · exact h

theorem State.formOk.fence {s : State} (h : s.formOk) {n : ℕ} : (Machine.fence n s).formOk := by
  refine h.onCore fun _ _ h₁ => ?_
  split
  · exact h₁
  · exact .ite h₁ (.thenOp (fun hu => hu.fset) h₁.issueDone.modCore)

theorem State.formOk.abortInfl {s : State} (h : s.formOk) {m : Mx} {ph : ℕ} {e : Infl} :
    (s.abortInfl m ph e).formOk := by
  refine .ite h ?_
  split
  · exact h.passRegs.complete
  · exact h.complete

theorem State.formOk.coreReset {s : State} (h : s.formOk) {ph : ℕ} : (s.coreReset ph).formOk := by
  refine State.formOk.fset (.foldl ?_ fun _ _ h₁ => h₁.foldl fun _ _ h₂ => .ite h₂.setReg h₂)
  refine .foldl ?_ fun _ _ h₁ => h₁.setReg
  exact .clearAnchors (.foldl (h.setMx.foldl fun _ _ h₁ => h₁.abortInfl).same fun _ _ h₁ => h₁.setTok)

/-! ### Operations of Machine/Clove.lean -/

theorem State.formOk.clearInCores {s : State} (h : s.formOk) {offs : List ℕ} {mask : Word} {p : ℕ → Bool} :
    (s.clearInCores offs mask p).formOk := by
  refine ⟨h.mem, Tab.rising_filterMap h.regs fun e x hx => ?_, h.cores, h.hbm, h.slots, h.saf⟩
  split at hx
  · split at hx
    · dsimp only at hx
      split at hx
      · cases hx
      · rw [← Option.some.inj hx]
    · rw [← Option.some.inj hx]
  · rw [← Option.some.inj hx]

theorem State.formOk.stepOpen {s : State} (h : s.formOk) : s.stepOpen.formOk := h.fset.clearInCores

theorem State.formOk.expStep {s : State} (h : s.formOk) {d : ℤ} : (s.expStep d).1.formOk := by
  unfold State.expStep
  dsimp only
  split
  · exact h
  · exact h.fset

theorem State.formOk.stepOutcome {s : State} (h : s.formOk) {o : Outcome4} : (s.stepOutcome o).formOk := by
  unfold State.stepOutcome
  dsimp only
  split
  · refine State.formOk.send ?_
    refine State.formOk.fset ?_
    refine State.formOk.fset ?_
    split
    · exact h.fset.setReg.expStep
    · exact h.fset.setReg
  · exact h.fset.expStep.fset.fset.finc
  · exact h.fset.fset
  · exact h.fset.fset

theorem State.formOk.cloveSend {s : State} (h : s.formOk) {n lid kind code : ℕ} :
    (s.cloveSend n lid kind code).formOk := h.request

theorem State.formOk.detachAll {s : State} (h : s.formOk) {n : ℕ} : (s.detachAll n).formOk :=
  h.foldl fun _ _ h₁ => .ite h₁.setCore h₁

theorem State.formOk.slotFree {s : State} (h : s.formOk) {n : ℕ} : (s.slotFree n).formOk := by
  unfold State.slotFree
  dsimp only
  split
  · split
    · exact h.setSlot.complete
    · exact h.setSlot
  · exact h.setSlot

theorem State.formOk.countEnd {s : State} (h : s.formOk) {o : Outcome4} : (s.countEnd o).formOk := .ite h.finc h.finc

theorem State.formOk.applyDecision {s : State} (h : s.formOk) {n : ℕ} {o : Outcome4} :
    (s.applyDecision n o).formOk := by
  unfold State.applyDecision
  extract_lets x outcome ended
  have hout : ∀ t : State, t.formOk → (outcome t).formOk := fun t ht =>
    .thenOp (fun hu => hu.stepOutcome) ht.modSlot.countEnd
  have hend : ∀ t : State, t.formOk → (ended t).formOk := fun t ht => .thenOp (fun hu => hu.slotFree) ht
  clear_value outcome ended
  split
  · exact .ite h (hend _ (hout _ h.modSlot.detachAll))
  · exact .ite (hout _ h.modSlot) (hout _ h.modSlot).slotFree
  · exact .ite h (hend _ (hout _ h))
  · exact h

theorem State.formOk.decideOutcome {s : State} (h : s.formOk) {n : ℕ} {o : Outcome4} : (s.decideOutcome n o).formOk :=
  ((h.foldl fun _ _ h₁ => h₁.cloveSend).modSlot).applyDecision

theorem State.formOk.tryDecide {s : State} (h : s.formOk) {n : ℕ} : (s.tryDecide n).formOk :=
  .ite h (.ite h.setSlot.decideOutcome (.ite h.setSlot.decideOutcome (.ite h.decideOutcome (.ite h.decideOutcome h))))

theorem State.formOk.castVote {s : State} (h : s.formOk) {n code : ℕ} : (s.castVote n code).formOk :=
  .ite h.modSlot.tryDecide h.modSlot.cloveSend

theorem State.formOk.slotAbort {s : State} (h : s.formOk) {n cause : ℕ} : (s.slotAbort n cause).formOk :=
  .ite h (.castVote (.ite h.modSlot.detachAll.finc.event h.modSlot.detachAll))

theorem State.formOk.logEntry {s : State} (h : s.formOk) {n : ℕ} {e : LogEntry} : (s.logEntry n e).1.formOk := by
  unfold State.logEntry
  dsimp only
  split
  · exact h
  · split
    · exact h.slotAbort
    · split
      · exact h.event.slotAbort
      · exact .ite h.setSlot.slotAbort h.setSlot
  · exact h

theorem State.formOk.countActions {s : State} (h : s.formOk) {n k : ℕ} : (s.countActions n k).1.formOk := by
  unfold State.countActions
  dsimp only
  split
  · exact h.slotAbort
  · exact h.setSlot

theorem State.formOk.sendSig {s : State} (h : s.formOk) {ph idx : ℕ} {txn : Option ℕ} {g : SyncSig} :
    (s.sendSig ph idx txn g).1.formOk := by
  unfold State.sendSig
  dsimp only
  split
  · split
    · split
      · exact h.slotAbort
      · split
        · exact h.logEntry
        · exact h.logEntry.slotAbort
    · split
      · exact h.signalCore
      · exact h.signalCore.captureFail
  · split
    · refine .ofFst ‹_› ?_
      split
      · exact h
      · exact h.request
    · split
      · refine State.formOk.slotAbort ?_
        refine .ofFst ‹_› ?_
        split
        · exact h
        · exact h.request
      · refine .ofFst ‹_› ?_
        split
        · exact h
        · exact h.request

theorem State.formOk.sync {s : State} (h : s.formOk) {n : ℕ} : (Machine.sync n s).formOk := by
  refine h.onCore fun t ph ht => ?_
  split
  · exact ht
  · split
    · exact ht
    · extract_lets s₁ s₂ txn sigs cnt s₃ e r
      have h₂ : s₂.formOk := ht.issue.foldl fun _ _ hu => hu.setTok
      have hcnt : State.fstOk cnt := by
        dsimp only [cnt, txn]
        split
        · exact h₂.countActions
        · exact h₂.fst
      have hr : State.fstOk r := hcnt.st.fst.foldl fun a g ha => by
        split
        · exact ha
        · exact ha.st.sendSig.fst
      exact .ite hcnt.st.complete (.ite hr.st.complete hr.st.modInfl)

theorem State.formOk.bindSlot {s : State} (h : s.formOk) {d : TxnD} : (s.bindSlot d).formOk :=
  .ite (.stepOpen (.ite h.setSlot h.setSlot.cloveSend)) (.ite h.setSlot h.setSlot.cloveSend)

theorem State.formOk.txnIssue {s : State} (h : s.formOk) {ph : ℕ} {f : Fetched} : (s.txnIssue ph f).formOk := by
  unfold State.txnIssue
  dsimp only
  split
  · exact h.issueDone
  · split
    · exact h.issue.bindSlot
    · exact h.issue.modCore
    · exact h.issue.modCore
    · exact .ite h.issue.countActions h.issue.countActions.complete
    · exact h.issue.modSlot

theorem State.formOk.actionRun {s : State} (h : s.formOk) {ph : ℕ} {e : Infl} {d : TxnD} :
    (s.actionRun ph e d).formOk := by
  unfold State.actionRun
  dsimp only
  refine .ite (.ite h.captureFail.slotAbort.complete (.ite h.logEntry.complete h.logEntry.slotAbort.complete)) ?_
  split
  · refine State.formOk.modInfl ?_
    split
    · exact h.request
    · exact h.request
    · exact h.request
  · refine State.formOk.complete ?_
    refine State.formOk.slotAbort ?_
    split
    · exact h.request
    · exact h.request
    · exact h.request

theorem State.formOk.prepareNow {s : State} (h : s.formOk) {n : ℕ} : (s.prepareNow n).formOk :=
  .ite h (.ite h.slotAbort ((h.modSlot.detachAll.foldl fun _ _ h₁ => .ite h₁.slotAbort h₁).castVote))

theorem State.formOk.prepare {s : State} (h : s.formOk) {n : ℕ} : (s.prepare n).formOk := .ite h h.prepareNow

theorem State.formOk.endRun {s : State} (h : s.formOk) {ph : ℕ} {e : Infl} {d : TxnD} : (s.endRun ph e d).formOk :=
  .ite h.modInfl.modSlot.slotFree (.ite h.modInfl.modSlot.prepare h.modInfl.modSlot.slotAbort)

theorem State.formOk.txnGo {s : State} (h : s.formOk) {ph : ℕ} : (s.txnGo ph).formOk := by
  unfold State.txnGo
  dsimp only
  split
  · exact h
  · exact .ite (.ite h.complete (.ite h.complete (.ite h.actionRun h.endRun))) (.ite h.prepare h)

theorem State.formOk.txnNext {s : State} (h : s.formOk) {ph : ℕ} : (s.txnNext ph).formOk :=
  h.foldl fun _ _ h₁ => h₁.txnGo

theorem State.formOk.txnStep {s : State} (h : s.formOk) {n op : ℕ} : (s.txnStep n op).formOk := by
  refine h.onCore fun _ _ h₁ => ?_
  split
  · exact h₁.txnIssue.txnNext
  · exact h₁.txnNext

theorem State.formOk.txnBegin {s : State} (h : s.formOk) {n : ℕ} : (Machine.txnBegin n s).formOk := h.txnStep

theorem State.formOk.txnAttach {s : State} (h : s.formOk) {n : ℕ} : (Machine.txnAttach n s).formOk := h.txnStep

theorem State.formOk.txnDetach {s : State} (h : s.formOk) {n : ℕ} : (Machine.txnDetach n s).formOk := h.txnStep

theorem State.formOk.txnAction {s : State} (h : s.formOk) {n : ℕ} : (Machine.txnAction n s).formOk := h.txnStep

theorem State.formOk.txnCommit {s : State} (h : s.formOk) {n : ℕ} : (Machine.txnCommit n s).formOk := h.txnStep

theorem State.formOk.txnAbort {s : State} (h : s.formOk) {n : ℕ} : (Machine.txnAbort n s).formOk := h.txnStep

theorem State.formOk.cloveJoin {s : State} (h : s.formOk) {lid : ℕ} {m : CloveMsg} : (s.cloveJoin lid m).formOk := by
  refine .ite h ?_
  split
  · exact .ite h.setSlot h.setSlot.cloveSend
  · exact h.setSlot.tryDecide

theorem State.formOk.cloveVote {s : State} (h : s.formOk) {lid : ℕ} {m : CloveMsg} : (s.cloveVote lid m).formOk := by
  unfold State.cloveVote
  dsimp only
  refine .ite h ?_
  refine State.formOk.tryDecide ?_
  refine State.formOk.setSlot ?_
  split
  · exact h.draw
  · exact h

theorem State.formOk.cloveDecide {s : State} (h : s.formOk) {m : CloveMsg} : (s.cloveDecide m).formOk := by
  unfold State.cloveDecide
  dsimp only
  split
  · exact h
  · exact .ite h h.applyDecision.cloveSend

theorem State.formOk.cloveAck {s : State} (h : s.formOk) {lid : ℕ} {m : CloveMsg} : (s.cloveAck lid m).formOk :=
  h.modSlot

theorem State.formOk.cloveQuery {s : State} (h : s.formOk) {lid : ℕ} {m : CloveMsg} :
    (s.cloveQuery lid m).formOk := by
  unfold State.cloveQuery
  dsimp only
  split
  · exact .ite h.cloveSend h
  · exact h

theorem State.formOk.cloveReceive {s : State} (h : s.formOk) {p : Packet} : (s.cloveReceive p).1.formOk := by
  unfold State.cloveReceive
  dsimp only
  split
  · exact h
  · split
    · exact h.cloveJoin
    · exact h.cloveVote
    · exact h.cloveDecide
    · exact h.cloveAck
    · exact h.cloveQuery
    · exact h

theorem State.formOk.voteTimeout {s : State} (h : s.formOk) {n : SlotId} : (Machine.voteTimeout n s).formOk :=
  .ite h.setSlot.decideOutcome h

theorem State.formOk.decideResend {s : State} (h : s.formOk) {n : SlotId} : (Machine.decideResend n s).formOk := by
  unfold Machine.decideResend
  dsimp only
  split
  · exact h
  · refine .ite h ?_
    refine .modSlot ?_
    refine h.foldl fun _ _ h₁ => ?_
    refine .ite h₁ ?_
    exact .ite h₁.cloveSend (.ite (.event (.ite h₁.finc h₁.finc.setReg)) h₁)

theorem State.formOk.inDoubt {s : State} (h : s.formOk) {n : SlotId} : (Machine.inDoubt n s).formOk :=
  .ite h.event.cloveSend h

theorem State.formOk.forceFree {s : State} (h : s.formOk) {n : ℕ} : (s.forceFree n).formOk := by
  unfold State.forceFree
  dsimp only
  split
  · split
    · exact .complete (.setSlot (.ite h.finc h))
    · exact .setSlot (.ite h.finc h)
  · exact .setSlot (.ite h.finc h)

theorem State.formOk.force {s : State} (h : s.formOk) {act n : ℕ} : (s.force act n).formOk := by
  unfold State.force
  dsimp only
  split
  · exact .ite h.setSlot.applyDecision h
  · exact .ite h.setSlot.applyDecision h
  · exact .ite h.forceFree h
  · exact h

/-! ### Operations of Machine/Degraded.lean -/

theorem State.formOk.refreshDeg {s : State} (h : s.formOk) : s.refreshDeg.formOk := .ite h h.fset.fset.event

/-! ### Operations of Machine/Security.lean -/

theorem State.formOk.newNonce {s : State} (h : s.formOk) : s.newNonce.formOk := .foldl h fun _ _ h₁ => h₁.setReg

theorem State.formOk.setKey {s : State} (h : s.formOk) {n : ℕ} {k : KeySlot} : (s.setKey n k).formOk := h

theorem State.formOk.eraseSlots {s : State} (h : s.formOk) {p : ℕ → Bool} : (s.eraseSlots p).formOk := by
  apply State.formOk.event
  apply State.formOk.withZwk
  refine h.withSaf (Tab.rising_map h.saf fun e => ?_)
  dsimp only
  split
  · split
    · rfl
    · rfl
  · rfl

theorem State.formOk.engRead {s : State} (h : s.formOk) {off n : ℕ} : (s.engRead off n).st.formOk := by
  unfold State.engRead
  split
  · exact h
  · exact h.memRead

theorem State.formOk.untrFree {s : State} (h : s.formOk) {e : ℕ} : (s.untrFree e).formOk := h

theorem State.formOk.writeRpb {s : State} (h : s.formOk) {b : Rpb} : (s.writeRpb b).formOk := h

theorem State.formOk.enterD2 {s : State} (h : s.formOk) : s.enterD2.formOk :=
  .event (.same (.ite h.eraseSlots.writeRpb h.eraseSlots))

theorem State.formOk.loadKeys {s : State} (h : s.formOk) {body : List Byte} : (s.loadKeys body).formOk :=
  .foldl (.ite h h.eraseSlots) fun _ _ h₁ => .ite h₁ h₁.setKey

theorem State.formOk.transition {s : State} (h : s.formOk) {body : List Byte} : (s.transition body).formOk := by
  refine State.formOk.event ?_
  split
  · exact h.same.writeRpb
  · exact h.eraseSlots.writeRpb
  · exact h.writeRpb

theorem State.formOk.accept {s : State} (h : s.formOk) {kind : ℕ} {body : List Byte} :
    (s.accept kind body).formOk := by
  unfold State.accept
  split
  · exact h.enterD2
  · exact h.loadKeys
  · exact h.transition
  · exact h

theorem State.formOk.hbmOnlyRead {s : State} (h : s.formOk) {off n : ℕ} : (s.hbmOnlyRead off n).st.formOk := by
  unfold State.hbmOnlyRead
  split
  · exact h.memRead
  · exact h

theorem State.formOk.opResult {s : State} (h : s.formOk) {status reason : ℕ} {kind : Option ℕ} :
    (s.opResult status reason kind).formOk := by
  unfold State.opResult
  dsimp only
  split
  · exact h
  · exact h

theorem State.formOk.verify {s : State} (h : s.formOk) : (Machine.verify s).formOk := by
  refine .ite h ?_
  refine .ite h.opResult ?_
  refine .ite h.hbmOnlyRead.opResult ?_
  refine .ite h.hbmOnlyRead.opResult ?_
  refine .ite h.hbmOnlyRead.hbmOnlyRead.opResult ?_
  refine .ite (.opResult (.thenOp (fun hu => hu.newNonce) h.hbmOnlyRead.hbmOnlyRead.accept)) ?_
  exact .opResult (.thenOp (fun hu => hu.newNonce) h.hbmOnlyRead.hbmOnlyRead)

theorem State.formOk.signBytes {s : State} (hs : s.formOk) {h : List Byte} {n : ℕ} : (s.signBytes h n).2.formOk :=
  hs.same

theorem State.formOk.attest {s : State} (h : s.formOk) : (Machine.attest s).formOk := by
  unfold Machine.attest
  dsimp only
  refine .ite h ?_
  refine .ite h.opResult ?_
  exact .ite h.opResult (.ite h.hbmOnlyRead.opResult h.hbmOnlyRead.signBytes.memWrite.memWrite.opResult)

theorem State.formOk.nonceNew {s : State} (h : s.formOk) : (Machine.nonceNew s).formOk := .ite h.newNonce.opResult h

theorem State.formOk.opDone {s : State} (h : s.formOk) : (Machine.opDone s).formOk := by
  unfold Machine.opDone
  dsimp only
  split
  · exact .event (.setReg h.same)
  · exact h

theorem State.formOk.opStart {s : State} (h : s.formOk) {op : ℕ} : (s.opStart op).formOk := .ite h (.fset h)

theorem State.formOk.writeD1 {s : State} (h : s.formOk) {rq : Requester} {v : ℕ} : (s.writeD1 rq v).formOk := .ite h h

theorem State.formOk.exitD2 {s : State} (h : s.formOk) : s.exitD2.formOk := .ite h h

theorem State.formOk.raiseSvn {s : State} (h : s.formOk) : s.raiseSvn.formOk := h.writeRpb

theorem State.formOk.secPulses {s : State} (h : s.formOk) {v : Word} : (s.secPulses v).formOk :=
  .ite (.exitD2 (.ite h.raiseSvn h)) (.ite h.raiseSvn h)

theorem State.formOk.writeErase {s : State} (h : s.formOk) {v : Word} : (s.writeErase v).formOk := .ite h.eraseSlots h

theorem State.formOk.writeUntr {s : State} (h : s.formOk) {v : Word} : (s.writeUntr v).formOk := .ite h.untrFree h

/-! ### Operations of Machine/Saffron.lean -/

theorem State.formOk.modJob {s : State} (h : s.formOk) {n : ℕ} {f : SafJob → SafJob} : (s.modJob n f).formOk := by
  unfold State.modJob
  dsimp only
  split
  · exact h.setSaf
  · exact h

theorem State.formOk.jobRead {s : State} (h : s.formOk) {e idx part g n : ℕ} : (s.jobRead e idx part g n).formOk := by
  refine .ite h ?_
  refine .ite h.engRead.modJob ?_
  refine h.modJob.foldl fun _ _ h₁ => ?_
  split
  · exact .modJob (.ofFst ‹_› h₁.request)
  · exact .modJob (.ofFst ‹_› h₁.request)

theorem State.formOk.jobWrite {s : State} (h : s.formOk) {e idx g : ℕ} {bs : List Byte} :
    (s.jobWrite e idx g bs).formOk := by
  refine .ite h.memWrite.modJob ?_
  refine h.foldl fun _ _ h₁ => ?_
  split
  · exact .modJob (.ofFst ‹_› h₁.request)
  · exact .modJob (.ofFst ‹_› h₁.request)

theorem State.formOk.jobForm {s : State} (h : s.formOk) {n : ℕ} : (s.jobForm n).formOk := by
  unfold State.jobForm
  dsimp only
  split
  · exact h
  · refine .ite h ?_
    exact .ite h.modJob (.ite h.modJob.inc64.jobWrite.modJob h.modJob.inc64.jobWrite.jobWrite.memWrite.modJob)

theorem State.formOk.takeJob {s : State} (h : s.formOk) {n : ℕ} {w : List Word} : (s.takeJob n w).formOk :=
  h.setReg.setSaf

theorem State.formOk.jobReads {s : State} (h : s.formOk) {n idx : ℕ} {w : List Word} : (s.jobReads n idx w).formOk :=
  .jobForm (.ite h.jobRead.jobRead.jobRead h.jobRead.jobRead)

theorem State.formOk.runJob {s : State} (h : s.formOk) {n : ℕ} {w : List Word} : (s.runJob n w).formOk := by
  unfold State.runJob
  dsimp only
  split
  · exact h.takeJob.setKey.event.modJob
  · exact h.takeJob.modJob
  · refine .ite ?_ h.takeJob.setKey.modJob.jobReads
    split
    · exact h.takeJob.setKey.modJob.modJob
    · exact h.takeJob.setKey.modJob.same.modJob.jobWrite.jobReads

theorem State.formOk.headJob {s : State} (h : s.formOk) {n : ℕ} {r : Res} (e : s.headJob n = some r) :
    r.st.formOk := by
  unfold State.headJob at e
  split at e
  · cases e
  dsimp only at e
  split at e
  · cases e
  · exact Option.some.inj e ▸ h.memRead

theorem State.formOk.encrypt {s : State} (h : s.formOk) {n : SafId} : (Machine.encrypt n s).formOk := by
  unfold Machine.encrypt
  dsimp only
  split
  · exact h
  · exact .ite (((h.headJob ‹_›).takeJob).modJob) (.ite h ((h.headJob ‹_›).runJob))

theorem State.formOk.decrypt {s : State} (h : s.formOk) {n : SafId} : (Machine.decrypt n s).formOk := by
  unfold Machine.decrypt
  dsimp only
  split
  · exact h
  · exact .ite ((h.headJob ‹_›).runJob) h

theorem State.formOk.safAnswered {s : State} (h : s.formOk) {e idx part place status detail : ℕ} {data : List Byte} :
    (s.safAnswered e idx part place status detail data).formOk := by
  unfold State.safAnswered
  dsimp only
  split
  · exact h
  · exact .ite h (.ite h.modJob h.modJob.jobForm)

theorem State.formOk.jobRecord {s : State} (h : s.formOk) {n idx : ℕ} {w : List Word} {status detail : ℕ}
    {ctr : Option ℕ} : (s.jobRecord n idx w status detail ctr).formOk := h.same.memWrite

theorem State.formOk.dropSafReqs {s : State} (h : s.formOk) {n : ℕ} : (s.dropSafReqs n).formOk := h.dropReqs

theorem State.formOk.jobEnd {s : State} (h : s.formOk) {n : ℕ} {j : SafJob} {status detail : ℕ} :
    (s.jobEnd n j status detail).formOk := by
  unfold State.jobEnd
  dsimp only
  refine State.formOk.setSaf ?_
  refine State.formOk.dropSafReqs ?_
  refine State.formOk.jobRecord ?_
  split
  · refine State.formOk.signalCore ?_
    refine .thenOp (fun hu => hu.finc) ?_
    split
    · exact .ite h.memWrite.untrFree (.event (.event (.ite h.finc h)))
    · exact h
  · refine .thenOp (fun hu => hu.finc) ?_
    split
    · exact .ite h.memWrite.untrFree (.event (.event (.ite h.finc h)))
    · exact h

theorem State.formOk.safJobComplete {s : State} (h : s.formOk) {n : SafId} : (Machine.safJobComplete n s).formOk := by
  unfold Machine.safJobComplete
  dsimp only
  split
  · exact h
  · exact .ite h (.ite h.jobEnd h.jobForm)

theorem State.formOk.safStallTimeout {s : State} (h : s.formOk) {n : SafId} :
    (Machine.safStallTimeout n s).formOk := by
  unfold Machine.safStallTimeout
  dsimp only
  split
  · exact .ite h.jobEnd h
  · exact h

theorem State.formOk.rngFail {s : State} (h : s.formOk) : (Machine.rngFail s).formOk :=
  (h.foldl fun _ _ h₁ => h₁.setSaf).event

theorem State.formOk.randomnessReturn {s : State} (h : s.formOk) : (Machine.randomnessReturn s).formOk :=
  h.foldl fun _ _ h₁ => h₁.setSaf

theorem State.formOk.abortGiven {s : State} (h : s.formOk) {fuel n : ℕ} : (s.abortGiven fuel n).formOk := by
  induction fuel generalizing s with
  | zero => exact h
  | succ fuel ih =>
    unfold State.abortGiven
    split
    · exact h
    · exact ih (by split; exacts [h.memRead.takeJob.jobEnd, h.memRead.takeJob])

theorem State.formOk.retireSaf {s : State} (h : s.formOk) {n : ℕ} : (s.retireSaf n).formOk := by
  refine State.formOk.refreshDeg ?_
  split
  · exact .thenOp (fun hu => (hu.foldl fun _ _ h₁ => h₁.setReg.setReg).setReg) h.logRepair.setSaf
  · exact h.logRepair.setSaf

theorem State.formOk.selfTest {s : State} (h : s.formOk) {n : SafId} {failed : Bool} :
    (Machine.selfTest n failed s).formOk := by
  refine .ite h ?_
  refine State.formOk.retireSaf ?_
  refine State.formOk.abortGiven ?_
  split
  · exact h.event.jobEnd
  · exact h.event

/-! ### Operations of Machine/Reset.lean -/

theorem State.formOk.loseVolatile {s : State} (h : s.formOk) {keep : ℕ → Bool} : (s.loseVolatile keep).formOk :=
  ⟨h.mem, Tab.rising_filter h.regs _, rfl, h.hbm, rfl, rfl⟩

theorem State.formOk.toP4 {s : State} (h : s.formOk) : s.toP4.formOk := by
  have hv : (s.loseVolatile flashReg).formOk := h.loseVolatile
  apply State.formOk.fset
  exact ⟨Mem.wf_init, hv.regs, hv.cores, rfl, hv.slots, hv.saf⟩

theorem State.formOk.fatal {s : State} (h : s.formOk) : s.fatal.formOk := h.send.toP4

/-! ### Operations of Machine/ZwkWire.lean -/

theorem State.formOk.setZwk {s : State} (h : s.formOk) {f : ZwkSt → ZwkSt} : (s.setZwk f).formOk := h

theorem State.formOk.setRouteWord {s : State} (h : s.formOk) {site route word : ℕ} {w : Word} :
    (s.setRouteWord site route word w).formOk := h.setZwk

theorem State.formOk.countFrame {s : State} (h : s.formOk) {n off : ℕ} : (s.countFrame n off).formOk := h.setReg

theorem State.formOk.siteSend {s : State} (h : s.formOk) {n site route : ℕ} {bs : List Byte} :
    (s.siteSend n site route bs).formOk := .ite h.countFrame.send h

theorem State.formOk.parcelPart {s : State} (h : s.formOk) {g id : ℕ} {lost : Bool} {bs : List Byte} :
    (s.parcelPart g id lost bs).1.formOk := by
  unfold State.parcelPart
  dsimp only
  split
  · exact h
  · split
    · exact .ofFst ‹_› h.request
    · exact .ofFst ‹_› h.request

theorem State.formOk.fabricParcel {s : State} (h : s.formOk) {g : ℕ} {bs : List Byte} :
    (s.fabricParcel g bs).formOk :=
  .thenOp (fun hu => hu.dropWaiting) (.foldlOf Prod.fst h.setZwk fun _ _ h₁ => h₁.parcelPart)

theorem State.formOk.invoke {s : State} (h : s.formOk) {n : ℕ} : (s.invoke n).1.formOk := by
  unfold State.invoke
  dsimp only
  split
  · exact h
  · split
    · exact h.setKey.event
    · exact h.setKey

theorem State.formOk.viaSend {s : State} (h : s.formOk) {via : ℕ ⊕ ℕ} {site route : ℕ} {bs : List Byte} :
    (s.viaSend via site route bs).formOk := by
  unfold State.viaSend
  split
  · exact h.siteSend
  · exact h.fabricParcel

theorem State.formOk.sendParcel {s : State} (hs : s.formOk) {h : ParcelHdr} {body : List Byte} :
    (s.sendParcel h body).formOk := by
  unfold State.sendParcel
  dsimp only
  split
  · exact hs
  · split
    · exact .ofFst ‹_› hs.invoke
    · exact .viaSend (.ofFst ‹_› hs.invoke)

theorem State.formOk.sendCtrl1 {s : State} (h : s.formOk) {site route core round skind : ℕ} {body : ZCtrl} :
    (s.sendCtrl1 site route core round skind body).formOk := h.sendParcel

theorem State.formOk.sendPeer {s : State} (h : s.formOk) {site core round skind : ℕ} {body : ZCtrl} :
    (s.sendPeer site core round skind body).formOk := by
  unfold State.sendPeer
  split
  · exact h.sendCtrl1
  · exact h

theorem State.formOk.sendConv {s : State} (h : s.formOk) {site round : ℕ} {body : ZCtrl} :
    (s.sendConv site round body).formOk := h.foldl fun _ _ h₁ => h₁.sendCtrl1

theorem State.formOk.sendSites {s : State} (h : s.formOk) {m round : ℕ} {body : ZCtrl} :
    (s.sendSites m round body).formOk := h.foldl fun _ _ h₁ => .ite h₁ h₁.sendConv

theorem State.formOk.sendOne {s : State} (h : s.formOk) {x : StreamOut} {site g t route : ℕ} :
    (s.sendOne x site g t route).formOk := h.sendParcel

theorem State.formOk.sendGroup {s : State} (h : s.formOk) {x : StreamOut} {site g : ℕ} :
    (s.sendGroup x site g).formOk := .ite h (h.foldl fun _ _ h₁ => h₁.sendOne)

theorem State.formOk.sendStream {s : State} (h : s.formOk) {x : StreamOut} : (s.sendStream x).formOk :=
  h.foldl fun _ _ h₁ => h₁.foldl fun _ _ h₂ => h₂.sendGroup

theorem State.formOk.windowAccept {s : State} (h : s.formOk) {lid route slot ctr : ℕ} :
    (s.windowAccept lid route slot ctr).formOk := h.setZwk

theorem State.formOk.sample {s : State} (h : s.formOk) {site route echo : ℕ} :
    (s.sample site route echo).1.formOk := by
  unfold State.sample
  dsimp only
  split
  · exact h
  · split
    · exact h.setRouteWord.setRouteWord.finc.event
    · exact h.setRouteWord

theorem State.formOk.timed {s : State} (hs : s.formOk) {h : ParcelHdr} : (s.timed h).1.formOk := hs.setZwk.sample

theorem State.formOk.modIn {s : State} (h : s.formOk) {site core skind round : ℕ} {f : StreamIn → StreamIn} :
    (s.modIn site core skind round f).formOk := h.setZwk

theorem State.formOk.newStream {s : State} (hs : s.formOk) {h : ParcelHdr} : (s.newStream h).formOk :=
  .ite hs hs.setZwk

theorem State.formOk.untrust {s : State} (hs : s.formOk) {h : ParcelHdr} : (s.untrust h).formOk :=
  .ite hs hs.newStream.modIn

theorem State.formOk.putParcel {s : State} (hs : s.formOk) {h : ParcelHdr} {body : List Byte} :
    (s.putParcel h body).formOk := by
  unfold State.putParcel
  dsimp only
  split
  · exact hs.newStream
  · exact .ite hs.newStream (.modIn (.ite hs.newStream.finc hs.newStream))

/-! ### Operations of Machine/Exchange.lean -/

theorem State.formOk.setConv {s : State} (h : s.formOk) {f : Convener → Convener} : (s.setConv f).formOk := h.setZwk

theorem State.formOk.convMsg {s : State} (h : s.formOk) {lid : ℕ} {b : ConvBody} : (s.convMsg lid b).formOk := by
  unfold State.convMsg
  dsimp only
  split
  · exact .send (.ofFst ‹_› h.drawBytes.request)
  · exact .ofFst ‹_› h.drawBytes.request

theorem State.formOk.toConv {s : State} (h : s.formOk) {b : ConvBody} : (s.toConv b).formOk :=
  .ite h.setConv h.convMsg

theorem State.formOk.tellHeld {s : State} (h : s.formOk) : s.tellHeld.formOk :=
  h.foldl fun _ _ h₁ => .ite h₁ h₁.setZwk.toConv

theorem State.formOk.tellFinal {s : State} (h : s.formOk) {x : StreamOut} : (s.tellFinal x).formOk := .ite h.toConv h

theorem State.formOk.modOut {s : State} (h : s.formOk) {x : StreamOut} {f : StreamOut → StreamOut} :
    (s.modOut x f).formOk := h.setZwk

theorem State.formOk.finishSend {s : State} (h : s.formOk) {x : StreamOut} : (s.finishSend x).formOk := by
  unfold State.finishSend
  dsimp only
  split
  · exact (h.finc.modOut.foldl fun _ _ h₁ => h₁.sendPeer).tellFinal
  · exact (((h.finc.modOut.foldl fun _ _ h₁ => h₁.sendPeer).tellFinal).locWrite).complete

theorem State.formOk.collectNow {s : State} (h : s.formOk) {ph core : ℕ} {e : Infl} :
    (s.collectNow ph core e).formOk := by
  unfold State.collectNow
  dsimp only
  split
  · exact .ite h (.toConv (.complete (.foldlOf Prod.fst h fun _ _ h₁ => h₁.locWrite.pair)))
  · exact .ite h.complete h

theorem State.formOk.snapNow {s : State} (h : s.formOk) {ph core : ℕ} {e : Infl} : (s.snapNow ph core e).formOk := by
  unfold State.snapNow
  dsimp only
  split
  · exact .ite h (.ite h.setZwk.complete h.setZwk.locWrite.complete)
  · exact h

theorem State.formOk.zwkRun {s : State} (h : s.formOk) {fuel ph core : ℕ} : (s.zwkRun fuel ph core).formOk := by
  induction fuel generalizing s with
  | zero => exact h
  | succ fuel ih =>
    unfold State.zwkRun
    split
    · exact h
    · next e _ _ =>
      extract_lets d t u
      have ht : t.formOk := .thenOp (fun hs => hs.modInfl) h
      clear_value t
      have hu : u.formOk := by
        refine .ite ?_ (.ite ht.collectNow ht.snapNow)
        split
        · exact .thenOp (fun hv => hv.finishSend) (.ite ht (.elseOp (fun hv => hv.toConv) ht.modOut.sendStream))
        · exact ht
      exact .ite (ih hu) hu

theorem State.formOk.zwkAll {s : State} (h : s.formOk) : s.zwkAll.formOk :=
  (h.foldl fun _ _ h₁ => .ite h₁ h₁.zwkRun).tellHeld

theorem State.formOk.lateHere {s : State} (h : s.formOk) {round : ℕ} : (s.lateHere round).formOk :=
  .ite h h.finc.event.setZwk

theorem State.formOk.zwkIssue {s : State} (h : s.formOk) {n : ℕ} {p : ℕ → Bool} : (s.zwkIssue n p).formOk := by
  unfold State.zwkIssue
  dsimp only
  refine h.onCore fun _ _ h₁ => ?_
  split
  · exact h₁
  · split
    · exact h₁.issueDone
    · refine State.formOk.ite ?_ ?_
      · split
        · exact h₁.issueDone
        · exact h₁.issue.zwkAll
      · refine .ite h₁.locRead.issueDone ?_
        refine .ite h₁.locRead.issueDone ?_
        split
        · exact h₁.locRead.issueDone
        · exact .zwkAll (.issue (.thenOp (fun hu => hu.lateHere) h₁.locRead.setZwk))

theorem State.formOk.rxFrame {s : State} (h : s.formOk) {n : ℕ} {bs : List Byte} : (s.rxFrame n bs).1.formOk := by
  unfold State.rxFrame
  split
  · exact h
  · split
    · exact h.countFrame
    · exact h.countFrame

theorem State.formOk.rxPackets {s : State} (h : s.formOk) {ps : List Arrival} : (s.rxPackets ps).1.formOk := by
  unfold State.rxPackets
  dsimp only
  split
  · exact h
  · refine .foldlOf Prod.fst h fun _ _ h₁ => ?_
    split
    · exact h₁.turnAway ‹_›
    · exact h₁.respond

theorem State.formOk.receive {s : State} (h : s.formOk) {x : ParcelIn} : (s.receive x).1.formOk := by
  unfold State.receive
  split
  · exact h.rxFrame
  · exact h.rxPackets

theorem State.formOk.onward {s : State} (h : s.formOk) {p : ParcelIn} {x : Parcel} : (s.onward p x).formOk := by
  refine .ite h ?_
  refine .ite h.fabricParcel ?_
  split
  · exact h
  · exact h.siteSend

theorem State.formOk.arriveParcel {s : State} (h : s.formOk) {p : ParcelIn} : (s.arriveParcel p).1.formOk := by
  unfold State.arriveParcel
  split
  · exact .ofFst ‹_› h.receive
  · split
    · exact .ofFst ‹_› h.receive
    · split
      · exact .ofFst ‹_› h.receive
      · exact .onward (.ofFst ‹_› h.receive)

theorem State.formOk.parcelKey {s : State} (hs : s.formOk) {h : ParcelHdr} : (s.parcelKey h).1.formOk := by
  unfold State.parcelKey
  split
  · exact hs
  · split
    · exact hs.finc
    · exact hs

theorem State.formOk.parcelBad {s : State} (hs : s.formOk) {h : ParcelHdr} : (s.parcelBad h).formOk :=
  hs.untrust.finc.event

theorem State.formOk.parcelGood {s : State} (hs : s.formOk) {h : ParcelHdr} {slot : ℕ} :
    (s.parcelGood h slot).formOk := by
  unfold State.parcelGood
  dsimp only
  exact .elseOp (fun hu => hu.toConv) (.ite hs.windowAccept.timed.setConv hs.windowAccept.timed)

theorem State.formOk.openParcel {s : State} (h : s.formOk) {x : Parcel} : (s.openParcel x).1.formOk := by
  unfold State.openParcel
  dsimp only
  split
  · exact .ofFst ‹_› h.parcelKey
  · split
    · exact .ofFst ‹_› (.invoke (.ofFst ‹_› h.parcelKey))
    · split
      · exact .parcelGood (.ofFst ‹_› (.invoke (.ofFst ‹_› h.parcelKey)))
      · split
        · exact .parcelGood (.ofFst ‹_› (.invoke (.ofFst ‹_› h.parcelKey)))
        · exact .parcelBad (.ofFst ‹_› (.invoke (.ofFst ‹_› h.parcelKey)))

theorem State.formOk.streamStep {s : State} (hs : s.formOk) {h : ParcelHdr} : (s.streamStep h).formOk := by
  unfold State.streamStep
  dsimp only
  split
  · exact hs
  · exact .zwkAll (.ite hs.modIn.sendPeer hs)

theorem State.formOk.parcel {s : State} (h : s.formOk) {p : ParcelIn} {kind : ℕ} : (s.parcel p kind).formOk := by
  unfold State.parcel
  split
  · exact .ofFst ‹_› h.arriveParcel
  · refine .elseOp (fun hu => ?_) (.ofFst ‹_› h.arriveParcel)
    split
    · exact .streamStep (.putParcel (.ofFst ‹_› hu.openParcel))
    · exact .ofFst ‹_› hu.openParcel

theorem State.formOk.ctrl {s : State} (h : s.formOk) {p : CtrlIn} {act : ParcelHdr → State → State}
    (hact : ∀ x0 t, t.formOk → (act x0 t).formOk) : (s.ctrl p act).formOk := by
  unfold State.ctrl
  split
  · exact .ofFst ‹_› h.arriveParcel
  · refine .elseOp (fun hu => ?_) (.ofFst ‹_› h.arriveParcel)
    split
    · exact .thenOp (fun hv => hact _ _ hv) (.ofFst ‹_› hu.openParcel)
    · exact .ofFst ‹_› hu.openParcel

theorem State.formOk.resend {s : State} (h : s.formOk) {x : StreamOut} {site g : ℕ} {ts : List ℕ} :
    (s.resend x site g ts).formOk := .ite h (h.foldl fun _ _ h₁ => h₁.sendOne)

theorem State.formOk.nak {s : State} (hs : s.formOk) {h : ParcelHdr} {g bitmap : ℕ} : (s.nak h g bitmap).formOk := by
  unfold State.nak
  split
  · exact hs.resend.finc
  · exact hs

theorem State.formOk.report {s : State} (hs : s.formOk) {h : ParcelHdr} {r : Ranges} : (s.report h r).formOk := by
  unfold State.report
  dsimp only
  split
  · exact hs
  · refine .ite ?_ (.ite hs hs.modOut.zwkAll)
    refine .ite ?_ (hs.foldl fun _ _ h₁ => h₁.sendGroup)
    split
    · exact hs.setZwk.complete.zwkAll
    · exact hs.setZwk

theorem State.formOk.finalIn {s : State} (hs : s.formOk) {h : ParcelHdr} {r : Ranges} : (s.finalIn h r).formOk :=
  hs.newStream.modIn.zwkAll

theorem State.formOk.switchKeys {s : State} (h : s.formOk) {e : ℕ} : (s.switchKeys e).formOk :=
  h.foldl fun _ _ h₁ => .ite h₁ (.ite h₁.setZwk.fset h₁.fset.event)

theorem State.formOk.setEpoch {s : State} (h : s.formOk) {e m enrolled st fork : ℕ} :
    (s.setEpoch e m enrolled st fork).formOk := .ite h.setReg.setReg.setReg.event.switchKeys h.setReg.setReg.setReg

theorem State.formOk.prune {s : State} (h : s.formOk) : s.prune.formOk := h.setZwk

theorem State.formOk.serveObservers {s : State} (h : s.formOk) {d : Decision} : (s.serveObservers d).formOk := by
  refine h.foldl fun _ _ h₁ => ?_
  refine h₁.modOut.foldl fun _ _ h₂ => ?_
  split
  · exact (h₂.foldl fun _ _ h₃ => h₃.sendGroup).sendPeer
  · exact h₂.foldl fun _ _ h₃ => h₃.sendGroup

theorem State.formOk.commitHere {s : State} (h : s.formOk) {d : Decision} : (s.commitHere d).formOk := by
  refine .ite h.setZwk.zwkAll ?_
  refine State.formOk.prune ?_
  refine State.formOk.zwkAll ?_
  refine State.formOk.serveObservers (State.formOk.setZwk (.foldl ?_ fun _ _ h₁ => .ite h₁.finc.event h₁))
  exact .thenOp (fun hu => hu.lateHere) (.event (.setReg (.ite h.setEpoch h)))

/-! ### Operations of Machine/Convener.lean -/

theorem State.formOk.sendHave {s : State} (h : s.formOk) {r : ℕ} : (s.sendHave r).formOk := .ite h.setConv h.sendConv

theorem State.formOk.tellModules {s : State} (h : s.formOk) {b : ConvBody} : (s.tellModules b).formOk :=
  h.foldl fun _ _ h₁ => h₁.convMsg

theorem State.formOk.tellEpoch {s : State} (h : s.formOk) : s.tellEpoch.formOk := h.setZwk.tellModules

theorem State.formOk.dack {s : State} (h : s.formOk) {d : Decision} : (s.dack d).formOk :=
  .ite h (.ite h.setConv h.sendConv)

theorem State.formOk.convCommit {s : State} (h : s.formOk) {d : Decision} : (s.convCommit d).formOk := by
  unfold State.convCommit
  dsimp only
  split
  · exact h.setConv.commitHere.tellModules.dack
  · exact h.setConv.commitHere.tellModules

theorem State.formOk.commitTo {s : State} (h : s.formOk) {fuel base : ℕ} : (s.commitTo fuel base).formOk := by
  induction fuel generalizing s with
  | zero => exact h
  | succ fuel ih =>
    unfold State.commitTo
    split
    · exact h
    · split
      · exact ih h.convCommit
      · exact h

theorem State.formOk.decide_ {s : State} (h : s.formOk) {d : Decision} {by_ : List (ℕ × ℕ × ℕ)} :
    (s.decide_ d by_).formOk := h.setConv.sendSites.dack

theorem State.formOk.closeRound {s : State} (h : s.formOk) : s.closeRound.formOk := .ite h h.setConv.decide_

theorem State.formOk.voidLate {s : State} (h : s.formOk) {ds : List Decision} : (s.voidLate ds).formOk :=
  h.setConv.foldl fun _ _ h₁ => h₁.lateHere.tellModules

theorem State.formOk.adoptEpoch {s : State} (h : s.formOk) {e m base : ℕ} : (s.adoptEpoch e m base).formOk :=
  h.commitTo.voidLate.setConv.setEpoch.tellEpoch.zwkAll

theorem State.formOk.newEpoch {s : State} (h : s.formOk) {m : ℕ} : (s.newEpoch m).formOk := h.sendSites.adoptEpoch

theorem State.formOk.epochIn {s : State} (h : s.formOk) {src e m base : ℕ} : (s.epochIn src e m base).formOk :=
  .ite h h.adoptEpoch

theorem State.formOk.lose {s : State} (h : s.formOk) {site : ℕ} : (s.lose site).formOk := by
  refine .ite h.setConv ?_
  refine .ite h.setConv.newEpoch ?_
  exact .ite (.thenOp (fun hu => hu.newEpoch) (.ite h.setConv.setEpoch.tellEpoch h.setConv)) h.setConv

theorem State.formOk.fixup {s : State} (h : s.formOk) {otherFork : ℕ} : (s.fixup otherFork).formOk := by
  refine .ite h ?_
  refine .ite h ?_
  split
  · exact h.commitHere.tellModules
  · exact h

theorem State.formOk.enterRejoin {s : State} (h : s.formOk) : s.enterRejoin.formOk :=
  .tellEpoch (.setConv (.setEpoch (.ite h.closeRound h)))

theorem State.formOk.sendReady {s : State} (h : s.formOk) {last : ℕ} : (s.sendReady last).formOk := h.sendConv

theorem State.formOk.convStep {s : State} (h : s.formOk) : s.convStep.formOk := by
  refine .ite (.ite h.setConv.sendReady h) ?_
  refine .ite h.setConv.sendHave ?_
  split
  · exact .ite h.sendSites.convCommit h
  · refine .ite ?_ (.ite h.setConv.newEpoch (.ite h.closeRound h))
    split
    · exact h
    · exact .ite h.setConv.sendConv (.ite h.decide_ h)

theorem State.formOk.convSettle {s : State} (h : s.formOk) : s.convSettle.formOk :=
  .ite (h.foldl fun _ _ h₁ => h₁.convStep) h

theorem State.formOk.sendJoin {s : State} (h : s.formOk) : s.sendJoin.formOk := h.sendConv

theorem State.formOk.zEnable {s : State} (h : s.formOk) : s.zEnable.formOk :=
  .ite (.ite h.fset.sendJoin h.fset) h.setReg.fset

theorem State.formOk.zwkSend {s : State} (h : s.formOk) {n : CoreId} : (Machine.zwkSend n s).formOk :=
  h.zwkIssue.convSettle

theorem State.formOk.zwkCollect {s : State} (h : s.formOk) {n : CoreId} : (Machine.zwkCollect n s).formOk :=
  h.zwkIssue.convSettle

theorem State.formOk.zwkSnapSend {s : State} (h : s.formOk) {n : CoreId} : (Machine.zwkSnapSend n s).formOk :=
  h.zwkIssue.convSettle

theorem State.formOk.zwkSnapRecv {s : State} (h : s.formOk) {n : CoreId} : (Machine.zwkSnapRecv n s).formOk :=
  h.zwkIssue.convSettle

theorem State.formOk.zwkCatchup {s : State} (h : s.formOk) {n : CoreId} : (Machine.zwkCatchup n s).formOk :=
  h.zwkIssue.convSettle

theorem State.formOk.dataParcel {s : State} (h : s.formOk) {p : ParcelIn} : (Machine.dataParcel p s).formOk :=
  h.parcel.convSettle

theorem State.formOk.parityParcel {s : State} (h : s.formOk) {p : ParcelIn} : (Machine.parityParcel p s).formOk :=
  h.parcel.convSettle

theorem State.formOk.frameDrop {s : State} (h : s.formOk) {f : FrameIn} : (Machine.frameDrop f s).formOk := by
  unfold Machine.frameDrop
  split
  · exact .ofFst ‹_› h.rxFrame
  · exact h

theorem State.formOk.zwkNak {s : State} (h : s.formOk) {p : CtrlIn} : (Machine.zwkNak p s).formOk := by
  unfold Machine.zwkNak
  split
  · exact (h.ctrl (fun _ _ h₁ => h₁.nak)).convSettle
  · exact h

theorem State.formOk.completeCmd {s : State} (h : s.formOk) {p : CtrlIn} : (Machine.complete p s).formOk := by
  unfold Machine.complete
  split
  · exact (h.ctrl (fun _ _ h₁ => h₁.report)).convSettle
  · exact h

theorem State.formOk.missing {s : State} (h : s.formOk) {p : CtrlIn} : (Machine.missing p s).formOk := by
  unfold Machine.missing
  split
  · exact (h.ctrl (fun _ _ h₁ => h₁.report)).convSettle
  · exact h

theorem State.formOk.finalMsg {s : State} (h : s.formOk) {p : CtrlIn} : (Machine.finalMsg p s).formOk := by
  unfold Machine.finalMsg
  split
  · exact (h.ctrl (fun _ _ h₁ => h₁.finalIn)).convSettle
  · exact h

theorem State.formOk.ping {s : State} (h : s.formOk) {p : CtrlIn} : (Machine.ping p s).formOk := by
  unfold Machine.ping
  split
  · exact (h.ctrl (fun _ _ h₁ => h₁)).convSettle
  · exact h

theorem State.formOk.noteCopy {s : State} (hs : s.formOk) {h : ParcelHdr} {b : ZCtrl} : (s.noteCopy h b).formOk :=
  hs.setZwk

theorem State.formOk.convCtrl {s : State} (h : s.formOk) {p : CtrlIn} {act : ParcelHdr → State → State}
    (hact : ∀ x0 t, t.formOk → (act x0 t).formOk) :
    (s.convCtrl p act).formOk := (h.ctrl fun _ _ h₁ => .ite h₁ (hact _ _ h₁.noteCopy)).convSettle

theorem State.formOk.haveMsg {s : State} (h : s.formOk) {p : CtrlIn} : (Machine.haveMsg p s).formOk := by
  unfold Machine.haveMsg
  split
  · exact h.convCtrl (fun _ _ h₁ => h₁.setConv)
  · exact h

theorem State.formOk.takeDecision {s : State} (h : s.formOk) {src : ℕ} {d : Decision} :
    (s.takeDecision src d).formOk :=
  .ite h h.setConv.dack

theorem State.formOk.zwkDecide {s : State} (h : s.formOk) {p : CtrlIn} : (Machine.zwkDecide p s).formOk := by
  unfold Machine.zwkDecide
  split
  · exact h.convCtrl (fun _ _ h₁ => h₁.takeDecision)
  · exact h

theorem State.formOk.takeDack {s : State} (h : s.formOk) {src r : ℕ} : (s.takeDack src r).formOk := by
  unfold State.takeDack
  split
  · exact .ite h.setConv h
  · exact h

theorem State.formOk.dackCmd {s : State} (h : s.formOk) {p : CtrlIn} : (Machine.dack p s).formOk := by
  unfold Machine.dack
  split
  · exact h.convCtrl (fun _ _ h₁ => h₁.takeDack)
  · exact h

theorem State.formOk.takeCommit {s : State} (h : s.formOk) {src r : ℕ} : (s.takeCommit src r).formOk := by
  unfold State.takeCommit
  split
  · exact h.convCommit
  · exact h

theorem State.formOk.zwkCommit {s : State} (h : s.formOk) {p : CtrlIn} : (Machine.zwkCommit p s).formOk := by
  unfold Machine.zwkCommit
  split
  · exact h.convCtrl (fun _ _ h₁ => h₁.takeCommit)
  · exact h

theorem State.formOk.takeBeat {s : State} (h : s.formOk) {b : Beat} : (s.takeBeat b).formOk :=
  .thenOp (fun hu => hu.fixup) (.thenOp (fun hu => hu.tellEpoch) (.ite h.setConv.enterRejoin h.setConv))

theorem State.formOk.beat {s : State} (h : s.formOk) {p : CtrlIn} : (Machine.beat p s).formOk := by
  unfold Machine.beat
  split
  · exact h.convCtrl (fun _ _ h₁ => h₁.takeBeat)
  · exact h

theorem State.formOk.newepoch {s : State} (h : s.formOk) {p : CtrlIn} : (Machine.newepoch p s).formOk := by
  unfold Machine.newepoch
  split
  · exact h.convCtrl (fun _ _ h₁ => h₁.epochIn)
  · exact h

theorem State.formOk.takeLedger {s : State} (h : s.formOk) {src f r n : ℕ} : (s.takeLedger src f r n).formOk :=
  .ite h (.fixup (.setConv (.ite h.enterRejoin h)))

theorem State.formOk.ledger {s : State} (h : s.formOk) {p : CtrlIn} : (Machine.ledger p s).formOk := by
  unfold Machine.ledger
  split
  · exact h.convCtrl (fun _ _ h₁ => h₁.takeLedger)
  · exact h

theorem State.formOk.toDecider {s : State} (h : s.formOk) {round : ℕ} {b : ZCtrl} : (s.toDecider round b).formOk :=
  .ite h h.sendConv

theorem State.formOk.takeJoin {s : State} (h : s.formOk) {x : ℕ} : (s.takeJoin x).formOk :=
  .ite h.toDecider (.ite h.sendConv (.ite h h.setConv))

theorem State.formOk.zwkJoin {s : State} (h : s.formOk) {p : CtrlIn} : (Machine.zwkJoin p s).formOk := by
  unfold Machine.zwkJoin
  split
  · exact h.convCtrl (fun _ _ h₁ => h₁.takeJoin)
  · exact h

theorem State.formOk.takeReady {s : State} (h : s.formOk) {x r : ℕ} : (s.takeReady x r).formOk :=
  .ite h.toDecider (.ite h.newEpoch h)

theorem State.formOk.ready {s : State} (h : s.formOk) {p : CtrlIn} : (Machine.ready p s).formOk := by
  unfold Machine.ready
  split
  · exact h.convCtrl (fun _ _ h₁ => h₁.takeReady)
  · exact h

theorem State.formOk.nakTimeout {s : State} (h : s.formOk) {site : Fin 16} {core : CoreId} {skind : Fin 4}
    {round group : ℕ} : (Machine.nakTimeout site core skind round group s).formOk := by
  unfold Machine.nakTimeout
  dsimp only
  split
  · exact h
  · split
    · exact h
    · exact .ite h h.sendPeer

theorem State.formOk.missingTime {s : State} (h : s.formOk) {site : Fin 16} {core : CoreId} {skind : Fin 4}
    {round : ℕ} : (Machine.missingTime site core skind round s).formOk := by
  unfold Machine.missingTime
  split
  · exact h
  · exact .ite h h.modIn.sendPeer

theorem State.formOk.finalTime {s : State} (h : s.formOk) {n : CoreId} : (Machine.finalTime n s).formOk := by
  refine .convSettle ?_
  refine h.onCore fun _ _ h₁ => ?_
  split
  · exact h₁.finishSend.zwkAll
  · exact h₁

theorem State.formOk.haveTime {s : State} (h : s.formOk) : (Machine.haveTime s).formOk := .ite h.sendHave.convSettle h

theorem State.formOk.roundClose {s : State} (h : s.formOk) : (Machine.roundClose s).formOk :=
  .ite h.closeRound.convSettle h

theorem State.formOk.zwkDecideResend {s : State} (h : s.formOk) : (Machine.zwkDecideResend s).formOk := by
  unfold Machine.zwkDecideResend
  split
  · exact .ite (h.foldl fun _ _ h₁ => .ite h₁ h₁.sendConv) h
  · exact h

theorem State.formOk.pingTimer {s : State} (h : s.formOk) : (Machine.pingTimer s).formOk :=
  .ite h (h.foldl fun _ _ h₁ => .ite h₁ (h₁.foldl fun _ _ h₂ => h₂.sendCtrl1))

theorem State.formOk.beatTimer {s : State} (h : s.formOk) : (Machine.beatTimer s).formOk := .ite h.sendSites h

theorem State.formOk.unreachable {s : State} (h : s.formOk) {site : Fin 16} : (Machine.unreachable site s).formOk :=
  .ite h.lose.convSettle h

theorem State.formOk.rejoinHold {s : State} (h : s.formOk) {site : Fin 16} : (Machine.rejoinHold site s).formOk :=
  .ite (.ite h.enterRejoin.convSettle h.toDecider) h

theorem State.formOk.rejoinTimeout {s : State} (h : s.formOk) : (Machine.rejoinTimeout s).formOk :=
  .ite h (.ite h.newEpoch.convSettle h.adoptEpoch.convSettle)

theorem State.formOk.joinRetry {s : State} (h : s.formOk) : (Machine.joinRetry s).formOk := by
  refine .ite ?_ h
  split
  · exact h.sendJoin.sendReady
  · exact h.sendJoin

theorem State.formOk.snapTimeout {s : State} (h : s.formOk) {n : CoreId} : (Machine.snapTimeout n s).formOk := by
  refine .convSettle ?_
  refine h.onCore fun _ _ h₁ => ?_
  split
  · exact .ite h₁.setZwk.complete.zwkAll h₁
  · exact h₁

theorem State.formOk.convenerMsg {s : State} (h : s.formOk) {m : ConvIn} : (Machine.convenerMsg m s).formOk := by
  refine .ite h ?_
  split
  · exact h.turnAway ‹_›
  · refine .ite h.respond ?_
    refine .ite h.respond.setConv.convSettle ?_
    refine .ite h.respond ?_
    split
    · exact h.respond.commitHere
    · exact h.respond.setZwk.setEpoch.zwkAll
    · exact h.respond.lateHere
    · exact h.respond

/-! ### Operations of Machine/Power.lean -/

theorem State.formOk.setP {s : State} (h : s.formOk) {n : ℕ} : (s.setP n).formOk := .ite h h.fset.event

theorem State.formOk.pwrUpdate {s : State} (h : s.formOk) : s.pwrUpdate.formOk :=
  .ite (.ite h.setP h) (.ite (.ite h.setP h) h)

theorem State.formOk.setDuty {s : State} (h : s.formOk) {d : ℕ} : (s.setDuty d).formOk :=
  .pwrUpdate (.ite h.fset.event h.fset)

theorem State.formOk.cutDuty {s : State} (h : s.formOk) {d : ℕ} : (s.cutDuty d).formOk := .ite h.setDuty h.pwrUpdate

theorem State.formOk.enterP2 {s : State} (h : s.formOk) : s.enterP2.formOk := .ite h.setP h

theorem State.formOk.leaveP2 {s : State} (h : s.formOk) : s.leaveP2.formOk := .ite h.setP h

theorem State.formOk.powerTick {s : State} (h : s.formOk) {peak avg mj : ℕ} :
    (Machine.powerTick peak avg mj s).formOk :=
  .ite h (.ite (.ite h.fset.fset.inc64.cutDuty.withPwr h.fset.fset.inc64.cutDuty) h.fset.fset.inc64)

theorem State.formOk.dutyStep {s : State} (h : s.formOk) : (Machine.dutyStep s).formOk :=
  .ite h (.ite h.setDuty (.ite h.setDuty h))

theorem State.formOk.setAck {s : State} (h : s.formOk) {n : ℕ} : (s.setAck n).formOk := h.fset

theorem State.formOk.throttleAssert {s : State} (h : s.formOk) : (Machine.throttleAssert s).formOk :=
  .ite h (.ite h.fset.setAck (.ite (.setAck (.event (.cutDuty h.fset.same))) (.event (.cutDuty h.fset.same))))

theorem State.formOk.throttleAck {s : State} (h : s.formOk) : (Machine.throttleAck s).formOk := .ite h.setAck h

theorem State.formOk.throttleCheck {s : State} (h : s.formOk) : (Machine.throttleCheck s).formOk :=
  .ite h (.ite h.setDuty (.ite h.cutDuty h))

theorem State.formOk.throttleRelease {s : State} (h : s.formOk) : (Machine.throttleRelease s).formOk :=
  .ite h h.fset.setAck.withPwr.pwrUpdate

theorem State.formOk.throttleRamp {s : State} (h : s.formOk) : (Machine.throttleRamp s).formOk :=
  .ite h (.setDuty h.same)

theorem State.formOk.thrLong {s : State} (h : s.formOk) : (Machine.thrLong s).formOk := .ite (.event h.same) h

theorem State.formOk.sensor {s : State} (h : s.formOk) {n : ℕ} {t : ℤ} : (s.sensor n t).formOk :=
  .ite (.fset (.ite (.fset h.same) h.same)) (.event (.fset h.same))

theorem State.formOk.dieTemp {s : State} (h : s.formOk) {n : ℕ} {old t : ℤ} : (s.dieTemp n old t).formOk :=
  .ite (.ite h.withPwr h.withPwr.event) (.ite (.event (.withPwr (.ite h.withPwr h))) (.withPwr (.ite h.withPwr h)))

theorem State.formOk.ioTemp {s : State} (h : s.formOk) {t : ℤ} : (s.ioTemp t).formOk := .pwrUpdate h

theorem State.formOk.dieTempRead {s : State} (h : s.formOk) {ts : List ℤ} : (Machine.dieTempRead ts s).formOk := by
  refine .ite h ?_
  refine h.foldl fun _ _ h₁ => ?_
  refine .ite h₁ ?_
  exact .ite h₁.sensor (.ite h₁.sensor.logEvent.fatal (.ite h₁.sensor.ioTemp h₁.sensor.dieTemp))

theorem State.formOk.voltageSample {s : State} (h : s.formOk) {mv i10 : ℕ} :
    (Machine.voltageSample mv i10 s).formOk := by
  refine .ite h (.ite ?_ (.pwrUpdate (.thenOp (fun hu => hu.event) h.fset.fset.withPwr)))
  exact .fatal (.elseOp (fun hu => hu.logEvent) (.pwrUpdate (.thenOp (fun hu => hu.event) h.fset.fset.withPwr)))

theorem State.formOk.railFault {s : State} (h : s.formOk) {rail mv : ℕ} : (Machine.railFault rail mv s).formOk :=
  .ite h h.logEvent.fatal

theorem State.formOk.pllUnlock {s : State} (h : s.formOk) {pll : Fin 15} : (Machine.pllUnlock pll s).formOk :=
  .ite h h.logEvent.fatal

theorem State.formOk.pwrOkLow {s : State} (h : s.formOk) : (Machine.pwrOkLow s).formOk := .ite h (.fatal h)

theorem State.formOk.refclkWindow {s : State} (h : s.formOk) {hz : ℕ} : (Machine.refclkWindow hz s).formOk :=
  .ite h (.ite h.fset.withPwr (.ite h.fset.finc.withPwr.event.logEvent.fset.event.refreshDeg h.fset.finc.withPwr))

theorem State.formOk.request3 {s : State} (h : s.formOk) : s.request3.formOk := .ite h h

theorem State.formOk.reqWritten {s : State} (h : s.formOk) {r : ℕ} : (s.reqWritten r).formOk := by
  unfold State.reqWritten
  dsimp only
  split
  · exact h.enterP2
  · exact .ite h.request3 h
  · exact .ite h.toP4 h
  · exact h

theorem State.formOk.idleTimeout {s : State} (h : s.formOk) : (Machine.idleTimeout s).formOk := .ite h.enterP2 h

theorem State.formOk.p3Entry {s : State} (h : s.formOk) : (Machine.p3Entry s).formOk := by
  unfold Machine.p3Entry
  split
  · exact h
  · extract_lets keep t held dbg ctl sr thr cls u v sec pwr time boot w x y
    have ht : t.formOk := .ite h h.eraseSlots
    have hu : u.formOk := ht.lostSp.foldl fun _ _ hu => hu.setHbmc
    have hv : v.formOk := hu.loseVolatile
    clear_value v
    have hw : w.formOk := hv.others
    clear_value w
    have hy : y.formOk := .thenOp (fun hx => hx.fset.setAck) hw.fset.fset
    exact hy.finc

theorem State.formOk.p3Timeout {s : State} (h : s.formOk) : (Machine.p3Timeout s).formOk :=
  .ite h (.event (.newNonce h.fset.same))

/-! ### Operations of Machine/TimeUnit.lean -/

theorem State.formOk.setTimeState {s : State} (h : s.formOk) {n : ℕ} : (s.setTimeState n).formOk := h.fset

theorem State.formOk.setPair64 {s : State} (h : s.formOk) {a v : ℕ} : (s.setPair64 a v).formOk := h.setReg.setReg

theorem State.formOk.startSlew {s : State} (h : s.formOk) {e : ℤ} {cycles : ℕ} : (s.startSlew e cycles).formOk := h

theorem State.formOk.tick {s : State} (h : s.formOk) : s.tick.formOk := .ite h (.ite h.setPair64 (.setPair64 h))

theorem State.formOk.idle {s : State} (h : s.formOk) : s.idle.formOk := .ite h (.ite h.tick.enterP2 h.tick)

theorem State.formOk.discipline {s : State} (h : s.formOk) {t e0 : ℕ} : (s.discipline t e0).formOk :=
  h.setPair64.setReg.setReg.finc.fset.startSlew.withTime

theorem State.formOk.ppsPulse {s : State} (h : s.formOk) {high : ℕ} : (Machine.ppsPulse high s).formOk := by
  unfold Machine.ppsPulse
  split
  · exact h
  · dsimp only
    split
    · exact h.setPair64.setPair64.fset.fset.withTime.setTimeState.event
    · split
      · exact .ite h.setReg.setPair64.startSlew.withTime.setTimeState.event h.setTimeState.event
      · exact .ite (.ite (.ite h.discipline.setTimeState.event h.discipline) h) h

theorem State.formOk.slotEnd {s : State} (h : s.formOk) : (Machine.slotEnd s).formOk :=
  .ite h (.ite (.finc h.same) (.ite (.event (.fset (.finc h.same))) (.event (.setTimeState (.fset (.finc h.same))))))

theorem State.formOk.acquireTimeout {s : State} (h : s.formOk) : (Machine.acquireTimeout s).formOk :=
  .ite h.setTimeState.event h

theorem State.formOk.ppsEcho {s : State} (h : s.formOk) : (Machine.ppsEcho s).formOk := .ite h.send h

/-! ### Operations of Machine/Hbm.lean -/

theorem State.formOk.hbmRefresh {s : State} (h : s.formOk) {n : HbmId} : (Machine.hbmRefresh n s).formOk :=
  .ite h.modHbmc h

theorem State.formOk.patrolScrub {s : State} (h : s.formOk) {n : HbmId} {hbm : List HbmHit} {sp : List SpHit} :
    (Machine.patrolScrub n hbm sp s).formOk := by
  have h₁ : ({ s with mem := sp.foldl Mem.takeSp (hbm.foldl Mem.takeHbm s.mem) } : State).formOk :=
    h.withMem (Mem.wf_takeAll h.mem hbm sp)
  unfold Machine.patrolScrub
  generalize ({ s with mem := sp.foldl Mem.takeSp (hbm.foldl Mem.takeHbm s.mem) } : State) = t at *
  dsimp only
  split
  · exact h₁
  · split
    · exact h₁
    · exact .ite h₁ ((h₁.modHbmc.foldl fun _ _ ht => ht.healed.hbmCe).foldl fun _ _ ht => ht.hbmUe)

theorem State.formOk.hbmTempRead {s : State} (h : s.formOk) {n : HbmId} {t : ℤ} :
    (Machine.hbmTempRead n t s).formOk := by
  refine .ite h ?_
  exact .ite (.thenOp (fun hu => .ite hu.event.event hu.event) h.setHbmc.fset.fset) h.setHbmc.fset.event

theorem State.formOk.pendPc {s : State} (h : s.formOk) {n pc : ℕ} : (s.pendPc n pc).formOk := h.setReg.event

theorem State.formOk.softPpr {s : State} (h : s.formOk) {n : HbmId} {spare : Bool} :
    (Machine.softPpr n spare s).formOk := by
  unfold Machine.softPpr
  dsimp only
  split
  · exact h
  · exact .ite h (.ite h.logRepair.setHbmc h.setHbmc.finc.event.pendPc)

theorem State.formOk.spprEnd {s : State} (h : s.formOk) {n : ℕ} : (s.spprEnd n).formOk := by
  unfold State.spprEnd
  dsimp only
  split
  · exact h
  · exact .event (.finc (.setHbmc h.same))

theorem State.formOk.hbmFail {s : State} (h : s.formOk) {n old : ℕ} : (s.hbmFail n old).formOk :=
  h.modHbmc.event.logEvent.refreshDeg

theorem State.formOk.stackNoAnswer {s : State} (h : s.formOk) {n : HbmId} : (Machine.stackNoAnswer n s).formOk :=
  .ite h.hbmFail h

theorem State.formOk.pcSelfRefresh {s : State} (h : s.formOk) {n : HbmId} {pc : Fin 32} :
    (Machine.pcSelfRefresh n pc s).formOk := .ite h.modHbmc h

theorem State.formOk.trained {s : State} (h : s.formOk) {n : ℕ} {ok : Bool} : (s.trained n ok).formOk :=
  .ite h (.ite h.setHbmc (.ite h.hbmFail h.setHbmc))

theorem State.formOk.hbmTrainingDone {s : State} (h : s.formOk) {n : HbmId} {ok : Bool} :
    (Machine.hbmTrainingDone n ok s).formOk := h.trained

theorem State.formOk.rebuildMap {s : State} (h : s.formOk) {d : ℕ} : (s.rebuildMap d).formOk :=
  State.formOk.refreshDeg (((h.foldl fun _ _ ht =>
    (ht.foldl fun _ _ hu => .ite hu.logRepair hu).setReg.setReg.modHbmc).wiped).foldl fun _ _ ht => ht.event)

theorem State.formOk.mapRebuild {s : State} (h : s.formOk) {d : DieId} : (Machine.mapRebuild d s).formOk := by
  unfold Machine.mapRebuild
  dsimp only
  split
  · exact .ite h.rebuildMap h
  · exact h

/-! ### Operations of Machine/Links.lean -/

theorem State.formOk.setFp {s : State} (h : s.formOk) {n st : ℕ} : (s.setFp n st).formOk :=
  .ite h h.fset.event.refreshDeg

theorem State.formOk.fpFail {s : State} (h : s.formOk) {n good : ℕ} : (s.fpFail n good).formOk :=
  h.setLink.logEvent.fset.fset.fset.setFp

theorem State.formOk.fpTrained {s : State} (h : s.formOk) {n : ℕ} {t : TrainResult} : (s.fpTrained n t).formOk := by
  unfold State.fpTrained
  dsimp only
  split
  · exact h.fpFail
  · exact h.fset.fset.fset.setReg.setFp.replayAll

theorem State.formOk.fpCtrl {s : State} (h : s.formOk) {n en : ℕ} : (s.fpCtrl n en).formOk :=
  .ite h.fset.fset.setFp.send (.ite h.setLink.fset.fset.fset.setFp h)

theorem State.formOk.portTraining {s : State} (h : s.formOk) {n : FpId} {t : TrainResult} :
    (Machine.portTraining n t s).formOk := .ite h.fpTrained h

theorem State.formOk.trainingTimeout {s : State} (h : s.formOk) {n : FpId} : (Machine.trainingTimeout n s).formOk :=
  .ite h.fpFail h

theorem State.formOk.laneFailure {s : State} (h : s.formOk) {n : FpId} {lane : Fin 9} :
    (Machine.laneFailure n lane s).formOk := .ite h h.logRepair.fset.fset.finc.setFp

theorem State.formOk.retrainDone {s : State} (h : s.formOk) {n : FpId} {t : TrainResult} :
    (Machine.retrainDone n t s).formOk := .ite h.fpTrained h

theorem State.formOk.retrainTimeout {s : State} (h : s.formOk) {n : FpId} : (Machine.retrainTimeout n s).formOk :=
  .ite h.fpFail h

theorem State.formOk.setSite {s : State} (h : s.formOk) {n st rate : ℕ} : (s.setSite n st rate).formOk :=
  .ite h.fset.fset h.fset.fset.event.refreshDeg

theorem State.formOk.siteCtrl {s : State} (h : s.formOk) {n en : ℕ} : (s.siteCtrl n en).formOk :=
  .ite h.setSite (.ite h.setSite h)

theorem State.formOk.siteLinkUp {s : State} (h : s.formOk) {n : SiteId} {rate : Fin 4} :
    (Machine.siteLinkUp n rate s).formOk := .ite h.setSite h

theorem State.formOk.siteLinkFailed {s : State} (h : s.formOk) {n : SiteId} : (Machine.siteLinkFailed n s).formOk :=
  .ite h.setSite h

theorem State.formOk.setHostLink {s : State} (h : s.formOk) {p : HostPort} {l : HostLink} :
    (s.setHostLink p l).formOk := .ite h h.setReg.event.refreshDeg

theorem State.formOk.hostLinkChange {s : State} (h : s.formOk) {p : HostPort} {l : HostLink} :
    (Machine.hostLinkChange p l s).formOk := .ite h h.setHostLink

/-! ### Operations of Machine/Sparing.lean -/

theorem State.formOk.spareResult {s : State} (h : s.formOk) {op status reason : ℕ} :
    (s.spareResult op status reason).formOk := h.setReg.event

theorem State.formOk.spareOp {s : State} (h : s.formOk) {v : Word} : (s.spareOp v).formOk := by
  unfold State.spareOp
  dsimp only
  split
  · split
    · exact h.spareResult
    · refine .ite h.spareResult ?_
      split
      · exact h.spareResult
      · exact h.logRepair.setReg
  · split
    · exact h.spareResult
    · exact .ite h.spareResult (.ite h.spareResult (.setReg h.logRepair))
  · exact .ite h.spareResult (.ite h.spareResult (.setReg h))
  · exact h.spareResult

theorem State.formOk.writeSpareOp {s : State} (h : s.formOk) {v : Word} : (s.writeSpareOp v).formOk :=
  .ite h h.spareOp

theorem State.formOk.copyCoreRegs {s : State} (h : s.formOk) {src dst : ℕ} : (s.copyCoreRegs src dst).formOk :=
  h.foldl fun _ _ h₁ => h₁.setReg

theorem State.formOk.coreReplaced {s : State} (h : s.formOk) {o : SpareOp} : (s.coreReplaced o).formOk := by
  unfold State.coreReplaced
  split
  · exact h.movedSp.copyCoreRegs.fset.setCore.setCore.others
  · exact h

theorem State.formOk.bankReplaced {s : State} (h : s.formOk) {o : SpareOp} : (s.bankReplaced o).formOk := by
  unfold State.bankReplaced
  dsimp only
  split
  · exact h.fset.same
  · exact h

theorem State.formOk.spareEnd {s : State} (h : s.formOk) : s.spareEnd.formOk := by
  unfold State.spareEnd
  dsimp only
  split
  · exact h
  · refine .ite h ?_
    refine State.formOk.spareResult ?_
    split
    · exact h.coreReplaced
    · exact h.bankReplaced
    · exact .ite h.rebuildMap h

/-! ### Operations of Machine/Registers.lean -/

theorem State.formOk.capture {s : State} (h : s.formOk) {r : RegAt} {a rq kind : ℕ} {wr : Bool} :
    (s.capture r a rq kind wr).formOk := .ite h h.setReg.setReg

theorem State.formOk.f2hRing {s : State} (h : s.formOk) {p : HostPort} {old oldMask : Word} :
    (s.f2hRing p old oldMask).formOk := h.foldl fun _ _ h₁ => .ite h₁.send h₁

theorem State.formOk.h2fRing {s : State} (h : s.formOk) {p : HostPort} {old oldMask : Word} :
    (s.h2fRing p old oldMask).formOk := h.foldl fun _ _ h₁ => .ite h₁.send h₁

theorem State.formOk.clearRc {s : State} (h : s.formOk) {r : RegAt} : (s.clearRc r).formOk := .ite h h.setReg

theorem State.formOk.readEffect {s : State} (h : s.formOk) {rq : Requester} {r : RegAt} :
    (s.readEffect rq r).formOk := by
  unfold State.readEffect
  dsimp only
  split
  · exact .ite h.clearRc.setReg h.clearRc
  · exact .ite h.clearRc.setReg (.ite h.clearRc.setReg h.clearRc)
  · exact .ite (.ite h.clearRc.fset h.clearRc.fset.fset) h.clearRc
  · exact h.clearRc

theorem State.formOk.readLoc {s : State} (h : s.formOk) {rq : Requester} {r : RegAt} : (s.readLoc rq r).1.formOk :=
  .readEffect (.ite (.withLatches (.ite h.same h.withFreeCtr)) (.ite h.same h.withFreeCtr))

theorem State.formOk.regRead1 {s : State} (h : s.formOk) {rq : Requester} {a : ℕ} : (s.regRead1 rq a).1.formOk := by
  unfold State.regRead1
  split
  · exact h
  · exact h.readLoc

theorem State.formOk.setIdx {s : State} (h : s.formOk) {rq : Requester} {v : ℕ} : (s.setIdx rq v).formOk := h

theorem State.formOk.regRead {s : State} (h : s.formOk) {rq : Requester} {a : ℕ} : (s.regRead rq a).1.formOk := by
  unfold State.regRead
  dsimp only
  split
  · exact h
  · split
    · refine State.formOk.setIdx ?_
      split
      · exact h
      · exact h.regRead1
    · exact h.regRead1

theorem State.formOk.plainWrite {s : State} (h : s.formOk) {r : RegAt} {m en : Word} : (s.plainWrite r m en).formOk :=
  .ite h.setReg h.setReg

theorem State.formOk.headerWrite {s t : State} (h : s.formOk) {r : RegAt} {m en : Word}
    (e : s.headerWrite r m en = some t) : t.formOk := by
  unfold State.headerWrite at e
  split at e
  · exact Option.some.inj e ▸ .ite h.plainWrite.sendInt h.plainWrite
  · exact Option.some.inj e ▸ h.withInt fun _ h₁ => h₁.plainWrite
  · split at e
    · exact Option.some.inj e ▸ h
    · exact Option.some.inj e ▸ h.foldl fun _ _ h₁ => .ite h₁.raise h₁
  · exact Option.some.inj e ▸ h.plainWrite.setReg.setReg
  · cases e

theorem State.formOk.strobe {s : State} (h : s.formOk) {groups : Word} : (s.strobe groups).formOk := h

theorem State.formOk.gctlWrite {s : State} (h : s.formOk) {rq : Requester} {r : RegAt} {m en : Word} :
    (s.gctlWrite rq r m en).formOk := by
  unfold State.gctlWrite
  dsimp only
  split
  · exact .ite h.strobe h
  · exact .ite h.clearInCores h
  · exact .ite h.clearInCores h
  · exact .ite h.clearInCores h
  · exact .ite h h.plainWrite
  · exact .ite h.plainWrite h.plainWrite
  · exact .ite (.ite h.setReg h) h.plainWrite

theorem State.formOk.mbxWrite {s : State} (h : s.formOk) {rq : Requester} {p : HostPort} {r : RegAt} {a : ℕ}
    {m en : Word} : (s.mbxWrite rq p r a m en).1.formOk := by
  unfold State.mbxWrite
  dsimp only
  split
  · split
    · exact h
    · split
      · split
        · exact h.finc.event.capture.send
        · exact h.finc.event.capture
      · exact h.plainWrite.setReg
  · split
    · split
      · exact h
      · split
        · exact h.capture
        · exact h.plainWrite.setReg.event
    · split
      · exact h.plainWrite.h2fRing
      · split
        · exact h.plainWrite.f2hRing
        · exact h.plainWrite

theorem State.formOk.secWrite {s : State} (h : s.formOk) {rq : Requester} {r : RegAt} {m en : Word} :
    (s.secWrite rq r m en).formOk := by
  unfold State.secWrite
  dsimp only
  split
  · exact .ite h.writeD1 h.writeD1.secPulses
  · exact .ite h.opStart h
  · exact .ite h.writeErase h
  · exact .ite h.writeUntr h
  · exact h.plainWrite

theorem State.formOk.sizeWrite {s : State} (h : s.formOk) {r : RegAt} {m en : Word} : (s.sizeWrite r m en).formOk :=
  .ite h.plainWrite h

theorem State.formOk.safWrite {s : State} (h : s.formOk) {r : RegAt} {m en : Word} : (s.safWrite r m en).formOk := by
  unfold State.safWrite
  dsimp only
  split
  · exact .ite h h.plainWrite
  · exact .ite h h.plainWrite
  · exact .ite h h.sizeWrite
  · exact h.plainWrite

theorem State.formOk.haltEffect {s : State} (h : s.formOk) {old new : ℕ} : (s.haltEffect old new).formOk :=
  .ite h.leaveP2 (.ite h.enterP2 h)

theorem State.formOk.coreWrite {s : State} (h : s.formOk) {r : RegAt} {m en : Word} :
    (s.coreWrite r m en).formOk := by
  unfold State.coreWrite
  dsimp only
  split
  · exact .ite h.plainWrite.haltEffect.coreReset h.plainWrite.haltEffect
  · exact .ite h.plainWrite h
  · exact .ite h.plainWrite h
  · exact .ite h.plainWrite h
  · exact .ite h.plainWrite h
  · exact .ite h.sizeWrite h
  · exact .ite h h.plainWrite.modCore
  · exact h.plainWrite.preemptWrite
  · exact .ite h.plainWrite.clearAnchors h.plainWrite
  · exact h.plainWrite

theorem State.formOk.pwrCtrl {s : State} (h : s.formOk) {r : RegAt} {m en : Word} : (s.pwrCtrl r m en).formOk :=
  .ite h.plainWrite.fset (.ite h.plainWrite h.plainWrite.reqWritten)

theorem State.formOk.zwkWrite {s : State} (h : s.formOk) {r : RegAt} {m en : Word} : (s.zwkWrite r m en).formOk := by
  unfold State.zwkWrite
  dsimp only
  split
  · exact .ite h.plainWrite.zEnable h.plainWrite
  · exact .ite h h.plainWrite
  · exact .ite h h.plainWrite
  · exact h.setRouteWord.fset
  · exact h.plainWrite

theorem State.formOk.ogsWrite {s : State} (h : s.formOk) {r : RegAt} {m en : Word} : (s.ogsWrite r m en).formOk := by
  unfold State.ogsWrite
  dsimp only
  split
  · exact .ite h h
  · exact .fset h
  · exact h.plainWrite

theorem State.formOk.clvWrite {s : State} (h : s.formOk) {r : RegAt} {m en : Word} : (s.clvWrite r m en).formOk := by
  unfold State.clvWrite
  split
  · exact .ite h h.plainWrite
  · exact .ite h h.plainWrite
  · exact .ite h.force h
  · exact h.plainWrite

theorem State.formOk.writeLoc {s : State} (h : s.formOk) {rq : Requester} {r : RegAt} {a : ℕ} {m en : Word} :
    (s.writeLoc rq r a m en).1.formOk := by
  unfold State.writeLoc
  dsimp only
  split
  · exact h.headerWrite ‹_›
  · split
    · exact h.gctlWrite
    · exact h.mbxWrite
    · exact .ite h.writeSpareOp h.plainWrite
    · exact h.secWrite
    · exact h.safWrite
    · exact .ite h.pwrCtrl h.plainWrite.pwrUpdate
    · exact h.zwkWrite
    · exact .ite h.plainWrite.siteCtrl h.plainWrite
    · exact .ite h.plainWrite.fpCtrl h.plainWrite
    · exact h.ogsWrite
    · exact h.clvWrite
    · exact .ite (.ite h.clearInCores h) h.plainWrite
    · exact h.coreWrite
    · exact h.coreWrite
    · exact h.plainWrite

theorem State.formOk.regWrite1 {s : State} (h : s.formOk) {rq : Requester} {a : ℕ} {be : BitVec 4} {v : Word} :
    (s.regWrite1 rq a be v).1.formOk := by
  unfold State.regWrite1
  split
  · exact h
  · split
    · exact h.writeLoc
    · exact h

theorem State.formOk.regWrite {s : State} (h : s.formOk) {rq : Requester} {a : ℕ} {be : BitVec 4} {v : Word} :
    (s.regWrite rq a be v).1.formOk := by
  unfold State.regWrite
  dsimp only
  split
  · exact h.setIdx
  · split
    · split
      · exact h.setIdx
      · exact .ite h.regWrite1.setIdx h.regWrite1
    · exact h.regWrite1

theorem State.formOk.regDeny {s : State} (h : s.formOk) {a : ℕ} {wr : Bool} : (s.regDeny a wr).formOk := by
  unfold State.regDeny
  split
  · exact .ite h h.capture
  · exact h

theorem State.formOk.readAcc {s : State} (h : s.formOk) {r : RegRd} : (s.readAcc r).formOk := by
  unfold State.readAcc
  dsimp only
  refine .ite ?_ (.ite h (.ite h.regDeny.send (.ite h h.regRead.send)))
  refine State.formOk.send ?_
  split
  · exact h.regRead
  · exact h

theorem State.formOk.writeAcc {s : State} (h : s.formOk) {w : RegWr} : (s.writeAcc w).formOk := by
  unfold State.writeAcc
  dsimp only
  refine .ite (.ite (.ite h.regWrite h.regWrite.send) h) ?_
  refine .ite h ?_
  exact .ite h.regDeny.send (.ite h (.ite h.regWrite h.regWrite.send))

/-! ### Operations of Machine/Move.lean -/

theorem State.formOk.engineRead {s : State} (h : s.formOk) {off n : ℕ} : (s.engineRead off n).st.formOk := by
  apply State.resOk.st
  unfold State.engineRead
  exact .ite (.ite h (.ite h.regDeny.res h.regRead.res)) (.ite h h.memRead)

theorem State.formOk.engineWrite {s : State} (h : s.formOk) {off : ℕ} {bs : List Byte} :
    (s.engineWrite off bs).st.formOk := by
  apply State.resOk.st
  unfold State.engineWrite
  exact .ite (.ite h (.ite h.regDeny.res h.regWrite.res)) h.memWrite

theorem State.formOk.txnWrite {s : State} (h : s.formOk) {t off : ℕ} {bs : List Byte} :
    (s.txnWrite t off bs).1.formOk := by
  unfold State.txnWrite
  split
  · split
    · exact h
    · exact h.logEntry
  · split
    · exact h
    · exact h.logEntry

theorem State.formOk.setMove {s : State} (h : s.formOk) {ph idx : ℕ} {m : MoveSt} : (s.setMove ph idx m).formOk :=
  h.modInfl

theorem State.formOk.moveFail {s : State} (h : s.formOk) {ph : ℕ} {txn : Option ℕ} {m : MoveSt}
    {part g cls st det : ℕ} : (s.moveFail ph txn m part g cls st det).1.formOk := by
  unfold State.moveFail
  dsimp only
  split
  · exact h.captureFail.slotAbort
  · exact h.captureFail

theorem State.formOk.moveStop {s : State} (h : s.formOk) {ph idx : ℕ} {m : MoveSt} :
    (s.moveStop ph idx m).1.formOk := by
  unfold State.moveStop
  split
  · dsimp only
    exact h
  · exact h.dropReqs

theorem State.formOk.movePut {s : State} (h : s.formOk) {ph idx : ℕ} {txn : Option ℕ} {cls : ℕ} {m : MoveSt}
    {g part : ℕ} {bs : List Byte} : (s.movePut ph idx txn cls m g part bs).1.formOk := by
  unfold State.movePut
  dsimp only
  split
  · exact h
  · split
    · split
      · split
        · exact h.txnWrite
        · exact h.txnWrite.moveFail
      · split
        · exact h
        · split
          · exact h.engineWrite
          · exact h.engineWrite.moveFail
    · split
      · exact h.moveFail
      · split
        · exact .ofFst ‹_› h.request
        · exact .moveFail (.ofFst ‹_› h.request)

theorem State.formOk.movePiece {s : State} (h : s.formOk) {ph idx : ℕ} {txn : Option ℕ} {cls : ℕ} {m : MoveSt}
    {p : Piece} : (s.movePiece ph idx txn cls m p).1.formOk := by
  unfold State.movePiece
  dsimp only
  split
  · exact h
  · split
    · split
      · exact h
      · split
        · exact h.engineRead.movePut
        · exact h.engineRead.moveFail
    · split
      · exact .ofFst ‹_› h.request
      · exact .moveFail (.ofFst ‹_› h.request)

theorem State.formOk.moveSettle {s : State} (h : s.formOk) {ph idx : ℕ} {txn : Option ℕ} {m : MoveSt} :
    (s.moveSettle ph idx txn m).formOk := by
  unfold State.moveSettle
  dsimp only
  split
  · exact h.moveStop.setMove
  · exact .ite h.moveStop.setMove.complete (.ite h.moveStop.setMove h.moveStop.setMove)

theorem State.formOk.moveRun {s : State} (h : s.formOk) {ph idx : ℕ} : (s.moveRun ph idx).formOk := by
  unfold State.moveRun
  dsimp only
  split
  · exact h
  · split
    · exact .moveSettle (.foldlOf Prod.fst (.foldlOf Prod.fst h fun _ _ h₁ => h₁.movePut) fun _ _ h₁ => h₁.movePiece)
    · exact h

theorem State.formOk.moveStart {s : State} (h : s.formOk) {ph idx : ℕ} {d : MoveD} :
    (s.moveStart ph idx d).formOk := by
  refine .ite h.setMove (.ite ?_ h.setMove.moveRun)
  split
  · exact h.setMove.complete
  · exact h.setMove

theorem State.formOk.moveIssue {s : State} (h : s.formOk) {ph : ℕ} {f : Fetched} : (s.moveIssue ph f).formOk := by
  unfold State.moveIssue
  dsimp only
  split
  · exact h.issueDone
  · refine State.formOk.ite ?_ ?_
    · refine State.formOk.complete ?_
      split
      · exact h.issue.countActions
      · exact h.issue
    · refine State.formOk.ite ?_ ?_
      · refine State.formOk.complete ?_
        split
        · exact h.issue.countActions
        · exact h.issue
      · refine State.formOk.moveStart ?_
        split
        · exact h.issue.countActions
        · exact h.issue

theorem State.formOk.move {s : State} (h : s.formOk) {n : ℕ} : (Machine.move n s).formOk := by
  refine h.onCore fun _ _ h₁ => ?_
  split
  · exact h₁.moveIssue
  · exact h₁

theorem State.formOk.registerMove {s : State} (h : s.formOk) {n : ℕ} : (Machine.registerMove n s).formOk := by
  refine h.onCore fun _ _ h₁ => ?_
  split
  · exact h₁.moveIssue
  · exact h₁

theorem State.formOk.fieldRead {s : State} (h : s.formOk) {ph : ℕ} {m : MoveSt} {d : FprintD} {i j : ℕ} :
    (s.fieldRead ph m d i j).1.formOk := by
  unfold State.fieldRead
  dsimp only
  split
  · split
    · dsimp only
      exact h.engineRead
    · split
      · dsimp only
        exact h.engineRead.moveFail
      · dsimp only
        exact h.engineRead.moveFail
  · dsimp only
    exact h

theorem State.formOk.fprintWrite {s : State} (h : s.formOk) {ph idx : ℕ} {m : MoveSt} {d : FprintD} {i v : ℕ} :
    (s.fprintWrite ph idx m d i v).1.formOk := by
  unfold State.fprintWrite
  dsimp only
  split
  · split
    · exact h.engineWrite
    · exact h.engineWrite.moveFail
  · refine .foldlOf Prod.fst h fun _ _ h₁ => ?_
    split
    · exact .ofFst ‹_› h₁.request
    · exact .moveFail (.ofFst ‹_› h₁.request)

theorem State.formOk.fprintSlice {s : State} (h : s.formOk) {ph idx : ℕ} {d : FprintD} {m : MoveSt} {fps : List Byte}
    {i : ℕ} : (s.fprintSlice ph idx d m fps i).1.formOk := by
  apply State.fstOk.st
  unfold State.fprintSlice
  split
  · exact h.fst
  · split
    next t₁ m₁ r e₁ =>
      have h₁ : t₁.formOk := .ofFst e₁ (State.fstOk.st (h.fst.foldl fun a j ha => by
        split
        · exact ha
        · split
          next t₂ m₂ x e₂ =>
            have h₂ : t₂.formOk := .ofFst e₂ ha.st.fieldRead
            exact h₂.fst))
      split
      · exact h₁.fst
      · exact h₁.fst
      · extract_lets v
        split
        next t₂ m₂ e₂ =>
          have h₂ : t₂.formOk := .ofFst e₂ h₁.fprintWrite
          exact h₂.fst

theorem State.formOk.fprintSettle {s : State} (h : s.formOk) {ph idx : ℕ} {m : MoveSt} :
    (s.fprintSettle ph idx m).formOk := by
  unfold State.fprintSettle
  dsimp only
  split
  · exact h.setMove
  · exact .ite h.setMove.complete h.setMove

theorem State.formOk.fprintForm {s : State} (h : s.formOk) {ph idx : ℕ} : (s.fprintForm ph idx).formOk := by
  unfold State.fprintForm
  dsimp only
  split
  · exact h
  · split
    · refine .ite h ?_
      exact .ite (.ite h h) (.ite h.complete (.fprintSettle (.foldlOf Prod.fst h fun _ _ h₁ => h₁.fprintSlice)))
    · exact h

theorem State.formOk.fprintReads {s : State} (h : s.formOk) {ph idx : ℕ} {d : FprintD} {m : MoveSt} :
    (s.fprintReads ph idx d m).1.formOk := by
  unfold State.fprintReads
  dsimp only
  refine .foldlOf Prod.fst h fun _ _ h₁ => ?_
  split
  · exact h₁
  · refine .foldlOf Prod.fst h₁ fun _ _ h₂ => ?_
    split
    · exact .ofFst ‹_› h₂.request
    · exact .moveFail (.ofFst ‹_› h₂.request)

theorem State.formOk.fprintNext {s : State} (h : s.formOk) {fuel ph : ℕ} : (s.fprintNext fuel ph).formOk := by
  induction fuel generalizing s with
  | zero => exact h
  | succ fuel ih =>
    unfold State.fprintNext
    split
    · exact h
    · exact .ite h (.ite (ih h.complete) (.ite (ih h.fprintReads.setMove.fprintForm) h.fprintReads.setMove))

theorem State.formOk.fprint {s : State} (h : s.formOk) {n : ℕ} : (Machine.fprint n s).formOk := by
  refine h.onCore fun _ _ h₁ => ?_
  split
  · exact h₁
  · exact .ite h₁.issueDone h₁.issue.fprintNext

theorem State.formOk.pieceGo {s : State} (h : s.formOk) {ph idx : ℕ} : (s.pieceGo ph idx).formOk := by
  unfold State.pieceGo
  split
  · exact h
  · exact .ite h.fprintForm.fprintNext h.moveRun

theorem State.formOk.localMoveDone {s : State} (h : s.formOk) {n k : ℕ} : (Machine.localMoveDone n k s).formOk := by
  refine h.onCore fun _ _ h₁ => ?_
  split
  · exact h₁
  · split
    · exact .ite h₁.complete (.ite h₁ h₁.pieceGo)
    · exact h₁

theorem State.formOk.moveDone {s : State} (h : s.formOk) {r : Req} {ph idx part : ℕ} {dst : Option ℕ}
    {fieldAt status detail : ℕ} {degraded : Bool} {data : List Byte} :
    (s.moveDone r ph idx part dst fieldAt status detail degraded data).formOk := by
  unfold State.moveDone
  dsimp only
  split
  · exact h
  · split
    · split
      · refine .ite (.fprintNext (.fprintSettle ?_)) (.fprintNext (.fprintForm (.setMove ?_)))
        · split
          · exact h.pair
          · exact h.moveFail.pair
        · split
          · exact h.pair
          · exact h.moveFail.pair
      · refine State.formOk.moveSettle ?_
        split
        · exact h.moveFail
        · split
          · exact h.movePut
          · exact h
    · exact h

/-! ### Operations of Machine/Bar2.lean -/

theorem State.formOk.modB2 {s : State} (h : s.formOk) {id : ℕ} {f : Bar2Acc → Bar2Acc} : (s.modB2 id f).formOk := h

theorem State.formOk.b2Fail {s : State} (h : s.formOk) {id : ℕ} : (s.b2Fail id).formOk := h.dropReqs.modB2

theorem State.formOk.b2Local {s : State} (h : s.formOk) {x : Bar2Acc} {off : ℕ} {bs : List Byte} :
    (s.b2Local x off bs).st.formOk := by
  apply State.resOk.st
  unfold State.b2Local
  exact .ite (.ite h.regWrite.res h.regRead.res) (.ite h.memWrite h.memRead)

theorem State.formOk.b2Go {s : State} (h : s.formOk) {id : ℕ} : (s.b2Go id).formOk := by
  unfold State.b2Go
  dsimp only
  split
  · exact h
  · refine h.modB2.foldl fun _ _ h₁ => ?_
    split
    · exact h₁
    · exact .ite h₁ (.ite h₁.modB2 (.ite h₁.b2Local.modB2 h₁.b2Local.b2Fail))

theorem State.formOk.b2Read {s : State} (h : s.formOk) {x : Bar2Acc} : (s.b2Read x).formOk := by
  unfold State.b2Read
  dsimp only
  refine h.modB2.foldl fun _ _ h₁ => ?_
  split
  · exact h₁.foldl fun _ _ h₂ => h₂.modB2
  · refine h₁.foldl fun _ _ h₂ => ?_
    split
    · exact .modB2 (.ofFst ‹_› h₂.request)
    · exact .b2Fail (.ofFst ‹_› h₂.request)

theorem State.formOk.b2End {s : State} (h : s.formOk) {x : Bar2Acc} : (s.b2End x).formOk := by
  unfold State.b2End
  extract_lets t u
  have hu : u.formOk := .thenOp (fun ht => ht.finc.event) h.withBar2
  exact .ite (.thenOp (fun hv => hv.send) hu) (.ite hu.send.send hu.send)

theorem State.formOk.b2Step {s : State} (h : s.formOk) {id : ℕ} : (s.b2Step id).formOk := by
  unfold State.b2Step
  dsimp only
  split
  · exact h
  · split
    · exact .ite h.b2Read.b2Go h
    · refine .ite (.ite h.b2Read.b2Go h) ?_
      refine .ite (.b2End (.ite h.b2Read.b2Go h)) ?_
      exact .ite (.ite h.b2Read.b2Go h) (.ite h.b2Read.b2Go h)

theorem State.formOk.b2Settle {s : State} (h : s.formOk) : s.b2Settle.formOk := h.foldl fun _ _ h₁ => h₁.b2Step

theorem State.formOk.b2Release {s : State} (h : s.formOk) {id : ℕ} : (s.b2Release id).formOk := h.b2Go.b2Settle

theorem State.formOk.b2Done {s : State} (h : s.formOk) {id place status : ℕ} {data : List Byte} :
    (s.b2Done id place status data).formOk := .b2Settle (.ite h.modB2 h.modB2.b2Fail)

theorem State.formOk.bufferWrite {s : State} (h : s.formOk) {o : ℕ} {data : List Byte} {be : List Bool} :
    (s.bufferWrite o data be).formOk := h

theorem State.formOk.bar2Read {s : State} (h : s.formOk) {p : HostPort} {o len : ℕ} :
    (Machine.bar2Read p o len s).formOk := .ite h.send (.ite h (.b2Settle h))

theorem State.formOk.b2Run {s : State} (h : s.formOk) {id : ℕ} {p : HostPort} {o : ℕ} {bs : List Byte} :
    (s.b2Run id p o bs).formOk := by
  refine h.foldl fun _ _ h₁ => ?_
  split
  · exact h₁
  · refine .ite h₁ ?_
    split
    · exact (h₁.foldl fun _ _ h₂ => h₂.modB2).b2Go
    · refine .ite h₁.b2Fail ?_
      refine h₁.foldl fun _ _ h₂ => ?_
      split
      · exact h₂
      · refine .ite h₂ ?_
        split
        · exact .modB2 (.ofFst ‹_› h₂.request)
        · exact .b2Fail (.ofFst ‹_› h₂.request)

theorem State.formOk.bar2Write {s : State} (h : s.formOk) {p : HostPort} {o : ℕ} {data : List Byte} {be : List Bool} :
    (Machine.bar2Write p o data be s).formOk :=
  .ite h.bufferWrite (.ite h (.b2Settle (.foldl h fun _ _ h₁ => h₁.b2Run)))

theorem State.formOk.poisonedTlp {s : State} (h : s.formOk) {p : HostPort} : (Machine.poisonedTlp p s).formOk :=
  .ite h h.send.finc

/-! ### Operations of Machine/CollData.lean -/

theorem State.formOk.chunkAt {s : State} (h : s.formOk) {ph : ℕ} {d : CollD} {slot : ℕ} {i : ChunkId} {n : ℕ} :
    (s.chunkAt ph d slot i n).1.formOk := by
  unfold State.chunkAt
  dsimp only
  split
  · split
    · split
      · split
        · exact h.touch
        · exact h.touch
      · split
        · exact h.touch
        · exact h.touch
    · split
      · exact h.touch
      · exact h.touch
  · split
    · split
      · split
        · exact h.touch
        · exact h.touch
      · split
        · exact h.touch
        · exact h.touch
    · split
      · exact h.touch
      · exact h.touch

theorem State.formOk.collScales {s : State} (h : s.formOk) {ph : ℕ} {d : CollD} {p n : ℕ} :
    (s.collScales ph d p n).1.formOk := by
  unfold State.collScales
  dsimp only
  split
  · exact h
  · split
    · exact h.locRead
    · exact h.drawBytes

theorem State.formOk.collSrc {s : State} (h : s.formOk) {ph : ℕ} {d : CollD} {p n : ℕ} :
    (s.collSrc ph d p n).1.formOk := by
  unfold State.collSrc
  dsimp only
  split
  · refine .foldlOf Prod.fst h fun _ _ h₁ => ?_
    split
    · split
      · exact h₁
      · split
        · exact .ofFst ‹_› h₁.readSlot
        · exact .ofFst ‹_› h₁.readSlot
    · exact h₁
  · exact h.locRead.collScales

/-! ### Operations of Machine/Collectives.lean -/

theorem State.formOk.collTable {s : State} (h : s.formOk) {g : ℕ} : (s.collTable g).1.formOk := by
  apply State.fstOk.st
  unfold State.collTable
  generalize s.fget pColl F.COLL_GTAB_BASE_BASE * 2 ^ 22 + g * 16384 = base
  dsimp only
  refine State.formOk.fst (State.fstOk.st (h.fst.foldl fun a k ha => ?_))
  split
  · exact ha
  · have ht : (a.1.memRead1 (base + 256 * k) 256).st.formOk := ha.st.memRead1
    split
    · exact ht.fst
    · exact ht.fst

theorem State.formOk.setColl {s : State} (h : s.formOk) {ph idx : ℕ} {c : CollSt} : (s.setColl ph idx c).formOk :=
  h.modInfl

theorem State.formOk.modColl {s : State} (h : s.formOk) {ph : ℕ} {f : CollSt → CollSt} : (s.modColl ph f).formOk := by
  unfold State.modColl
  split
  · exact h.setColl
  · exact h

theorem State.formOk.modLead {s : State} (h : s.formOk) {ph : ℕ} {f : CollLead → CollLead} :
    (s.modLead ph f).formOk :=
  h.modColl

theorem State.formOk.collFail {s : State} (h : s.formOk) {ph status detail : ℕ} :
    (s.collFail ph status detail).formOk := by
  unfold State.collFail
  dsimp only
  split
  · exact .ite h (.ite h.setColl.slotAbort h.setColl)
  · exact h

theorem State.formOk.collSend {s : State} (h : s.formOk) {ph : ℕ} {d : CollD} {lid core : ℕ} {body : CollBody} :
    (s.collSend ph d lid core body).formOk := by
  refine .ite h.same ?_
  split
  · exact .send (.ofFst ‹_› h.same.request)
  · exact .collFail (.ofFst ‹_› h.same.request)

theorem State.formOk.collToLead {s : State} (h : s.formOk) {ph : ℕ} {e : Infl} {c : CollSt} {body : CollBody} :
    (s.collToLead ph e c body).formOk := h.collSend

theorem State.formOk.collToAll {s : State} (h : s.formOk) {ph : ℕ} {d : CollD} {ps : List Peer} {f : ℕ → CollBody} :
    (s.collToAll ph d ps f).formOk := by
  refine h.foldl fun _ _ h₁ => ?_
  split
  · exact h₁.collSend
  · exact h₁

theorem State.formOk.collVerdict {s : State} (h : s.formOk) {ph : ℕ} {e : Infl} {v : CollEnd} :
    (s.collVerdict ph e v).formOk := by
  unfold State.collVerdict
  dsimp only
  split
  · split
    · exact h.modLead.collToAll
    · exact h.modLead
  · exact h.modLead

theorem State.formOk.countExcluded {s : State} (h : s.formOk) {d : CollD} {ex : List ℕ} :
    (s.countExcluded d ex).formOk := .ite h.finc h.finc.setReg

theorem State.formOk.collClose {s : State} (h : s.formOk) {ph : ℕ} : (s.collClose ph).formOk := by
  unfold State.collClose
  dsimp only
  split
  · split
    · refine .ite h ?_
      split
      · exact h.modLead.collVerdict
      · refine .ite h.modLead.collToAll ?_
        refine .ite h.modLead.modLead.collToAll ?_
        exact .ite h.modLead.event.collVerdict h.modLead.event.countExcluded.modLead.collToAll
    · exact h
  · exact h

theorem State.formOk.collTake {s : State} (h : s.formOk) {ph turn : ℕ} {x : Entrant} :
    (s.collTake ph turn x).1.formOk := by
  unfold State.collTake
  dsimp only
  split
  · split
    · split
      · exact h
      · split
        · exact h
        · split
          · exact h
          · split
            · split
              · exact h
              · exact .ite h.modLead.collClose h.modLead
            · split
              · exact h.modLead.collSend
              · exact h
    · exact h
  · exact h

theorem State.formOk.collEnter {s : State} (h : s.formOk) {ph lead : ℕ} {x : Entrant} :
    (s.collEnter ph lead x).formOk := .ite h.withColl.collTake h.withColl.collTake.withColl

theorem State.formOk.collNext {s : State} (h : s.formOk) {ph : ℕ} : (s.collNext ph).formOk := by
  unfold State.collNext
  dsimp only
  split
  · exact h
  · split
    · refine .ite h ?_
      refine h.setColl.withColl.collToLead.withColl.foldl fun _ _ h₁ => ?_
      exact .ite h₁.withColl (.ite h₁.collTake h₁.collTake.withColl)
    · exact h

theorem State.formOk.collCount {s : State} (h : s.formOk) {d : CollD} {status : ℕ} : (s.collCount d status).formOk :=
  .ite (.foldl (.ite h.finc h.finc) fun _ _ h₁ => .ite h₁.slotAbort h₁) (.ite h.finc h.finc)

theorem State.formOk.collIssue {s : State} (h : s.formOk) {ph : ℕ} {f : Fetched} : (s.collIssue ph f).formOk := by
  have ht : State.fstOk (s.collTable (collD f.words).group) := h.collTable
  unfold State.collIssue
  extract_lets d
  generalize s.collTable d.group = r at *
  obtain ⟨t, st, tab⟩ := r
  have ht : t.formOk := ht
  dsimp only
  split
  · exact ht.collCount.issueDone
  · split
    · exact ht.collCount.issueDone
    · have hi : ∀ p, (t.issue ph f p).formOk := fun _ => ht.issue
      generalize t.issue ph f = u at *
      exact (hi _).collNext

theorem State.formOk.collective {s : State} (h : s.formOk) {n : ℕ} {p : ℕ → Bool} : (s.collective n p).formOk := by
  refine h.onCore fun _ _ h₁ => ?_
  split
  · exact h₁.collIssue
  · exact h₁

theorem State.formOk.collPut {s : State} (h : s.formOk) {ph : ℕ} {d : CollD} {l : Loc} {bs : List Byte} :
    (s.collPut ph d l bs).1.formOk := by
  unfold State.collPut
  dsimp only
  split
  · exact h.locWrite
  · exact h.logEntry

theorem State.formOk.collOutput {s : State} (h : s.formOk) {ph : ℕ} {d : CollD} {pos o : ℕ} {w : Word} {x : Carried} :
    (s.collOutput ph d pos o w x).formOk := by
  unfold State.collOutput
  dsimp only
  split
  · exact h
  · refine State.formOk.ite ?_ ?_
    · refine State.formOk.collFail ?_
      refine State.formOk.setColl ?_
      refine State.formOk.raiseFlags ?_
      refine .foldlOf Prod.fst h fun _ _ h₁ => ?_
      split
      · exact h₁
      · exact h₁.collPut
    · refine State.formOk.thenOp (fun hu => ?_) ?_
      · refine .foldl hu fun _ _ h₁ => ?_
        split
        · exact h₁.putRaw
        · exact h₁
      · refine .thenOp (fun hu => hu.signal) ?_
        refine State.formOk.setColl ?_
        refine State.formOk.raiseFlags ?_
        refine .foldlOf Prod.fst h fun _ _ h₁ => ?_
        split
        · exact h₁
        · exact h₁.collPut

theorem State.formOk.collFlags {s : State} (h : s.formOk) {ph fl : ℕ} : (s.collFlags ph fl).formOk :=
  h.raiseFlags.modColl

theorem State.formOk.collReady {s : State} (h : s.formOk) {ph : ℕ} {d : CollD} {dst : ℕ} {i : ChunkId} {x : Carried} :
    (s.collReady ph d dst i x).formOk := h.modColl

theorem State.formOk.collOwn {s : State} (h : s.formOk) {ph : ℕ} {d : CollD} {c : CollSt} {part ch : ℕ} :
    (s.collOwn ph d c part ch).1.formOk := by
  unfold State.collOwn
  dsimp only
  split
  · split
    · exact h.collSrc.collFail
    · exact h.collSrc.collFlags
  · split
    · exact h.collSrc.collFail
    · exact h.collSrc.collFlags

theorem State.formOk.collStartPart {s : State} (h : s.formOk) {ph : ℕ} {d : CollD} {part phase : ℕ}
    {dst out : Option ℕ} : (s.collStartPart ph d part phase dst out).formOk := by
  unfold State.collStartPart
  dsimp only
  split
  · exact h
  · refine h.foldl fun _ _ h₁ => ?_
    split
    · exact .ofFst ‹_› h₁.collOwn
    · split
      · refine State.formOk.collOutput ?_
        split
        · exact .collReady (.ofFst ‹_› h₁.collOwn)
        · exact .ofFst ‹_› h₁.collOwn
      · split
        · exact .collReady (.ofFst ‹_› h₁.collOwn)
        · exact .ofFst ‹_› h₁.collOwn

theorem State.formOk.collBegin {s : State} (h : s.formOk) {ph : ℕ} {d : CollD} {c : CollSt} :
    (s.collBegin ph d c).formOk := by
  unfold State.collBegin
  dsimp only
  split
  · exact h.modColl
  · exact h.modColl.collStartPart
  · exact .ite h.modColl.collStartPart h.modColl
  · exact h.modColl.collStartPart.foldl fun _ _ h₁ => h₁.collStartPart
  · exact .ite h.modColl.collStartPart h.modColl.collStartPart

theorem State.formOk.collConsume {s : State} (h : s.formOk) {ph : ℕ} {e : Infl} {c : CollSt} {from_ : ℕ × ℕ} :
    (s.collConsume ph e c from_).formOk := by
  unfold State.collConsume
  dsimp only
  split
  · exact h.setColl
  · split
    · exact .collFail (.ofFst ‹_› h.setColl.chunkAt)
    · split
      · split
        · refine .ofFst ‹_› ?_
          refine State.formOk.collOwn ?_
          split
          · exact .collSend (.modColl (.ofFst ‹_› h.setColl.chunkAt))
          · exact .modColl (.ofFst ‹_› h.setColl.chunkAt)
        · refine State.formOk.ite ?_ ?_
          · refine State.formOk.collReady ?_
            refine State.formOk.collFlags ?_
            refine .ofFst ‹_› ?_
            refine State.formOk.collOwn ?_
            split
            · exact .collSend (.modColl (.ofFst ‹_› h.setColl.chunkAt))
            · exact .modColl (.ofFst ‹_› h.setColl.chunkAt)
          · refine State.formOk.collOutput ?_
            refine .thenOp (fun hu => hu.collReady) ?_
            refine State.formOk.collFlags ?_
            refine .ofFst ‹_› ?_
            refine State.formOk.collOwn ?_
            split
            · exact .collSend (.modColl (.ofFst ‹_› h.setColl.chunkAt))
            · exact .modColl (.ofFst ‹_› h.setColl.chunkAt)
      · refine State.formOk.collOutput ?_
        refine .thenOp (fun hu => hu.collReady) ?_
        split
        · exact .collSend (.modColl (.ofFst ‹_› h.setColl.chunkAt))
        · exact .modColl (.ofFst ‹_› h.setColl.chunkAt)
      · refine State.formOk.collOutput ?_
        refine .thenOp (fun hu => hu.collReady) ?_
        split
        · exact .collSend (.modColl (.ofFst ‹_› h.setColl.chunkAt))
        · exact .modColl (.ofFst ‹_› h.setColl.chunkAt)
      · refine State.formOk.collOutput ?_
        split
        · exact .collSend (.modColl (.ofFst ‹_› h.setColl.chunkAt))
        · exact .modColl (.ofFst ‹_› h.setColl.chunkAt)

theorem State.formOk.collSendChunk {s : State} (h : s.formOk) {ph : ℕ} {e : Infl} {c : CollSt} :
    (s.collSendChunk ph e c).formOk := by
  unfold State.collSendChunk
  dsimp only
  split
  · exact h
  · split
    · exact h
    · refine State.formOk.ite ?_ ?_
      · refine State.formOk.collSend ?_
        split
        · exact (h.setColl.foldl fun _ _ h₁ => h₁.memWrite).setColl
        · exact h.setColl.foldl fun _ _ h₁ => h₁.memWrite
      · split
        · refine State.formOk.collFail ?_
          refine State.formOk.setColl ?_
          refine .foldlOf Prod.fst h fun _ _ h₁ => ?_
          split
          · exact .ofFst ‹_› h₁.request
          · exact .ofFst ‹_› h₁.request
        · refine State.formOk.setColl ?_
          refine .foldlOf Prod.fst h fun _ _ h₁ => ?_
          split
          · exact .ofFst ‹_› h₁.request
          · exact .ofFst ‹_› h₁.request

theorem State.formOk.collSummaries {s : State} (h : s.formOk) {ph : ℕ} {d : CollD} {c : CollSt} :
    (s.collSummaries ph d c).1.formOk := by
  refine .foldlOf Prod.fst h fun _ _ h₁ => ?_
  refine .foldlOf Prod.fst h₁ fun _ _ h₂ => ?_
  split
  · exact h₂
  · exact h₂.collSrc

theorem State.formOk.collSummed {s : State} (h : s.formOk) {ph : ℕ} {e : Infl} {c : CollSt} :
    (s.collSummed ph e c).formOk := h.setColl.collToLead

theorem State.formOk.collPutSums {s : State} (h : s.formOk) {ph : ℕ} {e : Infl} {c : CollSt} :
    (s.collPutSums ph e c).formOk := by
  unfold State.collPutSums
  dsimp only
  split
  · exact h
  · refine .ite h.collSummed ?_
    refine .ite (.ite h.memWrite.setColl.collFail h.memWrite.collSummed) ?_
    split
    · refine State.formOk.collFail ?_
      refine State.formOk.setColl ?_
      refine .foldlOf Prod.fst h fun _ _ h₁ => ?_
      split
      · exact .ofFst ‹_› h₁.request
      · exact .ofFst ‹_› h₁.request
    · refine State.formOk.setColl ?_
      refine .foldlOf Prod.fst h fun _ _ h₁ => ?_
      split
      · exact .ofFst ‹_› h₁.request
      · exact .ofFst ‹_› h₁.request

theorem State.formOk.collReadAgreed {s : State} (h : s.formOk) {ph : ℕ} {e : Infl} {c : CollSt} :
    (s.collReadAgreed ph e c).formOk := by
  unfold State.collReadAgreed
  dsimp only
  split
  · exact h
  · refine .ite (.ite h.memRead.collFail h.memRead.setColl) ?_
    split
    · refine State.formOk.collFail ?_
      refine State.formOk.setColl ?_
      refine .foldlOf Prod.fst h fun _ _ h₁ => ?_
      split
      · exact .ofFst ‹_› h₁.request
      · exact .ofFst ‹_› h₁.request
    · refine State.formOk.setColl ?_
      refine .foldlOf Prod.fst h fun _ _ h₁ => ?_
      split
      · exact .ofFst ‹_› h₁.request
      · exact .ofFst ‹_› h₁.request

theorem State.formOk.collReport {s : State} (h : s.formOk) {ph : ℕ} {e : Infl} {c : CollSt} {status : ℕ} :
    (s.collReport ph e c status).formOk := .collToLead (.ite (.ite h.setColl.modSlot h.setColl.slotAbort) h.setColl)

theorem State.formOk.collStep {s : State} (h : s.formOk) {ph : ℕ} : (s.collStep ph).1.formOk := by
  apply State.fstOk.st
  unfold State.collStep
  split
  · exact h.fst
  · next e c _ =>
    extract_lets d
    refine .ite h.fst (.ite h.collReport.fst (.ite h.fst ?_))
    split
    · refine .ite h.setColl.fst ?_
      split
      next t₁ st ws fx e₁ =>
        have h₁ : t₁.formOk := .ofFst e₁ h.collSummaries
        exact .ite h₁.collFail.fst h₁.collPutSums.fst
    · refine .ite h.collBegin.fst ?_
      split
      · exact h.collConsume.fst
      · exact .ite h.collSendChunk.fst (.ite h.collReport.fst h.fst)
    · exact h.fst

theorem State.formOk.collRun {s : State} (h : s.formOk) {fuel ph : ℕ} : (s.collRun fuel ph).formOk := by
  induction fuel generalizing s with
  | zero => exact h
  | succ fuel ih => exact .ite (ih h.collStep) h.collStep

theorem State.formOk.collTxnBegin {s : State} (h : s.formOk) {d : CollD} {c : CollSt} {peers : List Peer} :
    (s.collTxnBegin d c peers).1.formOk := by
  unfold State.collTxnBegin
  dsimp only
  split
  · exact h
  · split
    · exact h
    · split
      · exact h
      · refine State.formOk.foldl ?_ fun _ _ h₁ => ?_
        · refine .foldl (.ite h.setSlot h.setSlot.cloveSend) fun _ _ h₁ => ?_
          split
          · exact h₁.modCore
          · exact h₁
        · split
          · exact h₁.setColl
          · exact h₁

theorem State.formOk.collStart {s : State} (h : s.formOk) {m : CollMsg} {index : ℕ} {peers : List Peer} :
    (s.collStart m index peers).formOk := by
  unfold State.collStart
  dsimp only
  split
  · refine .ite h ?_
    refine .ite h.setColl ?_
    split
    · exact .ofFst ‹_› h.setColl.collTxnBegin
    · exact .collFail (.ofFst ‹_› h.setColl.collTxnBegin)
  · exact h

theorem State.formOk.collPre {s : State} (h : s.formOk) {m : CollMsg} {sums : List Word} {fixed : List Bool} :
    (s.collPre m sums fixed).formOk := by
  unfold State.collPre
  dsimp only
  split
  · split
    · split
      · exact h
      · exact .ite h (.ite (.collToAll (.ite h.modLead h.modLead.spWrite)) (.ite h.modLead h.modLead.spWrite))
    · exact h
  · exact h

theorem State.formOk.collGo {s : State} (h : s.formOk) {m : CollMsg} {fixed : List Bool} :
    (s.collGo m fixed).formOk := by
  unfold State.collGo
  split
  · exact .ite h.collReadAgreed h
  · exact h

theorem State.formOk.collChunk {s : State} (h : s.formOk) {m : CollMsg} : (s.collChunk m).formOk := by
  unfold State.collChunk
  split
  · exact h.setColl
  · exact h

theorem State.formOk.collFreed {s : State} (h : s.formOk) {m : CollMsg} : (s.collFreed m).formOk := by
  unfold State.collFreed
  split
  · split
    · exact h.setColl
    · exact h
  · exact h

theorem State.formOk.collReported {s : State} (h : s.formOk) {m : CollMsg} {status : ℕ} {consumed : Bool} :
    (s.collReported m status consumed).formOk := by
  unfold State.collReported
  dsimp only
  split
  · split
    · split
      · exact .ite h (.ite h.modLead.collToAll h.modLead)
      · split
        · exact h.modLead
        · exact h
    · exact h
  · exact h

theorem State.formOk.collEnd {s : State} (h : s.formOk) {ph : ℕ} {e : Infl} {c : CollSt} {v : CollEnd} {detail : ℕ} :
    (s.collEnd ph e c v detail).formOk :=
  .collNext (.complete (.collCount (.ite (.ite h.event h.event.setReg.setReg) h)))

theorem State.formOk.collStop {s : State} (h : s.formOk) {m : CollMsg} : (s.collStop m).formOk := by
  unfold State.collStop
  split
  · exact .ite h.collEnd h.setColl
  · exact h

theorem State.formOk.collVerdictAt {s : State} (h : s.formOk) {m : CollMsg} {v : CollEnd} :
    (s.collVerdictAt m v).formOk := by
  unfold State.collVerdictAt
  split
  · exact h.setColl
  · exact h

theorem State.formOk.collExcluded {s : State} (h : s.formOk) {m : CollMsg} : (s.collExcluded m).formOk := by
  unfold State.collExcluded
  dsimp only
  split
  · refine .ite h ?_
    refine State.formOk.collToLead ?_
    refine State.formOk.setColl ?_
    split
    · exact h.setColl
    · split
      · exact h.setColl.locRead
      · exact h.setColl.locRead.locWrite
  · exact h

theorem State.formOk.collServed {s : State} (h : s.formOk) {ph : ℕ} {d : CollD} {q : Peer} {v : CollEnd} :
    (s.collServed ph d q v).formOk := h.modLead.collSend

theorem State.formOk.collServe {s : State} (h : s.formOk) {ph : ℕ} {e : Infl} {l : CollLead} {v : CollEnd} :
    (s.collServe ph e l v).formOk := by
  unfold State.collServe
  dsimp only
  split
  · exact h
  · refine .ite h.collServed ?_
    refine .ite (.collServed (.ite h.locRead.memWrite h.locRead)) ?_
    refine .ite h.locRead.collServed ?_
    refine State.formOk.ite ?_ ?_
    · refine State.formOk.collServed ?_
      refine .foldlOf Prod.fst h.locRead fun _ _ h₁ => ?_
      split
      · exact .ofFst ‹_› h₁.request
      · exact .ofFst ‹_› h₁.request
    · refine State.formOk.modLead ?_
      refine .foldlOf Prod.fst h.locRead fun _ _ h₁ => ?_
      split
      · exact .ofFst ‹_› h₁.request
      · exact .ofFst ‹_› h₁.request

theorem State.formOk.collLeadStep {s : State} (h : s.formOk) {ph : ℕ} : (s.collLeadStep ph).formOk := by
  unfold State.collLeadStep
  dsimp only
  split
  · split
    · split
      · exact .collVerdict (.ite h.event h)
      · split
        · exact .ite h.collServe h
        · exact h
    · exact h
  · exact h

theorem State.formOk.collFinish {s : State} (h : s.formOk) {ph : ℕ} : (s.collFinish ph).formOk := by
  unfold State.collFinish
  dsimp only
  split
  · refine .ite h.collEnd ?_
    split
    · exact .ite h.collEnd h
    · exact h
  · exact h

theorem State.formOk.collSettle {s : State} (h : s.formOk) : s.collSettle.formOk := by
  refine .ite h (.foldl ?_ fun _ _ h₁ => h₁.collFinish)
  refine .foldl ?_ fun _ _ h₁ => h₁.collLeadStep
  refine .foldl ?_ fun _ _ h₁ => .ite h₁.prepareNow h₁
  refine (h.foldl fun _ _ h₁ => (by split; exacts [h₁.collRun, h₁])).foldl fun _ _ h₁ => ?_
  split
  · exact h₁.collRun
  · exact h₁

theorem State.formOk.collReqDone {s : State} (h : s.formOk) {ph idx tag place status detail : ℕ} {data : List Byte} :
    (s.collReqDone ph idx tag place status detail data).formOk := by
  unfold State.collReqDone
  split
  · refine .ite h ?_
    split
    · extract_lets d t u
      have hu : u.formOk := .thenOp (fun ht => ht.collFail) h.setColl
      clear_value u
      split
      · refine .ite hu (.ite hu.setColl (.ite hu.collSummed ?_))
        split
        · exact hu.setColl.collSend
        · exact hu
      · exact hu
    · split
      · split
        · refine .ite h (.ite h.modLead ?_)
          split
          · exact h.collServed
          · exact h
        · exact h
      · exact h
    · exact .ite h.collFail h
  · exact h

theorem State.formOk.collDeliver {s : State} (h : s.formOk) {x : CollIn} {sub : ℕ} {f : State → CollMsg → State}
    (hf : ∀ t x1, t.formOk → (f t x1).formOk) : (s.collDeliver x sub f).formOk := by
  unfold State.collDeliver
  dsimp only
  split
  · split
    · exact .ite h ((hf _ _ h.withColl).collSettle)
    · exact h
  · refine .ite h ?_
    split
    · exact h.turnAway ‹_›
    · exact (hf _ _ h).respond.collSettle

theorem State.formOk.barrier {s : State} (h : s.formOk) {n : ℕ} : (Machine.barrier n s).formOk :=
  h.collective.collSettle

theorem State.formOk.allreduce {s : State} (h : s.formOk) {n : ℕ} : (Machine.allreduce n s).formOk :=
  h.collective.collSettle

theorem State.formOk.reduceScatter {s : State} (h : s.formOk) {n : ℕ} : (Machine.reduceScatter n s).formOk :=
  h.collective.collSettle

theorem State.formOk.allgather {s : State} (h : s.formOk) {n : ℕ} : (Machine.allgather n s).formOk :=
  h.collective.collSettle

theorem State.formOk.broadcast {s : State} (h : s.formOk) {n : ℕ} : (Machine.broadcast n s).formOk :=
  h.collective.collSettle

theorem State.formOk.alltoall {s : State} (h : s.formOk) {n : ℕ} : (Machine.alltoall n s).formOk :=
  h.collective.collSettle

theorem State.formOk.enter {s : State} (h : s.formOk) {x : CollIn} : (Machine.enter x s).formOk := by
  refine h.collDeliver fun _ _ h₁ => ?_
  split
  · split
    · exact h₁.collEnter
    · exact h₁
  · exact h₁

theorem State.formOk.collStartMsg {s : State} (h : s.formOk) {x : CollIn} : (Machine.collStartMsg x s).formOk := by
  refine h.collDeliver fun _ _ h₁ => ?_
  split
  · exact h₁.collStart
  · exact h₁

theorem State.formOk.pre {s : State} (h : s.formOk) {x : CollIn} : (Machine.pre x s).formOk := by
  refine h.collDeliver fun _ _ h₁ => ?_
  split
  · exact h₁.collPre
  · exact h₁

theorem State.formOk.go {s : State} (h : s.formOk) {x : CollIn} : (Machine.go x s).formOk := by
  refine h.collDeliver fun _ _ h₁ => ?_
  split
  · exact h₁.collGo
  · exact h₁

theorem State.formOk.chunkMsg {s : State} (h : s.formOk) {x : CollIn} : (Machine.chunkMsg x s).formOk :=
  h.collDeliver (fun _ _ h₁ => h₁.collChunk)

theorem State.formOk.collFreeMsg {s : State} (h : s.formOk) {x : CollIn} : (Machine.collFreeMsg x s).formOk :=
  h.collDeliver (fun _ _ h₁ => h₁.collFreed)

theorem State.formOk.reportCmd {s : State} (h : s.formOk) {x : CollIn} : (Machine.report x s).formOk := by
  refine h.collDeliver fun _ _ h₁ => ?_
  split
  · exact h₁.collReported
  · exact h₁

theorem State.formOk.stop {s : State} (h : s.formOk) {x : CollIn} : (Machine.stop x s).formOk :=
  h.collDeliver (fun _ _ h₁ => h₁.collStop)

theorem State.formOk.verdict {s : State} (h : s.formOk) {x : CollIn} : (Machine.verdict x s).formOk := by
  refine h.collDeliver fun _ _ h₁ => ?_
  split
  · exact h₁.collVerdictAt
  · exact h₁

theorem State.formOk.excluded {s : State} (h : s.formOk) {x : CollIn} : (Machine.excluded x s).formOk :=
  h.collDeliver (fun _ _ h₁ => h₁.collExcluded)

theorem State.formOk.entryDeadline {s : State} (h : s.formOk) {n : ℕ} : (Machine.entryDeadline n s).formOk :=
  h.onCore (fun _ _ h₁ => .ite h₁.collClose.collSettle h₁)

theorem State.formOk.entryTimeout {s : State} (h : s.formOk) {n : ℕ} : (Machine.entryTimeout n s).formOk :=
  h.onCore (fun _ _ h₁ => .ite h₁.collClose.collSettle h₁)

theorem State.formOk.startTimeout {s : State} (h : s.formOk) {n : ℕ} : (Machine.startTimeout n s).formOk := by
  refine h.onCore fun _ _ h₁ => ?_
  split
  · exact .ite h₁.collEnd.collSettle h₁
  · exact h₁

theorem State.formOk.chunkTimeout {s : State} (h : s.formOk) {n : ℕ} : (Machine.chunkTimeout n s).formOk := by
  refine h.onCore fun _ _ h₁ => ?_
  split
  · exact .ite h₁.collFail.collSettle h₁
  · exact h₁

theorem State.formOk.stopTimeout {s : State} (h : s.formOk) {n : ℕ} : (Machine.stopTimeout n s).formOk := by
  refine h.onCore fun _ _ h₁ => ?_
  split
  · split
    · exact .ite h₁.modLead.collSettle h₁
    · exact h₁
  · exact h₁

theorem State.formOk.lateTimeout {s : State} (h : s.formOk) {n : ℕ} : (Machine.lateTimeout n s).formOk := by
  refine h.onCore fun _ _ h₁ => ?_
  split
  · split
    · exact .ite h₁ h₁.modLead.finc.event.collSettle
    · exact h₁
  · exact h₁

/-! ### Operations of Machine/Nutmeg.lean -/

theorem State.formOk.putW {s : State} (h : s.formOk) {ph : ℕ} {d : UpdateD} {i : ℕ} {t : WTile} :
    (s.putW ph d i t).1.formOk := by
  unfold State.putW
  dsimp only
  split
  · exact h.locWrite
  · exact h.locWrite.locWrite

theorem State.formOk.sliceIn {s : State} (h : s.formOk) {ph : ℕ} {d : UpdateD} {i : ℕ} :
    (s.sliceIn ph d i).st.formOk := by
  unfold State.sliceIn
  dsimp only
  split
  · exact h.locRead
  · exact h.locRead.locRead

theorem State.formOk.sliceOut {s : State} (hs : s.formOk) {ph : ℕ} {d : UpdateD} {i : ℕ} {h : List ℕ}
    {recs : List (List Byte)} : (s.sliceOut ph d i h recs).1.formOk := hs.locWrite

theorem State.formOk.sliceHdr {s : State} (h : s.formOk) {ph : ℕ} {d : UpdateD} {i : ℕ} :
    (s.sliceHdr ph d i).1.formOk := h.locRead

theorem State.formOk.ruleSlice {s : State} (h : s.formOk) {ph : ℕ} {d : UpdateD} {c : NmSt} {i : ℕ} :
    (s.ruleSlice ph d c i).st.formOk := by
  unfold State.ruleSlice
  split
  next t₁ hs hd e₁ =>
    have h₁ : t₁.formOk := .ofFst e₁ h.sliceHdr
    extract_lets cur nxt src dst
    split
    · exact h₁
    · split
      · exact h₁
      · split
        · next t₂ e₂ => exact .ofFst e₂ h₁.readSlot
        · next t₂ t e₂ =>
          have h₂ : t₂.formOk := .ofFst e₂ h₁.readSlot
          extract_lets sf skip inp v n re recs v₁ hd₁ hd₂ pend ev fold hd₃ hd₄ out fl v₂ hd₅ v₃ wt fl₁
          have hi : inp.st.formOk := h₂.sliceIn
          split
          · exact hi.sliceOut
          · have h₃ : v₂.formOk := .ite (State.formOk.finc (.ite hi.finc hi)) (.ite hi.finc hi)
            split
            · exact h₃.sliceOut
            · have h₄ : v₃.formOk := .ite h₃.finc h₃
              split
              next t₄ ws e₄ =>
                have h₅ : t₄.formOk := .ofFst e₄ (State.fstOk.ite h₄.putW h₄.fst)
                extract_lets hd₆ hd₇
                split
                next t₅ st e₅ =>
                  have h₆ : t₅.formOk := .ofFst e₅ h₅.sliceOut
                  extract_lets u
                  have h₇ : u.formOk := .ite h₆ h₆.inc64
                  clear_value u
                  exact h₇

theorem State.formOk.seedSlice {s : State} (h : s.formOk) {ph : ℕ} {d : UpdateD} {c : NmSt} {i : ℕ} :
    (s.seedSlice ph d c i).st.formOk := by
  unfold State.seedSlice
  dsimp only
  split
  · exact h.locRead
  · exact h.locRead.locWrite

theorem State.formOk.firstTag {s : State} (h : s.formOk) {ph : ℕ} {d : UpdateD} {v i : ℕ} :
    (s.firstTag ph d v i).1.formOk := by
  unfold State.firstTag
  dsimp only
  exact h.sliceHdr

theorem State.formOk.deriveSlice {s : State} (h : s.formOk) {ph : ℕ} {d : UpdateD} {c : NmSt} {i : ℕ} :
    (s.deriveSlice ph d c i).st.formOk := by
  unfold State.deriveSlice
  dsimp only
  split
  · split
    · exact h.locRead
    · split
      · exact h.locRead.sliceHdr
      · split
        · exact h.locRead.sliceHdr.putW
        · exact h.locRead.sliceHdr.drawBytes.drawBytes.putW
  · exact h
  · exact h

theorem State.formOk.foldSlice {s : State} (h : s.formOk) {ph : ℕ} {d : UpdateD} {c : NmSt} {i : ℕ} :
    (s.foldSlice ph d c i).st.formOk := by
  unfold State.foldSlice
  split
  · dsimp only
    exact h.finc
  · split
    · split
      · split
        · dsimp only
          exact .putRaw (.freshCode (.ofFst ‹_› (.readSlot (.ofFst ‹_› h.readSlot))))
        · dsimp only
          exact .ofFst ‹_› (.readSlot (.ofFst ‹_› h.readSlot))

theorem State.formOk.normsSlice {s : State} (h : s.formOk) {ph : ℕ} {d : UpdateD} {c : NmSt} {i : ℕ} {acc : NormAcc} :
    (s.normsSlice ph d c i acc).1.st.formOk := by
  unfold State.normsSlice
  dsimp only
  split
  · exact h.sliceHdr
  · split
    · exact h.sliceHdr
    · split
      · exact .ofFst ‹_› h.sliceHdr.readSlot
      · split
        · exact .sliceIn (.ofFst ‹_› h.sliceHdr.readSlot)
        · exact .sliceIn (.ofFst ‹_› h.sliceHdr.readSlot)

theorem State.formOk.nmCapture {s : State} (h : s.formOk) {ph off tensor slice source : ℕ} :
    (s.nmCapture ph off tensor slice source).formOk := .ite h h.setReg.setReg

theorem State.formOk.auditSlice {s : State} (h : s.formOk) {ph : ℕ} {d : UpdateD} {c : NmSt} {i : ℕ} :
    (s.auditSlice ph d c i).st.formOk := by
  unfold State.auditSlice
  have hi : (s.sliceIn ph d i).st.formOk := h.sliceIn
  generalize s.sliceIn ph d i = inp at *
  extract_lets inp' wv named u p
  split
  · exact hi
  · split
    · exact h.locRead
    · next ver _ =>
      split
      · exact hi
      · extract_lets t g q v oldI newI oldS newS differs n
        have hg : g.st.formOk := by
          dsimp only [g]
          split
          · exact hi.locRead
          · exact hi
        have hq : q.st.formOk := by
          dsimp only [q]
          split
          · exact hg.locRead
          · exact hg
        split
        · exact hq
        · split
          · exact hq
          · split
            next t₁ st e₁ =>
              have h₁ : t₁.formOk := .ofFst e₁ hq.putW
              have h₂ : State.fstOk
                  (if named.isNone ∧ st = 0 then t₁.locWrite ph ((d.block i).add 8) (leBytes 4 ver) else (t₁, st)) :=
                .ite h₁.locWrite h₁.fst
              split
              next t₂ st₂ e₂ =>
                exact (State.formOk.ofFst e₂ h₂).finc.nmCapture

theorem State.formOk.emaCodes {s : State} (h : s.formOk) {d : UpdateD} {recs : List (List Byte)} :
    (s.emaCodes d recs).2.formOk := by
  unfold State.emaCodes
  dsimp only
  split
  · exact h
  · exact h.drawBytes

theorem State.formOk.evalSlice {s : State} (h : s.formOk) {ph : ℕ} {d : UpdateD} {c : NmSt} {i : ℕ} :
    (s.evalSlice ph d c i).st.formOk := by
  unfold State.evalSlice
  dsimp only
  split
  · exact h.sliceIn
  · exact h.sliceIn.emaCodes.putW

theorem State.formOk.extractSlice {s : State} (h : s.formOk) {ph : ℕ} {d : UpdateD} {c : NmSt} {i : ℕ} :
    (s.extractSlice ph d c i).st.formOk := by
  unfold State.extractSlice
  dsimp only
  split
  · exact h.sliceIn
  · split
    · exact h.locRead
    · split
      · exact h.sliceIn
      · refine State.formOk.locWrite ?_
        split
        · exact h.sliceIn.emaCodes
        · exact h.sliceIn

theorem State.formOk.outerSlice {s : State} (h : s.formOk) {ph : ℕ} {d : UpdateD} {c : NmSt} {i : ℕ} :
    (s.outerSlice ph d c i).st.formOk := by
  unfold State.outerSlice
  have hi : (s.sliceIn ph d i).st.formOk := h.sliceIn
  generalize s.sliceIn ph d i = inp at *
  extract_lets inp' tileOf gd gb gz bad v code dl bl zl
  split
  · exact hi
  · split
    · exact h.locRead
    · split
      · exact hi
      · extract_lets out fl wt
        have hd : gd.st.formOk := hi.locRead
        have hb : gb.st.formOk := by
          dsimp only [gb]
          split
          · exact hd.locRead
          · exact hd
        have hz : gz.st.formOk := by
          dsimp only [gz]
          split
          · exact hb.locRead
          · exact hb
        clear_value bad out
        split
        · exact hz
        · split
          next t₁ bs e₁ =>
            have h₁ : t₁.formOk := .ofFst e₁ (State.fstOk.ite hz.locWrite hz.fst)
            split
            next t₂ rs e₂ =>
              have h₂ : t₂.formOk := .ofFst e₂ h₁.sliceOut
              split
              · exact h₂
              · split
                next t₃ ws e₃ =>
                  have h₃ : t₃.formOk := .ofFst e₃ h₂.putW
                  split
                  · exact h₃
                  · exact h₃.locWrite

theorem State.formOk.nmerge {s : State} (h : s.formOk) {ph : ℕ} {d : UpdateD} : (s.nmerge ph d).st.formOk := by
  unfold State.nmerge
  have hg : (s.locRead ph ⟨true, d.aux⟩ (64 * d.slices)).st.formOk := h.locRead
  generalize s.locRead ph ⟨true, d.aux⟩ (64 * d.slices) = g at *
  extract_lets _ bs ns
  clear_value ns
  split
  · exact hg
  · split
    · exact hg
    · split
      · exact hg
      · extract_lets sum
        split
        · exact hg
        · split
          next t₁ st e₁ =>
            have h₁ : t₁.formOk := .ofFst e₁ hg.locWrite
            exact h₁

theorem State.formOk.cmp {s : State} (h : s.formOk) {ph : ℕ} {d : UpdateD} : (s.cmp ph d).1.formOk := by
  unfold State.cmp
  dsimp only
  split
  · exact h.locRead
  · split
    · exact h.locRead.locWrite
    · split
      · exact h.locRead.locWrite
      · exact h.locRead.locWrite.event.finc.nmCapture

theorem State.formOk.slicesRun {s : State} (h : s.formOk) {f : State → ℕ → SliceRes}
    (hf : ∀ t i, t.formOk → (f t i).st.formOk) {l : List ℕ} {fl : ℕ} : (State.slicesRun f l s fl).1.formOk := by
  induction l generalizing s fl with
  | nil => exact h
  | cons i l ih =>
    unfold State.slicesRun
    dsimp only
    split
    · exact hf s i h
    · exact ih (hf s i h)

theorem State.formOk.normsRun {s : State} (h : s.formOk) {ph : ℕ} {d : UpdateD} {c : NmSt} {n : NormRec}
    {old : List Byte} : (s.normsRun ph d c n old).1.formOk := by
  unfold State.normsRun
  split
  · dsimp only
    split
    · dsimp only
      refine State.formOk.locWrite ?_
      refine .foldlOf Prod.fst h fun _ _ h₁ => ?_
      split
      · exact h₁
      · exact h₁.normsSlice
    · dsimp only
      refine .foldlOf Prod.fst h fun _ _ h₁ => ?_
      split
      · exact h₁
      · exact h₁.normsSlice
  · dsimp only
    split
    · dsimp only
      refine State.formOk.locWrite ?_
      refine .foldlOf Prod.fst h fun _ _ h₁ => ?_
      split
      · exact h₁
      · exact h₁.normsSlice
    · dsimp only
      refine .foldlOf Prod.fst h fun _ _ h₁ => ?_
      split
      · exact h₁
      · exact h₁.normsSlice

theorem State.formOk.nmRec {r : State × ℕ × Option (ℕ × ℕ)} (h : r.1.formOk) {ph : ℕ} :
    (Machine.State.nmRec ph r).1.formOk := by
  unfold State.nmRec
  dsimp only
  split
  · exact h.raiseFlags
  · exact h.raiseFlags

theorem State.formOk.nmStart {s : State} (h : s.formOk) {ph : ℕ} {w : List Word} : (s.nmStart ph w).1.formOk := by
  apply State.fstOk.st
  unfold State.nmStart
  extract_lets d v e g q o r trust t
  have hg : g.st.formOk := by
    dsimp only [g]
    split
    · exact h.locRead
    · exact h
  have hq : q.st.formOk := by
    dsimp only [q]
    split
    · exact hg.locRead
    · exact hg
  have ht : State.fstOk t := .ite (hq.fst.foldl fun a i ha => (ha.st.firstTag (d := d) (v := v)).fst) hq.fst
  exact .ite h.fst (.ite hq.nmRec.fst ht.st.fst)

theorem State.formOk.nmRun {s : State} (h : s.formOk) {ph : ℕ} {w : List Word} {c : NmSt} :
    (s.nmRun ph w c).1.formOk := by
  unfold State.nmRun
  dsimp only
  split
  · exact h.cmp
  · split
    · exact h.nmerge.nmRec
    · split
      · refine State.formOk.nmRec ?_
        split
        · exact h.locRead
        · exact h.locRead.normsRun
      · refine .nmRec ?_
        refine h.slicesRun fun _ _ h₁ => ?_
        split
        · exact h₁.ruleSlice
        · exact h₁.seedSlice
        · exact h₁.deriveSlice
        · exact h₁.foldSlice
        · exact h₁.auditSlice
        · exact h₁.evalSlice
        · exact h₁.extractSlice
        · exact h₁.outerSlice

theorem State.formOk.nmNext {s : State} (h : s.formOk) {ph : ℕ} : (s.nmNext ph).formOk := by
  unfold State.nmNext
  dsimp only
  split
  · exact h
  · exact .ite h.nmStart.modInfl h

theorem State.formOk.updateIssue {s : State} (h : s.formOk) {p : ℕ → Bool} {n : ℕ} :
    (Machine.updateIssue p n s).formOk := by
  refine h.onCore fun _ _ h₁ => ?_
  split
  · exact h₁
  · refine .ite h₁.issueDone ?_
    split
    · exact h₁.issueDone
    · exact h₁.issue.nmNext

theorem State.formOk.updateComplete {s : State} (h : s.formOk) {n : ℕ} : (Machine.updateComplete n s).formOk := by
  refine h.onCore fun _ _ h₁ => ?_
  split
  · exact h₁
  · split
    · exact h₁.complete.nmNext
    · exact .ite h₁ h₁.nmRun.complete.nmNext
    · exact h₁

/-! ### Operations of Machine/Quantiser.lean -/

theorem State.formOk.exclusion {s : State} (h : s.formOk) {ph x : ℕ} : (s.exclusion ph x).1.formOk := by
  unfold State.exclusion
  dsimp only
  split
  · exact h.touch
  · exact h.touch.touch

theorem State.formOk.streamAt {s : State} (h : s.formOk) {ph x : ℕ} : (s.streamAt ph x).1.formOk :=
  (h.foldl fun _ _ h₁ => h₁.spCe).foldl fun _ _ h₁ => h₁.spUe

theorem State.formOk.zrun {s : State} (h : s.formOk) {n : ℕ} {f : State → ℕ → ZRun}
    (hf : ∀ t x1, t.formOk → (f t x1).st.formOk) : (Machine.zrun n s f).st.formOk := by
  refine .foldlOf ZRun.st h fun _ _ h₁ => ?_
  split
  · exact h₁
  · exact hf _ _ h₁

theorem State.formOk.zput {a : State × ℕ} (h : a.1.formOk) {ph x k v : ℕ} :
    (Machine.State.zput a ph x k v).1.formOk :=
  h.spWrite

theorem State.formOk.zencSlice {s : State} (h : s.formOk) {ph : ℕ} {d : ZopD} {site i : ℕ} :
    (s.zencSlice ph d site i).1.st.formOk := by
  unfold State.zencSlice
  extract_lets q8 skip key
  split
  next t ue e =>
    have ht : t.formOk := .ofFst e h.touch
    split
    · exact ht
    · refine .foldlOf (fun x : (State × ℕ) × ℕ × ℕ × List Byte => x.1.1) ht fun _ _ hu => ?_
      extract_lets xs ns f0 put
      have hput : ∀ p rs, p.1.formOk → (put p rs).1.formOk := fun p rs hp => by
        dsimp only [put]
        split
        · exact hp
        · exact .foldlOf Prod.fst hp fun _ _ hv => hv.zput
      clear_value put
      split
      · exact hput _ _ hu
      · exact hput _ _ hu

theorem State.formOk.zenc {s : State} (h : s.formOk) {ph : ℕ} {d : ZopD} : (s.zenc ph d).st.formOk := by
  unfold State.zenc
  extract_lets site r start offs len index
  have hr : r.1.st.formOk := .foldlOf (fun x : ZRun × List (List Byte) => x.1.st) h fun _ _ hu => by
    split
    · exact hu
    · exact hu.zencSlice
  clear_value r
  split
  · exact hr.drawBytes.sput
  · exact hr.drawBytes.spWrite

theorem State.formOk.zaccSlice {s : State} (hs : s.formOk) {ph : ℕ} {d : ZopD} {h : StreamHdr} {x : Exclusion}
    {i : ℕ} : (s.zaccSlice ph d h x i).st.formOk := by
  unfold State.zaccSlice
  dsimp only
  split
  · exact hs
  · split
    · split
      · split
        · exact hs.touch
        · exact hs.touch.readSlot
      · refine State.formOk.putRaw ?_
        refine State.formOk.freshCode ?_
        split
        · exact hs.touch
        · exact hs.touch.readSlot
    · split
      · exact hs.touch
      · exact hs.touch.readSlot

theorem State.formOk.zacc {s : State} (h : s.formOk) {ph : ℕ} {d : ZopD} : (s.zacc ph d).st.formOk := by
  unfold State.zacc
  split
  next t₁ hd ue e₁ =>
    have h₁ : t₁.formOk := .ofFst e₁ h.streamAt
    split
    next t₂ x ue₂ e₂ =>
      have h₂ : t₂.formOk := .ofFst e₂ h₁.exclusion
      split
      · exact h₂
      · exact h₂.zrun fun _ _ hu => hu.zaccSlice

theorem State.formOk.zundoSlice {s : State} (hs : s.formOk) {ph : ℕ} {d : ZopD} {h : StreamHdr} {x : Exclusion}
    {i : ℕ} : (s.zundoSlice ph d h x i).st.formOk := by
  unfold State.zundoSlice
  extract_lets q8 e
  split
  · exact hs
  · split
    next t ue et =>
      have ht : t.formOk := .ofFst et hs.touch
      split
      · exact ht
      · split
        · exact ht
        · exact .foldlOf (fun x : (State × ℕ) × ℕ => x.1.1) ht fun _ _ hu =>
            .foldlOf (fun x : (State × ℕ) × ℕ => x.1.1) hu fun _ _ hv => hv.zput

theorem State.formOk.zundo {s : State} (h : s.formOk) {ph : ℕ} {d : ZopD} : (s.zundo ph d).st.formOk := by
  unfold State.zundo
  split
  · split
    · split
      · dsimp only
        refine .ofFst ‹_› ?_
        split
        · exact .ofFst ‹_› h.streamAt
        · exact .exclusion (.ofFst ‹_› h.streamAt)
      · refine .zrun ?_ fun _ _ h₁ => h₁.zundoSlice
        refine .ofFst ‹_› ?_
        split
        · exact .ofFst ‹_› h.streamAt
        · exact .exclusion (.ofFst ‹_› h.streamAt)

theorem State.formOk.zmeanSlice {s : State} (h : s.formOk) {ph : ℕ} {d : ZopD} {i : ℕ} :
    (s.zmeanSlice ph d i).st.formOk := by
  unfold State.zmeanSlice
  split
  · dsimp only
    exact .ofFst ‹_› h.readSlot
  · dsimp only
    exact .spWrite (.ofFst ‹_› h.readSlot)

theorem State.formOk.zfieldSlice {s : State} (h : s.formOk) {ph : ℕ} {d : ZopD} {i : ℕ} :
    (s.zfieldSlice ph d i).st.formOk := by
  unfold State.zfieldSlice
  split
  · split
    · split
      · dsimp only
        exact .ofFst ‹_› h.touch
      · dsimp only
        exact .foldlOf Prod.fst (.ofFst ‹_› h.touch) fun _ _ h₁ => h₁.zput
  · split
    · split
      · dsimp only
        exact .ofFst ‹_› h.touch
      · dsimp only
        exact .spWrite (.ofFst ‹_› h.touch)

theorem State.formOk.zopRun {s : State} (h : s.formOk) {ph : ℕ} {w : List Word} : (s.zopRun ph w).1.formOk := by
  refine State.formOk.raiseFlags ?_
  split
  · exact h.zenc
  · exact h.zacc
  · exact h.zundo
  · exact h.zrun fun _ _ h₁ => h₁.zmeanSlice
  · exact h.zrun fun _ _ h₁ => h₁.zfieldSlice

theorem State.formOk.vxNext {s : State} (h : s.formOk) {ph : ℕ} : (s.vxNext ph).formOk := by
  unfold State.vxNext
  dsimp only
  split
  · exact h
  · refine .ite ?_ h
    refine State.formOk.modInfl ?_
    split
    · exact h.zopRun
    · exact h.vectorRun

theorem State.formOk.vectorIssue {s : State} (h : s.formOk) {p : ℕ → Bool} {n : ℕ} :
    (Machine.vectorIssue p n s).formOk := by
  unfold Machine.vectorIssue
  dsimp only
  refine h.onCore fun _ _ h₁ => ?_
  split
  · exact h₁
  · split
    · exact h₁.issueDone
    · exact .ite h₁.issueDone h₁.issue.vxNext

theorem State.formOk.vectorComplete {s : State} (h : s.formOk) {n : ℕ} : (Machine.vectorComplete n s).formOk := by
  refine h.onCore fun _ _ h₁ => ?_
  split
  · exact h₁
  · split
    · exact h₁.complete.vxNext
    · exact h₁

/-! ### Operations of Machine/Fabric.lean -/

theorem State.formOk.reqEnd {s : State} (h : s.formOk) {r : Req} {status detail : ℕ} {degraded : Bool}
    {data : List Byte} : (s.reqEnd r status detail degraded data).formOk := by
  unfold State.reqEnd
  dsimp only
  split
  · exact .moveDone (.ite h h.captureOwner)
  · exact .chainDone (.ite h h.captureOwner)
  · refine State.formOk.syncDone ?_
    split
    · exact .elseOp (fun hu => hu.slotAbort) (.ite h h.captureOwner)
    · exact .ite h h.captureOwner
  · exact .b2Done (.ite h h.captureOwner)
  · exact .safAnswered (.ite h h.captureOwner)
  · exact .collSettle (.collReqDone (.ite h h.captureOwner))
  · exact .ite h h.captureOwner
  · exact .ite (.ite h h.captureOwner) (.dropWaiting (.ite h h.captureOwner))

theorem State.formOk.endReq {s : State} (h : s.formOk) {r : Req} {status detail : ℕ} {degraded : Bool}
    {data : List Byte} : (s.endReq r status detail degraded data).formOk := h.dropReq.reqEnd

theorem State.formOk.rsp {s : State} (h : s.formOk) {a : Arrival} {gen : Fin 16} : (Machine.rsp a gen s).formOk := by
  refine .ite h ?_
  split
  · exact h.endReq
  · exact .ite h.finc h

theorem State.formOk.modReq {s : State} (h : s.formOk) {r : Req} {f : Req → Req} : (s.modReq r f).formOk := h

theorem State.formOk.fabNak {s : State} (h : s.formOk) {a : Arrival} {gen : Fin 16} :
    (Machine.fabNak a gen s).formOk := by
  refine .ite h ?_
  split
  · exact .ite h (.modReq (.ite h h.finc))
  · exact .ite h.finc h

theorem State.formOk.c2Resend {s : State} (h : s.formOk) {tag : Fin 262144} : (Machine.c2Resend tag s).formOk := by
  unfold Machine.c2Resend
  dsimp only
  split
  · exact h
  · refine .ite h.endReq ?_
    split
    · exact h.endReq
    · exact .ite h.endReq h.modReq.toPort

theorem State.formOk.trackerAdmit {s : State} (h : s.formOk) {cls : Fin 4} : (Machine.trackerAdmit cls s).formOk := by
  unfold Machine.trackerAdmit
  dsimp only
  split
  · exact h
  · refine .ite h ?_
    split
    · exact .ofFst ‹_› h.dropReq.grant
    · exact .reqEnd (.ofFst ‹_› h.dropReq.grant)

theorem State.formOk.requestTimeout {s : State} (h : s.formOk) {tag : Fin 262144} :
    (Machine.requestTimeout tag s).formOk := by
  refine .ite h ?_
  split
  · exact h.finc.endReq
  · exact h

theorem State.formOk.c2Timeout {s : State} (h : s.formOk) {k : ℕ} : (Machine.c2Timeout k s).formOk := by
  unfold Machine.c2Timeout
  dsimp only
  split
  · exact h
  · exact h.draw.finc.endReq

theorem State.formOk.serveRd {s : State} (h : s.formOk) {p : Packet} : (s.serveRd p).st.formOk := by
  unfold State.serveRd
  split
  · exact h
  · split
    · dsimp only
      split
      · exact h
      · split
        · exact h.regDeny.res
        · exact h.regRead.res
    · split
      · exact h.res
      · dsimp only; exact h.memRead.res

theorem State.formOk.logWr {s : State} (h : s.formOk) {p : Packet} : (s.logWr p).st.formOk := by
  unfold State.logWr
  dsimp only
  split
  · split
    · exact h.logEntry
    · split
      · exact h
      · exact h.logEntry
  · split
    · exact h
    · exact h.logEntry

theorem State.formOk.serveWr {s : State} (h : s.formOk) {p : Packet} : (s.serveWr p).st.formOk := by
  apply State.resOk.st
  unfold State.serveWr
  exact .ite h.res (.ite h.logWr (.ite (.ite h.regDeny.res h.regWrite.res) h.memWrite))

theorem State.formOk.serveSig {s : State} (h : s.formOk) {p : Packet} : (s.serveSig p).st.formOk := by
  unfold State.serveSig
  dsimp only
  split
  · split
    · exact h
    · exact h.logEntry
  · exact h.signalCore

theorem State.formOk.serve {s : State} (h : s.formOk) {p : Packet} : (s.serve p).formOk := by
  refine State.formOk.respond ?_
  split
  · exact h.serveRd
  · split
    · exact h.serveWr
    · exact h.serveSig

theorem State.formOk.arrive {s : State} (h : s.formOk) {a : Arrival} {op : ℕ} : (s.arrive a op).formOk := by
  refine .ite h ?_
  split
  · exact h.turnAway ‹_›
  · exact .ite h.withHeld h.serve

theorem State.formOk.tryHeld {s : State} (h : s.formOk) {h : HeldAcc} : (s.tryHeld h).formOk := by
  unfold State.tryHeld
  split
  · exact .ite h h.serve
  · exact h.writeAcc
  · exact h.readAcc
  · exact h.b2Release
  · exact h.pieceGo
  · split
    · split
      · exact h.complete
      · exact h
    · exact h
  · exact h.signal

theorem State.formOk.releaseHeld {s : State} (h : s.formOk) {fuel : ℕ} : (s.releaseHeld fuel).formOk := by
  induction fuel generalizing s with
  | zero => exact h
  | succ fuel ih =>
    have ht : (s.held.foldl State.tryHeld { s with held := [] }).formOk := h.withHeld.foldl fun _ _ h₁ => h₁.tryHeld
    exact .ite h (.ite (ih ht) ht)

theorem State.formOk.unstall {s : State} (h : s.formOk) {fuel : ℕ} : (s.unstall fuel).formOk := by
  induction fuel generalizing s with
  | zero => exact h
  | succ fuel ih =>
    unfold State.unstall
    split
    · exact h
    · dsimp only
      split
      · exact ih (.ofFst ‹_› h.withFab.reachTracker)
      · exact ih (.reqEnd (.ofFst ‹_› h.withFab.reachTracker))

theorem State.formOk.settle {s : State} (h : s.formOk) : s.settle.formOk :=
  (h.unstall.releaseHeld.foldl fun _ _ h₁ => .ite h₁ h₁.vxNext.nmNext.chainAgain.txnNext).collSettle

theorem State.formOk.rd {s : State} (h : s.formOk) {a : Arrival} : (Machine.rd a s).formOk := h.arrive

theorem State.formOk.wr {s : State} (h : s.formOk) {a : Arrival} : (Machine.wr a s).formOk := h.arrive.settle

theorem State.formOk.sig {s : State} (h : s.formOk) {a : Arrival} : (Machine.sig a s).formOk := h.arrive

theorem State.formOk.cloveArrive {s : State} (h : s.formOk) {a : Arrival} {kind : ℕ} :
    (s.cloveArrive a kind).formOk := by
  refine .ite h ?_
  split
  · exact h.turnAway ‹_›
  · exact h.cloveReceive.respond.settle

theorem State.formOk.join {s : State} (h : s.formOk) {a : Arrival} : (Machine.join a s).formOk := h.cloveArrive

theorem State.formOk.vote {s : State} (h : s.formOk) {a : Arrival} : (Machine.vote a s).formOk := h.cloveArrive

theorem State.formOk.decideMsg {s : State} (h : s.formOk) {a : Arrival} : (Machine.decideMsg a s).formOk :=
  h.cloveArrive

theorem State.formOk.ack {s : State} (h : s.formOk) {a : Arrival} : (Machine.ack a s).formOk := h.cloveArrive

theorem State.formOk.query {s : State} (h : s.formOk) {a : Arrival} : (Machine.query a s).formOk := h.cloveArrive

theorem State.formOk.applyEntry {s : State} (h : s.formOk) {e : LogEntry} {bad : List ℕ} :
    (s.applyEntry e bad).1.formOk := by
  unfold State.applyEntry
  dsimp only
  split
  · refine .foldlOf Prod.fst h fun _ _ h₁ => ?_
    split
    · exact h₁
    · exact h₁.memWrite
  · split
    · exact h.regWrite
    · exact h
  · split
    · exact h.setReg.f2hRing
    · exact h
  · split
    · split
      · exact h.signalNow
      · exact h
    · exact h

theorem State.formOk.applyDone {s : State} (h : s.formOk) {n : SlotId} {fails : List (ℕ × ℕ × ℕ)} :
    (Machine.applyDone n fails s).formOk := by
  unfold Machine.applyDone
  extract_lets x bad t r
  refine .ite h ?_
  have ht : t.formOk := h.foldl fun _ _ hu => hu.hbmUe
  have hr : State.fstOk r := ht.fst.foldl fun a e ha => ha.st.applyEntry.fst
  exact hr.st.modSlot.slotFree.settle

theorem State.formOk.packetForward {s : State} (h : s.formOk) {a : Arrival} : (Machine.packetForward a s).formOk := by
  refine .ite h.finc ?_
  refine .ite h ?_
  split
  · exact .ite h.respond h
  · exact .ite (.ite h.respond h) h.toPort

theorem State.formOk.routeFillDone {s : State} (h : s.formOk) : (Machine.routeFillDone s).formOk := .ite h h.same

/-! ### Operations of Machine/HostRegs.lean -/

theorem State.formOk.put {s : State} (h : s.formOk) {a : ℕ} {p : Put} : (s.put a p).formOk := h.writeAcc.settle

theorem State.formOk.putWord {s : State} (h : s.formOk) {a : ℕ} {rq : Requester} {v : Word} :
    (s.putWord a rq v).formOk := h.writeAcc.settle

theorem State.formOk.drTailWrite {s : State} (h : s.formOk) {n : CoreId} {p : Put} :
    (Machine.drTailWrite n p s).formOk := h.put

theorem State.formOk.preemptRequest {s : State} (h : s.formOk) {n : CoreId} {rq : Requester} {v : Word} :
    (Machine.preemptRequest n rq v s).formOk := h.putWord

theorem State.formOk.preemptRelease {s : State} (h : s.formOk) {n : CoreId} {rq : Requester} {v : Word} :
    (Machine.preemptRelease n rq v s).formOk := h.putWord

theorem State.formOk.coreRst {s : State} (h : s.formOk) {n : CoreId} {rq : Requester} {v : Word} :
    (Machine.coreRst n rq v s).formOk := h.putWord

theorem State.formOk.haltWrite {s : State} (h : s.formOk) {n : CoreId} {p : Put} : (Machine.haltWrite n p s).formOk :=
  h.put

theorem State.formOk.tokenWrite {s : State} (h : s.formOk) {n : CoreId} {t : Fin 64} {p : Put} :
    (Machine.tokenWrite n t p s).formOk := h.put

theorem State.formOk.tabClr {s : State} (h : s.formOk) {n : CoreId} {rq : Requester} {v : Word} :
    (Machine.tabClr n rq v s).formOk := h.putWord

theorem State.formOk.flagClear {s : State} (h : s.formOk) {die : Option DieId} {k : Fin 3} {rq : Requester}
    {v : Word} : (Machine.flagClear die k rq v s).formOk := h.putWord

theorem State.formOk.readClear {s : State} (h : s.formOk) {r : RegRd} : (Machine.readClear r s).formOk := h.readAcc

theorem State.formOk.loRead {s : State} (h : s.formOk) {r : RegRd} : (Machine.loRead r s).formOk := h.readAcc

theorem State.formOk.registerWrite {s : State} (h : s.formOk) {w : RegWr} : (Machine.registerWrite w s).formOk :=
  h.writeAcc.settle

theorem State.formOk.pgEvtWrite {s : State} (h : s.formOk) {page : ℕ} {p : Put} :
    (Machine.pgEvtWrite page p s).formOk := h.put

theorem State.formOk.pgEvtInj {s : State} (h : s.formOk) {page : ℕ} {rq : Requester} {v : Word} :
    (Machine.pgEvtInj page rq v s).formOk := h.putWord

theorem State.formOk.pgCntSel {s : State} (h : s.formOk) {page : ℕ} {p : Put} : (Machine.pgCntSel page p s).formOk :=
  h.put

theorem State.formOk.updStrobe {s : State} (h : s.formOk) {rq : Requester} {v : Word} :
    (Machine.updStrobe rq v s).formOk := h.putWord

theorem State.formOk.hsemRead {s : State} (h : s.formOk) {k : Fin 16} {rq : Requester} :
    (Machine.hsemRead k rq s).formOk := h.readAcc

theorem State.formOk.hsemWrite {s : State} (h : s.formOk) {k : Fin 16} {p : Put} : (Machine.hsemWrite k p s).formOk :=
  h.put

theorem State.formOk.idxData {s : State} (h : s.formOk) {rq : Requester} {w : Option Word} :
    (Machine.idxData rq w s).formOk := by
  unfold Machine.idxData
  split
  · exact h.putWord
  · exact h.readAcc

theorem State.formOk.h2fWrite {s : State} (h : s.formOk) {p : HostPort} {k : Fin 16} {q : HostPort} {v : Word} :
    (Machine.h2fWrite p k q v s).formOk := h.putWord

theorem State.formOk.h2fRead {s : State} (h : s.formOk) {p : HostPort} {k : Fin 16} :
    (Machine.h2fRead p k s).formOk :=
  h.readAcc

theorem State.formOk.f2hWrite {s : State} (h : s.formOk) {p : HostPort} {k : Fin 16} {v : Word} :
    (Machine.f2hWrite p k v s).formOk := h.putWord

theorem State.formOk.f2hRead {s : State} (h : s.formOk) {p : HostPort} {k : Fin 16} {q : HostPort} :
    (Machine.f2hRead p k q s).formOk := h.readAcc

theorem State.formOk.doorbellRing {s : State} (h : s.formOk) {p : HostPort} {toHost : Bool} {rq : Requester}
    {v : Word} : (Machine.doorbellRing p toHost rq v s).formOk := h.putWord

theorem State.formOk.routeGen {s : State} (h : s.formOk) {rq : Requester} : (Machine.routeGen rq s).formOk :=
  h.putWord

theorem State.formOk.rtDataWrite {s : State} (h : s.formOk) {p : Put} : (Machine.rtDataWrite p s).formOk := h.put

theorem State.formOk.modIdWrite {s : State} (h : s.formOk) {p : Put} : (Machine.modIdWrite p s).formOk := h.put

theorem State.formOk.forceAbort {s : State} (h : s.formOk) {n : SlotId} {rq : Requester} :
    (Machine.forceAbort n rq s).formOk := h.putWord

theorem State.formOk.forceCommit {s : State} (h : s.formOk) {n : SlotId} {rq : Requester} :
    (Machine.forceCommit n rq s).formOk := h.putWord

theorem State.formOk.forceRelease {s : State} (h : s.formOk) {n : SlotId} {rq : Requester} :
    (Machine.forceRelease n rq s).formOk := h.putWord

theorem State.formOk.d1Set {s : State} (h : s.formOk) {rq : Requester} : (Machine.d1Set rq s).formOk := h.putWord

theorem State.formOk.d1Clear {s : State} (h : s.formOk) {rq : Requester} : (Machine.d1Clear rq s).formOk := h.putWord

theorem State.formOk.d2Exit {s : State} (h : s.formOk) {rq : Requester} {v : Word} : (Machine.d2Exit rq v s).formOk :=
  h.putWord

theorem State.formOk.arbCommit {s : State} (h : s.formOk) {rq : Requester} {v : Word} :
    (Machine.arbCommit rq v s).formOk := h.putWord

theorem State.formOk.slotErase {s : State} (h : s.formOk) {rq : Requester} {v : Word} :
    (Machine.slotErase rq v s).formOk := h.putWord

theorem State.formOk.untrRel {s : State} (h : s.formOk) {rq : Requester} {v : Word} :
    (Machine.untrRel rq v s).formOk :=
  h.putWord

theorem State.formOk.jrTailWrite {s : State} (h : s.formOk) {n : SafId} {p : Put} :
    (Machine.jrTailWrite n p s).formOk := h.put

theorem State.formOk.reqP0 {s : State} (h : s.formOk) {rq : Requester} {autoP2 : Bool} :
    (Machine.reqP0 rq autoP2 s).formOk := h.putWord

theorem State.formOk.reqP2 {s : State} (h : s.formOk) {rq : Requester} {autoP2 : Bool} :
    (Machine.reqP2 rq autoP2 s).formOk := h.putWord

theorem State.formOk.reqP3 {s : State} (h : s.formOk) {rq : Requester} {autoP2 : Bool} :
    (Machine.reqP3 rq autoP2 s).formOk := h.putWord

theorem State.formOk.reqP4 {s : State} (h : s.formOk) {rq : Requester} {autoP2 : Bool} :
    (Machine.reqP4 rq autoP2 s).formOk := h.putWord

theorem State.formOk.spareCore {s : State} (h : s.formOk) {rq : Requester} {n : CoreId} :
    (Machine.spareCore rq n s).formOk := h.putWord

theorem State.formOk.spareBank {s : State} (h : s.formOk) {rq : Requester} {n : CoreId} {bank : Fin 8} :
    (Machine.spareBank rq n bank s).formOk := h.putWord

theorem State.formOk.spareHbmRebuild {s : State} (h : s.formOk) {rq : Requester} {d : DieId} :
    (Machine.spareHbmRebuild rq d s).formOk := h.putWord

theorem State.formOk.logDataRead {s : State} (h : s.formOk) {rq : Requester} : (Machine.logDataRead rq s).formOk :=
  h.readAcc

theorem State.formOk.portEnable {s : State} (h : s.formOk) {n : FpId} {rq : Requester} {rateCap : Bool} :
    (Machine.portEnable n rq rateCap s).formOk := h.putWord

theorem State.formOk.portDisable {s : State} (h : s.formOk) {n : FpId} {rq : Requester} {rateCap : Bool} :
    (Machine.portDisable n rq rateCap s).formOk := h.putWord

theorem State.formOk.applyShadows {s : State} (h : s.formOk) {page : ℕ} : (s.applyShadows page).formOk :=
  h.foldl fun _ _ h₁ => h₁.setReg

theorem State.formOk.updateApply {s : State} (h : s.formOk) {p : HostPort} : (Machine.updateApply p s).formOk :=
  .ite h.applyShadows h

theorem State.formOk.regError {s : State} (h : s.formOk) {rq : Requester} : (s.regError rq).formOk := by
  refine State.formOk.send ?_
  split
  · exact h.finc.event.send
  · exact h

theorem State.formOk.captureTmo {s : State} (h : s.formOk) {a : ℕ} {rq : Requester} {wr : Bool} :
    (s.captureTmo a rq wr).formOk := by
  unfold State.captureTmo
  split
  · exact h.capture
  · exact h

theorem State.formOk.moveTmo {s : State} (h : s.formOk) {x : ℕ × Infl × MoveSt × Piece} : (s.moveTmo x).formOk := by
  refine State.formOk.moveSettle ?_
  split
  · exact h.captureFail.slotAbort
  · exact h.captureFail

theorem State.formOk.accTmo {s : State} (hs : s.formOk) {h : HeldAcc} {rq : Requester} {a : ℕ} {wr : Bool} :
    (s.accTmo h rq a wr).formOk := by
  refine .ite (.regError hs.captureTmo.same) ?_
  split
  · exact hs.captureTmo.b2Fail.b2Settle
  · split
    · exact hs.captureTmo.moveTmo
    · exact hs.captureTmo.regError

theorem State.formOk.registerTimeout {s : State} (h : s.formOk) {x : RegAcc} :
    (Machine.registerTimeout x s).formOk := by
  refine .ite h ?_
  split
  · exact h.accTmo
  · exact h.accTmo
  · exact .ite h h.same.captureTmo.respond

theorem State.formOk.configRetry {s : State} (h : s.formOk) {c : ConfigIn} : (Machine.configRetry c s).formOk :=
  .ite (.ite h.send h.send) h

theorem State.formOk.resetPage {s : State} (h : s.formOk) {page : ℕ} {keep : ℕ → Bool} :
    (s.resetPage page keep).formOk :=
  ⟨h.mem, Tab.rising_filter h.regs _, h.cores, h.hbm, h.slots, h.saf⟩

theorem State.formOk.dropPort {s : State} (h : s.formOk) {p : HostPort} : (s.dropPort p).formOk :=
  h.dropWaiting.others.foldl fun _ _ hu => .ite hu.setReg hu

theorem State.formOk.flr {s : State} (h : s.formOk) {p : HostPort} : (Machine.flr p s).formOk :=
  .ite h h.dropPort.resetPage.resetPage.event

theorem State.formOk.perstAssert {s : State} (h : s.formOk) {p : HostPort} : (Machine.perstAssert p s).formOk :=
  .ite h (.ite h.same (.refreshDeg (.finc (.resetPage (.resetPage (.setHostLink (.dropPort h.same)))))))

/-! ### Operations of Machine/Boot.lean -/

theorem State.formOk.journal {s : State} (h : s.formOk) {boot step state reason detail : ℕ} :
    (s.journal boot step state reason detail).formOk := by
  unfold State.journal
  dsimp only
  exact h.draw.same

theorem State.formOk.writeHung {s : State} (h : s.formOk) : s.writeHung.formOk :=
  h.foldl fun _ _ h₁ => .ite h₁.journal h₁

theorem State.formOk.setPhase {s : State} (h : s.formOk) {n : ℕ} : (s.setPhase n).formOk := .ite h h.fset.event

theorem State.formOk.applyStraps {s : State} (h : s.formOk) : s.applyStraps.formOk := h.fset.fset

theorem State.formOk.latchStraps {s : State} (h : s.formOk) : s.latchStraps.formOk := h.setReg

theorem State.formOk.stepBegin {s : State} (h : s.formOk) {k detail : ℕ} : (s.stepBegin k detail).formOk :=
  h.fset.journal.withBoot

theorem State.formOk.stepDone {s : State} (h : s.formOk) {k : ℕ} {alt : Bool} {detail : ℕ} :
    (s.stepDone k alt detail).formOk := h.journal

theorem State.formOk.stepFail {s : State} (h : s.formOk) {k reason detail : ℕ} :
    (s.stepFail k reason detail).formOk :=
  .logEvent (.event (.finc (.ite h.journal.fset h.journal)))

theorem State.formOk.haltBoot {s : State} (h : s.formOk) : s.haltBoot.formOk := h.same

theorem State.formOk.mustPass {s : State} (h : s.formOk) {k : ℕ} {ok : Bool} : (s.mustPass k ok).1.formOk := by
  unfold State.mustPass
  split
  · exact h.stepDone
  · exact h.stepFail.haltBoot

theorem State.formOk.mayFail {s : State} (h : s.formOk) {k : ℕ} {alt : Bool} {x : Option (ℕ × ℕ)} :
    (s.mayFail k alt x).1.formOk := by
  unfold State.mayFail
  split
  · exact h.stepDone
  · exact h.stepFail

theorem State.formOk.bs01 {s : State} (h : s.formOk) {b : BootIn} : (Machine.bs01 b s).1.formOk := by
  unfold Machine.bs01
  split
  · exact h.stepFail.logEvent.fatal
  · exact h.stepFail.logEvent.fatal
  · exact h.stepDone

theorem State.formOk.bs02 {s : State} (h : s.formOk) : (Machine.bs02 s).1.formOk := by
  unfold Machine.bs02
  dsimp only
  split
  · exact h.applyStraps.pwrUpdate.fset.event.mayFail
  · exact h.applyStraps.pwrUpdate.mayFail

theorem State.formOk.bs04 {s : State} (h : s.formOk) {b : BootIn} : (Machine.bs04 b s).1.formOk := by
  unfold Machine.bs04
  dsimp only
  split
  · exact h.mustPass
  · exact .mustPass (.ite h.same h)

theorem State.formOk.acceptImage {s : State} (h : s.formOk) {img : List Byte} {src : ℕ} :
    (s.acceptImage img src).formOk := h.fset

theorem State.formOk.enterLoad {s : State} (h : s.formOk) : s.enterLoad.formOk := h.fset

theorem State.formOk.bs05Try {s : State} (h : s.formOk) {b : BootIn} {alt : Bool} {l : List ℕ} :
    (Machine.bs05Try b alt l s).1.formOk := by
  apply State.fstOk.st
  induction l generalizing s with
  | nil => exact h.enterLoad.fst
  | cons src l ih => exact .ite h.acceptImage.stepDone.fst (ih h.stepFail)

theorem State.formOk.bs05 {s : State} (h : s.formOk) {b : BootIn} {resume : Bool} :
    (Machine.bs05 b resume s).1.formOk := h.bs05Try

theorem State.formOk.bs06 {s : State} (h : s.formOk) {b : BootIn} : (Machine.bs06 b s).1.formOk := by
  unfold Machine.bs06
  dsimp only
  split
  · exact h.setReg.withSec.mayFail
  · exact h.setReg.withSec.mayFail

theorem State.formOk.bs07 {s : State} (h : s.formOk) {b : BootIn} : (Machine.bs07 b s).1.formOk := .mayFail h.same

theorem State.formOk.bs08 {s : State} (h : s.formOk) {b : BootIn} {resume : Bool} :
    (Machine.bs08 b resume s).1.formOk := .mustPass (.ite h.newNonce h.newNonce.withSec)

theorem State.formOk.replaceAtStart {s : State} (h : s.formOk) {failing : List ℕ} {c : ℕ} :
    (s.replaceAtStart failing c).formOk := by
  unfold State.replaceAtStart
  dsimp only
  split
  · exact h
  · split
    · exact .setCore h.logRepair
    · exact h.draw.logRepair

theorem State.formOk.bankAtStart {s : State} (h : s.formOk) {x : ℕ × ℕ} : (s.bankAtStart x).formOk :=
  .ite h h.logRepair.fset.same

theorem State.formOk.bs09 {s : State} (h : s.formOk) {b : BootIn} {resume : Bool} :
    (Machine.bs09 b resume s).1.formOk := by
  unfold Machine.bs09
  dsimp only
  split
  · refine State.formOk.mayFail ?_
    refine .thenOp (fun hu => .foldl hu fun _ _ h₁ => h₁.bankAtStart) (.foldl ?_ fun _ _ h₁ => h₁.replaceAtStart)
    exact .foldl (.foldl h.same fun _ _ h₁ => h₁.fset) fun _ _ h₁ => h₁.bankPending
  · refine State.formOk.mayFail ?_
    refine .thenOp (fun hu => .foldl hu fun _ _ h₁ => h₁.bankAtStart) (.foldl ?_ fun _ _ h₁ => h₁.replaceAtStart)
    exact .foldl (.foldl h.same fun _ _ h₁ => h₁.fset) fun _ _ h₁ => h₁.bankPending

theorem State.formOk.trainAtStart {s : State} (h : s.formOk) {b : BootIn} {n : ℕ} : (s.trainAtStart b n).formOk :=
  .ite h (.ite h.modHbmc h.hbmFail)

theorem State.formOk.hardRepair {s : State} (h : s.formOk) : s.hardRepair.formOk :=
  .foldl h fun _ _ h₁ => .ite h₁ h₁.modHbmc

theorem State.formOk.bs10 {s : State} (h : s.formOk) {b : BootIn} {resume : Bool} :
    (Machine.bs10 b resume s).1.formOk := by
  unfold Machine.bs10
  dsimp only
  split
  · refine State.formOk.mayFail ?_
    refine .ite (h.foldl fun _ _ h₁ => h₁.trainAtStart) ?_
    refine .elseOp (fun hu => .foldl (.foldl hu fun _ _ h₁ => h₁.setReg) fun _ _ h₁ => .ite h₁.rebuildMap h₁) ?_
    exact .elseOp (fun hu => hu.hardRepair) (h.foldl fun _ _ h₁ => h₁.trainAtStart)
  · refine State.formOk.mayFail ?_
    refine .ite (h.foldl fun _ _ h₁ => h₁.trainAtStart) ?_
    refine .elseOp (fun hu => .foldl (.foldl hu fun _ _ h₁ => h₁.setReg) fun _ _ h₁ => .ite h₁.rebuildMap h₁) ?_
    exact .elseOp (fun hu => hu.hardRepair) (h.foldl fun _ _ h₁ => h₁.trainAtStart)

theorem State.formOk.bs11 {s : State} (h : s.formOk) {b : BootIn} : (Machine.bs11 b s).1.formOk :=
  (h.foldl fun _ _ h₁ => h₁.event.retireSaf).mayFail

theorem State.formOk.bs12 {s : State} (h : s.formOk) {b : BootIn} : (Machine.bs12 b s).1.formOk :=
  ((h.foldl fun _ _ h₁ => h₁.setFp).foldl fun _ _ h₁ => h₁.setSite).mayFail

theorem State.formOk.bs13 {s : State} (h : s.formOk) {b : BootIn} : (Machine.bs13 b s).1.formOk := .mustPass h.same

theorem State.formOk.bootReady {s : State} (h : s.formOk) : s.bootReady.formOk := by
  unfold State.bootReady
  dsimp only
  split
  · exact .reqWritten (.withPwr (.ite h.fset.withBoot.event.refreshDeg.raiseSvn h.fset.withBoot.event.refreshDeg))
  · exact .withPwr (.ite h.fset.withBoot.event.refreshDeg.raiseSvn h.fset.withBoot.event.refreshDeg)

theorem State.formOk.bs14 {s : State} (h : s.formOk) {b : BootIn} : (Machine.bs14 b s).1.formOk := by
  unfold Machine.bs14
  dsimp only
  split
  · exact h.mustPass.bootReady
  · exact h.mustPass

theorem State.formOk.runSteps {s : State} (h : s.formOk) {b : BootIn} {l : List (ℕ × (State → State × Bool))}
    (hl : ∀ f ∈ l, ∀ t, t.formOk → (f.2 t).1.formOk) : (Machine.runSteps b l s).formOk := by
  induction l generalizing s with
  | nil => exact h
  | cons x l ih =>
    have ht := hl x List.mem_cons_self _
      (h.stepBegin (k := x.1) (detail := if x.1 = 9 ∧ b.hang = 9 then b.hangDie else 0))
    exact .ite h.stepBegin (.ite (ih ht fun f hf => hl f (List.mem_cons_of_mem _ hf)) ht)

theorem bootSteps_formOk {b : BootIn} {resume : Bool} :
    ∀ f ∈ bootSteps b resume, ∀ t : State, t.formOk → (f.2 t).1.formOk := by
  simp only [bootSteps, List.forall_mem_append, List.forall_mem_cons]
  refine ⟨⟨⟨fun _ h => h.bs01, List.forall_mem_nil _⟩, ?_⟩, fun _ h => h.mustPass, fun _ h => h.bs04,
    fun _ h => h.bs05, fun _ h => h.bs06, fun _ h => h.bs07, fun _ h => h.bs08, fun _ h => h.bs09, fun _ h => h.bs10,
    fun _ h => h.bs11,
    fun _ h => h.bs12, fun _ h => h.bs13, fun _ h => h.bs14, List.forall_mem_nil _⟩
  split
  · exact List.forall_mem_nil _
  · exact List.forall_mem_singleton.2 fun _ h => h.bs02

theorem State.formOk.start {s : State} (h : s.formOk) {b : BootIn} {resume : Bool} : (s.start b resume).formOk := by
  unfold State.start
  extract_lets s₁ s₂ s₃ s₄ s₅
  have h₃ : s₃.formOk := h.setReg.setReg.fset
  have h₄ : s₄.formOk := h₃.withHbm (by
    split
    · exact h₃.hbm
    · exact Tab.rising_hbmReleased s₃)
  have h₅ : s₅.formOk := .ite h₄.applyStraps.pwrUpdate h₄.writeHung
  exact h₅.runSteps bootSteps_formOk

theorem State.formOk.modReset {s : State} (h : s.formOk) {internal : Bool} : (s.modReset internal).formOk :=
  (h.loseVolatile.foldl fun _ _ ht => ht.setHbmc).others

theorem State.formOk.modResetAssert {s : State} (h : s.formOk) : (Machine.modResetAssert s).formOk :=
  .ite h h.modReset.withBoot

theorem State.formOk.pwrOkRise {s : State} (h : s.formOk) : (Machine.pwrOkRise s).formOk :=
  .ite h (h.modReset.withHbm rfl).withBoot

theorem State.formOk.startFull {s : State} (h : s.formOk) {b : BootIn} : (s.startFull b).formOk :=
  .start (.latchStraps h.same)

theorem State.formOk.strapSample {s : State} (h : s.formOk) {pins : BitVec 12} {b : BootIn} :
    (Machine.strapSample pins b s).formOk := .ite h (.ite (.startFull h.same) h.same)

theorem State.formOk.modResetRelease {s : State} (h : s.formOk) {b : BootIn} : (Machine.modResetRelease b s).formOk :=
  .ite h (.ite h.withBoot.setPhase.withBoot h.withBoot.setPhase.startFull)

theorem State.formOk.runPhase {s : State} (h : s.formOk) : (Machine.runPhase s).formOk := .ite h.setPhase h

theorem State.formOk.watchdog {s : State} (h : s.formOk) {b : BootIn} : (Machine.watchdog b s).formOk :=
  .ite h h.modReset.start

theorem State.formOk.heartbeat {s : State} (h : s.formOk) : (Machine.heartbeat s).formOk := .ite h (.send h.same)

theorem State.formOk.perstRelease {s : State} (h : s.formOk) {p : HostPort} : (Machine.perstRelease p s).formOk :=
  .ite h (.ite h.same (.ite (.event h.same) h.same))

theorem State.formOk.resumeTime {s : State} (h : s.formOk) : s.resumeTime.formOk :=
  .ite (.setTimeState h.same) h.setTimeState

theorem State.formOk.p3Exit {s : State} (h : s.formOk) {b : BootIn} : (Machine.p3Exit b s).formOk :=
  .ite h (.start (.foldl h.resumeTime.same fun _ _ h₁ => .ite h₁.modHbmc h₁))

theorem State.formOk.loadModeImage {s : State} (h : s.formOk) {b : BootIn} : (Machine.loadModeImage b s).formOk := by
  unfold Machine.loadModeImage
  refine .ite h ?_
  extract_lets len s₁ s₂ img r src s₃ s₄ x s₅ s₆ resume
  have h₂ : s₂.formOk := h.setReg.setReg
  have h₄ : s₄.formOk := h₂.acceptImage.fset
  clear_value s₂ s₄
  have h₅ : s₅.formOk := h₄.withBoot
  clear_value s₅
  have h₆ : s₆.formOk := h₅.stepDone
  clear_value s₆
  exact .ite h₂.regWrite (h₆.runSteps fun f hf => bootSteps_formOk f (List.mem_of_mem_filter hf))

theorem State.formOk.spareDone {s : State} (h : s.formOk) : (Machine.spareDone s).formOk := h.spareEnd.settle

theorem State.formOk.spprDone {s : State} (h : s.formOk) {n : HbmId} : (Machine.spprDone n s).formOk :=
  h.spprEnd.settle

theorem State.formOk.logCoalesceFlush {s : State} (h : s.formOk) : (Machine.logCoalesceFlush s).formOk := .ite h h

/-! ### Operations of Machine/Mctp.lean -/

theorem State.formOk.mctpAnswer {s : State} (h : s.formOk) {inst : Fin 32} {cmd cc : ℕ} {data : List Byte} :
    (s.mctpAnswer inst cmd cc data).formOk := h.send

theorem State.formOk.setEndpointId {s : State} (h : s.formOk) {inst : Fin 32} {op : Fin 4} {eid : Byte} :
    (Machine.setEndpointId inst op eid s).formOk := .ite h (.ite h.mctpAnswer (.mctpAnswer h.same))

theorem State.formOk.getEndpointId {s : State} (h : s.formOk) {inst : Fin 32} :
    (Machine.getEndpointId inst s).formOk :=
  .ite h.mctpAnswer h

theorem State.formOk.getMctpVersionSupport {s : State} (h : s.formOk) {inst : Fin 32} {type : Byte} :
    (Machine.getMctpVersionSupport inst type s).formOk := by
  unfold Machine.getMctpVersionSupport
  dsimp only
  exact .ite h (.ite h.drawBytes.mctpAnswer h.mctpAnswer)

theorem State.formOk.getMessageTypeSupport {s : State} (h : s.formOk) {inst : Fin 32} :
    (Machine.getMessageTypeSupport inst s).formOk := .ite h.mctpAnswer h

theorem State.formOk.getVendorDefinedMsgSupport {s : State} (h : s.formOk) {inst : Fin 32} {sel : Byte} :
    (Machine.getVendorDefinedMsgSupport inst sel s).formOk := by
  unfold Machine.getVendorDefinedMsgSupport
  dsimp only
  exact .ite h (.ite h.mctpAnswer h.drawBytes.mctpAnswer)

theorem State.formOk.telemetry {s : State} (h : s.formOk) {cmd cc : ℕ} {rec_ : List Byte} :
    (s.telemetry cmd cc rec_).formOk := h.send

theorem State.formOk.record {s : State} (h : s.formOk) {cmd : ℕ} {inP3 : Bool} {rec_ : List Byte} :
    (s.record cmd inP3 rec_).formOk := .ite h (.ite h.telemetry h.telemetry)

theorem State.formOk.mctpStatus {s : State} (h : s.formOk) {cmd : Byte} : (Machine.mctpStatus cmd s).formOk :=
  .ite h (.ite h.telemetry (.ite h h.telemetry))

theorem State.formOk.mctpPower {s : State} (h : s.formOk) : (Machine.mctpPower s).formOk := h.record

theorem State.formOk.mctpThermal {s : State} (h : s.formOk) : (Machine.mctpThermal s).formOk := h.record

theorem State.formOk.mctpHealth {s : State} (h : s.formOk) : (Machine.mctpHealth s).formOk := h.record

theorem State.formOk.mctpLog {s : State} (h : s.formOk) {index : BitVec 16} {sect : Byte} :
    (Machine.mctpLog index sect s).formOk := by
  unfold Machine.mctpLog
  dsimp only
  refine .ite h.record ?_
  refine .ite h.telemetry ?_
  split
  · exact h.record
  · exact h.drawBytes.record

theorem State.formOk.smbusTimeout {s : State} (h : s.formOk) : (Machine.smbusTimeout s).formOk := h

/-! ### Commands and steps -/

/-- What a command answers is a state of the canonical form. -/
def Outcome.formOk : Host.Outcome State Fault Refusal → Prop
  | .next t => t.formOk
  | _ => True

theorem State.formOk.exec {s : State} (h : s.formOk) (i : Instr) : Outcome.formOk (Machine.exec i s) :=
  match i with
  | .drTailWrite _ _ => h.drTailWrite
  | .descriptorFetch _ => h.descriptorFetch
  | .reservedType _ => h.reservedType
  | .waitTimeout _ => h.waitTimeout
  | .matmul _ => h.matmul
  | .maxExponentScan _ => h.maxExponentScan.settle
  | .sweepStart _ => h.sweepStart.settle
  | .sweepDrain _ => h.sweepDrain.settle
  | .attemptRepeat _ => h.attemptRepeat
  | .passComplete _ => h.passComplete.settle
  | .issuePause _ => h.issuePause
  | .pauseEnd _ => h.pauseEnd
  | .preemptRequest _ _ _ => h.preemptRequest
  | .preemptSave _ _ => h.preemptSave.settle
  | .saveComplete _ => h.saveComplete
  | .preemptRelease _ _ _ => h.preemptRelease
  | .restoreComplete _ => h.restoreComplete.settle
  | .datapathFault _ => h.datapathFault.settle
  | .operandUe _ _ => h.operandUe.settle
  | .chain _ => h.chain
  | .chainTile _ => h.chainTile.settle
  | .move _ => h.move
  | .registerMove _ => h.registerMove
  | .sync _ => h.sync
  | .fence _ => h.fence
  | .fprint _ => h.fprint
  | .add _ => h.vectorIssue
  | .sub _ => h.vectorIssue
  | .mul _ => h.vectorIssue
  | .fma _ => h.vectorIssue
  | .max _ => h.vectorIssue
  | .min _ => h.vectorIssue
  | .scale _ => h.vectorIssue
  | .cvt _ => h.vectorIssue
  | .abs _ => h.vectorIssue
  | .neg _ => h.vectorIssue
  | .exp2 _ => h.vectorIssue
  | .log2 _ => h.vectorIssue
  | .rcp _ => h.vectorIssue
  | .rsqrt _ => h.vectorIssue
  | .sqrt _ => h.vectorIssue
  | .tanh _ => h.vectorIssue
  | .erf _ => h.vectorIssue
  | .rowsum _ => h.vectorIssue
  | .rowmax _ => h.vectorIssue
  | .rowssq _ => h.vectorIssue
  | .rowmul _ => h.vectorIssue
  | .colmul _ => h.vectorIssue
  | .zenc _ => h.vectorIssue
  | .zacc _ => h.vectorIssue
  | .zundo _ => h.vectorIssue
  | .zmean _ => h.vectorIssue
  | .zfield _ => h.vectorIssue
  | .vectorComplete _ => h.vectorComplete.settle
  | .rule _ => h.updateIssue
  | .seed _ => h.updateIssue
  | .derive _ => h.updateIssue
  | .fold _ => h.updateIssue
  | .norms _ => h.updateIssue
  | .nmerge _ => h.updateIssue
  | .audit _ => h.updateIssue
  | .eval _ => h.updateIssue
  | .extract _ => h.updateIssue
  | .cmp _ => h.updateIssue
  | .outer _ => h.updateIssue
  | .updateComplete _ => h.updateComplete.settle
  | .barrier _ => h.barrier.settle
  | .allreduce _ => h.allreduce.settle
  | .reduceScatter _ => h.reduceScatter.settle
  | .allgather _ => h.allgather.settle
  | .broadcast _ => h.broadcast.settle
  | .alltoall _ => h.alltoall.settle
  | .txnBegin _ => h.txnBegin.settle
  | .txnAttach _ => h.txnAttach.settle
  | .txnDetach _ => h.txnDetach.settle
  | .txnAction _ => h.txnAction.settle
  | .txnCommit _ => h.txnCommit.settle
  | .txnAbort _ => h.txnAbort.settle
  | .zwkSend _ => h.zwkSend
  | .zwkCollect _ => h.zwkCollect
  | .zwkSnapSend _ => h.zwkSnapSend
  | .zwkSnapRecv _ => h.zwkSnapRecv
  | .zwkCatchup _ => h.zwkCatchup
  | .coreRst _ _ _ => h.coreRst
  | .haltWrite _ _ => h.haltWrite
  | .tokenWrite _ _ _ => h.tokenWrite
  | .tabClr _ _ _ => h.tabClr
  | .flagClear _ _ _ _ => h.flagClear
  | .readClear _ => h.readClear
  | .loRead _ => h.loRead
  | .registerWrite _ => h.registerWrite
  | .pgEvtWrite _ _ => h.pgEvtWrite
  | .pgEvtInj _ _ _ => h.pgEvtInj
  | .pgCntSel _ _ => h.pgCntSel
  | .updStrobe _ _ => h.updStrobe
  | .updateApply _ => h.updateApply
  | .hsemRead _ _ => h.hsemRead
  | .hsemWrite _ _ => h.hsemWrite
  | .idxData _ _ => h.idxData
  | .h2fWrite _ _ _ _ => h.h2fWrite
  | .h2fRead _ _ => h.h2fRead
  | .f2hWrite _ _ _ => h.f2hWrite
  | .f2hRead _ _ _ => h.f2hRead
  | .doorbellRing _ _ _ _ => h.doorbellRing
  | .routeGen _ => h.routeGen
  | .routeFillDone => h.routeFillDone
  | .rtDataWrite _ => h.rtDataWrite
  | .modIdWrite _ => h.modIdWrite
  | .forceAbort _ _ => h.forceAbort
  | .forceCommit _ _ => h.forceCommit
  | .forceRelease _ _ => h.forceRelease
  | .d1Set _ => h.d1Set
  | .d1Clear _ => h.d1Clear
  | .d2Exit _ _ => h.d2Exit
  | .arbCommit _ _ => h.arbCommit
  | .verify => h.verify
  | .attest => h.attest
  | .nonceNew => h.nonceNew
  | .slotErase _ _ => h.slotErase
  | .untrRel _ _ => h.untrRel
  | .jrTailWrite _ _ => h.jrTailWrite
  | .encrypt _ => h.encrypt
  | .decrypt _ => h.decrypt
  | .safJobComplete _ => h.safJobComplete
  | .selfTest _ _ => h.selfTest
  | .rngFail => h.rngFail
  | .safStallTimeout _ => h.safStallTimeout
  | .reqP0 _ _ => h.reqP0
  | .reqP2 _ _ => h.reqP2
  | .reqP3 _ _ => h.reqP3
  | .reqP4 _ _ => h.reqP4
  | .spareCore _ _ => h.spareCore
  | .spareBank _ _ _ => h.spareBank
  | .spareHbmRebuild _ _ => h.spareHbmRebuild
  | .logDataRead _ => h.logDataRead
  | .portEnable _ _ _ => h.portEnable
  | .portDisable _ _ _ => h.portDisable
  | .portTraining _ _ => h.portTraining
  | .trainingTimeout _ => h.trainingTimeout
  | .laneFailure _ _ => h.laneFailure
  | .retrainDone _ _ => h.retrainDone
  | .retrainTimeout _ => h.retrainTimeout
  | .flitReceive _ _ => h.flitReceive
  | .packetForward _ => h.packetForward
  | .rd _ => h.rd
  | .wr _ => h.wr
  | .sig _ => h.sig
  | .rsp _ _ => h.rsp.settle
  | .fabNak _ _ => h.fabNak.settle
  | .c2Resend _ => h.c2Resend.settle
  | .trackerAdmit _ => h.trackerAdmit.settle
  | .requestTimeout _ => h.requestTimeout.settle
  | .c2Timeout _ => h.c2Timeout.settle
  | .join _ => h.join
  | .vote _ => h.vote
  | .decideMsg _ => h.decideMsg
  | .ack _ => h.ack
  | .query _ => h.query
  | .voteTimeout _ => h.voteTimeout.settle
  | .decideResend _ => h.decideResend
  | .inDoubt _ => h.inDoubt
  | .applyDone _ _ => h.applyDone
  | .enter _ => h.enter.settle
  | .collStart _ => h.collStartMsg.settle
  | .pre _ => h.pre.settle
  | .go _ => h.go.settle
  | .chunkMsg _ => h.chunkMsg.settle
  | .collFree _ => h.collFreeMsg.settle
  | .report _ => h.reportCmd.settle
  | .stop _ => h.stop.settle
  | .verdict _ => h.verdict.settle
  | .excluded _ => h.excluded.settle
  | .entryDeadline _ => h.entryDeadline.settle
  | .entryTimeout _ => h.entryTimeout.settle
  | .startTimeout _ => h.startTimeout.settle
  | .chunkTimeout _ => h.chunkTimeout.settle
  | .stopTimeout _ => h.stopTimeout.settle
  | .lateTimeout _ => h.lateTimeout.settle
  | .dataParcel _ => h.dataParcel
  | .parityParcel _ => h.parityParcel
  | .frameDrop _ => h.frameDrop
  | .zwkNak _ => h.zwkNak
  | .complete _ => h.completeCmd
  | .missing _ => h.missing
  | .finalMsg _ => h.finalMsg
  | .ping _ => h.ping
  | .haveMsg _ => h.haveMsg
  | .zwkDecide _ => h.zwkDecide
  | .dack _ => h.dackCmd
  | .zwkCommit _ => h.zwkCommit
  | .beat _ => h.beat
  | .newepoch _ => h.newepoch
  | .ledger _ => h.ledger
  | .zwkJoin _ => h.zwkJoin
  | .ready _ => h.ready
  | .nakTimeout _ _ _ _ _ => h.nakTimeout
  | .missingTime _ _ _ _ => h.missingTime
  | .finalTime _ => h.finalTime
  | .haveTime => h.haveTime
  | .roundClose => h.roundClose
  | .zwkDecideResend => h.zwkDecideResend
  | .pingTimer => h.pingTimer
  | .beatTimer => h.beatTimer
  | .unreachable _ => h.unreachable
  | .rejoinHold _ => h.rejoinHold
  | .rejoinTimeout => h.rejoinTimeout
  | .joinRetry => h.joinRetry
  | .snapTimeout _ => h.snapTimeout
  | .configRetry _ => h.configRetry
  | .bar2Read _ _ _ => h.bar2Read
  | .bar2Write _ _ _ _ => h.bar2Write
  | .poisonedTlp _ => h.poisonedTlp
  | .flr _ => h.flr
  | .perstAssert _ => h.perstAssert
  | .perstRelease _ => h.perstRelease
  | .registerTimeout _ => h.registerTimeout
  | .hbmRefresh _ => h.hbmRefresh
  | .patrolScrub _ _ _ => h.patrolScrub
  | .hbmTempRead _ _ => h.hbmTempRead
  | .softPpr _ _ => h.softPpr
  | .stackNoAnswer _ => h.stackNoAnswer.settle
  | .pcSelfRefresh _ _ => h.pcSelfRefresh
  | .hbmTrainingDone _ _ => h.hbmTrainingDone
  | .mapRebuild _ => h.mapRebuild
  | .refclkWindow _ => h.refclkWindow
  | .pllUnlock _ => h.pllUnlock
  | .powerTick _ _ _ => h.powerTick
  | .dutyStep => h.dutyStep
  | .throttleAssert => h.throttleAssert
  | .throttleAck => h.throttleAck
  | .throttleCheck => h.throttleCheck
  | .throttleRelease => h.throttleRelease
  | .throttleRamp => h.throttleRamp
  | .thrLong => h.thrLong
  | .dieTempRead _ => h.dieTempRead
  | .voltageSample _ _ => h.voltageSample
  | .railFault _ _ => h.railFault
  | .pwrOkLow => h.pwrOkLow
  | .idleTimeout => h.idleTimeout
  | .p3Entry => h.p3Entry
  | .p3Timeout => h.p3Timeout
  | .p3Exit _ => h.p3Exit
  | .ppsPulse _ => h.ppsPulse
  | .slotEnd => h.slotEnd
  | .acquireTimeout => h.acquireTimeout
  | .modResetAssert => h.modResetAssert
  | .strapSample _ _ => h.strapSample
  | .modResetRelease _ => h.modResetRelease
  | .loadModeImage _ => h.loadModeImage
  | .watchdog _ => h.watchdog
  | .heartbeat => h.heartbeat
  | .logCoalesceFlush => h.logCoalesceFlush
  | .setEndpointId _ _ _ => h.setEndpointId
  | .getEndpointId _ => h.getEndpointId
  | .getMctpVersionSupport _ _ => h.getMctpVersionSupport
  | .getMessageTypeSupport _ => h.getMessageTypeSupport
  | .getVendorDefinedMsgSupport _ _ => h.getVendorDefinedMsgSupport
  | .mctpStatus _ => h.mctpStatus
  | .mctpPower => h.mctpPower
  | .mctpThermal => h.mctpThermal
  | .mctpHealth => h.mctpHealth
  | .mctpLog _ _ => h.mctpLog
  | .smbusTimeout => h.smbusTimeout
  | .pwrOkRise => h.pwrOkRise
  | .runPhase => h.runPhase
  | .ppsEcho => h.ppsEcho
  | .siteLinkUp _ _ => h.siteLinkUp
  | .siteLinkFailed _ => h.siteLinkFailed
  | .hostLinkChange _ _ => h.hostLinkChange
  | .convenerMsg _ => h.convenerMsg
  | .opDone => h.opDone
  | .spareDone => h.spareDone
  | .spprDone _ => h.spprDone
  | .localMoveDone _ _ => h.localMoveDone.settle
  | .randomnessReturn => h.randomnessReturn

theorem State.formOk.step {s : State} (h : s.formOk) : Outcome.formOk (Machine.step s) := by
  unfold Machine.step
  split
  · exact h.idle
  · next c cs _ => exact State.formOk.exec (s := { s with pending := cs }) h c

end Sys2Proof.Machine

/-- Settles O4: every command keeps the form (`State.formOk.exec`), and so does an idle cycle. -/
theorem everyStepKeepsForm : Obligations.EveryStepKeepsForm := by
  intro s t h e
  have ht := h.step
  rw [e] at ht
  exact ht

/-! SUPPORT. What the commands of the sequencer do to the core that they name, by what is at the head of its ring. -/

namespace Sys2Proof.Machine

theorem State.onCore_phys {s : State} {n ph : ℕ} (h : s.phys n = some ph) (f : State → ℕ → State) :
    s.onCore n f = f s ph := by
  unfold State.onCore
  rw [h]

/-! ### DESCRIPTOR_FETCH -/

/-- Is the next descriptor to fetch, or the slot of its record, held? -/
def State.fetchHeld (s : State) (ph : ℕ) : Bool :=
  s.ringHeld ph (s.reg (pCore ph + 0x048)) (s.reg (pCore ph + 0x04C)) (((s.core ph).fetchNext % s.ringSize ph) * 64) 64
    || s.recordHeld ph (s.core ph).fetchNext

/-- What the read of the next descriptor answers. -/
def State.fetchRead (s : State) (ph : ℕ) : Res :=
  s.ringRead ph (s.reg (pCore ph + 0x048)) (s.reg (pCore ph + 0x04C)) (((s.core ph).fetchNext % s.ringSize ph) * 64) 64

/-- The state after a fetch that failed, its record left with a TAG. -/
def State.fetchFailed (s : State) (ph tag : ℕ) : State :=
  ((s.fetchRead ph).st.draw.2.putRecord ph (s.core ph).fetchNext 0 tag (Rec.of 7)).modCore ph fun c =>
    { c with fetchNext := add32 (s.core ph).fetchNext 1, fails := c.fails + 1 }

theorem descriptorFetch_held {s : State} {n ph : ℕ} (h : s.phys n = some ph) (hh : s.fetchHeld ph = true) :
    descriptorFetch n s = s := by
  unfold State.fetchHeld at hh
  unfold descriptorFetch
  rw [State.onCore_phys h]
  simp [hh]

section
variable {s : State} {n ph : ℕ} (h : s.phys n = some ph)
  (ht : tailPassed (s.reg (pCore ph + 0x058)) (s.core ph).fetchNext = true) (hl : (s.core ph).fetched.length < 16)
include h ht hl

theorem descriptorFetch_read (hh : s.fetchHeld ph = false) (hr : (s.fetchRead ph).status = 0) :
    descriptorFetch n s = (s.fetchRead ph).st.modCore ph fun c =>
      { c with fetched := c.fetched ++ [⟨(s.core ph).fetchNext, wordsOf 16 (s.fetchRead ph).data⟩],
               fetchNext := add32 (s.core ph).fetchNext 1 } := by
  unfold State.fetchHeld at hh
  unfold State.fetchRead at hr ⊢
  unfold descriptorFetch
  rw [State.onCore_phys h]
  simp [ht, hl, hh, hr]

theorem descriptorFetch_failed (hh : s.fetchHeld ph = false) (hr : (s.fetchRead ph).status ≠ 0) :
    ∃ tag, descriptorFetch n s
      = ((if (s.core ph).fetched = [] then
            (s.fetchFailed ph tag).setReg (pCore ph + 0x054) (BitVec.ofNat 32 (add32 (s.core ph).fetchNext 1))
          else s.fetchFailed ph tag).fset (pCore ph) F.SQ_STAT_FETCH_ERR 1).fset (pCore ph) F.SQ_CTRL_HALT 1 := by
  refine ⟨(Config.freeWord (s.fetchRead ph).st.draw.1).toNat % 65536, ?_⟩
  unfold State.fetchHeld at hh
  unfold State.fetchFailed
  unfold State.fetchRead at hr ⊢
  unfold descriptorFetch
  rw [State.onCore_phys h]
  simp [ht, hl, hh, hr]

end

/-! ### RESERVED_TYPE, WAIT_TIMEOUT and FENCE -/

section
variable {s : State} {n ph : ℕ} {f : Fetched} (h : s.phys n = some ph)
include h

theorem reservedType_head (hf : s.head ph = some f) (ht : hType f.words = 0 ∨ 12 ≤ hType f.words)
    (hw : s.waitOk ph f.words = true) : reservedType n s = s.issueDone ph f (Rec.refused 1) := by
  unfold reservedType
  rw [State.onCore_phys h]
  simp [hf, ht, hw]

theorem waitTimeout_head (hf : s.head ph = some f) (h0 : s.fget (pCore ph) F.SQ_WAIT_TMO_US ≠ 0)
    (hw : s.waitOk ph f.words = false ∨ (hType f.words = tSYNC ∧ s.syncOk ph f.words = false)) :
    waitTimeout n s = if s.recordHeld ph f.idx = true then s
      else ((s.popHead ph).recordFor ph f.idx f.words
        ⟨9, 0, 0, if hType f.words = tFENCE then (s.core ph).fails % 2 ^ 32 else 0, none⟩).fset
          (pCore ph) F.SQ_STAT_WAIT_TMO 1 := by
  have hb : ¬(s.waitOk ph f.words = true ∧ (hType f.words ≠ tSYNC ∨ s.syncOk ph f.words = true)) := by
    rintro ⟨h1, h2⟩
    rcases hw with hw | ⟨hs, hw⟩
    · rw [hw] at h1; cases h1
    · rcases h2 with h2 | h2
      · exact h2 hs
      · rw [hw] at h2; cases h2
  unfold waitTimeout
  rw [State.onCore_phys h]
  simp [hf, h0, hb]

theorem fence_head (hf : s.issuable ph (fun w => hType w == tFENCE) = some f) (he : (s.core ph).inflight = []) :
    fence n s =
      if bit (wd f.words 2) 0 = true then
        ((s.issueDone ph f ⟨0, 0, 0, (s.core ph).fails % 2 ^ 32, none⟩).modCore ph fun c => { c with fails := 0 }).fset
          (pCore ph) F.SQ_CTRL_HALT 1
      else (s.issueDone ph f ⟨0, 0, 0, (s.core ph).fails % 2 ^ 32, none⟩).modCore ph fun c => { c with fails := 0 } := by
  unfold fence
  rw [State.onCore_phys h]
  simp [hf, he]

end

/-! ### SYNC -/

/-- A SYNC issued, and the counts of its waits consumed. -/
def State.syncIssued (s : State) (ph : ℕ) (f : Fetched) : State :=
  (sumWaits (syncWaits f.words)).foldl (fun s w => s.setTok ph w.1 (s.tok ph w.1 - w.2)) (s.issue ph f .queued)

theorem State.core_foldl_setTok {α : Type} (ph i : ℕ) (k : α → ℕ) (v : State → α → ℕ) (l : List α) (s : State) :
    (l.foldl (fun s w => s.setTok ph (k w) (v s w)) s).core i = s.core i := by
  induction l generalizing s with
  | nil => rfl
  | cons w l ih => exact ih _

theorem State.attach_syncIssued {s : State} (h : s.coresOk) (ph : ℕ) (f : Fetched) :
    ((s.syncIssued ph f).core ph).attach = (s.core ph).attach := by
  unfold State.syncIssued
  rw [State.core_foldl_setTok, State.core_issue s ph f .queued h]

/-- The state, and whether the slot that the core is attached to has room for the signals. -/
def State.syncCounted (s : State) (ph : ℕ) (f : Fetched) : State × Bool :=
  match (s.core ph).attach with
  | some x => (s.syncIssued ph f).countActions x (syncSigs f.words).length
  | none => (s.syncIssued ph f, true)

/-- The state with the signals sent, the first failure, and how many of them await an answer. -/
def State.syncSent (s : State) (ph : ℕ) (f : Fetched) : State × Option (ℕ × ℕ) × ℕ :=
  (syncSigs f.words).foldl (fun (a : State × Option (ℕ × ℕ) × ℕ) g =>
    if (s.core ph).attach.isSome && a.2.1.isSome then a
    else
      let x := a.1.sendSig ph f.idx (s.core ph).attach g
      (x.1, if a.2.1.isSome then a.2.1 else x.2.1, a.2.2 + b2n x.2.2)) ((s.syncCounted ph f).1, none, 0)

section
variable {s : State} {n ph : ℕ} {f : Fetched} (h : s.phys n = some ph) (hc : s.coresOk) (hf : s.heads ph f tSYNC)
  (hs : s.syncOk ph f.words = true)
include h hc hf hs

theorem sync_heads : sync n s =
    if !(s.syncCounted ph f).2 then
      (s.syncCounted ph f).1.complete ph ⟨f.idx, f.words, .queued, (s.core ph).attach⟩ (Rec.of 0x0C)
    else if (s.syncSent ph f).2.2 = 0 then
      (s.syncSent ph f).1.complete ph ⟨f.idx, f.words, .queued, (s.core ph).attach⟩
        (match (s.syncSent ph f).2.1 with
          | some g => ⟨g.1, 0, g.2, 0, none⟩
          | none => Rec.of 0)
    else (s.syncSent ph f).1.modInfl ph f.idx fun e =>
      { e with prog := .sync (s.syncSent ph f).2.2 (s.syncSent ph f).2.1 } := by
  have hp : s.issuable ph (fun w => hType w == tSYNC) = some f :=
    State.issuable_heads s ph f tSYNC _ hf (beq_iff_eq.2 hf.2.1)
  have ha := State.attach_syncIssued hc ph f
  unfold State.syncIssued at ha
  unfold sync
  rw [State.onCore_phys h, hp]
  simp only [hs, ha, Bool.not_true, Bool.false_eq_true, if_false] <;> rfl

theorem sync_noRoom (hu : (s.syncCounted ph f).2 = false) :
    sync n s = (s.syncCounted ph f).1.complete ph ⟨f.idx, f.words, .queued, (s.core ph).attach⟩ (Rec.of 0x0C) := by
  rw [sync_heads h hc hf hs, hu]
  rfl

theorem sync_answered (hu : (s.syncCounted ph f).2 = true) (h0 : (s.syncSent ph f).2.2 = 0)
    (hn : (s.syncSent ph f).2.1 = none) :
    sync n s = (s.syncSent ph f).1.complete ph ⟨f.idx, f.words, .queued, (s.core ph).attach⟩ (Rec.of 0) := by
  rw [sync_heads h hc hf hs, hu, h0, hn]
  rfl

theorem sync_failed {g : ℕ × ℕ} (hu : (s.syncCounted ph f).2 = true) (h0 : (s.syncSent ph f).2.2 = 0)
    (hg : (s.syncSent ph f).2.1 = some g) :
    sync n s = (s.syncSent ph f).1.complete ph ⟨f.idx, f.words, .queued, (s.core ph).attach⟩ ⟨g.1, 0, g.2, 0, none⟩ := by
  rw [sync_heads h hc hf hs, hu, h0, hg]
  rfl

theorem sync_waits (hu : (s.syncCounted ph f).2 = true) (h0 : (s.syncSent ph f).2.2 ≠ 0) :
    sync n s = (s.syncSent ph f).1.modInfl ph f.idx fun e =>
      { e with prog := .sync (s.syncSent ph f).2.2 (s.syncSent ph f).2.1 } := by
  rw [sync_heads h hc hf hs, hu, if_neg h0]
  rfl

end

end Sys2Proof.Machine

/-- Settles O9: each command acts on the core that it names by the branch of the sequencer that the hypotheses name. -/
theorem sequencerCommands : Obligations.SequencerCommands := by
  refine ⟨?_, ?_, ?_⟩
  · intro s n ph h i r held ht hl
    refine ⟨fun hh => ?_, fun hh hr => ?_, fun hh hr => ?_⟩
    · exact congrArg _ (Sys2Proof.Machine.descriptorFetch_held h hh)
    · exact congrArg _ (Sys2Proof.Machine.descriptorFetch_read h ht hl hh hr)
    · obtain ⟨tag, e⟩ := Sys2Proof.Machine.descriptorFetch_failed h ht hl hh hr
      exact ⟨tag, _, _, rfl, rfl, congrArg _ e⟩
  · intro s n ph f h
    refine ⟨fun hf ht hw => ?_, fun hf h0 hw => ?_, fun hf he => ?_⟩
    · exact congrArg _ (Sys2Proof.Machine.reservedType_head h hf ht hw)
    · exact congrArg _ (Sys2Proof.Machine.waitTimeout_head h hf h0 hw)
    · exact congrArg _ (Sys2Proof.Machine.fence_head h hf he)
  · intro s n ph f h hc hf hs txn t u r e
    refine ⟨fun hu => ?_, fun hu h0 hn => ?_, fun g hu h0 hg => ?_, fun hu h0 => ?_⟩
    · exact congrArg _ (Sys2Proof.Machine.sync_noRoom h hc hf hs hu)
    · exact congrArg _ (Sys2Proof.Machine.sync_answered h hc hf hs hu h0 hn)
    · exact congrArg _ (Sys2Proof.Machine.sync_failed h hc hf hs hu h0 hg)
    · exact congrArg _ (Sys2Proof.Machine.sync_waits h hc hf hs hu h0)

/-! SUPPORT. FLAG_CLEAR (R69): the write of a die-level or global flag register is one sweep over the register store,
and the sweep changes the named register of the serving cores of the scope and nothing else. -/

namespace Sys2Proof.Machine

/-! ### A table whose entries are changed or dropped -/

/-- What a number reads as when each entry is changed or dropped under its own number: its value through `g`, where the
change is `g` at that number and `g` keeps the default that an absent entry reads as. -/
theorem Tab.get_filterMap {β : Type} {d : β} {k : ℕ} {f : ℕ × β → Option (ℕ × β)} {g : β → β} (hg : g d = d)
    (hk : ∀ e x, f e = some x → x.1 = e.1) (hv : ∀ v, ((f (k, v)).map Prod.snd).getD d = g v) {t : Tab β}
    (h : Tab.rising t = true) : Tab.get d k (t.filterMap f) = g (Tab.get d k t) := by
  induction t with
  | nil => exact hg.symm
  | cons e t ih =>
    obtain ⟨j, v⟩ := e
    obtain ⟨ha, hr⟩ := (Tab.rising_cons ..).1 h
    by_cases hj : j = k
    · subst hj
      have hval := hv v
      cases hf : f (j, v) with
      | none =>
        rw [List.filterMap_cons_none hf, ih hr, Tab.get_above d j t ha, hg]
        simpa [hf, Tab.get] using hval
      | some x =>
        rw [List.filterMap_cons_some hf]
        simpa [hf, Tab.get, hk _ x hf] using hval
    · cases hf : f (j, v) with
      | none => rw [List.filterMap_cons_none hf, ih hr, Tab.get, if_neg hj]
      | some x =>
        have hx : x.1 ≠ k := fun e => hj ((hk _ x hf).symm.trans e)
        rw [List.filterMap_cons_some hf, Tab.get, if_neg hx, ih hr, Tab.get, if_neg hj]

/-! ### Registers of the cores -/

theorem coreOfAddr_pCore {i o : ℕ} (hi : i < 1088) (ho : o < 0x4000) : coreOfAddr (pCore i + o) = some (i, o) := by
  have hp : ∀ j, pCore j = 0x2000000 + j * 0x4000 := fun _ => rfl
  unfold coreOfAddr
  rw [hp, hp, hp, if_pos (by omega)]
  congr 2 <;> omega

theorem eq_pCore_of_coreOfAddr {a i o : ℕ} (h : coreOfAddr a = some (i, o)) : i < 1088 ∧ a = pCore i + o := by
  have hp : ∀ j, pCore j = 0x2000000 + j * 0x4000 := fun _ => rfl
  unfold coreOfAddr at h
  split at h
  · next hr =>
    obtain ⟨rfl, rfl⟩ := Prod.mk.inj (Option.some.inj h)
    simp only [hp] at hr ⊢
    omega
  · cases h

/-- The flag registers of a core are 0 after reset, so that a flag register that the store does not list holds no
flag. -/
theorem regRst_coreFlags {i : ℕ} (hi : i < 1088) (k : Fin 3) : regRst (pCore i + (0x100 + 4 * k.val)) = 0 := by
  have hk := k.isLt
  unfold regRst pCore
  rw [pageOf_page .pcore i _ (by decide) hi (by omega)]
  dsimp only
  rw [Nat.add_sub_cancel_left]
  revert k
  decide

/-! ### State.clearInCores -/

/-- What an entry of the register store becomes. -/
def clearedEntry (u : Units) (offs : List ℕ) (mask : Word) (p : ℕ → Bool) (e : ℕ × Word) : Option (ℕ × Word) :=
  match coreOfAddr e.1 with
  | some (i, o) =>
    if offs.contains o && p i && (u.posOfPhys i).isSome then
      let w := e.2 &&& ~~~ mask
      if w = regRst e.1 then none else some (e.1, w)
    else some e
  | none => some e

section
variable {s : State} {offs : List ℕ} {mask : Word} {p : ℕ → Bool}

theorem State.clearInCores_regs : (s.clearInCores offs mask p).regs = s.regs.filterMap (clearedEntry s.units offs mask p) :=
  rfl

theorem clearedEntry_fst {u : Units} (e x : ℕ × Word) (h : clearedEntry u offs mask p e = some x) : x.1 = e.1 := by
  unfold clearedEntry at h
  split at h
  · split at h
    · dsimp only at h
      split at h
      · cases h
      · rw [← Option.some.inj h]
    · rw [← Option.some.inj h]
  · rw [← Option.some.inj h]

/-- A register of a serving core that the sweep names loses the bits of the mask. -/
theorem State.reg_clearInCores_of_swept (h : s.regsOk) {a i o : ℕ} (ha : coreOfAddr a = some (i, o)) (ho : o ∈ offs)
    (hp : p i = true) (hu : (s.units.posOfPhys i).isSome = true) (hr : regRst a &&& ~~~ mask = regRst a) :
    (s.clearInCores offs mask p).reg a = s.reg a &&& ~~~ mask := by
  unfold State.reg
  rw [State.clearInCores_regs]
  refine Tab.get_filterMap (g := (· &&& ~~~ mask)) hr clearedEntry_fst (fun v => ?_) h
  simp only [clearedEntry, ha, List.contains_iff_mem.2 ho, hp, hu, Bool.and_self, if_true]
  split
  · next e => exact e.symm
  · rfl

/-- Any other register keeps its value. -/
theorem State.reg_clearInCores_of_not_swept (h : s.regsOk) {a : ℕ}
    (ha : ∀ i o, coreOfAddr a = some (i, o) → (offs.contains o && p i && (s.units.posOfPhys i).isSome) = false) :
    (s.clearInCores offs mask p).reg a = s.reg a := by
  unfold State.reg
  rw [State.clearInCores_regs]
  refine Tab.get_filterMap (g := id) rfl clearedEntry_fst (fun v => ?_) h
  unfold clearedEntry
  split
  · next i o e => rw [if_neg (by rw [ha i o e]; exact Bool.false_ne_true)]; rfl
  · rfl

end

/-! ### The write of a flag register -/

/-- A served write that its page takes ends in the state that the page's write leaves. -/
theorem State.writeAcc_done {s t : State} {rq : Requester} {a : ℕ} {be : BitVec 4} {v : Word} {r : RegAt}
    (h : s.serves rq a) (hr : s.regLoc a = some r) (hw : s.pageWritable r = true) (ha : isIdx a aIdxAddr = false)
    (hd : isIdx a aIdxData = false) (ht : s.writeLoc rq r a (v &&& beMask be) (beMask be) = (t, true)) :
    s.writeAcc ⟨rq, a, be, v⟩ = t := by
  have e : s.regWrite rq a be v = (t, true) := by
    unfold State.regWrite State.regWrite1
    simp only [ha, hd, Bool.false_eq_true, if_false, hr, hw, if_true, ht]
  rw [State.writeAcc_serves s rq a be v h, e, if_pos rfl]

/-- The cores that the flag register of a die, or of the module, stands for. -/
def flagScope (die : Option DieId) (i : ℕ) : Bool :=
  match die with
  | some d => i / 136 == d.val
  | none => true

theorem flagScope_iff (die : Option DieId) (i : ℕ) : flagScope die i = true ↔ ∀ d, die = some d → i / 136 = d.val := by
  cases die with
  | none => simp [flagScope]
  | some d => simp [flagScope]

/-- The register that FLAG_CLEAR writes. -/
def flagReg (die : Option DieId) (k : Fin 3) : RegAt :=
  match die with
  | some d => ⟨.die, d.val, d.val, pDie d.val, 0x100 + 4 * k.val, 0⟩
  | none => ⟨.gctl, 0, 0, pGctl, 0x100 + 4 * k.val, 0⟩

/-- The address that FLAG_CLEAR writes. -/
def flagAddr (die : Option DieId) (k : Fin 3) : ℕ :=
  (match die with | some d => pDie d.val | none => pGctl) + 0x100 + 4 * k.val

theorem State.regLoc_flagAddr (s : State) (die : Option DieId) (k : Fin 3) :
    s.regLoc (flagAddr die k) = some (flagReg die k) := by
  have hk := k.isLt
  cases die with
  | none =>
    have hl := s.regLoc_page .gctl 0 (0x100 + 4 * k.val) 0 (by decide) (by decide) (by decide) (by omega) (by omega)
    rwa [← Nat.add_assoc] at hl
  | some d =>
    have hl := s.regLoc_page .die d.val (0x100 + 4 * k.val) 0 (by decide) (by decide) d.isLt (by omega) (by omega)
    rwa [← Nat.add_assoc] at hl

theorem isIdx_flagAddr (die : Option DieId) (k : Fin 3) {o : ℕ} (ho : o = aIdxAddr ∨ o = aIdxData) :
    isIdx (flagAddr die k) o = false := by
  rcases ho with rfl | rfl <;> revert die k <;> decide

theorem State.writeLoc_flagReg (s : State) (die : Option DieId) (k : Fin 3) (rq : Requester) (a : ℕ) (m en : Word) :
    s.writeLoc rq (flagReg die k) a m en = (s.clearInCores [0x100 + 4 * k.val] (m &&& 0xF) (flagScope die), true) := by
  cases die with
  | none => fin_cases k <;> rfl
  | some d => fin_cases k <;> rfl

/-- R69: a served write of a flag register clears its flags in the cores of its scope. -/
theorem flagClear_of_serves {s : State} {die : Option DieId} {k : Fin 3} {rq : Requester} {v : Word}
    (h : s.serves rq (flagAddr die k)) :
    flagClear die k rq v s = (s.clearInCores [0x100 + 4 * k.val] (v &&& 0xF) (flagScope die)).settle := by
  have hw : s.pageWritable (flagReg die k) = true := by cases die <;> rfl
  have hm : v &&& beMask 0xF = v := by rw [show beMask 0xF = BitVec.allOnes 32 from by decide, BitVec.and_allOnes]
  refine congrArg State.settle (State.writeAcc_done h (s.regLoc_flagAddr die k) hw ?_ ?_ ?_)
  · exact isIdx_flagAddr die k (.inl rfl)
  · exact isIdx_flagAddr die k (.inr rfl)
  · rw [State.writeLoc_flagReg, hm]

/-- A sweep over one flag register, read back at a core. -/
theorem State.reg_clearFlags {s : State} (h : s.regsOk) (k : Fin 3) (m : Word) (p : ℕ → Bool) {i : ℕ} (hi : i < 1088) :
    (s.clearInCores [0x100 + 4 * k.val] m p).reg (pCore i + (0x100 + 4 * k.val)) =
      if (s.units.posOfPhys i).isSome = true ∧ p i = true then s.reg (pCore i + (0x100 + 4 * k.val)) &&& ~~~ m
      else s.reg (pCore i + (0x100 + 4 * k.val)) := by
  have hk := k.isLt
  have ha := coreOfAddr_pCore hi (o := 0x100 + 4 * k.val) (by omega)
  split
  · next hc =>
    refine State.reg_clearInCores_of_swept h ha (List.mem_singleton_self _) hc.2 hc.1 ?_
    rw [regRst_coreFlags hi k]
    exact BitVec.zero_and
  · next hc =>
    refine State.reg_clearInCores_of_not_swept h fun j o e => ?_
    obtain ⟨rfl, rfl⟩ := Prod.mk.inj (Option.some.inj (ha.symm.trans e))
    rw [Bool.eq_false_iff]
    intro hb
    simp only [Bool.and_eq_true] at hb
    exact hc ⟨hb.2, hb.1.2⟩

/-- A sweep over one offset leaves every register elsewhere as it was. -/
theorem State.reg_clearInCores_ne {s : State} (h : s.regsOk) (o : ℕ) (m : Word) (p : ℕ → Bool) {a : ℕ}
    (ha : ∀ i < 1088, a ≠ pCore i + o) : (s.clearInCores [o] m p).reg a = s.reg a := by
  refine State.reg_clearInCores_of_not_swept h fun i q e => ?_
  obtain ⟨hi, rfl⟩ := eq_pCore_of_coreOfAddr e
  have hq : q ≠ o := fun hq => ha i hi (by rw [hq])
  simp [hq]

end Sys2Proof.Machine

/-- Settles O26: the write is a sweep over the flag registers of the scope (`flagClear_of_serves`), and the sweep reads
back register by register. -/
theorem flagClearReachesCores : Obligations.FlagClearReachesCores := by
  intro s die k rq v hok hs
  refine ⟨s.clearInCores [0x100 + 4 * k.val] (v &&& 0xF) (Sys2Proof.Machine.flagScope die), ?_, rfl, rfl, ?_, ?_⟩
  · have hs' : s.serves rq (Sys2Proof.Machine.flagAddr die k) := hs
    exact congrArg Host.Outcome.next (Sys2Proof.Machine.flagClear_of_serves hs')
  · intro i hi
    rw [Sys2Proof.Machine.State.reg_clearFlags hok k _ _ hi]
    simp only [Sys2Proof.Machine.flagScope_iff]
  · exact fun a ha => Sys2Proof.Machine.State.reg_clearInCores_ne hok _ _ _ ha

/-! SUPPORT. What the matrix engine's shared operations leave alone: the records of the cores, and memory outside the bytes
written. -/

namespace Sys2Proof.Machine

/-- A part of the accumulator that no step of a fold changes. -/
theorem foldl_keeps {α β γ : Type} (part : α → γ) {f : α → β → α} (h : ∀ a b, part (f a b) = part a) (l : List β) (a : α) :
    part (l.foldl f a) = part a := by
  induction l generalizing a with
  | nil => rfl
  | cons b l ih => rw [List.foldl_cons, ih, h]

section
variable (s : State)

/-! ### Errors of scratchpad words -/

@[simp] theorem State.mark_cores (ph kind : ℕ) : (s.mark ph kind).cores = s.cores := rfl

@[simp] theorem State.mark_mem (ph kind : ℕ) : (s.mark ph kind).mem = s.mem := rfl

@[simp] theorem State.bankPending_cores (ph b : ℕ) : (s.bankPending ph b).cores = s.cores := by
  unfold State.bankPending
  split
  · rfl
  · rw [State.event_cores]

@[simp] theorem State.bankPending_mem (ph b : ℕ) : (s.bankPending ph b).mem = s.mem := by
  unfold State.bankPending
  split
  · rfl
  · rw [State.event_mem]

@[simp] theorem State.spCe_cores (ph x : ℕ) : (s.spCe ph x).cores = s.cores := by
  unfold State.spCe
  dsimp only
  split <;> simp

@[simp] theorem State.spCe_mem (ph x : ℕ) : (s.spCe ph x).mem = s.mem := by
  unfold State.spCe
  dsimp only
  split <;> simp

@[simp] theorem State.spUe_cores (ph x : ℕ) : (s.spUe ph x).cores = s.cores := by simp [State.spUe]

@[simp] theorem State.spUe_mem (ph x : ℕ) : (s.spUe ph x).mem = s.mem := by simp [State.spUe]

@[simp] theorem State.coreFault_cores (ph : ℕ) : (s.coreFault ph).cores = s.cores := by
  unfold State.coreFault
  dsimp only
  split
  · rw [State.event_cores, State.mark_cores]
  · rfl

/-! ### Accesses of the engines to a scratchpad -/

/-- The state after words that needed a correction and words that failed have been counted. -/
def State.counted (ph : ℕ) (ce ue : List ℕ) : State :=
  ue.foldl (fun t k => t.spUe ph (k - spKey ph 0)) (ce.foldl (fun t k => t.spCe ph (k - spKey ph 0)) s)

@[simp] theorem State.counted_cores (ph : ℕ) (ce ue : List ℕ) : (s.counted ph ce ue).cores = s.cores := by
  unfold State.counted
  rw [foldl_keeps State.cores fun t k => t.spUe_cores _ _, foldl_keeps State.cores fun t k => t.spCe_cores _ _]

@[simp] theorem State.counted_mem (ph : ℕ) (ce ue : List ℕ) : (s.counted ph ce ue).mem = s.mem := by
  unfold State.counted
  rw [foldl_keeps State.mem fun t k => t.spUe_mem _ _, foldl_keeps State.mem fun t k => t.spCe_mem _ _]

@[simp] theorem State.touch_cores (ph : ℕ) (r : Region) : (s.touch ph r).1.cores = s.cores := s.counted_cores ph _ _

theorem State.sput_eq (ph x : ℕ) (bs : List Byte) :
    s.sput ph x bs = ({ s with mem := (s.mem.write (spKey ph x) bs).mem } : State).counted ph
      (s.mem.write (spKey ph x) bs).ce (s.mem.write (spKey ph x) bs).ue := rfl

@[simp] theorem State.sput_cores (ph x : ℕ) (bs : List Byte) : (s.sput ph x bs).cores = s.cores := by
  rw [State.sput_eq, State.counted_cores]

@[simp] theorem State.sput_mem (ph x : ℕ) (bs : List Byte) : (s.sput ph x bs).mem = (s.mem.write (spKey ph x) bs).mem := by
  rw [State.sput_eq, State.counted_mem]

@[simp] theorem State.putElem_cores (ph e base ld r c v : ℕ) : (s.putElem ph e base ld r c v).cores = s.cores :=
  s.sput_cores ph _ _

@[simp] theorem State.freshCode_cores (ph : ℕ) (sp : Region) : (s.freshCode ph sp).cores = s.cores := rfl

@[simp] theorem State.putSaveHdr_cores (ph : ℕ) : (s.putSaveHdr ph).cores = s.cores :=
  (s.drawBytes 4096).2.sput_cores ph _ _

/-! ### Results delivered -/

theorem State.deliver1_cores (ph : ℕ) (k : Sink) (x : Cell) : (s.deliver1 ph k x).1.cores = s.cores := by
  unfold State.deliver1
  dsimp only
  split
  · simp
  · split
    · rfl
    · simp

theorem State.deliverBlock_cores (ph : ℕ) (k : Sink) (xs : List Cell) : (s.deliverBlock ph k xs).1.cores = s.cores := by
  unfold State.deliverBlock
  split
  · dsimp only
    rw [foldl_keeps (fun a : State × ℕ => a.1.cores) fun a x => by simp]
    simp
  · rfl

@[simp] theorem State.deliver_cores (ph : ℕ) (k : Sink) (xs : List Cell) : (s.deliver ph k xs).1.cores = s.cores := by
  unfold State.deliver
  dsimp only
  split
  · exact foldl_keeps (fun a : State × ℕ => a.1.cores) (by intro a b; exact a.1.deliverBlock_cores ph k b) _ _
  · exact foldl_keeps (fun a : State × ℕ => a.1.cores) (by intro a b; exact a.1.deliver1_cores ph k b) _ _

@[simp] theorem State.putRawCells_cores (ph : ℕ) (d : MatmulD) (a : ℤ) (xs : List (TileCell × Acc128)) :
    (s.putRawCells ph d a xs).cores = s.cores := by
  unfold State.putRawCells
  dsimp only
  rw [foldl_keeps State.cores fun t x => by simp, foldl_keeps State.cores fun t x => by simp]

@[simp] theorem State.drain_cores (ph : ℕ) (d : MatmulD) (a : ℤ) (xs : List (TileCell × Acc128)) :
    (s.drain ph d a xs).1.cores = s.cores := by
  unfold State.drain
  dsimp only
  split
  · simp
  · split <;> simp

@[simp] theorem State.zeroDrain_cores (ph : ℕ) (d : MatmulD) (j : ℕ) : (s.zeroDrain ph d j).1.cores = s.cores := by
  unfold State.zeroDrain State.putRawMerged State.deliverMerged
  dsimp only
  split
  · split
    · rw [foldl_keeps (fun a : State × ℕ × Bool => a.1.cores) fun a q => by simp]
    · simp
  · simp

end

/-! ### Bytes outside a write -/

theorem Mem.byte_heal (m : Mem) (k a : ℕ) : (m.heal k).byte a = m.byte a := rfl

/-- A piece of a coded write changes no byte outside it. -/
theorem CodedWrite.byte_step_out (w : CodedWrite) (p : ℕ × List Byte) {a : ℕ} (h : a < p.1 ∨ p.1 + p.2.length ≤ a) :
    (w.step p).mem.byte a = w.mem.byte a := by
  unfold CodedWrite.step
  dsimp only
  split
  · rfl
  · rw [Mem.byte_put_out _ _ _ _ h, Mem.byte_heal]

theorem CodedWrite.byte_cutAt_out {a : ℕ} (g f k : ℕ) (bs : List Byte) (w : CodedWrite) (h : a < k ∨ k + bs.length ≤ a) :
    ((cutAt g f k bs).foldl CodedWrite.step w).mem.byte a = w.mem.byte a := by
  induction f generalizing k bs w with
  | zero => rfl
  | succ f ih =>
    unfold cutAt
    split
    · rfl
    · rw [List.foldl_cons, ih _ _ _ (by simp only [List.length_drop]; omega)]
      exact w.byte_step_out _ (by simp only [List.length_take]; omega)

/-- A coded write changes no byte outside it, whatever errors it meets. -/
theorem Mem.byte_write_out (m : Mem) {a k : ℕ} (bs : List Byte) (h : a < k ∨ k + bs.length ≤ a) :
    (m.write k bs).mem.byte a = m.byte a := CodedWrite.byte_cutAt_out _ _ _ _ _ h

end Sys2Proof.Machine

/-! SUPPORT. The record of a core's matrix engine: what it reads after an update, and which updates keep the passes in it. -/

namespace Sys2Proof.Machine

/-- A command that settles what it has done, from what it has done. -/
theorem next_settle_congr {t u : State} (h : t = u) : (.next t.settle : Result) = .next u.settle := by rw [h]

/-! ### Cores that an operation left alone -/

theorem State.core_of_cores {s t : State} (h : t.cores = s.cores) (i : ℕ) : t.core i = s.core i := by
  unfold State.core
  rw [h]

theorem State.mx_of_cores {s t : State} (h : t.cores = s.cores) (ph : ℕ) : t.mx ph = s.mx ph :=
  congrArg CoreSt.mx (State.core_of_cores h ph)

theorem State.coresOk_of_cores {s t : State} (h : t.cores = s.cores) (hc : s.coresOk) : t.coresOk := by
  unfold State.coresOk
  rwa [h]

/-! ### The engine's record set -/

section
variable {s : State} (hc : s.coresOk) (ph : ℕ)
include hc

theorem State.core_setMx (m : Mx) : (s.setMx ph m).core ph = { s.core ph with mx := m } := s.core_setCore ph _ hc

theorem State.mx_setMx (m : Mx) : (s.setMx ph m).mx ph = m := congrArg CoreSt.mx (State.core_setMx hc ph m)

theorem State.coresOk_setMx (m : Mx) : (s.setMx ph m).coresOk := s.coresOk_setCore ph _ hc

theorem State.queue_setMx (m : Mx) (ty : ℕ) : (s.setMx ph m).queue ph ty = s.queue ph ty := by
  unfold State.queue
  rw [State.core_setMx hc]

theorem State.anchorHit_setMx (m : Mx) (tensor : ℕ) : (s.setMx ph m).anchorHit ph tensor = s.anchorHit ph tensor := by
  unfold State.anchorHit
  rw [State.core_setMx hc]

end

theorem State.core_setMx_ne (s : State) {ph i : ℕ} (h : i ≠ ph) (m : Mx) : (s.setMx ph m).core i = s.core i :=
  s.core_setCore_ne _ h

/-! ### A pass of the engine changed -/

/-- The engine's record with a pass changed: the one that drains behind the current one, or the current one. -/
def Mx.withPass (m : Mx) (p : Pass) : Mx :=
  if m.tail.map (·.idx) = some p.idx then { m with tail := some p } else { m with pass := some p }

theorem State.setPass_eq (s : State) (ph : ℕ) (p : Pass) : s.setPass ph p = s.setMx ph ((s.mx ph).withPass p) := rfl

/-- A pass changed leaves all but the two passes as it was. -/
theorem Mx.withPass_rest (m : Mx) (p : Pass) :
    (m.withPass p).st = m.st ∧ (m.withPass p).hdr = m.hdr ∧ (m.withPass p).release = m.release := by
  unfold Mx.withPass
  split <;> exact ⟨rfl, rfl, rfl⟩

theorem Mx.withPass_of_alone {m : Mx} (h : m.tail = none) (p : Pass) : m.withPass p = { m with pass := some p } := by
  simp [Mx.withPass, h]

/-- The oldest pass changed is the oldest pass still. -/
theorem Mx.oldest_withPass {m : Mx} {p q : Pass} (h : m.oldest = some p) (hi : q.idx = p.idx) :
    (m.withPass q).oldest = some q := by
  unfold Mx.oldest at h
  cases ht : m.tail with
  | none => simp [Mx.withPass, Mx.oldest, ht]
  | some t =>
    rw [ht] at h
    cases h
    simp [Mx.withPass, Mx.oldest, ht, hi]

/-- The oldest pass changed after an operation that left the cores alone. -/
theorem State.oldest_setPass {s t : State} (hc : s.coresOk) (ht : t.cores = s.cores) {ph : ℕ} {p q : Pass}
    (h : (s.mx ph).oldest = some p) (hi : q.idx = p.idx) :
    ((t.setPass ph q).mx ph).oldest = some q ∧ ((t.setPass ph q).mx ph).st = (s.mx ph).st
      ∧ ∀ i, i ≠ ph → (t.setPass ph q).core i = s.core i := by
  rw [State.setPass_eq, State.mx_setMx (State.coresOk_of_cores ht hc), State.mx_of_cores ht]
  exact ⟨Mx.oldest_withPass h hi, ((s.mx ph).withPass_rest q).1, fun i hi => by
    rw [State.core_setMx_ne _ hi, State.core_of_cores ht]⟩

/-- A sweep that goes on draining leaves the passes as they were. -/
theorem Mx.passes_drainsOn (m : Mx) (p : Pass) : (m.drainsOn p).pass = m.pass ∧ (m.drainsOn p).tail = m.tail := by
  unfold Mx.drainsOn
  split
  · split <;> exact ⟨rfl, rfl⟩
  · exact ⟨rfl, rfl⟩

theorem Mx.oldest_drainsOn (m : Mx) (p : Pass) : (m.drainsOn p).oldest = m.oldest := by
  obtain ⟨hp, ht⟩ := m.passes_drainsOn p
  unfold Mx.oldest
  rw [hp, ht]

end Sys2Proof.Machine

/-! SUPPORT. SWEEP_DRAIN: the results of the oldest sweep, or of an output tile of a pass with K = 0. -/

namespace Sys2Proof.Machine

/-! ### The drain of a sweep -/

section
variable {s : State} {ph : ℕ} {p : Pass} {d : MatmulD} {w : Sweep} {rest : List Sweep}

theorem State.drainSweep_fails
    (hf : (s.touch ph (s.cReads ph d)).2 = true ∨ (s.touch ph (s.cReads ph d)).1.rawCBad ph d w.j = true) :
    s.drainSweep ph p d w rest = (s.touch ph (s.cReads ph d)).1.endPass ph p 7 := by
  unfold State.drainSweep
  exact if_pos hf

/-- A drain without a failed read or merge writes the results and changes only the registers, besides the pass. -/
theorem State.drainSweep_writes (hu : (s.touch ph (s.cReads ph d)).2 = false)
    (hb : (s.touch ph (s.cReads ph d)).1.rawCBad ph d w.j = false) :
    let t := (s.touch ph (s.cReads ph d)).1
    let r := t.drain ph d p.anchor (t.finishSweep ph d p.anchor w).1
    r.2.2.2 = false → ∃ (q : Pass) (fl : ℕ),
      s.drainSweep ph p d w rest = (r.1.raiseFlags (pCore ph + 0x100) fl).setPass ph q
      ∧ q.idx = p.idx ∧ q.active = rest ∧ q.again = r.2.2.1 ∧ q.next = p.next ∧ q.anchor = p.anchor
      ∧ q.attempts = p.attempts := by
  intro t r hr
  refine ⟨?q, ?fl, ?run, ?pass⟩
  case run =>
    unfold State.drainSweep State.passFlags
    dsimp only
    rw [if_neg (by simp [hu, hb]), if_neg (ne_true_of_eq_false hr)]
  case pass => exact ⟨rfl, rfl, rfl, rfl, rfl, rfl⟩

end

/-! ### The drain of an output tile of a pass with K = 0 -/

/-- Output tile p.next of a pass with K = 0 drains (R97). -/
def State.drainTile (s : State) (ph : ℕ) (p : Pass) (d : MatmulD) : State :=
  let u := s.touch ph (s.cReads ph d)
  if u.2 ∨ u.1.rawCBad ph d p.next then u.1.endPass ph p 7
  else
    let z := u.1.zeroDrain ph d p.next
    let f := z.1.passFlags ph p z.2.1
    if z.2.2 then f.1.endPass ph f.2 7 else f.1.setPass ph { f.2 with next := p.next + 1 }

section
variable {s : State} {ph : ℕ} {p : Pass} {d : MatmulD}

theorem State.drainTile_fails
    (hf : (s.touch ph (s.cReads ph d)).2 = true ∨ (s.touch ph (s.cReads ph d)).1.rawCBad ph d p.next = true) :
    s.drainTile ph p d = (s.touch ph (s.cReads ph d)).1.endPass ph p 7 := by
  unfold State.drainTile
  exact if_pos hf

/-- The drain of a tile without a failed read or merge writes it and changes only the registers, besides the pass. -/
theorem State.drainTile_writes (hu : (s.touch ph (s.cReads ph d)).2 = false)
    (hb : (s.touch ph (s.cReads ph d)).1.rawCBad ph d p.next = false) :
    let z := (s.touch ph (s.cReads ph d)).1.zeroDrain ph d p.next
    z.2.2 = false → ∃ (q : Pass) (fl : ℕ), s.drainTile ph p d = (z.1.raiseFlags (pCore ph + 0x100) fl).setPass ph q
      ∧ q.idx = p.idx ∧ q.next = p.next + 1 ∧ q.active = p.active := by
  intro z hz
  refine ⟨?q, ?fl, ?run, ?pass⟩
  case run =>
    unfold State.drainTile State.passFlags
    dsimp only
    rw [if_neg (by simp [hu, hb]), if_neg (ne_true_of_eq_false hz)]
  case pass => exact ⟨rfl, rfl, rfl⟩

end

/-! ### The command -/

section
variable {s : State} {n ph : ℕ} {p : Pass} {e : Infl} (h : s.phys n = some ph)
  (hst : (s.mx ph).st = .issue ∨ (s.mx ph).st = .paused ∨ ((s.mx ph).st = .saving ∧ (s.mx ph).hdr = none))
  (ho : (s.mx ph).oldest = some p) (he : s.infl ph p.idx = some e) (hp : p.phase = .sweeps) (ha : p.again = false)
  (hl : s.spLocked ph (s.cReads ph (matmulD e.words) ++ (matmulD e.words).dReg) = false)
include h hst ho he hp ha hl

omit h ho he in
/-- None of the conditions under which SWEEP_DRAIN waits holds. -/
theorem not_drain_waits : ¬((s.mx ph).st = .idle ∨ (s.mx ph).st = .saved ∨ (s.mx ph).st = .restoring
    ∨ ((s.mx ph).st = .saving ∧ (s.mx ph).hdr.isSome = true) ∨ p.again = true ∨ p.phase ≠ .sweeps
    ∨ s.spLocked ph (s.cReads ph (matmulD e.words) ++ (matmulD e.words).dReg) = true) := by
  rcases hst with hst | hst | ⟨hst, hh⟩ <;> simp [*]

theorem sweepDrain_tile (hk : (matmulD e.words).k = 0) (hn : p.next < (matmulD e.words).sweeps) :
    sweepDrain n s = s.drainTile ph p (matmulD e.words) := by
  unfold sweepDrain
  rw [State.onCore_phys h]
  simp only [ho, he]
  rw [if_neg (not_drain_waits hst hp ha hl), if_pos hk, if_neg (Nat.not_le.2 hn)]
  rfl

theorem sweepDrain_sweep (hk : (matmulD e.words).k ≠ 0) {w : Sweep} {rest : List Sweep} (hw : p.active = w :: rest) :
    sweepDrain n s = (s.setMx ph ((s.mx ph).drainsOn p)).drainSweep ph p (matmulD e.words) w rest := by
  unfold sweepDrain
  rw [State.onCore_phys h]
  simp only [ho, he]
  rw [if_neg (not_drain_waits hst hp ha hl), if_neg hk]
  simp only [hw]

end

end Sys2Proof.Machine

section

open Sys2Proof.Machine

/-- Settles O17: the drain of a sweep, and of a tile of a pass with K = 0, changes of the cores the pass alone. -/
theorem sweepDrains : Obligations.SweepDrains := by
  intro s n ph p e h hc hst ho he hp ha d hl
  refine ⟨fun w rest hk hw => ?_, fun hk hn => ?_, fun w ht hw hh => ?_⟩
  · intro u x r
    have hcu : u.1.cores = (s.setMx ph ((s.mx ph).drainsOn p)).cores := State.touch_cores _ ph _
    have hrun : exec (.sweepDrain n) s
        = .next ((s.setMx ph ((s.mx ph).drainsOn p)).drainSweep ph p d w rest).settle :=
      next_settle_congr (sweepDrain_sweep h hst ho he hp ha hl hk hw)
    rw [hrun]
    refine ⟨fun hf => by rw [State.drainSweep_fails hf]; rfl, fun hu hb hr => ?_⟩
    obtain ⟨q, fl, hq, hi, hrest, hagain, hnext, hanchor, hatt⟩ :=
      State.drainSweep_writes (p := p) (rest := rest) hu hb hr
    obtain ⟨hold, hstate, hcore⟩ := State.oldest_setPass (q := q)
      (t := r.1.raiseFlags (pCore ph + 0x100) fl) (State.coresOk_setMx hc ph ((s.mx ph).drainsOn p))
      ((State.drain_cores _ _ _ _ _).trans hcu)
      (by rw [State.mx_setMx hc, Mx.oldest_drainsOn]; exact ho) hi
    rw [State.mx_setMx hc] at hstate
    exact ⟨_, q, by rw [hq]; rfl, hold, hrest, hagain, hnext, hanchor, hatt, hstate, rfl,
      fun i hi => by rw [hcore i hi, State.core_setMx_ne _ hi]⟩
  · intro u
    have hrun : exec (.sweepDrain n) s = .next (s.drainTile ph p d).settle :=
      next_settle_congr (sweepDrain_tile h hst ho he hp ha hl hk hn)
    rw [hrun]
    refine ⟨fun hf => by rw [State.drainTile_fails hf], fun hu hb hz => ?_⟩
    obtain ⟨q, fl, hq, hi, hnext, hact⟩ := State.drainTile_writes (p := p) hu hb hz
    obtain ⟨hold, -, hcore⟩ := State.oldest_setPass (q := q)
      (t := (u.1.zeroDrain ph d p.next).1.raiseFlags (pCore ph + 0x100) fl) hc
      ((State.zeroDrain_cores _ _ _ _).trans (State.touch_cores _ ph _)) ho hi
    exact ⟨_, q, by rw [hq], hold, hnext, hact, rfl, hcore⟩
  · unfold Mx.drainsOn
    rw [if_pos ⟨ht, by rw [hw]; rfl, hh⟩]
    exact ⟨fun h1 => by rw [h1], fun h1 => by rw [h1]; exact ⟨rfl, rfl⟩⟩

end

/-! SUPPORT. PREEMPT_SAVE, SAVE_COMPLETE and RESTORE_COMPLETE: the save area of a pass under pre-emption (R101, R106). -/

namespace Sys2Proof.Machine

/-! ### Writes to the save area -/

theorem State.sput_clean (s : State) (ph x : ℕ) (bs : List Byte) (hc : s.mem.spClean = true) :
    s.sput ph x bs = { s with mem := s.mem.put (spKey ph x) bs } := by
  unfold State.sput
  rw [State.spWrite_clean s ph x bs hc]

theorem State.fget_of_regs {s t : State} (h : t.regs = s.regs) (a : ℕ) (f : FRef) : t.fget a f = s.fget a f := by
  unfold State.fget State.reg
  rw [h]

/-- The save header is 4 KiB of free bytes at the save area's base. -/
theorem State.putSaveHdr_eq (s : State) (ph : ℕ) :
    s.putSaveHdr ph = (s.drawBytes 4096).2.sput ph (s.fget (pCore ph) F.MX_SAVE_BASE_BASE * 4096) (s.drawBytes 4096).1 := by
  unfold State.putSaveHdr
  dsimp only
  rw [State.fget_of_regs (s := s) (t := (s.drawBytes 4096).2) rfl]

section
variable {s : State} (hs : s.mem.spClean = true) (ph : ℕ)
include hs

theorem State.putSaveHdr_clean_mem : (s.putSaveHdr ph).mem
    = s.mem.put (spKey ph (s.fget (pCore ph) F.MX_SAVE_BASE_BASE * 4096)) (s.drawBytes 4096).1 := by
  rw [State.putSaveHdr_eq, State.sput_clean (s.drawBytes 4096).2 _ _ _ hs]
  rfl

theorem State.putSaveHdr_clean_regs : (s.putSaveHdr ph).regs = s.regs := by
  rw [State.putSaveHdr_eq, State.sput_clean (s.drawBytes 4096).2 _ _ _ hs]
  rfl

end

/-- A save that fails leaves the engine SAVED with RESTART = 1 (R106). -/
theorem State.mx_saveFails {s : State} {ph : ℕ} (hc : s.coresOk) (hr : (s.mx ph).release = false) :
    (s.saveFails ph).mx ph
      = { s.mx ph with st := .saved, release := false, hdr := some { SaveHdr.empty with restart := true } } := by
  have hcores := s.putSaveHdr_cores ph
  unfold State.saveFails
  dsimp only
  rw [State.mx_of_cores hcores, hr, if_neg (by decide), State.mx_setMx (State.coresOk_of_cores hcores hc)]

/-- The header's page, the accumulators and the header written, with ks and what the accumulators do not hold. -/
def State.writeSave (s : State) (ph : ℕ) (p : Pass) (ks : ℕ) (accs : List Acc128) : State :=
  let t := s.putSaveHdr ph
  (t.sput ph (t.fget (pCore ph) F.MX_SAVE_BASE_BASE * 4096 + 4096)
      (accs.flatMap fun a => leBytes 16 (ofSint 128 a.total))).modMx ph fun m => { m with
    hdr := some ⟨true, false, some p, ks, accs.map fun a => wrapOf a.total, accs.map fun a => (a.side, a.prodOvf)⟩ }

theorem State.mx_writeSave {s : State} (hc : s.coresOk) (ph : ℕ) (p : Pass) (ks : ℕ) (accs : List Acc128) :
    (s.writeSave ph p ks accs).mx ph = { s.mx ph with
      hdr := some ⟨true, false, some p, ks, accs.map fun a => wrapOf a.total, accs.map fun a => (a.side, a.prodOvf)⟩ } := by
  unfold State.writeSave State.modMx
  dsimp only
  have hcores : ((s.putSaveHdr ph).sput ph ((s.putSaveHdr ph).fget (pCore ph) F.MX_SAVE_BASE_BASE * 4096 + 4096)
      (accs.flatMap fun a => leBytes 16 (ofSint 128 a.total))).cores = s.cores := by simp
  rw [State.mx_setMx (State.coresOk_of_cores hcores hc), State.mx_of_cores hcores]

theorem accBytes_length (accs : List Acc128) :
    (accs.flatMap fun a => leBytes 16 (ofSint 128 a.total)).length = 16 * accs.length := by
  induction accs with
  | nil => rfl
  | cons a accs ih =>
    rw [List.flatMap_cons, List.length_append, ih, leBytes_length, List.length_cons]
    omega

theorem Mem.spClean_put (m : Mem) (a : ℕ) (bs : List Byte) : (m.put a bs).spClean = m.spClean := rfl

/-- The accumulators read back from the save area. -/
theorem State.read_writeSave {s : State} (hm : s.memOk) (hs : s.mem.spClean = true) (ph : ℕ) (p : Pass) (ks : ℕ)
    {accs : List Acc128} (hl : accs.length = 4096) :
    (s.writeSave ph p ks accs).mem.read (spKey ph (s.fget (pCore ph) F.MX_SAVE_BASE_BASE * 4096 + 4096)) 65536
      = accs.flatMap fun a => leBytes 16 (ofSint 128 a.total) := by
  have hlen : (accs.flatMap fun a => leBytes 16 (ofSint 128 a.total)).length = 65536 := by
    rw [accBytes_length, hl]
  have hmem := State.putSaveHdr_clean_mem hs ph
  unfold State.writeSave
  dsimp only
  rw [State.modMx_mem, State.sput_clean _ _ _ _ (by rw [hmem, Mem.spClean_put]; exact hs),
    State.fget_of_regs (State.putSaveHdr_clean_regs hs ph), hmem, ← hlen]
  exact Mem.read_put _ _ _ (Mem.wf_put _ _ _ hm)

/-! ### The sweep that a save stops -/

section
variable (s : State) (ph : ℕ) (p : Pass) (d : MatmulD) (w : Sweep) (ks : ℕ)

/-- The state with the sweep of a pass stopped at ks. -/
def State.stopped : State := (s.stopSweep ph p d w ks).1.setPass ph (s.stopSweep ph p d w ks).2.1

/-- The accumulator of a cell of the tile when the sweep stops: zero for a masked one. -/
def State.stoppedAcc (i : ℕ) : Acc128 :=
  ((d.cells w.j).find? fun c => c.i == i).elim Acc128.zero fun c =>
    ((s.fed w).cellRun ph d p.anchor c.r c.c (w.acc.getD c.i Acc128.zero) w.k0 ks).acc

theorem State.stopSweep_accs : (s.stopSweep ph p d w ks).2.2 = (List.range 4096).map (s.stoppedAcc ph p d w ks) := by
  unfold State.stopSweep
  dsimp only
  refine List.map_congr_left fun i _ => ?_
  unfold State.stoppedAcc
  rw [List.find?_map, show ((fun x : TileCell × CellRun => x.1.i == i) ∘ fun t : TileCell =>
    (t, (s.fed w).cellRun ph d p.anchor t.r t.c (w.acc.getD t.i Acc128.zero) w.k0 ks)) = fun c => c.i == i from rfl]
  cases (d.cells w.j).find? fun c => c.i == i <;> rfl

theorem State.stopped_mem : (s.stopped ph p d w ks).mem = s.mem := rfl

/-- Stopping a sweep raises flags and touches no other register. -/
theorem State.stopped_saveBase :
    (s.stopped ph p d w ks).fget (pCore ph) F.MX_SAVE_BASE_BASE = s.fget (pCore ph) F.MX_SAVE_BASE_BASE :=
  s.fget_setReg_ne (pCore ph + 0x100) _ (pCore ph) F.MX_SAVE_BASE_BASE (by simp [F.MX_SAVE_BASE_BASE])

variable {s}

theorem State.coresOk_stopped (hc : s.coresOk) : (s.stopped ph p d w ks).coresOk :=
  State.coresOk_setMx (s := (s.stopSweep ph p d w ks).1) hc ph _

theorem State.mx_stopped (hc : s.coresOk) :
    (s.stopped ph p d w ks).mx ph = (s.mx ph).withPass (s.stopSweep ph p d w ks).2.1 :=
  State.mx_setMx (s := (s.stopSweep ph p d w ks).1) hc ph _

end

/-! ### The commands -/

section
variable {s : State} {n ph : ℕ} {p : Pass} {w : Sweep} {e : Infl} (h : s.phys n = some ph) (hp : (s.mx ph).pass = some p)
  (hw : p.active = [w]) (he : s.infl ph p.idx = some e)
include h hp hw he

section
variable {ks : ℕ} (hst : (s.mx ph).st = .saving) (ht : (s.mx ph).tail = none) (hh : (s.mx ph).hdr = none)
  (h0 : w.k0 ≤ ks) (h1 : ks ≤ (matmulD e.words).k)
include hst ht hh h0 h1

omit h hp hw he hst in
theorem not_save_waits :
    ¬(ks < w.k0 ∨ ks > (matmulD e.words).k ∨ (s.mx ph).tail.isSome = true ∨ (s.mx ph).hdr.isSome = true) := by
  rw [ht, hh]
  simp only [Option.isSome_none, Bool.false_eq_true, or_false]
  omega

/-- PREEMPT_SAVE of a sweep alone in the arrays stops it and writes the save. -/
theorem preemptSave_saves : preemptSave n ⟨ks, true⟩ s = (s.stopped ph p (matmulD e.words) w ks).writeSave ph
    (s.stopSweep ph p (matmulD e.words) w ks).2.1 ks (s.stopSweep ph p (matmulD e.words) w ks).2.2 := by
  unfold preemptSave State.writeSave State.stopped
  rw [State.onCore_phys h]
  simp only [hst, hp, he, hw]
  rw [if_neg (not_save_waits ht hh h0 h1)]
  simp only [Bool.not_true, Bool.false_eq_true, if_false]

/-- PREEMPT_SAVE with a write that fails ends the save. -/
theorem preemptSave_fails :
    preemptSave n ⟨ks, false⟩ s = (s.stopped ph p (matmulD e.words) w ks).saveFails ph := by
  unfold preemptSave State.stopped
  rw [State.onCore_phys h]
  simp only [hst, hp, he, hw]
  rw [if_neg (not_save_waits ht hh h0 h1)]
  simp only [Bool.not_false, if_true]

end

/-- RESTORE_COMPLETE: a failed read of the save area restarts the pass. -/
theorem restoreComplete_restarts {hdr : SaveHdr} (hst : (s.mx ph).st = .restoring) (hh : (s.mx ph).hdr = some hdr)
    (hl : s.spLocked ph (s.abReads ph (matmulD e.words)) = false)
    (hu : (s.touch ph [(s.fget (pCore ph) F.MX_SAVE_BASE_BASE * 4096, 69632)]).2 = true) :
    restoreComplete n s
      = (s.touch ph [(s.fget (pCore ph) F.MX_SAVE_BASE_BASE * 4096, 69632)]).1.restartPass ph p := by
  unfold restoreComplete
  rw [State.onCore_phys h]
  simp only [hst, hp, hh, he, hw, hl, hu, Bool.false_eq_true, if_false, if_true]

/-- RESTORE_COMPLETE: the sweep goes on at ks with the accumulators of the save area. -/
theorem restoreComplete_resumes {hdr : SaveHdr} (hst : (s.mx ph).st = .restoring) (hh : (s.mx ph).hdr = some hdr)
    (hl : s.spLocked ph (s.abReads ph (matmulD e.words)) = false) :
    let u := s.touch ph [(s.fget (pCore ph) F.MX_SAVE_BASE_BASE * 4096, 69632)]
    let v := u.1.touch ph (u.1.abReads ph (matmulD e.words))
    u.2 = false → v.2 = false → restoreComplete n s = v.1.setMx ph { v.1.mx ph with
      st := if (s.mx ph).pause then .paused else .issue
      hdr := none
      pass := some { p with
        active := [⟨w.j, hdr.ks, u.1.savedAccs ph hdr, u.1.cellsIn ph (u.1.abReads ph (matmulD e.words))⟩] } } := by
  intro u v hu hv
  unfold restoreComplete
  rw [State.onCore_phys h]
  simp only [hst, hp, hh, he, hw, hl, Bool.false_eq_true, if_false]
  rw [if_neg (ne_true_of_eq_false hu), if_neg (ne_true_of_eq_false hv)]

end

theorem saveComplete_saved {s : State} {n ph : ℕ} {hdr : SaveHdr} (h : s.phys n = some ph) (hst : (s.mx ph).st = .saving)
    (hh : (s.mx ph).hdr = some hdr) :
    let t := (s.finc (pCore ph) F.MX_EVENTS_PREEMPTS).setMx ph { s.mx ph with st := .saved, release := false }
    saveComplete n s = if (s.mx ph).release then t.preemptClear ph else t := by
  intro t
  unfold saveComplete
  rw [State.onCore_phys h]
  simp only [hst, hh, t]

end Sys2Proof.Machine

section

open Sys2Proof.Machine

/-- Settles O19: the save writes what the sweep had when it stopped (`State.read_writeSave`), and the restore goes on
with what it reads (`restoreComplete_resumes`). -/
theorem saveAndRestore : Obligations.SaveAndRestore := by
  intro s n ph p w e h hc hp hw he d base
  refine ⟨fun ks hst ht hh h0 h1 => ⟨fun hm _ hs => ?_, fun hr => ?_⟩, fun hdr hst hh => ?_, fun hdr hst hh hl => ?_⟩
  · have hrun := preemptSave_saves h hp hw he hst ht hh h0 h1
    have hmx := State.mx_writeSave (State.coresOk_stopped ph p d w ks hc) ph (s.stopSweep ph p d w ks).2.1 ks
      (s.stopSweep ph p d w ks).2.2
    have hread := State.read_writeSave (s := s.stopped ph p d w ks)
      (by unfold State.memOk; rw [State.stopped_mem]; exact hm) (by rw [State.stopped_mem]; exact hs) ph
      (s.stopSweep ph p d w ks).2.1 ks
      (accs := (s.stopSweep ph p d w ks).2.2) (by rw [State.stopSweep_accs, List.length_map, List.length_range])
    rw [State.stopped_saveBase] at hread
    refine ⟨_, _, _, next_settle_congr hrun, congrArg Mx.hdr hmx, rfl, rfl, rfl, ?_,
      hread, ?_⟩
    · rw [State.stopSweep_accs]
      refine List.map_congr_left fun i _ => ?_
      unfold State.stoppedAcc
      cases (d.cells w.j).find? fun c => c.i == i <;> rfl
    · refine (congrArg Mx.st hmx).trans ?_
      rw [State.mx_stopped ph p d w ks hc, (Mx.withPass_rest _ _).1, hst]
  · have hrun := preemptSave_fails h hp hw he hst ht hh h0 h1
    have hmx := State.mx_saveFails (State.coresOk_stopped ph p d w ks hc)
      (by rw [State.mx_stopped ph p d w ks hc, (Mx.withPass_rest _ _).2.2, hr])
    exact ⟨_, next_settle_congr hrun, congrArg Mx.st hmx, congrArg Mx.hdr hmx⟩
  · exact congrArg Host.Outcome.next (saveComplete_saved h hst hh)
  · refine ⟨fun hu => ?_, fun hu hv => ?_⟩
    · exact next_settle_congr (restoreComplete_restarts h hp hw he hst hh hl hu)
    · exact next_settle_congr (restoreComplete_resumes h hp hw he hst hh hl hu hv)

end

/-! SUPPORT. Issue pauses, the writes that change MX_CTRL.PREEMPT, and what each gives by the state of the engine (R99, R100,
R102, R106). -/

namespace Sys2Proof.Machine

/-! ### Pauses -/

section
variable {s : State} {n ph : ℕ} (h : s.phys n = some ph)
include h

theorem issuePause_issue {p : Pass} (hst : (s.mx ph).st = .issue) (hp : (s.mx ph).pass = some p) :
    issuePause n s
      = s.setMx ph { s.mx ph with pause := true, st := if p.injecting then .paused else .issue } := by
  unfold issuePause
  rw [State.onCore_phys h]
  simp only [hst, hp]

theorem issuePause_restoring (hst : (s.mx ph).st = .restoring) :
    issuePause n s = s.setMx ph { s.mx ph with pause := true } := by
  unfold issuePause
  rw [State.onCore_phys h]
  simp only [hst]

theorem pauseEnd_resumes : pauseEnd n s
    = s.setMx ph { s.mx ph with pause := false, st := if (s.mx ph).st = .paused then .issue else (s.mx ph).st } := by
  unfold pauseEnd
  rw [State.onCore_phys h]

end

/-! ### Writes of MX_CTRL -/

theorem bits_zero (w : Word) : bits w 0 0 = b2n (bit w 0) := by
  have hb : bit w 0 = decide (w.toNat % 2 = 1) := Nat.testBit_zero _
  rw [hb]
  unfold bits nbits b2n
  simp only [decide_eq_true_eq]
  split <;> omega

/-- MX_CTRL after a whole word has been written through the normal view: RESTART_MAX and PREEMPT take it (R454). -/
def State.writeMxCtrl (s : State) (ph : ℕ) (w : Word) : State :=
  s.setReg (pCore ph + 0x140) (viewPut 0 (s.reg (pCore ph + 0x140)) w 0xF1 0xFFFFFFFF)

theorem beMask_all : beMask 0xF = 0xFFFFFFFF := by decide

theorem State.preempt_writeMxCtrl {s : State} (h : s.regsOk) (ph : ℕ) (w : Word) :
    (s.writeMxCtrl ph w).fget (pCore ph) F.MX_CTRL_PREEMPT = b2n (bit w 0) := by
  have hv := viewPut_bit 0 (s.reg (pCore ph + 0x140)) w 0xF1 0xF 0 (by decide)
  rw [beMask_all, show w &&& 0xFFFFFFFF = w from BitVec.and_allOnes] at hv
  have hr : (s.writeMxCtrl ph w).reg (pCore ph + 0x140) = viewPut 0 (s.reg (pCore ph + 0x140)) w 0xF1 0xFFFFFFFF :=
    s.reg_setReg _ _ h
  show bits ((s.writeMxCtrl ph w).reg (pCore ph + 0x140)) 0 0 = _
  rw [hr, bits_zero, hv]
  rfl

theorem bit_setBits_zero (v : Word) (b : Bool) : bit (setBits v 0 0 (b2n b)) 0 = b := by
  rw [bit_setBits v 0 0 _ 0 (by decide) (by decide)]
  cases b <;> rfl

theorem accMask_mxCtrl : accMask (Block.core.fieldsAt 0x140) .rw = 0xF1 ∧ accMask (Block.core.fieldsAt 0x140) .w1c = 0
    ∧ accMask (Block.core.fieldsAt 0x140) .rws = 0 := by decide

/-- A served write of MX_CTRL: the register, and what the change of PREEMPT gives. -/
theorem State.putWord_mxCtrl {s : State} {n : CoreId} {ph : ℕ} {rq : Requester} (h : s.phys n.val = some ph)
    (hs : s.serves rq (coreA n 0x140)) (w : Word) :
    s.putWord (coreA n 0x140) rq w = ((s.writeMxCtrl ph w).preemptWrite ph (s.fget (pCore ph) F.MX_CTRL_PREEMPT)
      ((s.writeMxCtrl ph w).fget (pCore ph) F.MX_CTRL_PREEMPT)).settle := by
  obtain ⟨hrw, hw1c, hrws⟩ := accMask_mxCtrl
  have hplain := s.plainWrite_rw ⟨.core, n.val, ph, pCore ph, 0x140, 0⟩ w 0xFFFFFFFF 0xF1 hrw hw1c hrws
  refine congrArg State.settle (State.writeAcc_done hs (s.regLoc_core n ph 0x140 0 h (by decide) (by decide)) rfl
    (isIdx_core n _ _) (isIdx_core n _ _) ?_)
  rw [beMask_all, show w &&& 0xFFFFFFFF = w from BitVec.and_allOnes]
  show (State.preemptWrite (s.plainWrite ⟨.core, n.val, ph, pCore ph, 0x140, 0⟩ w 0xFFFFFFFF) ph _
    ((s.plainWrite ⟨.core, n.val, ph, pCore ph, 0x140, 0⟩ w 0xFFFFFFFF).fget (pCore ph) F.MX_CTRL_PREEMPT), true) = _
  rw [hplain]
  rfl

section
variable {s : State} {n : CoreId} {ph : ℕ} {rq : Requester} (h : s.phys n.val = some ph) (hr : s.regsOk)
  (hs : s.serves rq (coreA n 0x140)) (v : Word)
include h hr hs

theorem preemptRequest_served (h0 : s.fget (pCore ph) F.MX_CTRL_PREEMPT = 0) :
    preemptRequest n rq v s = ((s.writeMxCtrl ph (setBits v 0 0 1)).preemptSet ph).settle := by
  unfold preemptRequest
  rw [State.putWord_mxCtrl h hs, State.preempt_writeMxCtrl hr,
    show bit (setBits v 0 0 1) 0 = true from bit_setBits_zero v true, h0]
  rfl

theorem preemptRelease_served (h1 : s.fget (pCore ph) F.MX_CTRL_PREEMPT = 1) :
    preemptRelease n rq v s = ((s.writeMxCtrl ph (setBits v 0 0 0)).preemptClear ph).settle := by
  unfold preemptRelease
  rw [State.putWord_mxCtrl h hs, State.preempt_writeMxCtrl hr,
    show bit (setBits v 0 0 0) 0 = false from bit_setBits_zero v false, h1]
  rfl

end

/-! ### PREEMPT changes -/

section
variable {s : State} {ph : ℕ}

theorem State.preemptSet_badArea (hok : s.saveOk ph = false) :
    s.preemptSet ph = s.setMx ph { s.mx ph with saveErr := true } := by
  unfold State.preemptSet
  simp only [hok, Bool.not_false, if_true]

theorem State.preemptSet_idle (hok : s.saveOk ph = true) (hst : (s.mx ph).st = .idle) :
    s.preemptSet ph = s.savedEmpty ph := by
  unfold State.preemptSet
  simp only [hok, hst, Bool.not_true, Bool.false_eq_true, if_false]

theorem State.preemptSet_issue {p : Pass} (hok : s.saveOk ph = true) (hst : (s.mx ph).st = .issue)
    (hp : (s.mx ph).pass = some p) :
    s.preemptSet ph
      = s.setMx ph (if p.injecting then { s.mx ph with st := .saving } else { s.mx ph with want := true }) := by
  unfold State.preemptSet
  simp only [hok, hst, hp, Bool.not_true, Bool.false_eq_true, if_false]

theorem State.preemptSet_paused (hok : s.saveOk ph = true) (hst : (s.mx ph).st = .paused) :
    s.preemptSet ph = s.setMx ph { s.mx ph with st := .saving } := by
  unfold State.preemptSet
  simp only [hok, hst, Bool.not_true, Bool.false_eq_true, if_false]

theorem State.mx_savedEmpty (hc : s.coresOk) :
    (s.savedEmpty ph).mx ph = { s.mx ph with st := .saved, hdr := some SaveHdr.empty, want := false } := by
  have hcores := s.putSaveHdr_cores ph
  unfold State.savedEmpty
  dsimp only
  rw [State.mx_setMx (State.coresOk_of_cores hcores hc), State.mx_of_cores hcores]

/-- The 4 KiB header of an empty save is all that changes of memory. -/
theorem State.byte_savedEmpty {a : ℕ} (ha : ¬inRegion ph [(s.fget (pCore ph) F.MX_SAVE_BASE_BASE * 4096, 4096)] a) :
    (s.savedEmpty ph).mem.byte a = s.mem.byte a := by
  unfold State.savedEmpty
  rw [State.setMx_mem, State.putSaveHdr_eq, State.sput_mem]
  refine Mem.byte_write_out _ _ ?_
  rw [show (s.drawBytes 4096).1.length = 4096 by simp [State.drawBytes]]
  by_contra hcon
  refine ha ⟨_, List.mem_singleton.2 rfl, ?_⟩
  dsimp only
  generalize s.fget (pCore ph) F.MX_SAVE_BASE_BASE * 4096 = b at hcon ⊢
  unfold spKey at hcon ⊢
  omega

/-- A valid save of no restart is restored (R102). -/
theorem State.preemptClear_restores {hdr : SaveHdr} (hc : s.coresOk) (hst : (s.mx ph).st = .saved)
    (hh : (s.mx ph).hdr = some hdr) (hr : hdr.restart = false) (hv : hdr.valid = true) :
    ((s.preemptClear ph).mx ph).st = .restoring := by
  unfold State.preemptClear
  simp only [hst, hh, hr, hv, Bool.false_eq_true, if_false, if_true]
  rw [State.mx_setMx (State.coresOk_setMx hc ph _)]

end

end Sys2Proof.Machine

/-! SUPPORT. Faults of a pass: a datapath fault, and a read beyond correction (R103, R104, R106). -/

namespace Sys2Proof.Machine

/-! ### Errors of memory words -/

theorem Mem.mem_hit (m : Mem) (k x : ℕ) : (k, x) ∈ (m.hit k x).errs := by
  unfold Mem.hit
  split
  · next h => exact List.contains_iff_mem.1 h
  · exact List.mem_append_right _ (List.mem_singleton.2 rfl)

theorem Mem.errs_subset_hit (m : Mem) (k x : ℕ) : m.errs.Sublist (m.hit k x).errs := by
  unfold Mem.hit
  split
  · exact List.Sublist.refl _
  · exact List.sublist_append_left _ _

/-- An error leaves a word that fails failing. -/
theorem Mem.isBad_hit {m : Mem} {j : ℕ} (k x : ℕ) (h : m.isBad j = true) : (m.hit k x).isBad j = true := by
  have hle : m.wrong j ≤ (m.hit k x).wrong j := ((m.errs_subset_hit k x).filter _).length_le
  unfold Mem.isBad at h ⊢
  simp only [decide_eq_true_eq] at h ⊢
  omega

/-- A word with two wrong bits fails beyond correction (R166). -/
theorem Mem.isBad_hit_hit (m : Mem) (k : ℕ) {x y : ℕ} (h : x ≠ y) : ((m.hit k x).hit k y).isBad k = true := by
  have hx : (k, x) ∈ ((m.hit k x).hit k y).errs := ((m.hit k x).errs_subset_hit k y).subset (m.mem_hit k x)
  have hy : (k, y) ∈ ((m.hit k x).hit k y).errs := (m.hit k x).mem_hit k y
  have hsub : [(k, x), (k, y)] ⊆ ((m.hit k x).hit k y).errs.filter fun e => e.1 == k := by
    intro e he
    rcases List.mem_pair.1 he with rfl | rfl
    · exact List.mem_filter.2 ⟨hx, beq_self_eq_true k⟩
    · exact List.mem_filter.2 ⟨hy, beq_self_eq_true k⟩
  have hnd : [(k, x), (k, y)].Nodup := by simp [h]
  exact decide_eq_true (List.subperm_of_subset hnd hsub).length_le

/-! ### DATAPATH_FAULT -/

theorem State.noteFault_eq {s : State} {ph : ℕ} {p : Pass} {e : Infl} (he : s.infl ph p.idx = some e) (n : ℕ) :
    s.noteFault ph n p = (s.logEvent 0x0013 n 1 0x0001 (hTag e.words)).coreFault ph := by
  unfold State.noteFault
  rw [he]

theorem State.noteFault_cores (s : State) (ph n : ℕ) (p : Pass) : (s.noteFault ph n p).cores = s.cores := by
  unfold State.noteFault
  rw [State.coreFault_cores, State.logEvent_cores]

section
variable {s : State} {n ph : ℕ} {p : Pass} (h : s.phys n = some ph) (hp : (s.mx ph).pass = some p)
  (ht : (s.mx ph).tail = none)
include h hp ht

theorem datapathFault_restarts (hst : (s.mx ph).st = .issue ∨ (s.mx ph).st = .restoring) :
    datapathFault n s = (s.noteFault ph n p).restartPass ph p := by
  unfold datapathFault Mx.struck
  rw [State.onCore_phys h]
  rcases hst with hst | hst <;> simp only [ht, hp, hst]

theorem datapathFault_saving (hst : (s.mx ph).st = .saving) :
    datapathFault n s = (s.noteFault ph n p).saveFails ph := by
  unfold datapathFault Mx.struck
  rw [State.onCore_phys h]
  simp only [ht, hp, hst, Option.isSome_none, Bool.false_eq_true, if_false]

end

section
variable {s : State} {ph : ℕ} {p : Pass}

theorem State.restartPass_last (h : s.fget (pCore ph) F.MX_CTRL_RESTART_MAX ≤ p.restarts) :
    s.restartPass ph p = s.endPass ph p 7 := by
  unfold State.restartPass
  exact if_pos h

/-- A restart while some are left: the pass alone in the engine, before its first sweep. -/
theorem State.mx_restartPass (h : p.restarts < s.fget (pCore ph) F.MX_CTRL_RESTART_MAX) (hc : s.coresOk) :
    (s.restartPass ph p).mx ph = (s.mx ph).alone { p.fresh with restarts := p.restarts + 1 } := by
  unfold State.restartPass
  rw [if_neg (Nat.not_le.2 h)]
  exact State.mx_setMx (s := s.finc (pCore ph) F.MX_EVENTS_RESTARTS) hc ph _

end

/-! ### OPERAND_UE -/

theorem State.readerOf_pass {s : State} {ph x : ℕ} {p : Pass} {e : Infl} (hp : (s.mx ph).pass = some p)
    (ht : (s.mx ph).tail = none) (he : s.infl ph p.idx = some e) {i : ℕ × ℕ}
    (hi : i ∈ s.abReads ph (matmulD e.words) ++ s.cReads ph (matmulD e.words)) (h1 : i.1 ≤ x) (h2 : x < i.1 + i.2) :
    s.readerOf ph x = some p := by
  have hany : ((s.cReads ph (matmulD e.words) ++ s.abReads ph (matmulD e.words)).any
      fun i => decide (i.1 ≤ x ∧ x < i.1 + i.2)) = true :=
    List.any_eq_true.2 ⟨i, List.mem_append.2 (List.mem_append.1 hi).symm, decide_eq_true ⟨h1, h2⟩⟩
  unfold State.readerOf
  simp only [ht, hp, he, Bool.false_eq_true, if_false, hany, if_true]

theorem operandUe_ends {s : State} {n ph x : ℕ} {p : Pass} (h : s.phys n = some ph) (hst : (s.mx ph).st = .issue)
    (hx : s.readerOf ph x = some p) :
    operandUe n x s = (({ s with
      mem := (s.mem.hit (codeKey (spKey ph x)) 0).hit (codeKey (spKey ph x)) 1 } : State).spUe ph x).endPass ph p 7 := by
  unfold operandUe
  rw [State.onCore_phys h]
  simp only [hst, ne_eq, not_true_eq_false, if_false, hx]

end Sys2Proof.Machine

section

open Sys2Proof.Machine

/-- Settles O18: each request takes the branch that the state of the engine names, and a fault strikes the pass alone in
the engine. -/
theorem pauseAndFaults : Obligations.PauseAndFaults := by
  refine ⟨fun s n ph rq v h => ⟨?_, ?_, ?_, ?_, ?_, ?_, ?_, ?_, ?_, ?_⟩, fun s n ph p e h hp ht he => ⟨?_, ?_, ?_, ?_, ?_⟩⟩
  · exact fun p hst hp => congrArg Host.Outcome.next (issuePause_issue h hst hp)
  · exact fun hst => congrArg Host.Outcome.next (issuePause_restoring h hst)
  · exact congrArg Host.Outcome.next (pauseEnd_resumes h)
  · exact fun hr hs h0 => congrArg Host.Outcome.next (preemptRequest_served h hr hs v h0)
  · exact fun hr hs h1 => congrArg Host.Outcome.next (preemptRelease_served h hr hs v h1)
  · exact fun hok => State.preemptSet_badArea hok
  · intro hok hst hc t
    have hmx := State.mx_savedEmpty (ph := ph) hc
    rw [← State.preemptSet_idle hok hst] at hmx
    exact ⟨congrArg Mx.st hmx, congrArg Mx.hdr hmx, fun a ha => by
      rw [show t = s.savedEmpty ph from State.preemptSet_idle hok hst]
      exact State.byte_savedEmpty ha⟩
  · exact fun p hok hst hp => State.preemptSet_issue hok hst hp
  · exact fun hok hst => State.preemptSet_paused hok hst
  · exact fun hdr hc hst hh hr hv => State.preemptClear_restores hc hst hh hr hv
  · intro hst
    rw [← State.noteFault_eq he]
    exact next_settle_congr (datapathFault_restarts h hp ht hst)
  · intro hst hr hc
    have hcores := s.noteFault_cores ph n.val p
    have hmx := State.mx_saveFails (ph := ph) (State.coresOk_of_cores hcores hc) (by rw [State.mx_of_cores hcores, hr])
    exact ⟨_, next_settle_congr (datapathFault_saving h hp ht hst),
      congrArg Mx.st hmx, congrArg Mx.hdr hmx⟩
  · intro hr hc
    rw [State.mx_restartPass hr hc]
    rfl
  · exact fun hr => State.restartPass_last hr
  · intro x i hst hi h1 h2
    refine ⟨(s.mem.hit (codeKey (spKey ph x)) 0).hit (codeKey (spKey ph x)) 1, ?_, ?_, ?_, ?_⟩
    · rw [Mem.hit_cells, Mem.hit_cells]
    · exact fun k hk => Mem.isBad_hit _ _ (Mem.isBad_hit _ _ hk)
    · exact s.mem.isBad_hit_hit _ (by decide)
    · exact next_settle_congr
        (operandUe_ends h hst (State.readerOf_pass hp ht he hi h1 h2))

end

/-! SUPPORT. MATMUL and the commands of its pass: the anchor, the scan, the sweeps, the repeat and the end (R77 to R125). -/

namespace Sys2Proof.Machine

/-! ### MATMUL -/

theorem State.issuable_matmul {s : State} {ph : ℕ} {f : Fetched} (hf : s.heads ph f tMATMUL) :
    s.issuable ph (fun w => hType w == tMATMUL) = some f :=
  s.issuable_heads ph f tMATMUL _ hf (beq_iff_eq.2 hf.2.1)

section
variable {s : State} {n ph : ℕ} {f : Fetched} (h : s.phys n = some ph) (hf : s.heads ph f tMATMUL)
include h hf

theorem matmul_refused {r : ℕ} {rs : List ℕ} (hr : s.matmulReasons ph (matmulD f.words) = r :: rs) :
    matmul n s = s.issueDone ph f (Rec.refused r) := by
  unfold matmul
  rw [State.onCore_phys h, State.issuable_matmul hf]
  simp only [hr]

theorem matmul_empty (hr : s.matmulReasons ph (matmulD f.words) = [])
    (hz : (matmulD f.words).m = 0 ∨ (matmulD f.words).n = 0) : matmul n s = s.issueDone ph f (Rec.of 0) := by
  unfold matmul
  rw [State.onCore_phys h, State.issuable_matmul hf]
  simp only [hr]
  exact if_pos hz

theorem matmul_queued (hr : s.matmulReasons ph (matmulD f.words) = []) (hm : (matmulD f.words).m ≠ 0)
    (hn : (matmulD f.words).n ≠ 0) : matmul n s = (s.issue ph f .queued).mxNext ph := by
  unfold matmul
  rw [State.onCore_phys h, State.issuable_matmul hf]
  simp only [hr]
  exact if_neg (by simp [hm, hn])

end

theorem State.mx_issue {s : State} (hc : s.coresOk) (ph : ℕ) (f : Fetched) (q : Prog) :
    (s.issue ph f q).mx ph = s.mx ph :=
  (congrArg CoreSt.mx (s.core_issue ph f q hc)).trans rfl

section
variable {s : State} {ph : ℕ}

theorem State.mxNext_busy (hst : (s.mx ph).st ≠ .idle) : s.mxNext ph = s := by
  unfold State.mxNext
  exact if_pos hst

theorem State.mxNext_preempted (hst : (s.mx ph).st = .idle) (hp : s.fget (pCore ph) F.MX_CTRL_PREEMPT = 1)
    (he : (s.mx ph).saveErr = false) : s.mxNext ph = s.savedEmpty ph := by
  unfold State.mxNext
  simp [hst, hp, he]

theorem State.mxNext_begins {e : Infl} {es : List Infl} (hst : (s.mx ph).st = .idle)
    (hp : s.fget (pCore ph) F.MX_CTRL_PREEMPT = 0) (hq : s.queue ph tMATMUL = e :: es) :
    s.mxNext ph = s.beginPass ph e.idx (matmulD e.words) := by
  unfold State.mxNext
  simp [hst, hp, hq]

end

/-! ### The pass that begins -/

section
variable (s : State) (ph idx : ℕ) (d : MatmulD)

/-- The pass that begins for a descriptor (R97, R117). -/
def State.firstPass : Pass :=
  if d.k = 0 then Pass.start idx d .sweeps (-32) 0
  else if d.fixed then Pass.start idx d .sweeps (-32) 1
  else if d.hintEn then Pass.start idx d .sweeps d.hint 1
  else (s.anchorHit ph d.tensor).elim (Pass.start idx d .scan 0 0) fun r => Pass.start idx d .sweeps (r + d.h - 125) 1

theorem State.beginPass_eq :
    s.beginPass ph idx d = s.setMx ph { s.mx ph with st := .issue, pass := some (s.firstPass ph idx d) } := by
  unfold State.beginPass State.firstPass
  cases s.anchorHit ph d.tensor <;> rfl

theorem State.firstPass_fresh :
    (s.firstPass ph idx d).idx = idx ∧ (s.firstPass ph idx d).swapped = d.swap
      ∧ (s.firstPass ph idx d).shallow = d.shallow ∧ (s.firstPass ph idx d).next = 0
      ∧ (s.firstPass ph idx d).active = [] := by
  unfold State.firstPass
  split
  · exact ⟨rfl, rfl, rfl, rfl, rfl⟩
  · split
    · exact ⟨rfl, rfl, rfl, rfl, rfl⟩
    · split
      · exact ⟨rfl, rfl, rfl, rfl, rfl⟩
      · cases s.anchorHit ph d.tensor <;> exact ⟨rfl, rfl, rfl, rfl, rfl⟩

variable {d}

theorem State.firstPass_noProducts (hk : d.k = 0) : s.firstPass ph idx d = Pass.start idx d .sweeps (-32) 0 := if_pos hk

theorem State.firstPass_fixed (hk : d.k ≠ 0) (hf : d.fixed = true) :
    s.firstPass ph idx d = Pass.start idx d .sweeps (-32) 1 := by simp [State.firstPass, hk, hf]

theorem State.firstPass_hint (hk : d.k ≠ 0) (hf : d.fixed = false) (hh : d.hintEn = true) :
    s.firstPass ph idx d = Pass.start idx d .sweeps d.hint 1 := by simp [State.firstPass, hk, hf, hh]

theorem State.firstPass_known (hk : d.k ≠ 0) (hf : d.fixed = false) (hh : d.hintEn = false) {r : ℤ}
    (ha : s.anchorHit ph d.tensor = some r) :
    s.firstPass ph idx d = Pass.start idx d .sweeps (r + d.h - 125) 1 := by simp [State.firstPass, hk, hf, hh, ha]

theorem State.firstPass_unknown (hk : d.k ≠ 0) (hf : d.fixed = false) (hh : d.hintEn = false)
    (ha : s.anchorHit ph d.tensor = none) :
    s.firstPass ph idx d = Pass.start idx d .scan 0 0 := by simp [State.firstPass, hk, hf, hh, ha]

end

/-! ### MAX_EXPONENT_SCAN -/

/-- What a scan reads: a RAW C only for the fallback's anchor (R121, R125). -/
def State.scanReads (s : State) (ph : ℕ) (p : Pass) (d : MatmulD) : Region :=
  s.abReads ph d ++ (if d.cFmt = 8 ∧ p.fallback = false then [] else s.cReads ph d)

section
variable {s : State} {n ph : ℕ} {p : Pass} {e : Infl} (h : s.phys n = some ph) (hst : (s.mx ph).st = .issue)
  (he : s.infl ph p.idx = some e) (hp : (s.mx ph).pass = some p) (hph : p.phase = .scan)
  (hl : s.spLocked ph (s.abReads ph (matmulD e.words) ++ s.cReads ph (matmulD e.words)) = false)
include h hst he hp hph hl

theorem maxExponentScan_fails (hu : (s.touch ph (s.scanReads ph p (matmulD e.words))).2 = true) :
    maxExponentScan n s = (s.touch ph (s.scanReads ph p (matmulD e.words))).1.endPass ph p 7 := by
  unfold State.scanReads at hu ⊢
  unfold maxExponentScan
  rw [State.onCore_phys h]
  simp [hst, he, hp, hph, hl, hu]

theorem maxExponentScan_anchors :
    let u := s.touch ph (s.scanReads ph p (matmulD e.words))
    let sum := u.1.scanA ph (matmulD e.words) + u.1.scanB ph (matmulD e.words)
    u.2 = false → maxExponentScan n s = u.1.setPass ph { p.fresh with
      phase := .sweeps
      anchor := if p.fallback then
          safeAnchor sum (u.1.scanC ph (matmulD e.words)) (matmulD e.words).h (matmulD e.words).ke
        else sum + (matmulD e.words).h - 125
      attempts := p.attempts + 1 } := by
  intro u sum hu
  unfold maxExponentScan
  rw [State.onCore_phys h]
  simp only [u, sum] at hu ⊢
  unfold State.scanReads at hu ⊢
  simp [hst, he, hp, hph, hl, hu]

end

/-! ### SWEEP_START -/

section
variable {s : State} {ph : ℕ} {p : Pass} {d : MatmulD} (hl : s.spLocked ph (s.abReads ph d) = false)
include hl

theorem State.startSweep_fails (hu : (s.touch ph (s.abReads ph d)).2 = true) :
    s.startSweep ph p d = (s.touch ph (s.abReads ph d)).1.endPass ph p 7 := by
  unfold State.startSweep
  simp only [hl, hu, Bool.false_eq_true, if_false, if_true]

/-- The feeder reads A and B of the sweep, and a pause or a pre-emption requested earlier takes effect. -/
theorem State.startSweep_starts :
    let u := (s.touch ph (s.abReads ph d)).1
    (s.touch ph (s.abReads ph d)).2 = false → s.startSweep ph p d
      = (u.setPass ph { p with
          next := p.next + 1
          active := p.active ++ [⟨p.next, 0, [], s.cellsIn ph (s.abReads ph d)⟩] }).modMx ph fun x => { x with
        want := false
        st := if (u.mx ph).want then .saving else if (u.mx ph).pause then .paused else .issue } := by
  intro u hu
  unfold State.startSweep
  simp only [hl, hu, Bool.false_eq_true, if_false, u]

end

section
variable {s : State} {n ph : ℕ} {p : Pass} {e : Infl} (h : s.phys n = some ph) (hst : (s.mx ph).st = .issue)
  (he : s.infl ph p.idx = some e) (hp : (s.mx ph).pass = some p) (ht : (s.mx ph).tail = none)
  (hph : p.phase = .sweeps) (ha : p.again = false) (hk : (matmulD e.words).k ≠ 0) (hact : p.active.length < 2)
include h hst he hp ht hph ha hk hact

/-- SWEEP_START with an accumulator free: the next sweep of the pass, or the MATMUL behind it. -/
theorem sweepStart_starts : sweepStart n s =
    if p.next < (matmulD e.words).sweeps then s.startSweep ph p (matmulD e.words) else s.startNext ph p := by
  unfold sweepStart
  rw [State.onCore_phys h]
  simp [hst, he, hp, ht, hph, ha, hk, hact]

end

/-! ### ATTEMPT_REPEAT -/

section
variable {s : State} {n ph : ℕ} {p : Pass} (h : s.phys n = some ph) (hst : (s.mx ph).st = .issue)
  (ho : (s.mx ph).oldest = some p) (ha : p.again = true)
include h hst ho ha

theorem attemptRepeat_repeats (hr : p.repeats < s.fget (pCore ph) F.MX_ACFG_REPEAT_MAX) :
    attemptRepeat n s = (s.finc (pCore ph) F.MX_REPEATS_REPEATS).setMx ph { s.mx ph with
      st := .issue, hdr := none, tail := none, release := false
      pass := some { p.fresh with repeats := p.repeats + 1, anchor := p.anchor + 16, attempts := p.attempts + 1 } } := by
  unfold attemptRepeat
  rw [State.onCore_phys h]
  simp [hst, ho, ha, hr, Mx.alone]

theorem attemptRepeat_fallsBack (hr : s.fget (pCore ph) F.MX_ACFG_REPEAT_MAX ≤ p.repeats) :
    attemptRepeat n s = (s.finc (pCore ph) F.MX_REPEATS_FALLBACKS).setMx ph { s.mx ph with
      st := .issue, hdr := none, tail := none, release := false
      pass := some { p.fresh with
        fallback := true, phase := .scan, eA := p.eA, eB := p.eB, invs := p.invs, firstInv := p.firstInv } } := by
  unfold attemptRepeat
  rw [State.onCore_phys h]
  simp [hst, ho, ha, Nat.not_lt.2 hr, Mx.alone]

end

/-! ### PASS_COMPLETE -/

section
variable {s : State} {n ph : ℕ} {p : Pass} {e : Infl} (h : s.phys n = some ph) (hst : (s.mx ph).st = .issue)
  (ho : (s.mx ph).oldest = some p) (he : s.infl ph p.idx = some e) (hph : p.phase = .sweeps) (ha : p.again = false)
  (hn : (matmulD e.words).sweeps ≤ p.next) (hact : p.active = [])
include h hst ho he hph ha hn hact

theorem passComplete_unanchored (hk : (matmulD e.words).k = 0 ∨ (matmulD e.words).fixed = true) :
    passComplete n s = s.endPass ph p 0 := by
  unfold passComplete
  rw [State.onCore_phys h]
  simp [hst, ho, he, hph, ha, Nat.not_lt.2 hn, hact, hk]

theorem passComplete_anchored (hk : (matmulD e.words).k ≠ 0) (hf : (matmulD e.words).fixed = false) :
    passComplete n s = (s.putAnchor ph (matmulD e.words).tensor (p.eA + p.eB)).endPass ph p
      (if p.fallback then 0xE
        else if s.maxErr ph (matmulD e.words) p.anchor > 2 ^ (matmulD e.words).h then 0xD else 0) := by
  unfold passComplete State.passStatus
  rw [State.onCore_phys h]
  simp [hst, ho, he, hph, ha, Nat.not_lt.2 hn, hact, hk, hf]

end

/-! ### The end of a pass -/

theorem State.endPass_eq {s : State} {ph : ℕ} {p : Pass} {e : Infl} (he : s.infl ph p.idx = some e) (st : ℕ) :
    let u := (s.passRegs ph (matmulD e.words) p).complete ph e (p.record st)
    s.endPass ph p st = (u.setMx ph ((u.mx ph).without p.idx)).mxNext ph := by
  unfold State.endPass
  rw [he]

theorem State.regsOk_setReg {s : State} (h : s.regsOk) (a : ℕ) (w : Word) : (s.setReg a w).regsOk :=
  s.regs_setReg_rising a w h

theorem State.regsOk_invCapture {s : State} (h : s.regsOk) (ph n : ℕ) (p : Pass) : (s.invCapture ph n p).regsOk := by
  have hcount : (if p.invs = 0 then s else s.finc (pCore ph) F.MX_INV_COUNT_COUNT p.invs).regsOk := by
    split
    · exact h
    · exact State.regsOk_setReg h _ _
  unfold State.invCapture
  dsimp only
  revert hcount
  generalize (if p.invs = 0 then s else s.finc (pCore ph) F.MX_INV_COUNT_COUNT p.invs) = t
  intro hcount
  split
  · split
    · exact hcount
    · exact State.regsOk_setReg (State.regsOk_setReg (State.regsOk_setReg hcount _ _) _ _) _ _
  · exact hcount

/-- MX_ANCHOR after an ANCHORED pass that made an attempt (R127). -/
theorem State.reg_passRegs {s : State} (h : s.regsOk) (ph : ℕ) {d : MatmulD} {p : Pass} (hf : d.fixed = false)
    (ha : p.attempts ≠ 0) : (s.passRegs ph d p).reg (pCore ph + 0x15C)
      = BitVec.ofNat 32 (ofSint 16 (p.eA + p.eB) * 65536 + ofSint 16 p.anchor) := by
  unfold State.passRegs
  rw [if_neg (by simp [hf, ha])]
  exact State.reg_setReg _ _ _ (State.regsOk_invCapture h _ _ _)

/-! ### The MATMUL behind a pass -/

theorem State.nextMatmul_setMx {s : State} (hc : s.coresOk) (ph idx : ℕ) (m : Mx) :
    (s.setMx ph m).nextMatmul ph idx = s.nextMatmul ph idx := by
  unfold State.nextMatmul
  rw [State.queue_setMx hc]

/-- The MATMUL behind a pass whose sweeps have all started begins with its scan, and the pass drains on before it. -/
theorem State.startNext_scans {s : State} {ph : ℕ} {p : Pass} {x : Infl} (hc : s.coresOk)
    (ht : (s.mx ph).tail = none) (hw : (s.mx ph).want = false)
    (hx : s.nextMatmul ph p.idx = some x) (hk : (matmulD x.words).k ≠ 0) (hf : (matmulD x.words).fixed = false)
    (hh : (matmulD x.words).hintEn = false) (ha : s.anchorHit ph (matmulD x.words).tensor = none) :
    (s.startNext ph p).mx ph = { s.mx ph with
      st := .issue
      tail := some { p with ended := true }
      pass := some (Pass.start x.idx (matmulD x.words) .scan 0 0) } := by
  have hset : s.setPass ph { p with ended := true }
      = s.setMx ph { s.mx ph with pass := some { p with ended := true } } := by
    rw [State.setPass_eq, Mx.withPass_of_alone ht]
  have hc1 := State.coresOk_setMx hc ph { s.mx ph with pass := some { p with ended := true } }
  have hc2 := State.coresOk_setMx hc1 ph { s.mx ph with pass := none, tail := some { p with ended := true } }
  have hfirst := State.firstPass_unknown
    ((s.setMx ph { s.mx ph with pass := some { p with ended := true } }).setMx ph
      { s.mx ph with pass := none, tail := some { p with ended := true } }) ph x.idx hk hf hh
    (by rw [State.anchorHit_setMx hc1, State.anchorHit_setMx hc, ha])
  unfold State.startNext
  rw [hset]
  dsimp only
  rw [State.mx_setMx hc]
  dsimp only
  rw [if_neg (show ¬((s.mx ph).tail.isSome || (s.mx ph).want) = true by simp [ht, hw]), State.nextMatmul_setMx hc, hx]
  dsimp only
  rw [if_neg hk, State.beginPass_eq, hfirst, State.mx_setMx hc2, State.mx_setMx hc1]
  exact State.mx_setMx hc2 ph _

end Sys2Proof.Machine

section

open Sys2Proof.Machine

/-- Settles O16: MATMUL by its checks and the state of the engine, the pass that begins by where its anchor comes from,
and each command of a pass by the branch that the pass has reached. -/
theorem matmulCommands : Obligations.MatmulCommands := by
  refine ⟨fun s n ph f h hc hf => ?_, fun s ph idx d hc => ?_, fun s n ph p e h hst he => ?_, fun s n ph p e h he => ?_⟩
  · intro d t
    have hmx := State.mx_issue hc ph f .queued
    refine ⟨fun r rs hr => congrArg Host.Outcome.next (matmul_refused h hf hr),
      fun hr hz => congrArg Host.Outcome.next (matmul_empty h hf hr hz), fun hr hm hn => ?_⟩
    have hrun : exec (.matmul n) s = .next (t.mxNext ph) := congrArg Host.Outcome.next (matmul_queued h hf hr hm hn)
    rw [hrun]
    refine ⟨fun hst => ?_, fun hst hq hp => ?_, fun hst hp hse => ?_⟩
    · rw [State.mxNext_busy (by rw [hmx]; exact hst)]
    · have hqueue : t.queue ph tMATMUL = [⟨f.idx, f.words, .queued, (s.core ph).attach⟩] := by
        rw [s.queue_issue ph f .queued hc, hq, if_pos ⟨hf.2.1, rfl⟩, List.nil_append]
      rw [State.mxNext_begins (by rw [hmx]; exact hst) hp hqueue]
    · rw [State.mxNext_preempted (by rw [hmx]; exact hst) hp (by rw [hmx]; exact hse)]
  · intro t
    have hmx : t.mx ph = { s.mx ph with st := .issue, pass := some (s.firstPass ph idx d) } := by
      rw [← State.mx_setMx hc ph { s.mx ph with st := .issue, pass := some (s.firstPass ph idx d) },
        ← State.beginPass_eq]
    obtain ⟨hidx, hswap, hshallow, hnext, hactive⟩ := s.firstPass_fresh ph idx d
    refine ⟨congrArg Mx.st hmx, rfl, rfl, fun i hi => State.core_setMx_ne s hi _, s.firstPass ph idx d,
      congrArg Mx.pass hmx, hidx, hswap, hshallow, hnext, hactive, fun hk => ?_, fun hk hx => ?_, fun hk hx hh => ?_,
      fun hk hx hh => ⟨fun r hr => ?_, fun hr => ?_⟩⟩
    · rw [s.firstPass_noProducts ph idx hk]
      exact ⟨rfl, rfl, rfl⟩
    · rw [s.firstPass_fixed ph idx hk hx]
      exact ⟨rfl, rfl, rfl⟩
    · rw [s.firstPass_hint ph idx hk hx hh]
      exact ⟨rfl, rfl, rfl⟩
    · rw [s.firstPass_known ph idx hk hx hh hr]
      exact ⟨rfl, rfl, rfl⟩
    · rw [s.firstPass_unknown ph idx hk hx hh hr]
      exact ⟨rfl, rfl⟩
  · intro d m
    refine ⟨fun hp hph hl => ⟨fun hu => ?_, fun hu => ?_⟩, fun hp ht hph ha hk hn hact hl => ?_,
      fun ho ha => ⟨fun hr => ?_, fun hr => ?_⟩, fun ho hph ha hn hact => ⟨fun hk => ?_, fun hk hx => ?_⟩⟩
    · exact next_settle_congr (maxExponentScan_fails h hst he hp hph hl hu)
    · exact next_settle_congr (maxExponentScan_anchors h hst he hp hph hl hu)
    · have hrun : exec (.sweepStart n) s = .next (s.startSweep ph p d).settle :=
        next_settle_congr
          ((sweepStart_starts h hst he hp ht hph ha hk hact).trans (if_pos hn))
      rw [hrun]
      exact ⟨fun hu => by rw [State.startSweep_fails hl hu], fun hu => by rw [State.startSweep_starts hl hu]⟩
    · exact congrArg Host.Outcome.next (attemptRepeat_repeats h hst ho ha hr)
    · exact congrArg Host.Outcome.next (attemptRepeat_fallsBack h hst ho ha hr)
    · exact next_settle_congr (passComplete_unanchored h hst ho he hph ha hn hact hk)
    · exact next_settle_congr
        (passComplete_anchored h hst ho he hph ha hn hact hk hx)
  · intro d
    refine ⟨fun st => State.endPass_eq he st, fun hr hx ha => State.reg_passRegs hr ph hx ha,
      fun hst hp ht hph ha hk hn hact => ?_, fun x hc _ ht hw hx hk hfx hh hr => ?_⟩
    · exact next_settle_congr
        ((sweepStart_starts h hst he hp ht hph ha hk hact).trans (if_neg (Nat.not_lt.2 hn)))
    · have hmx := State.startNext_scans hc ht hw hx hk hfx hh hr
      exact ⟨congrArg Mx.tail hmx, _, congrArg Mx.pass hmx, rfl, rfl⟩

end

section
/-! SUPPORT. RAW tiles formed from values and nibbles, and the sum of two at one anchor (R134, R141). -/

namespace Sys2Proof.Machine

/-! ### Elements and nibbles as bytes -/

theorem leNat_leBytes (n v : ℕ) : leNat (leBytes n v) = v % 256 ^ n := by
  induction n generalizing v with
  | zero => rw [pow_zero, Nat.mod_one]; rfl
  | succ n ih =>
    have hstep : leNat (leBytes (n + 1) v) = v % 256 + 256 * leNat (leBytes n (v / 256)) :=
      congrArg (· + _) (BitVec.toNat_ofNat v 8)
    rw [hstep, ih, pow_succ', Nat.mod_mul]

/-- An integer within 128 bits reads back from its 16 bytes. -/
theorem sint_leBytes_ofSint {v : ℤ} (h : fits128 v = true) : sint 128 (leNat (leBytes 16 (ofSint 128 v))) = v := by
  obtain ⟨hlo, hhi⟩ := of_decide_eq_true h
  rw [leNat_leBytes]
  unfold sint ofSint
  norm_num at hlo hhi ⊢
  split <;> omega

/-- Piece i of a list put together from pieces of one length. -/
theorem take_drop_flatMap {α β : Type} {f : α → List β} {k : ℕ} (hf : ∀ a, (f a).length = k) (l : List α) {i : ℕ}
    (hi : i < l.length) : ((l.flatMap f).drop (k * i)).take k = f l[i] := by
  induction l generalizing i with
  | nil => exact absurd hi (Nat.not_lt_zero i)
  | cons a l ih =>
    rw [List.flatMap_cons]
    cases i with
    | zero => rw [Nat.mul_zero, List.drop_zero, List.take_left' (hf a)]; rfl
    | succ i =>
      rw [Nat.mul_succ, Nat.add_comm, ← List.drop_drop, List.drop_left' (hf a)]
      exact ih (Nat.lt_of_succ_lt_succ hi)

/-- Nibble j of a side plane, the low one of its byte first. -/
def sideNib (side : List Byte) (j : ℕ) : ℕ :=
  if j % 2 = 0 then (side.getD (j / 2) 0).toNat % 16 else (side.getD (j / 2) 0).toNat / 16

theorem RawTile.nib_eq (t : RawTile) (i : ℕ) : t.nib i = if t.hdr.special = true then sideNib t.side (t.place i) else 0 := rfl

theorem sideNib_lt (side : List Byte) (j : ℕ) : sideNib side j < 16 := by
  have hb := (side.getD (j / 2) 0).isLt
  unfold sideNib
  split <;> omega

theorem RawTile.nib_lt (t : RawTile) (i : ℕ) : t.nib i < 16 := by
  rw [t.nib_eq]
  split
  · exact sideNib_lt _ _
  · decide

theorem sideNib_cons_succ (b : Byte) (side : List Byte) (j : ℕ) : sideNib (b :: side) (j + 2) = sideNib side j := by
  unfold sideNib
  rw [Nat.add_mod_right, Nat.add_div_right j (by decide), List.getD_cons_succ]

/-- Nibbles read back from the side plane that they form. -/
theorem sideNib_nibBytes {l : List ℕ} (hl : ∀ x ∈ l, x < 16) {i : ℕ} (hi : i < l.length) : sideNib (nibBytes l) i = l[i] := by
  induction l using nibBytes.induct generalizing i with
  | case1 a b t ih =>
    have ha : a < 16 := hl a (by simp)
    have hb : b < 16 := hl b (by simp)
    match i with
    | 0 => simp [sideNib, nibBytes]; omega
    | 1 => simp [sideNib, nibBytes]; omega
    | i + 2 =>
      rw [nibBytes, sideNib_cons_succ]
      exact ih (fun x hx => hl x (by simp [hx])) (by simpa using hi)
  | case2 a =>
    have ha : a < 16 := hl a (by simp)
    obtain rfl : i = 0 := by simpa using hi
    simp [sideNib, nibBytes]; omega
  | case3 => exact absurd hi (Nat.not_lt_zero i)

/-! ### A tile formed -/

theorem mkRaw_anchor (h : RawHdr) (vs : List ℤ) (nibs : List ℕ) : (mkRaw h vs nibs).hdr.anchor = h.anchor := rfl

theorem mkRaw_err (h : RawHdr) (vs : List ℤ) (nibs : List ℕ) : (mkRaw h vs nibs).hdr.err = h.err := rfl

section
variable (h : RawHdr) {n i : ℕ} (hi : i < n)
include hi

theorem mkRaw_v {v : ℕ → ℤ} (hf : fits128 (v i) = true) (nibs : List ℕ) : (mkRaw h ((List.range n).map v) nibs).v i = v i := by
  have hread (vs : List ℤ) : (mkRaw h vs nibs).v i
      = sint 128 (leNat (((vs.flatMap fun v => leBytes 16 (ofSint 128 v)).drop (16 * i)).take 16)) := rfl
  rw [hread, take_drop_flatMap (fun v => leBytes_length 16 _) _ (by simpa using hi), List.getElem_map, List.getElem_range,
    sint_leBytes_ofSint hf]

/-- A tile without SPECIAL was formed from nibbles that are all 0, and reads as such. -/
theorem mkRaw_nib {nib : ℕ → ℕ} (hn : ∀ j < n, nib j < 16) (vs : List ℤ) :
    (mkRaw h vs ((List.range n).map nib)).nib i = nib i := by
  have hread (nibs : List ℕ) : (mkRaw h vs nibs).nib i
      = if nibs.any (· != 0) = true then sideNib (nibBytes nibs) i else 0 := rfl
  rw [hread]
  split
  · rw [sideNib_nibBytes (by simpa using hn) (by simpa using hi), List.getElem_map, List.getElem_range]
  · next hz =>
    by_contra h0
    exact hz (List.any_eq_true.2 ⟨nib i, List.mem_map_of_mem (List.mem_range.2 hi), bne_iff_ne.2 (Ne.symm h0)⟩)

end

/-! ### The sum of two tiles at one anchor -/

theorem reanchor_self (v a : ℤ) : reanchor v a a = v := by simp [reanchor, rneMult]

theorem scaleUp_zero (e : ℕ) : scaleUp e 0 = e := by simp [scaleUp]

theorem sumAnchor_fits {x y : List ℤ} {ax ay a : ℤ} (h : fitsAt x y ax ay a = true) (f : ℕ) :
    sumAnchor x y ax ay (f + 1) a = a := if_pos h

/-- Does every element of two tiles, and every sum of two elements, lie within 128 bits? -/
def RawTile.sumsFit (x y : RawTile) : Prop :=
  ∀ i < 4096, fits128 (x.v i) = true ∧ fits128 (y.v i) = true ∧ fits128 (x.v i + y.v i) = true

theorem RawTile.zip_vs (x y : RawTile) : List.zip x.vs y.vs = (List.range 4096).map fun i => (x.v i, y.v i) :=
  List.zip_map'

theorem RawTile.zip_nibs (x y : RawTile) : List.zip x.nibs y.nibs = (List.range 4096).map fun i => (x.nib i, y.nib i) :=
  List.zip_map'

theorem RawTile.fitsAt_same {x y : RawTile} (hf : x.sumsFit y) (a : ℤ) : fitsAt x.vs y.vs a a a = true := by
  unfold fitsAt
  rw [x.zip_vs, List.all_map, List.all_eq_true]
  intro i hi
  obtain ⟨hx, hy, hs⟩ := hf i (List.mem_range.1 hi)
  simp only [Function.comp_apply, reanchor_self, hx, hy, hs, Bool.and_self]

/-- R141: at one anchor where everything fits, the anchor stays and nothing is rounded. -/
theorem rawAdd_same_anchor {x y : RawTile} (ha : x.hdr.anchor = y.hdr.anchor) (hf : x.sumsFit y) :
    ∃ h : RawHdr, h.anchor = x.hdr.anchor ∧ h.err = min (x.hdr.err + y.hdr.err) (2 ^ 64 - 1)
      ∧ rawAdd x y = mkRaw h ((List.range 4096).map fun i => x.v i + y.v i)
          ((List.range 4096).map fun i => x.nib i ||| y.nib i) := by
  refine ⟨{ x.hdr with
    anchored := !(!x.hdr.anchored && !y.hdr.anchored && x.hdr.anchor == -32)
    err := min (x.hdr.err + y.hdr.err) (2 ^ 64 - 1) }, rfl, rfl, ?_⟩
  unfold rawAdd
  dsimp only
  rw [← ha, min_self, sumAnchor_fits (RawTile.fitsAt_same hf _), x.zip_vs, x.zip_nibs]
  simp only [List.map_map, Function.comp_def, reanchor_self, sub_self, scaleUp_zero, lt_irrefl, if_false, Nat.add_zero]

end Sys2Proof.Machine

open Sys2Proof.Machine

/-- Settles O21: the sum is formed at the common anchor from the sums of the elements and the joined nibbles, and each
reads back from the tile. -/
theorem rawTilesAdd : Obligations.RawTilesAdd := by
  intro x y ha hf t
  obtain ⟨h, hanchor, herr, ht⟩ := rawAdd_same_anchor ha hf
  show (rawAdd x y).hdr.anchor = _ ∧ (rawAdd x y).hdr.err = _
    ∧ ∀ i < 4096, (rawAdd x y).v i = _ ∧ (rawAdd x y).nib i = _
  rw [ht, mkRaw_anchor, mkRaw_err]
  exact ⟨hanchor, herr, fun i hi => ⟨mkRaw_v h hi (hf i hi).2.2 _,
    mkRaw_nib h hi (fun j _ => Nat.or_lt_two_pow (n := 4) (x.nib_lt j) (y.nib_lt j)) _⟩⟩

end

section
/-! SUPPORT. CHAIN and CHAIN_TILE by the branch of the model that they take (R138 to R143). -/

namespace Sys2Proof.Machine

/-! ### CHAIN -/

theorem State.issuable_chain {s : State} {ph : ℕ} {f : Fetched} (hf : s.heads ph f tCHAIN) :
    s.issuable ph (fun w => hType w == tCHAIN) = some f :=
  s.issuable_heads ph f tCHAIN _ hf (beq_iff_eq.2 hf.2.1)

/-- The CHAIN logic starts the CHAIN that is alone in its queue, unless a burst that it reads is locked. -/
theorem State.chainNext_starts {s : State} {ph : ℕ} {e : Infl} {es : List Infl} (hq : s.queue ph tCHAIN = e :: es)
    (hp : e.prog = .queued) (hl : s.spLocked ph (slotsRegion (chainD e.words).src (chainD e.words).tiles) = false)
    (fuel : ℕ) : s.chainNext (fuel + 1) ph = State.chainNext fuel (s.chainStart ph e) ph := by
  rw [State.chainNext, hq]
  dsimp only
  rw [hl]
  exact if_pos ⟨hp, rfl⟩

section
variable {s : State} {n ph : ℕ} {f : Fetched} (h : s.phys n = some ph) (hf : s.heads ph f tCHAIN)
include h hf

theorem chain_refused {r : ℕ} {rs : List ℕ} (hr : s.chainReasons ph (chainD f.words) = r :: rs) :
    chain n s = s.issueDone ph f (Rec.refused r) := by
  unfold chain
  rw [State.onCore_phys h, State.issuable_chain hf]
  simp only [hr]

theorem chain_queued (hr : s.chainReasons ph (chainD f.words) = []) :
    chain n s = (s.issue ph f .queued).chainNext 3 ph := by
  unfold chain
  rw [State.onCore_phys h, State.issuable_chain hf]
  simp only [hr]

theorem chain_starts (hc : s.coresOk) (hr : s.chainReasons ph (chainD f.words) = []) (hq : s.queue ph tCHAIN = [])
    (hl : s.spLocked ph (slotsRegion (chainD f.words).src (chainD f.words).tiles) = false) :
    chain n s = State.chainNext 2
      ((s.issue ph f .queued).chainStart ph ⟨f.idx, f.words, .queued, (s.core ph).attach⟩) ph := by
  have hqueue : (s.issue ph f .queued).queue ph tCHAIN = [⟨f.idx, f.words, .queued, (s.core ph).attach⟩] := by
    rw [s.queue_issue ph f .queued hc, hq, if_pos ⟨hf.2.1, rfl⟩, List.nil_append]
  rw [chain_queued h hf hr, State.chainNext_starts hqueue rfl]
  rw [s.spLocked_congr _ (s.issue_slots ph f .queued) (s.issue_units ph f .queued)]
  exact hl

end

/-! ### CHAIN_TILE -/

/-- The engine goes on as far as it can, and then takes the CHAIN behind the one that completed. -/
def State.chainOn (s : State) (ph : ℕ) (e : Infl) : State := (s.chainRun (chainFuel e.words) ph e.idx).chainNext 3 ph

/-- Is an incoming tile the one that is due, as its header and CRC say, and did no word of it fail (R141)? -/
def ChainD.admits (d : ChainD) (t : ℕ) (x : RawTile) (failed : Bool) : Bool :=
  !failed && x.ok && x.hdr.chainId == d.chainId && x.hdr.pos + 1 == d.pos && x.hdr.trow == t / d.tcols
    && x.hdr.tcol == t % d.tcols && x.hdr.cstat == 0

/-- The failure that an incoming tile brings to its CHAIN: its own status, or CORRUPT where it is not admitted or the
engine's own slot is bad; 0 for none (R140, R143). -/
def RawTile.failure (x : RawTile) (admitted ownFailed ownOk : Bool) : ℕ :=
  if x.hdr.cstat ≠ 0 then tableStatus x.hdr.cstat else if (!admitted || ownFailed || !ownOk) = true then 7 else 0

theorem RawTile.failure_eq (x : RawTile) (admitted ownFailed ownOk : Bool) : x.failure admitted ownFailed ownOk
    = if x.hdr.cstat ≠ 0 then tableStatus x.hdr.cstat
      else if admitted = false ∨ ownFailed = true ∨ ownOk = false then 7 else 0 := by
  simp only [RawTile.failure, Bool.or_eq_true, Bool.not_eq_true', or_assoc]

/-- What a CHAIN in state s makes of an incoming tile once both slots are read, in state t: a failure stands, the last
engine converts the sum, and any other sends it on unless that send is held (R141 to R143). -/
def State.takeTile (s t : State) (ph : ℕ) (e : Infl) (c : ChainSt) (x own : RawTile) (failure : ℕ) : State :=
  let d := chainD e.words
  let converted := t.chainConvert ph d c.tile (rawAdd x own) c
  let ws := [(0, (d.dress c.tile (rawAdd x own)).carryBytes)]
  let sent := t.chainSend ph e.idx d c ws
  if failure ≠ 0 then (t.setChain ph e.idx { c with fail := failure }).chainOn ph e
  else if d.last = true then (converted.1.setChain ph e.idx converted.2).chainOn ph e
  else if s.chainHeld d c.tile ws = true then s
  else if sent.2 = true then sent.1.chainOn ph e else sent.1

/-- A CHAIN that runs and waits for its incoming tile, with its token there and nothing that it reads or writes locked,
takes the tile. -/
theorem chainTile_takes {s : State} {n ph : ℕ} {e : Infl} {es : List Infl} {c : ChainSt} (h : s.phys n = some ph)
    (hq : s.queue ph tCHAIN = e :: es) (hp : e.prog = .chain c) (hpos : (chainD e.words).pos ≠ 0) (hfail : c.fail = 0)
    (hwrites : c.writes = 0) (hsig : c.signalled = false) (ht : c.tile < (chainD e.words).tiles)
    (htok : s.tok ph (chainD e.words).rcvTok ≠ 0)
    (hl : s.spLocked ph ([((chainD e.words).rcv + c.tile * rawSlot, rawSlot), ((chainD e.words).src + c.tile * rawSlot, rawSlot)]
      ++ (chainD e.words).dReg) = false) :
    let d := chainD e.words
    let t := s.setTok ph d.rcvTok (s.tok ph d.rcvTok - 1)
    let x := t.carryAt ph (d.rcv + c.tile * rawSlot)
    let u := t.touch ph [(d.rcv + c.tile * rawSlot, x.carryLen)]
    let v := u.1.touch ph [(d.src + c.tile * rawSlot, rawSlot)]
    let own := v.1.rawAt ph (d.src + c.tile * rawSlot)
    chainTile n s = s.takeTile v.1 ph e c x own (x.failure (d.admits c.tile x u.2) v.2 own.ok) := by
  intro d t x u v own
  have hready : ¬(d.pos = 0 ∨ c.fail ≠ 0 ∨ c.writes ≠ 0 ∨ c.signalled = true ∨ c.tile ≥ d.tiles ∨ s.tok ph d.rcvTok = 0
      ∨ s.spLocked ph ([(d.rcv + c.tile * rawSlot, rawSlot), (d.src + c.tile * rawSlot, rawSlot)] ++ d.dReg) = true) := by
    simpa [d, hpos, hfail, hwrites, hsig, ht, htok] using hl
  unfold chainTile
  rw [State.onCore_phys h, hq]
  simp only [hp]
  rw [if_neg hready]
  rfl

end Sys2Proof.Machine

open Sys2Proof.Machine

/-- Settles O20: CHAIN by its checks and the lock on its slots, and CHAIN_TILE by what the engine makes of the tile. -/
theorem chainCommands : Obligations.ChainCommands := by
  intro s n ph h hc
  refine ⟨fun f hf => ⟨fun r rs hr => ?_, fun hr hq hl => ?_⟩, fun e es c hq hp => ?_⟩
  · exact congrArg Host.Outcome.next (chain_refused h hf hr)
  · exact congrArg Host.Outcome.next (chain_starts h hf hc hr hq hl)
  · intro d hpos hfail hw hsig ht htok hl t0 x u v own good fail run x1 ws w
    have hfailure : x.failure (d.admits c.tile x u.2) v.2 own.ok = fail := x.failure_eq good v.2 own.ok
    have htake := chainTile_takes h hq hp hpos hfail hw hsig ht htok hl
    exact next_settle_congr (htake.trans (congrArg (s.takeTile v.1 ph e c x own) hfailure))

end

section
/-! SUPPORT. Served writes of a core's registers: DR_TAIL, token counters, MX_ACFG and SQ_CTRL, with what HALT does to the
power state (R119, R147, R156, R160, R193, R516). -/

namespace Sys2Proof.Machine

/-! ### The word that a whole write leaves -/

theorem bit_maskBits (hi i : ℕ) (h : hi < 32) : bit (maskBits hi 0) i = decide (i ≤ hi) := by
  have hm : bit (maskBits hi 0) i = decide (0 ≤ i ∧ i ≤ hi) := testBit_maskBits hi 0 i h (Nat.zero_le hi)
  simpa using hm

/-- A whole word through the normal view replaces the low bits of a register whose RW bits they are. -/
theorem viewPut_low {mask : Word} {hi : ℕ} (hm : mask = maskBits hi 0) (h : hi < 32) (old w v : Word)
    (hw : ∀ i ≤ hi, bit w i = bit v i) :
    viewPut 0 old (w &&& beMask 0xF) mask (beMask 0xF) = setBits old hi 0 v.toNat := by
  subst hm
  refine BitVec.eq_of_getLsbD_eq fun i hi32 => ?_
  have hen : (0xF : BitVec 4).getLsbD (i / 8) = true := by
    revert i
    decide
  rw [← bit_eq_getLsbD, ← bit_eq_getLsbD, viewPut_bit 0 old w _ 0xF i hi32, bit_setBits old hi 0 _ i h (Nat.zero_le hi),
    bit_maskBits hi i h]
  by_cases hle : i ≤ hi
  · simp only [hle, hen, hw i hle, Nat.zero_le, true_and, if_true, decide_true, Bool.true_eq_false, if_false, Nat.sub_zero]
    rfl
  · simp [hle]

/-- A bit forced to 1 in a whole word. -/
theorem bit_setBits_one (v : Word) {i : ℕ} (h : i < 32) : bit (setBits v i i 1 &&& beMask 0xF) i = true := by
  rw [beMask_all, show setBits v i i 1 &&& 0xFFFFFFFF = setBits v i i 1 from BitVec.and_allOnes,
    bit_setBits v i i 1 i h le_rfl, if_pos ⟨le_rfl, le_rfl⟩, Nat.sub_self]
  rfl

/-! ### A served write of a register of a core's page -/

theorem State.headerWrite_none (s : State) (r : RegAt) (m en : Word) (ho : 0x040 ≤ r.off) : s.headerWrite r m en = none := by
  unfold State.headerWrite
  split
  case h_5 => rfl
  all_goals omega

/-- The register of a core's page at an offset and a view. -/
def coreReg (n : CoreId) (ph off : ℕ) (v : Fin 4) : RegAt := ⟨.core, n.val, ph, pCore ph, off, v.val⟩

/-- A served write of a register beyond the common header is the core's own. -/
theorem State.put_core {s : State} {n : CoreId} {ph off : ℕ} {p : Put} (h : s.phys n.val = some ph) (ho : 0x040 ≤ off)
    (ho' : off < 0x400) (h4 : off % 4 = 0) (hs : s.serves p.rq (p.addr (coreA n off))) :
    s.put (coreA n off) p = (s.coreWrite (coreReg n ph off p.view) (p.val &&& beMask p.be) (beMask p.be)).settle := by
  have hidx (o : ℕ) : isIdx (coreA n off + p.view.val * 0x1000) o = false := by
    unfold coreA
    rw [Nat.add_assoc]
    exact isIdx_core n _ o
  refine congrArg State.settle (State.writeAcc_done hs (s.regLoc_core n ph off p.view h ho' h4) rfl (hidx _) (hidx _) ?_)
  unfold State.writeLoc
  rw [s.headerWrite_none _ _ _ ho]
  rfl

/-- A write of a whole word is a put through the normal view, at the register's own address. -/
theorem State.putWord_eq_put (s : State) (a : ℕ) (rq : Requester) (w : Word) :
    s.putWord a rq w = s.put a ⟨rq, 0, 0xF, w⟩ := by
  simp [State.putWord, State.put]

theorem put_addr_normal (a : ℕ) (rq : Requester) (be : BitVec 4) (w : Word) : (⟨rq, 0, be, w⟩ : Put).addr a = a := by
  simp [Put.addr]

/-- A register without an effect of its own takes its word. -/
theorem State.coreWrite_plain (s : State) (r : RegAt) (m en : Word) (ho : r.off = 0x058 ∨ 0x158 < r.off) :
    s.coreWrite r m en = s.plainWrite r m en := by
  unfold State.coreWrite
  split
  case h_10 => rfl
  all_goals omega

/-- The plain write of a core's register without W1C and RWS bits. -/
theorem State.plainWrite_core (s : State) (n : CoreId) (ph : ℕ) {off : ℕ} (v : Fin 4) (m en : Word) {mask : Word}
    (h : accMask (Block.core.fieldsAt off) .rw = mask ∧ accMask (Block.core.fieldsAt off) .w1c = 0
      ∧ accMask (Block.core.fieldsAt off) .rws = 0) :
    s.plainWrite (coreReg n ph off v) m en
      = s.setReg (pCore ph + off) (viewPut v.val (s.reg (pCore ph + off)) m mask en) := by
  obtain ⟨hrw, hw1c, hrws⟩ := h
  exact s.plainWrite_rw (coreReg n ph off v) m en mask hrw hw1c hrws

theorem drTailWrite_served {s : State} {n : CoreId} {ph : ℕ} {p : Put} (h : s.phys n.val = some ph)
    (hs : s.serves p.rq (p.addr (coreA n 0x058))) :
    drTailWrite n p s = (s.setReg (pCore ph + 0x058) (p.word (s.reg (pCore ph + 0x058)) 0xFFFFFFFF)).settle := by
  unfold drTailWrite
  rw [State.put_core h (by decide) (by decide) (by decide) hs, State.coreWrite_plain _ _ _ _ (.inl rfl),
    s.plainWrite_core (mask := 0xFFFFFFFF) n ph p.view _ _ (by decide)]
  rfl

theorem accMask_token (k : Fin 64) : accMask (Block.core.fieldsAt (0x200 + 4 * k.val)) .rw = 0xFFFF
    ∧ accMask (Block.core.fieldsAt (0x200 + 4 * k.val)) .w1c = 0
    ∧ accMask (Block.core.fieldsAt (0x200 + 4 * k.val)) .rws = 0 := by
  revert k
  decide

theorem tokenWrite_served {s : State} {n : CoreId} {ph : ℕ} {k : Fin 64} {p : Put} (h : s.phys n.val = some ph)
    (hs : s.serves p.rq (p.addr (coreA n (0x200 + 4 * k.val)))) :
    tokenWrite n k p s = (s.setReg (pCore ph + (0x200 + 4 * k.val))
      (p.word (s.reg (pCore ph + (0x200 + 4 * k.val))) 0xFFFF)).settle := by
  have hk := k.isLt
  unfold tokenWrite
  rw [State.put_core h (by omega) (by omega) (by omega) hs,
    State.coreWrite_plain _ _ _ _ (.inr (by show _ < 0x200 + 4 * k.val; omega)),
    s.plainWrite_core n ph p.view _ _ (accMask_token k)]
  rfl

/-! ### MX_ACFG -/

theorem State.coreWrite_acfg (s : State) (n : CoreId) (ph : ℕ) (v : Fin 4) (m en : Word) :
    s.coreWrite (coreReg n ph 0x158 v) m en =
      if v.val = 0 ∧ bit m 8 = true then (s.plainWrite (coreReg n ph 0x158 v) m en).clearAnchors ph
      else s.plainWrite (coreReg n ph 0x158 v) m en := rfl

theorem tabClr_served {s : State} {n : CoreId} {ph : ℕ} {rq : Requester} {v : Word} (h : s.phys n.val = some ph)
    (hs : s.serves rq (coreA n 0x158)) :
    tabClr n rq v s = ((s.setReg (pCore ph + 0x158) (setBits (s.reg (pCore ph + 0x158)) 3 0 v.toNat)).clearAnchors ph).settle := by
  have hword : viewPut 0 (s.reg (pCore ph + 0x158)) (setBits v 8 8 1 &&& beMask 0xF) 0xF (beMask 0xF)
      = setBits (s.reg (pCore ph + 0x158)) 3 0 v.toNat :=
    viewPut_low (hi := 3) (by decide) (by decide) _ _ v fun i hi =>
      bit_setBits_ne v 8 8 1 i (by decide) (by decide) (.inl (by omega))
  unfold tabClr
  rw [State.putWord_eq_put, State.put_core h (by decide) (by decide) (by decide) (by rwa [put_addr_normal]),
    State.coreWrite_acfg, if_pos ⟨rfl, bit_setBits_one v (by decide)⟩,
    s.plainWrite_core (mask := 0xF) n ph 0 _ _ (by decide)]
  exact congrArg (fun w => ((s.setReg (pCore ph + 0x158) w).clearAnchors ph).settle) hword

/-! ### HALT and the power state -/

section
variable {s : State}

/-- Outside P2, and with no P2 requested, a change of HALT leaves the power state alone. -/
theorem State.haltEffect_idle (hp : s.pState ≠ 2) (hr : s.fget pPwr F.PWR_CTRL_REQ ≠ 2) (old new : ℕ) :
    s.haltEffect old new = s := by
  unfold State.haltEffect State.leaveP2
  rw [if_neg hp, if_neg (fun hn : new = 1 ∧ _ => hr hn.2), ite_self]

theorem State.haltEffect_leaves (hp : s.pState = 2) : s.haltEffect 1 0 = s.setP s.runState := if_pos hp

theorem State.haltEffect_enters (hr : s.fget pPwr F.PWR_CTRL_REQ = 2) (hp : s.pState ≤ 1) (ha : s.allHalted = true)
    (old : ℕ) : s.haltEffect old 1 = s.setP 2 := by
  unfold State.haltEffect State.enterP2
  rw [if_neg (fun hn => absurd hn.2 (by decide)), if_pos ⟨rfl, hr⟩, if_pos ⟨hp, ha⟩]

/-- A register of a core lies outside the power manager's page. -/
theorem State.fget_pwr_setReg_core (ph o : ℕ) (w : Word) (f : FRef) (hf : f.off < 0x4000) :
    (s.setReg (pCore ph + o) w).fget pPwr f = s.fget pPwr f := by
  refine s.fget_setReg_ne _ w pPwr f ?_
  have hcore : pCore ph = 0x2000000 + ph * 0x4000 := rfl
  have hpwr : pPwr < 0x1000000 := by decide
  omega

end

/-! ### SQ_CTRL -/

/-- The state after SQ_CTRL of a core has taken a word and HALT has had its effect (R160, R516). -/
def State.sqCtrlTaken (s : State) (ph : ℕ) (w : Word) : State :=
  (s.setReg (pCore ph + 0x040) w).haltEffect (s.fget (pCore ph) F.SQ_CTRL_HALT)
    ((s.setReg (pCore ph + 0x040) w).fget (pCore ph) F.SQ_CTRL_HALT)

theorem State.sqCtrlTaken_idle {s : State} (hp : s.pState ≠ 2) (hr : s.fget pPwr F.PWR_CTRL_REQ ≠ 2) (ph : ℕ) (w : Word) :
    s.sqCtrlTaken ph w = s.setReg (pCore ph + 0x040) w := by
  refine State.haltEffect_idle (fun h2 => hp ?_) (fun h2 => hr ?_) _ _
  · exact (State.fget_pwr_setReg_core ph _ w _ (by decide)).symm.trans h2
  · exact (State.fget_pwr_setReg_core ph _ w _ (by decide)).symm.trans h2

theorem State.coreWrite_sqCtrl (s : State) (n : CoreId) (ph : ℕ) (v : Fin 4) (m en : Word) :
    s.coreWrite (coreReg n ph 0x040 v) m en =
      let t := s.plainWrite (coreReg n ph 0x040 v) m en
      let u := t.haltEffect (s.fget (pCore ph) F.SQ_CTRL_HALT) (t.fget (pCore ph) F.SQ_CTRL_HALT)
      if v.val = 0 ∧ bit m 1 = true then u.coreReset ph else u := rfl

/-- A served write of SQ_CTRL: HALT takes its bit, and CORE_RST written as 1 through the normal view resets the core. -/
theorem State.put_sqCtrl {s : State} {n : CoreId} {ph : ℕ} {p : Put} (h : s.phys n.val = some ph)
    (hs : s.serves p.rq (p.addr (coreA n 0x040))) :
    s.put (coreA n 0x040) p =
      (if p.view.val = 0 ∧ bit (p.val &&& beMask p.be) 1 = true then
        (s.sqCtrlTaken ph (p.word (s.reg (pCore ph + 0x040)) 1)).coreReset ph
      else s.sqCtrlTaken ph (p.word (s.reg (pCore ph + 0x040)) 1)).settle := by
  rw [State.put_core h (by decide) (by decide) (by decide) hs, State.coreWrite_sqCtrl,
    s.plainWrite_core (mask := 1) n ph p.view _ _ (by decide)]
  rfl

/-- The word that a whole write leaves in SQ_CTRL, whatever CORE_RST is written as. -/
theorem sqCtrl_word (old v : Word) (rq : Requester) (rst : ℕ) :
    (⟨rq, 0, 0xF, setBits v 1 1 rst⟩ : Put).word old 1 = setBits old 0 0 v.toNat :=
  viewPut_low (hi := 0) (by decide) (by decide) old _ v fun i hi =>
    bit_setBits_ne v 1 1 rst i (by decide) (by decide) (.inl (by omega))

/-- HALT_WRITE leaves CORE_RST at 0, so that no reset follows. -/
theorem haltWrite_served {s : State} {n : CoreId} {ph : ℕ} {p : Put} (h : s.phys n.val = some ph)
    (hs : s.serves p.rq (p.addr (coreA n 0x040))) :
    haltWrite n p s = (s.sqCtrlTaken ph
      (({ p with val := setBits p.val 1 1 0 } : Put).word (s.reg (pCore ph + 0x040)) 1)).settle := by
  have hrst : bit (setBits p.val 1 1 0 &&& beMask p.be) 1 = false := by
    have h0 : (setBits p.val 1 1 0).getLsbD 1 = false := bit_setBits p.val 1 1 0 1 (by decide) (by decide)
    rw [bit_eq_getLsbD, BitVec.getLsbD_and, h0, Bool.false_and]
  unfold haltWrite
  rw [State.put_sqCtrl (p := { p with val := setBits p.val 1 1 0 }) h hs, if_neg (fun hb => by simp [hrst] at hb)]

theorem coreRst_served {s : State} {n : CoreId} {ph : ℕ} {rq : Requester} {v : Word} (h : s.phys n.val = some ph)
    (hs : s.serves rq (coreA n 0x040)) :
    coreRst n rq v s = ((s.sqCtrlTaken ph (setBits (s.reg (pCore ph + 0x040)) 0 0 v.toNat)).coreReset ph).settle := by
  unfold coreRst
  rw [State.putWord_eq_put, State.put_sqCtrl h (by rwa [put_addr_normal]), if_pos ⟨rfl, bit_setBits_one v (by decide)⟩, sqCtrl_word]

/-- A HALT write of a whole word through the normal view. -/
theorem haltWrite_whole {s : State} {n : CoreId} {ph : ℕ} {rq : Requester} {v : Word} (h : s.phys n.val = some ph)
    (hs : s.serves rq (coreA n 0x040)) :
    haltWrite n ⟨rq, 0, 0xF, v⟩ s = (s.sqCtrlTaken ph (setBits (s.reg (pCore ph + 0x040)) 0 0 v.toNat)).settle := by
  rw [haltWrite_served (p := ⟨rq, 0, 0xF, v⟩) h (by rwa [put_addr_normal]), sqCtrl_word]

theorem State.halt_setReg {s : State} (hr : s.regsOk) (ph v : ℕ) (w : Word) :
    (s.setReg (pCore ph + 0x040) (setBits w 0 0 v)).fget (pCore ph) F.SQ_CTRL_HALT = v % 2 := by
  have hreg : (s.setReg (pCore ph + 0x040) (setBits w 0 0 v)).reg (pCore ph + 0x040) = setBits w 0 0 v := s.reg_setReg _ _ hr
  show bits ((s.setReg (pCore ph + 0x040) (setBits w 0 0 v)).reg (pCore ph + 0x040)) 0 0 = _
  rw [hreg, bits_setBits w 0 0 v (by decide) (by decide)]
  rfl

/-- HALT cleared in P2: the module runs again (R516). -/
theorem State.sqCtrlTaken_leaves {s : State} (hr : s.regsOk) {ph : ℕ} (hh : s.fget (pCore ph) F.SQ_CTRL_HALT = 1)
    (hp : s.pState = 2) (w : Word) : s.sqCtrlTaken ph (setBits w 0 0 0)
      = (s.setReg (pCore ph + 0x040) (setBits w 0 0 0)).setP (s.setReg (pCore ph + 0x040) (setBits w 0 0 0)).runState := by
  unfold State.sqCtrlTaken
  rw [State.halt_setReg hr, hh]
  exact State.haltEffect_leaves ((State.fget_pwr_setReg_core ph _ _ _ (by decide)).trans hp)

/-- HALT set where P2 is requested and every core is then HALTED: P2 is entered (R516). -/
theorem State.sqCtrlTaken_enters {s : State} (hr : s.regsOk) {ph : ℕ} (hq : s.fget pPwr F.PWR_CTRL_REQ = 2)
    (hp : s.pState ≤ 1) (w : Word) (ha : (s.setReg (pCore ph + 0x040) (setBits w 0 0 1)).allHalted = true) :
    s.sqCtrlTaken ph (setBits w 0 0 1) = (s.setReg (pCore ph + 0x040) (setBits w 0 0 1)).setP 2 := by
  unfold State.sqCtrlTaken
  rw [State.halt_setReg hr]
  exact State.haltEffect_enters ((State.fget_pwr_setReg_core ph _ _ _ (by decide)).trans hq)
    ((State.fget_pwr_setReg_core ph _ _ _ (by decide)).trans_le hp) ha _

end Sys2Proof.Machine

open Sys2Proof.Machine

/-- Settles O7: each register by the word that its view leaves, TAB_CLR and CORE_RST by the bit that is always written,
and HALT by the power state. -/
theorem coreRegisterCommands : Obligations.CoreRegisterCommands := by
  refine ⟨fun s n ph p rq v k h => ⟨fun hs => ?_, fun hs => ?_, fun hs => ?_, fun hs hp hr => ?_, fun hs hp hr => ?_⟩,
    fun s n ph rq h hr hs => ⟨fun hh hp => ?_, fun hq hp ha => ?_⟩⟩
  · exact congrArg Host.Outcome.next (drTailWrite_served h hs)
  · exact congrArg Host.Outcome.next (tokenWrite_served h hs)
  · exact congrArg Host.Outcome.next (tabClr_served h hs)
  · have hrun := haltWrite_served h hs
    rw [State.sqCtrlTaken_idle hp hr] at hrun
    exact congrArg Host.Outcome.next hrun
  · have hrun := coreRst_served (v := v) h hs
    rw [State.sqCtrlTaken_idle hp hr] at hrun
    exact congrArg Host.Outcome.next hrun
  · have hrun := haltWrite_whole (v := 0) h hs
    exact congrArg Host.Outcome.next (hrun.trans (congrArg State.settle (State.sqCtrlTaken_leaves hr hh hp _)))
  · have hrun := haltWrite_whole (v := 1) h hs
    exact congrArg Host.Outcome.next (hrun.trans (congrArg State.settle (State.sqCtrlTaken_enters hr hq hp _ ha)))

end

section
/-! SUPPORT. What the engines of a core change when they write its scratchpad: bytes of a region, and the counts of the
errors that the words written showed (R166, R545). -/

namespace Sys2Proof.Machine

/-! ### Registers that an event leaves alone -/

theorem State.reg_inc64_ne (s : State) (p : ℕ) (lo : FRef) (n : ℕ) {a : ℕ} (h : a ≠ p + lo.off)
    (h4 : a ≠ p + lo.off + 4) : (s.inc64 p lo n).reg a = s.reg a := by
  unfold State.inc64
  rw [State.reg_setReg_ne _ h4, State.reg_setReg_ne _ h]

theorem State.regsOk_inc64 {s : State} (h : s.regsOk) (p : ℕ) (lo : FRef) (n : ℕ) : (s.inc64 p lo n).regsOk :=
  State.regsOk_setReg (State.regsOk_setReg h _ _) _ _

theorem State.reg_of_regs {s t : State} (h : t.regs = s.regs) (a : ℕ) : t.reg a = s.reg a := by
  unfold State.reg
  rw [h]

theorem State.regsOk_of_regs {s t : State} (h : t.regs = s.regs) (hr : s.regsOk) : t.regsOk := by
  unfold State.regsOk
  rwa [h]

theorem State.withInt_regs (s : State) (p : ℕ) (f : State → State) : (s.withInt p f).regs = (f s).regs := by
  unfold State.withInt
  dsimp only
  split
  · exact State.sendInt_regs _ _
  · rfl

/-- An event changes registers of the header of its page alone, the first 0x40 bytes. -/
theorem State.reg_event_ne (s : State) {p a : ℕ} (f : FRef) (h : a < p ∨ p + 0x040 ≤ a) :
    (s.event p f).reg a = s.reg a := by
  have hlo : F.PG_CNT_LO_COUNT.off = 0x030 := rfl
  have hset : (s.withInt p fun t => t.setReg (p + 0x010) (t.reg (p + 0x010) ||| maskBits f.lo f.lo)).reg a = s.reg a :=
    (State.reg_of_regs (s.withInt_regs p _) a).trans (s.reg_setReg_ne (by omega) _)
  unfold State.event State.raise State.countEvt
  split
  · exact (State.reg_inc64_ne _ p _ 1 (by omega) (by omega)).trans hset
  · exact hset

theorem State.regsOk_event {s : State} (h : s.regsOk) (p : ℕ) (f : FRef) : (s.event p f).regsOk := by
  have hset : (s.withInt p fun t => t.setReg (p + 0x010) (t.reg (p + 0x010) ||| maskBits f.lo f.lo)).regsOk :=
    State.regsOk_of_regs (s.withInt_regs p _) (State.regsOk_setReg h _ _)
  unfold State.event State.raise State.countEvt
  split
  · exact State.regsOk_inc64 hset _ _ _
  · exact hset

/-! ### Writes of an engine within a region -/

/-- Is a register one that counting an error of a scratchpad word of the core may change: SP_ECC, or one of the header of
CDM (R166, R545)? -/
def countsReg (ph a : ℕ) : Prop := a = pCore ph + 0x18C ∨ (pCdm ≤ a ∧ a < pCdm + 0x040)

/-- From s to t an engine of a core has written its scratchpad within a region, and at most counted the errors met. -/
structure State.WritesWithin (ph : ℕ) (r : Region) (s t : State) : Prop where
  byte : ∀ a, ¬inRegion ph r a → t.mem.byte a = s.mem.byte a
  memOk : s.memOk → t.memOk
  reg : ∀ a, ¬countsReg ph a → t.reg a = s.reg a
  regsOk : s.regsOk → t.regsOk
  cores : t.cores = s.cores
  slots : t.slots = s.slots
  units : t.units = s.units

/-- Does a region hold n bytes from offset x within one of its intervals? -/
def Region.holds (r : Region) (x n : ℕ) : Prop := ∃ e ∈ r, e.1 ≤ x ∧ x + n ≤ e.1 + e.2

theorem inRegion_of_holds {ph : ℕ} {r : Region} {x n a : ℕ} (h : Region.holds r x n) (h1 : spKey ph x ≤ a)
    (h2 : a < spKey ph x + n) : inRegion ph r a := by
  obtain ⟨e, he, hlo, hhi⟩ := h
  unfold spKey at h1 h2
  refine ⟨e, he, ?_, ?_⟩ <;> unfold spKey <;> omega

/-- The scratchpad window base of a core is no register that counts errors. -/
theorem not_countsReg_scaleBase (ph : ℕ) : ¬countsReg ph (pCore ph + F.SP_SCALE_BASE_BASE.off) := by
  have hcore : pCore ph = 0x2000000 + ph * 0x4000 := rfl
  have hcdm : pCdm = 0x20000 := rfl
  have hoff : F.SP_SCALE_BASE_BASE.off = 0x184 := rfl
  unfold countsReg
  omega

namespace State.WritesWithin

variable {ph : ℕ} {r : Region} {s t : State}

theorem refl (ph : ℕ) (r : Region) (s : State) : s.WritesWithin ph r s :=
  ⟨fun _ _ => rfl, id, fun _ _ => rfl, id, rfl, rfl, rfl⟩

/-- The scale window stays where it is. -/
theorem scaleBase (h : s.WritesWithin ph r t) : t.scaleBase ph = s.scaleBase ph := by
  unfold State.scaleBase State.fget
  rw [h.reg _ (not_countsReg_scaleBase ph)]

/-- Parts that the relation does not speak of may change. -/
theorem same (h : s.WritesWithin ph r t) {u : State} (hm : u.mem.cells = t.mem.cells := by rfl)
    (hr : u.regs = t.regs := by rfl) (hc : u.cores = t.cores := by rfl) (hs : u.slots = t.slots := by rfl)
    (hu : u.units = t.units := by rfl) : s.WritesWithin ph r u where
  byte a ha := (congrArg (Tab.get Mem.blank a) hm).trans (h.byte a ha)
  memOk h0 := by
    have hwf : u.mem.wf = t.mem.wf := by unfold Mem.wf; rw [hm]
    exact hwf.trans (h.memOk h0)
  reg a ha := (State.reg_of_regs hr a).trans (h.reg a ha)
  regsOk h0 := State.regsOk_of_regs hr (h.regsOk h0)
  cores := hc.trans h.cores
  slots := hs.trans h.slots
  units := hu.trans h.units

theorem fset_spEcc (h : s.WritesWithin ph r t) {f : FRef} (hf : f.off = 0x18C) (v : ℕ) :
    s.WritesWithin ph r (t.fset (pCore ph) f v) where
  byte := h.byte
  memOk := h.memOk
  reg a ha := (State.reg_fset_ne t _ f v fun e => ha (.inl (e.trans (by rw [hf])))).trans (h.reg a ha)
  regsOk h0 := State.regsOk_setReg (h.regsOk h0) _ _
  cores := h.cores
  slots := h.slots
  units := h.units

theorem event_cdm (h : s.WritesWithin ph r t) (f : FRef) : s.WritesWithin ph r (t.event pCdm f) where
  byte a ha := by rw [State.event_mem]; exact h.byte a ha
  memOk h0 := by unfold State.memOk; rw [State.event_mem]; exact h.memOk h0
  reg a ha := (t.reg_event_ne f (by unfold countsReg at ha; omega)).trans (h.reg a ha)
  regsOk h0 := State.regsOk_event (h.regsOk h0) _ _
  cores := (t.event_cores _ _).trans h.cores
  slots := (t.event_slots _ _).trans h.slots
  units := (t.event_units _ _).trans h.units

/-! ### Errors counted -/

theorem logEvent (h : s.WritesWithin ph r t) (b i v c d : ℕ) : s.WritesWithin ph r (t.logEvent b i v c d) :=
  h.same (congrArg Mem.cells (t.logEvent_mem b i v c d)) (t.logEvent_regs b i v c d) (t.logEvent_cores b i v c d)
    (t.logEvent_slots b i v c d) (t.logEvent_units b i v c d)

theorem mark (h : s.WritesWithin ph r t) (i k : ℕ) : s.WritesWithin ph r (t.mark i k) := h.same

theorem bankPending (h : s.WritesWithin ph r t) (b : ℕ) : s.WritesWithin ph r (t.bankPending ph b) := by
  unfold State.bankPending
  split
  · exact h
  · exact h.same.event_cdm _

theorem spCe (h : s.WritesWithin ph r t) (x : ℕ) : s.WritesWithin ph r (t.spCe ph x) := by
  have hcounted := ((h.fset_spEcc (f := F.SP_ECC_CE) rfl
    (sat (F.SP_ECC_CE.hi + 1 - F.SP_ECC_CE.lo) (t.fget (pCore ph) F.SP_ECC_CE + 1))).logEvent
      0x0014 ph 1 0x0002 (x / 128 % 8)).mark ph (1 + x / 128 % 8)
  unfold State.spCe
  dsimp only
  split
  · exact hcounted.bankPending _
  · exact hcounted

theorem spUe (h : s.WritesWithin ph r t) (x : ℕ) : s.WritesWithin ph r (t.spUe ph x) :=
  ((h.fset_spEcc (f := F.SP_ECC_UE) rfl _).logEvent _ _ _ _ _).bankPending _

/-- A fold whose every turn is such a write. -/
theorem foldlOf {α β : Type} (st : α → State) {f : α → β → α} {l : List β}
    (hf : ∀ a, ∀ x ∈ l, s.WritesWithin ph r (st a) → s.WritesWithin ph r (st (f a x))) {a : α}
    (h : s.WritesWithin ph r (st a)) : s.WritesWithin ph r (st (l.foldl f a)) := by
  induction l generalizing a with
  | nil => exact h
  | cons x l ih =>
    exact ih (fun a y hy => hf a y (List.mem_cons_of_mem _ hy)) (hf a x (List.mem_cons_self ..) h)

theorem foldl {β : Type} {f : State → β → State} {l : List β} (h : s.WritesWithin ph r t)
    (hf : ∀ u, ∀ x ∈ l, s.WritesWithin ph r u → s.WritesWithin ph r (f u x)) : s.WritesWithin ph r (l.foldl f t) :=
  foldlOf id hf h

theorem counted (h : s.WritesWithin ph r t) (ce ue : List ℕ) : s.WritesWithin ph r (t.counted ph ce ue) :=
  (h.foldl fun _ _ _ hu => hu.spCe _).foldl fun _ _ _ hu => hu.spUe _

theorem touch (h : s.WritesWithin ph r t) (q : Region) : s.WritesWithin ph r (t.touch ph q).1 := h.counted _ _

/-! ### Bytes written -/

theorem sput (h : s.WritesWithin ph r t) {x : ℕ} {bs : List Byte} (hx : Region.holds r x bs.length) :
    s.WritesWithin ph r (t.sput ph x bs) := by
  rw [State.sput_eq]
  refine counted (t := { t with mem := (t.mem.write (spKey ph x) bs).mem }) ⟨fun a ha => ?_, fun h0 => Mem.wf_write _ _ _ (h.memOk h0), h.reg, h.regsOk, h.cores, h.slots, h.units⟩ _ _
  refine (Mem.byte_write_out _ _ ?_).trans (h.byte a ha)
  by_contra hin
  exact ha (inRegion_of_holds hx (by omega) (by omega))

theorem putElem (h : s.WritesWithin ph r t) {e base ld i c v : ℕ} (hx : Region.holds r (elemOff base ld e i c) e) :
    s.WritesWithin ph r (t.putElem ph e base ld i c v) := h.sput (by rwa [leBytes_length])

end State.WritesWithin

end Sys2Proof.Machine

end

section
/-! SUPPORT. VECTOR (R183 to R187): its results lie in the tiles of D and in their scale bytes. -/

namespace Sys2Proof.Machine

/-! ### Where the elements of a matrix lie -/

/-- Every element of a tile lies within the tile. -/
theorem tileOff_add_le {e : ℕ} (he : e = 1 ∨ e = 2 ∨ e = 4) (r c : ℕ) : tileOff e (r % 64) (c % 64) + e ≤ 4096 * e := by
  have hplace : ∀ q b, q < 512 → b < 8 → (8 * (q * e / 128) + b) * 128 + q * e % 128 + e ≤ 4096 * e := by
    rcases he with rfl | rfl | rfl <;> omega
  exact hplace _ _ (by omega) (by omega)

theorem div64_lt_cdiv {r n : ℕ} (h : r < n) : r / 64 < cdiv n 64 := by
  unfold cdiv
  omega

theorem mem_tileRegion {base ld rows cols tb tr tc : ℕ} (hr : tr < cdiv rows 64) (hc : tc < cdiv cols 64) :
    (base + (tr * ld + tc) * tb, tb) ∈ tileRegion base ld rows cols tb :=
  List.mem_flatMap.2 ⟨tr, List.mem_range.2 hr, List.mem_map.2 ⟨tc, List.mem_range.2 hc, rfl⟩⟩

/-- An element of a matrix lies in the tiles of the matrix (R168, R169). -/
theorem tileRegion_holds {base ld rows cols e r c : ℕ} (he : e = 1 ∨ e = 2 ∨ e = 4) (hr : r < rows) (hc : c < cols) :
    (tileRegion base ld rows cols (4096 * e)).holds (elemOff base ld e r c) e := by
  refine ⟨_, mem_tileRegion (div64_lt_cdiv hr) (div64_lt_cdiv hc), ?_, ?_⟩
  · unfold elemOff
    exact Nat.le_add_right _ _
  · have htile := tileOff_add_le he r c
    unfold elemOff
    dsimp only
    omega

/-- The scale byte of an element lies beside the tile of the element (R171). -/
theorem scales_hold {base ld rows cols w r c : ℕ} (hr : r < rows) (hc : c < cols) :
    Region.holds ((tileRegion base ld rows cols 4096).map fun x => (w + (x.1 / 4096) * 128, 128))
      (scaleOff w base ld r c) 1 := by
  refine ⟨_, List.mem_map.2 ⟨_, mem_tileRegion (div64_lt_cdiv hr) (div64_lt_cdiv hc), rfl⟩, ?_, ?_⟩ <;>
  · unfold scaleOff
    dsimp only
    omega

/-! ### Results delivered within a region -/

/-- Does a region hold element (r, c) of a result and, in a block-scaled format, its scale byte? -/
def State.sinkHolds (s : State) (ph : ℕ) (k : Sink) (q : Region) (r c : ℕ) : Prop :=
  q.holds (elemOff k.base k.ld (fmtBytes k.fmt) r c) (fmtBytes k.fmt)
    ∧ (isBlock k.fmt = true → q.holds (scaleOff (s.scaleBase ph) k.base k.ld r c) 1)

namespace State.WritesWithin

variable {ph : ℕ} {q : Region} {s t : State} {k : Sink}

theorem deliver1 (h : s.WritesWithin ph q t) (hk : k.fmt ≤ 6) {x : Cell} (hx : s.sinkHolds ph k q x.r x.c) :
    s.WritesWithin ph q (t.deliver1 ph k x).1 := by
  unfold State.deliver1
  dsimp only
  rw [if_neg (by omega)]
  split
  · exact h
  · exact h.putElem hx.1

theorem deliverBlock (h : s.WritesWithin ph q t) (hk : isBlock k.fmt = true) {xs : List Cell}
    (hx : ∀ x ∈ xs, s.sinkHolds ph k q x.r x.c) : s.WritesWithin ph q (t.deliverBlock ph k xs).1 := by
  have he : fmtBytes k.fmt = 1 := by
    unfold isBlock at hk
    simp only [Bool.or_eq_true, beq_iff_eq] at hk
    rcases hk with e | e <;> rw [e] <;> rfl
  unfold State.deliverBlock
  split
  · next x0 rest _ =>
    have hscale : ∀ b, s.WritesWithin ph q (t.sput ph (scaleOff (t.scaleBase ph) k.base k.ld x0.r x0.c) [b]) :=
      fun b => h.sput (by rw [h.scaleBase]; exact (hx x0 (List.mem_cons_self ..)).2 hk)
    refine foldlOf Prod.fst (fun a x hmem ha => ?_) (hscale _)
    have helem := (hx x hmem).1
    rw [he] at helem
    exact ha.putElem helem
  · exact h

theorem deliver (h : s.WritesWithin ph q t) (hk : k.fmt ≤ 6) {xs : List Cell}
    (hx : ∀ x ∈ xs, s.sinkHolds ph k q x.r x.c) : s.WritesWithin ph q (t.deliver ph k xs).1 := by
  have hfresh : s.WritesWithin ph q (t.freshCode ph (t.spans ph k xs)) := h.same
  unfold State.deliver
  dsimp only
  split
  · next hb =>
    refine foldlOf Prod.fst (fun a b hmem ha => ?_) ?_
    · obtain ⟨y, _, rfl⟩ := List.mem_map.1 hmem
      exact ha.deliverBlock hb fun x hxb => hx x (List.mem_filter.1 hxb).1
    · exact hfresh
  · refine foldlOf Prod.fst (fun a x hmem ha => ?_) ?_
    · exact ha.deliver1 hk (hx x hmem)
    · exact hfresh

theorem drawBytes (h : s.WritesWithin ph q t) (n : ℕ) : s.WritesWithin ph q (t.drawBytes n).2 := h.same

theorem freeCells (h : s.WritesWithin ph q t) {cs : List (ℕ × ℕ)} (hx : ∀ c ∈ cs, s.sinkHolds ph k q c.1 c.2) :
    s.WritesWithin ph q (t.freeCells ph k cs) := by
  unfold State.freeCells
  refine h.foldl fun u c hmem hu => ?_
  obtain ⟨helem, hscale⟩ := hx c hmem
  have hcode := (hu.drawBytes (fmtBytes k.fmt)).sput (bs := (u.drawBytes (fmtBytes k.fmt)).1)
    (by rwa [show (u.drawBytes (fmtBytes k.fmt)).1.length = fmtBytes k.fmt by simp [State.drawBytes]])
  dsimp only
  split
  · next hb => exact (hcode.drawBytes 1).sput (by rw [(hcode.drawBytes 1).scaleBase]; exact hscale hb)
  · exact hcode

end State.WritesWithin

/-! ### What a VECTOR that passes its checks may write -/

section
variable {s : State} {ph : ℕ} {w : List Word}

theorem vectorReasons_dFmt {d : VectorD} (h : s.vectorReasons ph d = []) : d.dFmt ≤ 6 := by
  unfold State.vectorReasons at h
  split at h
  · cases h
  · obtain ⟨_, hlast⟩ := List.append_eq_nil_iff.1 h
    by_contra hgt
    dsimp only at hlast
    rw [if_pos (by simp [Nat.lt_of_not_le hgt])] at hlast
    cases hlast

/-- The tiles of D, with their scale bytes where D is block-scaled, hold every result. -/
theorem vector_sinkHolds {d : VectorD} (hf : d.dFmt ≤ 6) {r c : ℕ} (hr : r < d.rows) (hc : c < d.dCols) :
    s.sinkHolds ph d.sink (s.withScales ph d.dFmt d.dReg) r c := by
  have he : fmtBytes d.dFmt = 1 ∨ fmtBytes d.dFmt = 2 ∨ fmtBytes d.dFmt = 4 := by
    generalize d.dFmt = f at hf
    interval_cases f <;> decide
  have helem : d.dReg.holds (elemOff d.d (strideOf d.ldd d.dCols) (fmtBytes d.dFmt) r c) (fmtBytes d.dFmt) :=
    tileRegion_holds he hr hc
  unfold State.withScales
  split
  · next hb =>
    obtain ⟨x, hx, hbytes⟩ := helem
    refine ⟨⟨x, List.mem_append_left _ hx, hbytes⟩, fun _ => ?_⟩
    have hreg : d.dReg = tileRegion d.d (strideOf d.ldd d.dCols) d.rows d.dCols 4096 := by
      unfold VectorD.dReg
      rw [show fmtBytes d.dFmt = 1 by
        unfold isBlock at hb
        simp only [Bool.or_eq_true, beq_iff_eq] at hb
        rcases hb with e | e <;> rw [e] <;> rfl]
    rw [hreg]
    obtain ⟨y, hy, hscale⟩ := scales_hold (base := d.d) (ld := strideOf d.ldd d.dCols) (w := s.scaleBase ph) hr hc
    exact ⟨y, List.mem_append_right _ hy, hscale⟩
  · next hb => exact ⟨helem, fun h => absurd h hb⟩

/-- The elements of D. -/
theorem mem_vectorCells {d : VectorD} {c : ℕ × ℕ}
    (h : c ∈ (List.range d.rows).flatMap fun r => (List.range d.dCols).map fun c => (r, c)) : c.1 < d.rows ∧ c.2 < d.dCols := by
  obtain ⟨r, hr, hrow⟩ := List.mem_flatMap.1 h
  obtain ⟨c, hc, rfl⟩ := List.mem_map.1 hrow
  exact ⟨List.mem_range.1 hr, List.mem_range.1 hc⟩

theorem mem_vxCells {t : State} {d : VectorD} {x : Cell} (h : x ∈ t.vxCells ph d) : x.r < d.rows ∧ x.c < d.dCols := by
  obtain ⟨r, hr, hrow⟩ := List.mem_flatMap.1 h
  obtain ⟨c, hc, rfl⟩ := List.mem_map.1 hrow
  exact ⟨List.mem_range.1 hr, List.mem_range.1 hc⟩

/-- The results that are written for sure are among all the results. -/
theorem mem_of_mem_sure {α : Type} {c b : Prop} [Decidable c] [Decidable b] {p : α → Bool} {l : List α} {x : α}
    (h : x ∈ if c then l else if b then [] else l.filter p) : x ∈ l := by
  split at h
  · exact h
  · split at h
    · cases h
    · exact (List.mem_filter.1 h).1

/-- A VECTOR that passes its checks writes D and its scale bytes, and then raises flags of VX_FLAGS. -/
theorem State.vectorRun_writes (h : s.vectorReasons ph (vectorD w) = []) :
    ∃ t fl, s.WritesWithin ph (s.withScales ph (vectorD w).dFmt (vectorD w).dReg) t
      ∧ (s.vectorRun ph w).1 = t.raiseFlags (pCore ph + 0x104) fl := by
  have hf := vectorReasons_dFmt h
  have htouch := (State.WritesWithin.refl ph (s.withScales ph (vectorD w).dFmt (vectorD w).dReg) s).touch
    (((vxSrcs (vectorD w).op).getD []).flatMap fun i => s.withScales ph ((vectorD w).src i).1 ((vectorD w).srcReg i))
  unfold State.vectorRun
  dsimp only
  split
  · refine ⟨_, _, ?_, rfl⟩
    exact (htouch.freeCells fun c hc => vector_sinkHolds hf (mem_vectorCells hc).1 (mem_vectorCells hc).2).same
  · split
    · refine ⟨_, _, ?_, rfl⟩
      refine ((htouch.deliver hf fun x hx => ?_).freeCells fun c hc => ?_).same
      · have hcell := mem_of_mem_sure hx
        exact vector_sinkHolds hf (mem_vxCells hcell).1 (mem_vxCells hcell).2
      · obtain ⟨x, hx, rfl⟩ := List.mem_map.1 hc
        have hcell := (List.mem_filter.1 hx).1
        exact vector_sinkHolds hf (mem_vxCells hcell).1 (mem_vxCells hcell).2
    · refine ⟨_, _, ?_, rfl⟩
      refine htouch.deliver hf fun x hx => ?_
      have hcell := mem_of_mem_sure hx
      exact vector_sinkHolds hf (mem_vxCells hcell).1 (mem_vxCells hcell).2

end

end Sys2Proof.Machine

open Sys2Proof.Machine

/-- Settles O15: all that a VECTOR does is a write within D and its scale bytes, and flags raised in VX_FLAGS. -/
theorem vectorFrame : Obligations.VectorFrame := by
  intro s ph w h hm t
  obtain ⟨u, fl, hu, ht⟩ := State.vectorRun_writes h
  have hpage : ∀ a, a / 0x4000 ≠ pCore ph / 0x4000 → a / 0x4000 ≠ pCdm / 0x4000 → t.reg a = s.reg a := by
    intro a hcore hcdm
    have hpc : pCore ph = 0x2000000 + ph * 0x4000 := rfl
    have hpd : pCdm = 0x20000 := rfl
    refine (congrArg (State.reg · a) ht).trans ((u.reg_setReg_ne (by omega) _).trans (hu.reg a ?_))
    unfold countsReg
    omega
  exact ⟨fun a ha => (congrArg (·.mem.byte a) ht).trans (hu.byte a ha), hpage, (congrArg State.cores ht).trans hu.cores,
    (congrArg State.slots ht).trans hu.slots, (congrArg (·.memOk) ht).mpr (hu.memOk hm)⟩

end

section
/-! SUPPORT. Token counters, issue and completion: what a signal, an issued descriptor and a completion record leave
(R148, R152 to R159). -/

namespace Sys2Proof.Machine

/-! ### Signals -/

section
variable (s : State) (ph k n : ℕ)

/-- A register other than a token counter is not changed when one is set. -/
theorem State.reg_setTok_ne (v : ℕ) {a : ℕ} (h : a ≠ pCore ph + 0x200 + 4 * k) : (s.setTok ph k v).reg a = s.reg a :=
  s.reg_setReg_ne h _

theorem State.tok_lt (j : ℕ) : s.tok ph j < 65536 := bits_lt _ 15 0

theorem sat16_mod (v : ℕ) : sat 16 v % 65536 = min 65535 v := by
  unfold sat
  omega

/-- The token counters after a field of another register has been set. -/
theorem State.tok_fset (f : FRef) (v : ℕ) {j : ℕ} (h : f.off < 0x200) : (s.fset (pCore ph) f v).tok ph j = s.tok ph j := by
  unfold State.tok
  rw [s.reg_fset_ne (pCore ph) f v (by omega)]

theorem State.signalNow_mem : (s.signalNow ph k n).mem = s.mem := by
  unfold State.signalNow
  dsimp only
  split <;> rfl

theorem State.signalNow_cores : (s.signalNow ph k n).cores = s.cores := by
  unfold State.signalNow
  dsimp only
  split <;> rfl

/-- A signal changes its counter and SQ_STAT alone. -/
theorem State.reg_signalNow_ne {a : ℕ} (h : a ≠ pCore ph + 0x200 + 4 * k) (h' : a ≠ pCore ph + 0x044) :
    (s.signalNow ph k n).reg a = s.reg a := by
  have hset := s.reg_setTok_ne ph k (sat 16 (s.tok ph k + n)) h
  unfold State.signalNow
  dsimp only
  split
  · exact (State.reg_fset_ne _ _ _ _ h').trans hset
  · exact hset

/-- SQ_STAT as it was after a signal that does not saturate. -/
theorem State.reg_signalNow_stat (h : s.tok ph k + n ≤ 65535) :
    (s.signalNow ph k n).reg (pCore ph + 0x044) = s.reg (pCore ph + 0x044) := by
  unfold State.signalNow
  dsimp only
  rw [if_neg (by omega)]
  exact s.reg_setTok_ne ph k _ (by omega)

variable {s}

theorem State.regsOk_signalNow (hr : s.regsOk) : (s.signalNow ph k n).regsOk := by
  unfold State.signalNow
  dsimp only
  split
  · exact State.regsOk_setReg (State.regsOk_setReg hr _ _) _ _
  · exact State.regsOk_setReg hr _ _

/-- The token counters after a signal (R154). -/
theorem State.tok_signalNow (hr : s.regsOk) (j : ℕ) :
    (s.signalNow ph k n).tok ph j = if j = k then min 65535 (s.tok ph k + n) else s.tok ph j := by
  have hset := State.tok_setTok s ph k (sat 16 (s.tok ph k + n)) j hr
  rw [sat16_mod] at hset
  unfold State.signalNow
  dsimp only
  split
  · exact (State.tok_fset _ ph _ 1 (by decide)).trans hset
  · exact hset

/-- TOK_SAT after a signal that saturates. -/
theorem State.tokSat_signalNow (hr : s.regsOk) (h : 65535 < s.tok ph k + n) :
    (s.signalNow ph k n).fget (pCore ph) F.SQ_STAT_TOK_SAT = 1 := by
  unfold State.signalNow
  dsimp only
  rw [if_pos h]
  exact State.fget_fset _ _ _ 1 (State.regsOk_setReg hr _ _) (by decide)

end

/-! ### Issue -/

section
variable {s : State} {ph : ℕ} {f : Fetched} {rest : List Fetched} (hf : (s.core ph).fetched = f :: rest)
include hf

/-- DR_HEAD names the index after the head (R147). -/
theorem State.reg_popHead (hr : s.regsOk) : (s.popHead ph).reg (pCore ph + 0x054)
    = BitVec.ofNat 32 ((rest.head?.map fun g => g.idx).getD (s.core ph).fetchNext) := by
  unfold State.popHead
  rw [hf]
  refine (State.reg_setReg _ _ _ hr).trans ?_
  cases rest <;> rfl

end

theorem State.tok_popHead (s : State) (ph j : ℕ) : (s.popHead ph).tok ph j = s.tok ph j := by
  unfold State.popHead State.tok
  rw [State.reg_setReg_ne _ (by omega)]
  rfl

theorem State.regsOk_popHead {s : State} (hr : s.regsOk) (ph : ℕ) : (s.popHead ph).regsOk :=
  State.regsOk_setReg (s := s.modCore ph _) hr _ _

theorem State.issue_mem (s : State) (ph : ℕ) (f : Fetched) (p : Prog) : (s.issue ph f p).mem = s.mem := by
  unfold State.issue
  dsimp only
  split <;> rfl

/-- The registers after an issue: those after the head has left, with the counts of the header wait consumed. -/
theorem State.issue_regs (s : State) (ph : ℕ) (f : Fetched) (p : Prog) : (s.issue ph f p).regs
    = (if hWaitEn f.words = true then (s.popHead ph).setTok ph (hWaitTok f.words)
        ((s.popHead ph).tok ph (hWaitTok f.words) - hWaitCnt f.words) else s.popHead ph).regs := rfl

theorem State.reg_issue_head {s : State} {ph : ℕ} {f : Fetched} {rest : List Fetched} (hr : s.regsOk)
    (hf : (s.core ph).fetched = f :: rest) (p : Prog) : (s.issue ph f p).reg (pCore ph + 0x054)
      = BitVec.ofNat 32 ((rest.head?.map fun g => g.idx).getD (s.core ph).fetchNext) := by
  rw [State.reg_of_regs (s.issue_regs ph f p)]
  split
  · exact (State.reg_setTok_ne _ ph _ _ (by omega)).trans (State.reg_popHead hf hr)
  · exact State.reg_popHead hf hr

theorem State.tok_of_regs {s t : State} (h : t.regs = s.regs) (ph j : ℕ) : t.tok ph j = s.tok ph j := by
  unfold State.tok
  rw [State.reg_of_regs h]

/-- An issue consumes the counts of its header wait (R152). -/
theorem State.tok_issue {s : State} (hr : s.regsOk) (ph : ℕ) (f : Fetched) (p : Prog) (j : ℕ) : (s.issue ph f p).tok ph j
    = if hWaitEn f.words = true ∧ j = hWaitTok f.words then s.tok ph j - hWaitCnt f.words else s.tok ph j := by
  rw [State.tok_of_regs (s.issue_regs ph f p)]
  by_cases hw : hWaitEn f.words = true
  · rw [if_pos hw, State.tok_setTok _ ph _ _ j (State.regsOk_popHead hr ph), State.tok_popHead, State.tok_popHead]
    by_cases hj : j = hWaitTok f.words
    · have hlt := s.tok_lt ph j
      rw [if_pos hj, if_pos ⟨hw, hj⟩, ← hj]
      omega
    · rw [if_neg hj, if_neg fun h => hj h.2]
  · rw [if_neg hw, if_neg fun h => hw h.1, State.tok_popHead]

/-! ### Completion records -/

/-- Word 3 of a record: the one that the spec fixes, or CYCLES, which is drawn (R158). -/
def Rec.word3 (r : Rec) (ctr : ℕ) : ℕ := r.w3.getD (Config.cycles ctr).toNat

/-- The memory key of the slot of a ring index in a completion ring that lies in the core's scratchpad. -/
def State.recordKey (s : State) (ph idx : ℕ) : ℕ :=
  spKey ph ((bits (s.reg (pCore ph + 0x05C)) 31 12 * 4096 + idx % s.ringSize ph * 16) % 0x1000000)

theorem State.putRecord_mem_sp {s : State} {ph : ℕ} (hc : s.mem.spClean = true)
    (hp : bit (s.reg (pCore ph + 0x060)) 31 = true) (idx ty tag : ℕ) (r : Rec) :
    (s.putRecord ph idx ty tag r).mem = s.mem.put (s.recordKey ph idx)
      (recBytes r.status r.flags ty idx tag r.det r.w2 (r.word3 s.freeCtr)) := by
  rw [s.putRecord_sp ph idx ty tag r hc hp]
  unfold Rec.word3
  cases r.w3 <;> rfl

end Sys2Proof.Machine

open Sys2Proof.Machine

/-- Settles O13: the counter, TOK_SAT, all other registers, and the lock that makes a signal wait. -/
theorem signalSaturates : Obligations.SignalSaturates := by
  intro s ph k n hk hr t
  refine ⟨(State.tok_signalNow ph k n hr k).trans (if_pos rfl), State.tokSat_signalNow ph k n hr,
    s.reg_signalNow_stat ph k n, fun a => s.reg_signalNow_ne ph k n, s.signalNow_mem ph k n, s.signalNow_cores ph k n, rfl⟩

/-- Settles O10: the core's record, DR_HEAD and the counts of the header wait. -/
theorem issueTakesHead : Obligations.IssueTakesHead := by
  intro s ph f rest prog hr hc hf t
  have hcore := s.core_issue ph f prog hc
  rw [hf] at hcore
  exact ⟨congrArg CoreSt.fetched hcore, congrArg CoreSt.inflight hcore, State.reg_issue_head hr hf prog,
    fun k _ => State.tok_issue hr ph f prog k, s.issue_mem ph f prog⟩

/-- Settles O11: the 16 bytes are stored in the slot as they are, since no scratchpad word has an error. -/
theorem completionRecordWritten : Obligations.CompletionRecordWritten := by
  intro s ph idx ty tag r hm hr hc hp slot t
  have hmem : t.mem = s.mem.put slot _ := State.putRecord_mem_sp hc hp idx ty tag r
  have hreg (a : ℕ) : t.reg a = _ := congrArg (State.reg · a) (s.putRecord_sp ph idx ty tag r hc hp)
  refine ⟨⟨r.word3 s.freeCtr, fun v hv => by rw [Rec.word3, hv]; rfl, ?_⟩, fun a ha => ?_, ?_, fun a ha => ?_⟩
  · have hread := Mem.read_put s.mem slot (recBytes r.status r.flags ty idx tag r.det r.w2 (r.word3 s.freeCtr)) hm
    rwa [recBytes_length, ← hmem] at hread
  · rw [hmem]
    exact Mem.byte_put_out _ _ _ _ (by rwa [recBytes_length])
  · exact (hreg _).trans (State.reg_setReg _ _ _ hr)
  · exact (hreg a).trans (State.reg_setReg_ne _ ha _)

end

section
/-! SUPPORT. What a completion changes (R107, R151, R152, R157, R182): the in-flight list, the failures that a FENCE
reports, CR_COUNT and the token that it signals. -/

namespace Sys2Proof.Machine

/-- A register is locked by the slots, under the numbering of the cores (R344). -/
theorem State.lockedReg_congr {s t : State} (hs : t.slots = s.slots) (hu : t.units = s.units) (a : ℕ) :
    t.lockedReg a = s.lockedReg a := by
  have hphys : t.phys = s.phys := by
    unfold State.phys
    rw [hu]
  have hkey : t.regKey = s.regKey := by
    unfold State.regKey
    rw [hphys]
  unfold State.lockedReg State.entryReg
  rw [State.lockedEntries_congr s t hs, hkey]

theorem State.signal_unlocked {s : State} {ph k : ℕ} (h : s.lockedReg (tokAddr ph k) = false) (n : ℕ) :
    s.signal ph k n = s.signalNow ph k n := if_neg (by simp [h])

/-! ### The record and the counts that go with it -/

/-- CR_COUNT, the pass counter and SP_ECC: the registers of a core that its completion records change. -/
def recordOffsets : List ℕ := [0x064, 0x150, 0x154, 0x18C]

/-- From s to t a completion record of a core has been written: of the core's registers only those of `recordOffsets` have
changed, and CR_COUNT has risen by one. -/
structure State.RecordLeft (ph : ℕ) (s t : State) : Prop where
  reg : ∀ o, o ∉ recordOffsets → t.reg (pCore ph + o) = s.reg (pCore ph + o)
  count : s.regsOk → t.reg (pCore ph + 0x064) = s.reg (pCore ph + 0x064) + 1
  regsOk : s.regsOk → t.regsOk
  cores : t.cores = s.cores
  slots : t.slots = s.slots
  units : t.units = s.units

theorem not_countsReg_core {ph o : ℕ} (ho : o ≠ 0x18C) : ¬countsReg ph (pCore ph + o) := by
  have hcore : pCore ph = 0x2000000 + ph * 0x4000 := rfl
  have hcdm : pCdm = 0x20000 := rfl
  unfold countsReg
  omega

theorem State.WritesWithin.counted_record {ph : ℕ} {q : Region} {s t : State} (h : s.WritesWithin ph q t) :
    s.RecordLeft ph (t.setReg (pCore ph + 0x064) (t.reg (pCore ph + 0x064) + 1)) where
  reg o ho := by
    simp only [recordOffsets, List.mem_cons, not_or] at ho
    obtain ⟨h64, _, _, hecc, _⟩ := ho
    exact (t.reg_setReg_ne (by omega) _).trans (h.reg _ (not_countsReg_core hecc))
  count hr := by rw [State.reg_setReg _ _ _ (h.regsOk hr), h.reg _ (not_countsReg_core (by decide))]
  regsOk hr := State.regsOk_setReg (h.regsOk hr) _ _
  cores := h.cores
  slots := h.slots
  units := h.units

/-- A completion record in a ring of the core's scratchpad, whatever errors its words meet. -/
theorem State.putRecord_left {s : State} {ph : ℕ} (hp : bit (s.reg (pCore ph + 0x060)) 31 = true) (idx ty tag : ℕ) (r : Rec) :
    s.RecordLeft ph (s.putRecord ph idx ty tag r) := by
  have hring (off : ℕ) (bs : List Byte) (h16 : bs.length = 16) : s.WritesWithin ph
      [((bits (s.reg (pCore ph + 0x05C)) 31 12 * 4096 + off) % 0x1000000, 16)]
      (s.draw.2.ringWrite ph (s.draw.2.reg (pCore ph + 0x05C)) (s.draw.2.reg (pCore ph + 0x060)) off bs) := by
    unfold State.ringWrite
    rw [if_pos (show bit (s.draw.2.reg (pCore ph + 0x060)) 31 = true from hp)]
    refine State.WritesWithin.sput (State.WritesWithin.refl ph _ s).same ⟨_, List.mem_singleton.2 rfl, le_refl _, ?_⟩
    rw [h16]
    exact le_refl _
  exact (hring _ _ (recBytes_length _ _ _ _ _ _ _ _)).counted_record

theorem State.RecordLeft.countPass {ph : ℕ} {s t : State} (h : s.RecordLeft ph t) :
    s.RecordLeft ph (t.inc64 (pCore ph) F.MX_PASS_LO_COUNT 1) := by
  have hpass {o : ℕ} (h1 : o ≠ 0x150) (h2 : o ≠ 0x154) :
      (t.inc64 (pCore ph) F.MX_PASS_LO_COUNT 1).reg (pCore ph + o) = t.reg (pCore ph + o) :=
    t.reg_inc64_ne _ _ _ (fun e => h1 (Nat.add_left_cancel e)) fun e => h2 (Nat.add_left_cancel (e.trans (Nat.add_assoc _ _ _)))
  refine ⟨fun o ho => ?_, fun hr => (hpass (by decide) (by decide)).trans (h.count hr),
    fun hr => State.regsOk_inc64 (h.regsOk hr) _ _ _, h.cores, h.slots, h.units⟩
  have hne := ho
  simp only [recordOffsets, List.mem_cons, not_or] at hne
  obtain ⟨_, h1, h2, _⟩ := hne
  exact (hpass h1 h2).trans (h.reg o ho)

/-- The state after the record has been written and the pass counter of a MATMUL has risen. -/
def State.recordPut (s : State) (ph idx : ℕ) (w : List Word) (r : Rec) : State :=
  let t := s.putRecord ph idx (hType w) (hTag w) r
  if hType w = tMATMUL then t.inc64 (pCore ph) F.MX_PASS_LO_COUNT 1 else t

theorem State.recordPut_left {s : State} {ph : ℕ} (hp : bit (s.reg (pCore ph + 0x060)) 31 = true) (idx : ℕ) (w : List Word)
    (r : Rec) : s.RecordLeft ph (s.recordPut ph idx w r) := by
  have hput := State.putRecord_left hp idx (hType w) (hTag w) r
  unfold State.recordPut
  dsimp only
  split
  · exact hput.countPass
  · exact hput

/-! ### The failure, the signal and the event -/

/-- A record of a core counted among the failures that a FENCE reports, unless its status is a good one (R182). -/
def State.failCounted (s : State) (ph status : ℕ) : State :=
  if good status then s else s.modCore ph fun c => { c with fails := c.fails + 1 }

/-- Does the header signal of a descriptor go out with its record, under SIG_COND (R152)? -/
def signalsWith (w : List Word) (status : ℕ) : Bool := hSigEn w && (!hSigCond w || good status)

theorem signalsWith_iff (w : List Word) (status : ℕ) :
    signalsWith w status = true ↔ hSigEn w = true ∧ (hSigCond w = false ∨ good status = true) := by
  simp [signalsWith]

theorem State.failCounted_regs (s : State) (ph status : ℕ) : (s.failCounted ph status).regs = s.regs := by
  unfold State.failCounted
  split <;> rfl

theorem State.failCounted_slots (s : State) (ph status : ℕ) : (s.failCounted ph status).slots = s.slots := by
  unfold State.failCounted
  split <;> rfl

theorem State.failCounted_units (s : State) (ph status : ℕ) : (s.failCounted ph status).units = s.units := by
  unfold State.failCounted
  split <;> rfl

theorem State.failCounted_cores {s t : State} (h : t.cores = s.cores) (ph status : ℕ) :
    (t.failCounted ph status).cores = (s.failCounted ph status).cores := by
  unfold State.failCounted
  split
  · exact h
  · show Tab.set _ _ _ t.cores = Tab.set _ _ _ s.cores
    rw [State.core_of_cores h, h]

theorem State.core_failCounted {s : State} (hc : s.coresOk) (ph status : ℕ) : (s.failCounted ph status).core ph
    = { s.core ph with fails := (s.core ph).fails + if good status then 0 else 1 } := by
  unfold State.failCounted
  split
  · rfl
  · exact s.core_setCore ph _ hc

theorem State.core_failCounted_ne (s : State) {ph i : ℕ} (h : i ≠ ph) (status : ℕ) :
    (s.failCounted ph status).core i = s.core i := by
  unfold State.failCounted
  split
  · rfl
  · exact s.core_setCore_ne _ h

/-- The header signal of a descriptor, on a counter that nothing locks. -/
def State.headerSignal (s : State) (ph : ℕ) (w : List Word) (status : ℕ) : State :=
  if signalsWith w status then s.signalNow ph (hSigTok w) (hSigCnt w) else s

theorem State.headerSignal_cores (s : State) (ph : ℕ) (w : List Word) (status : ℕ) :
    (s.headerSignal ph w status).cores = s.cores := by
  unfold State.headerSignal
  split
  · exact s.signalNow_cores ph _ _
  · rfl

theorem State.reg_headerSignal_count (s : State) (ph : ℕ) (w : List Word) (status : ℕ) :
    (s.headerSignal ph w status).reg (pCore ph + 0x064) = s.reg (pCore ph + 0x064) := by
  unfold State.headerSignal
  split
  · exact s.reg_signalNow_ne ph _ _ (by omega) (by omega)
  · rfl

theorem State.tok_headerSignal {s : State} (hr : s.regsOk) (ph : ℕ) (w : List Word) (status k : ℕ) :
    (s.headerSignal ph w status).tok ph k = if signalsWith w status = true ∧ k = hSigTok w
      then min 65535 (s.tok ph k + hSigCnt w) else s.tok ph k := by
  unfold State.headerSignal
  split
  · next hs =>
    rw [State.tok_signalNow ph _ _ hr]
    by_cases hk : k = hSigTok w
    · rw [if_pos hk, if_pos ⟨hs, hk⟩, hk]
    · rw [if_neg hk, if_neg fun h => hk h.2]
  · next hs => rw [if_neg fun h => hs h.1]

/-- CMPL, when the descriptor asks for it (R151). -/
def State.completed (s : State) (ph : ℕ) (w : List Word) : State :=
  if hIrq w then s.event (pCore ph) F.PG_EVT_CMPL else s

theorem State.completed_cores (s : State) (ph : ℕ) (w : List Word) : (s.completed ph w).cores = s.cores := by
  unfold State.completed
  split
  · exact s.event_cores _ _
  · rfl

theorem State.reg_completed (s : State) (ph : ℕ) (w : List Word) {o : ℕ} (ho : 0x040 ≤ o) :
    (s.completed ph w).reg (pCore ph + o) = s.reg (pCore ph + o) := by
  unfold State.completed
  split
  · exact s.reg_event_ne _ (.inr (by omega))
  · rfl

theorem State.tok_completed (s : State) (ph : ℕ) (w : List Word) (k : ℕ) : (s.completed ph w).tok ph k = s.tok ph k := by
  unfold State.tok
  rw [Nat.add_assoc, s.reg_completed ph w (by omega)]

/-! ### The whole of what follows a descriptor -/

section
variable {s : State} {ph : ℕ} (hr : s.regsOk) (hp : bit (s.reg (pCore ph + 0x060)) 31 = true) (idx : ℕ) (w : List Word)
  (r : Rec) (hl : s.lockedReg (tokAddr ph (hSigTok w)) = false)
include hp hl

/-- What follows a descriptor, step by step: its record, the failure, its signal and its event. -/
theorem State.recordFor_unlocked : s.recordFor ph idx w r
    = (((s.recordPut ph idx w r).failCounted ph r.status).headerSignal ph w r.status).completed ph w := by
  have hput := State.recordPut_left hp idx w r
  have hfree : ((s.recordPut ph idx w r).failCounted ph r.status).lockedReg (tokAddr ph (hSigTok w)) = false := by
    rw [State.lockedReg_congr (s := s) ((State.failCounted_slots _ _ _).trans hput.slots)
      ((State.failCounted_units _ _ _).trans hput.units)]
    exact hl
  unfold State.headerSignal
  rw [← State.signal_unlocked hfree]
  rfl

theorem State.recordFor_cores : (s.recordFor ph idx w r).cores = (s.failCounted ph r.status).cores := by
  rw [State.recordFor_unlocked hp idx w r hl, State.completed_cores, State.headerSignal_cores,
    State.failCounted_cores (State.recordPut_left hp idx w r).cores]

include hr

theorem State.recordFor_count : (s.recordFor ph idx w r).reg (pCore ph + 0x064) = s.reg (pCore ph + 0x064) + 1 := by
  rw [State.recordFor_unlocked hp idx w r hl, State.reg_completed _ _ _ (by decide), State.reg_headerSignal_count,
    State.reg_of_regs (State.failCounted_regs _ _ _), (State.recordPut_left hp idx w r).count hr]

theorem State.recordFor_tok {k : ℕ} (hk : k < 64) : (s.recordFor ph idx w r).tok ph k
    = if signalsWith w r.status = true ∧ k = hSigTok w then min 65535 (s.tok ph k + hSigCnt w) else s.tok ph k := by
  have hput := State.recordPut_left hp idx w r
  have hregs := State.failCounted_regs (s.recordPut ph idx w r) ph r.status
  have hoff : 0x200 + 4 * k ∉ recordOffsets := by
    simp only [recordOffsets, List.mem_cons, List.not_mem_nil, or_false, not_or]
    omega
  have htok : (s.recordPut ph idx w r).tok ph k = s.tok ph k := by
    unfold State.tok
    rw [Nat.add_assoc, hput.reg _ hoff]
  rw [State.recordFor_unlocked hp idx w r hl, State.tok_completed,
    State.tok_headerSignal (State.regsOk_of_regs hregs (hput.regsOk hr)), State.tok_of_regs hregs, htok]

end

/-- The descriptor of a ring index has left flight. -/
def State.landed (s : State) (ph idx : ℕ) : State :=
  s.modCore ph fun c => { c with inflight := eraseFirst (fun x => x.idx == idx) c.inflight }

theorem State.complete_free {s : State} {ph : ℕ} {e : Infl} (h : s.recordHeld ph e.idx = false) (r : Rec) :
    s.complete ph e r = (s.landed ph e.idx).recordFor ph e.idx e.words r := if_neg (by simp [h])

theorem State.core_landed {s : State} (hc : s.coresOk) (ph idx : ℕ) : (s.landed ph idx).core ph
    = { s.core ph with inflight := eraseFirst (fun x => x.idx == idx) (s.core ph).inflight } := s.core_setCore ph _ hc

theorem State.coresOk_landed {s : State} (hc : s.coresOk) (ph idx : ℕ) : (s.landed ph idx).coresOk :=
  s.coresOk_setCore ph _ hc

theorem State.tok_landed (s : State) (ph idx k : ℕ) : (s.landed ph idx).tok ph k = s.tok ph k := rfl

end Sys2Proof.Machine

open Sys2Proof.Machine

/-- Settles O12: the slot is free, so the descriptor leaves flight and its record, signal and event follow. -/
theorem completeEffects : Obligations.CompleteEffects := by
  intro s ph e r hc hr hp hh hl t
  have ht : t = (s.landed ph e.idx).recordFor ph e.idx e.words r := State.complete_free hh r
  have hru : (s.landed ph e.idx).regsOk := hr
  have hpu : bit ((s.landed ph e.idx).reg (pCore ph + 0x060)) 31 = true := hp
  have hlu : (s.landed ph e.idx).lockedReg (tokAddr ph (hSigTok e.words)) = false :=
    (State.lockedReg_congr rfl rfl _).trans hl
  have hcores : t.cores = ((s.landed ph e.idx).failCounted ph r.status).cores := by
    rw [ht, State.recordFor_cores hpu e.idx e.words r hlu]
  have hcore := (State.core_of_cores hcores ph).trans (State.core_failCounted (State.coresOk_landed hc ph e.idx) ph r.status)
  rw [State.core_landed hc] at hcore
  refine ⟨congrArg CoreSt.inflight hcore, congrArg CoreSt.fails hcore, fun i hi => ?_, ?_, fun k hk => ?_⟩
  · rw [State.core_of_cores hcores, State.core_failCounted_ne _ hi]
    exact s.core_setCore_ne _ hi
  · rw [ht]
    exact State.recordFor_count hru hpu e.idx e.words r hlu
  · have htok := State.recordFor_tok hru hpu e.idx e.words r hlu hk
    rw [← ht, State.tok_landed] at htok
    rw [htok]
    exact if_congr (by rw [signalsWith_iff, and_assoc, and_comm (a := k = hSigTok e.words)]) rfl rfl

end

section
/-! SUPPORT. The reset of a core with nothing in flight (R193), step by step, and the registers of the reset state (R536). -/

namespace Sys2Proof.Machine

/-! ### Folds that clear one thing after another -/

/-- What each turn of a fold attains and no turn undoes holds of every entry at the end. -/
theorem foldl_attains {α : Type} {ok : State → Prop} {done : α → State → Prop} {f : State → α → State} {l : List α}
    (hok : ∀ s, ∀ x ∈ l, ok s → ok (f s x)) (hset : ∀ s, ∀ x ∈ l, ok s → done x (f s x))
    (hkeep : ∀ s, ∀ x ∈ l, ∀ y, ok s → done y s → done y (f s x)) {s : State} (h : ok s) :
    ok (l.foldl f s) ∧ ∀ y, y ∈ l ∨ done y s → done y (l.foldl f s) := by
  induction l generalizing s with
  | nil => exact ⟨h, fun y hy => hy.resolve_left List.not_mem_nil⟩
  | cons x l ih =>
    have hx := List.mem_cons_self (a := x) (l := l)
    obtain ⟨hend, hdone⟩ := ih (fun s y hy => hok s y (List.mem_cons_of_mem _ hy))
      (fun s y hy => hset s y (List.mem_cons_of_mem _ hy)) (fun s y hy => hkeep s y (List.mem_cons_of_mem _ hy)) (hok s x hx h)
    refine ⟨hend, fun y hy => hdone y ?_⟩
    rcases hy with hy | hy
    · rcases List.mem_cons.1 hy with rfl | hy
      · exact .inr (hset s _ hx h)
      · exact .inl hy
    · exact .inr (hkeep s x hx y h hy)

/-- A field that is 0 stays 0 when bits of its word are cleared. -/
theorem bits_setBits_zero {w : Word} {hi lo hi' lo' : ℕ} (h : hi < 32) (hl : lo ≤ hi) (h0 : bits w hi' lo' = 0) :
    bits (setBits w hi lo 0) hi' lo' = 0 := by
  refine Nat.eq_of_testBit_eq fun j => ?_
  have hj : (bits w hi' lo').testBit j = false := by rw [h0, Nat.zero_testBit]
  rw [testBit_bits] at hj
  rw [testBit_bits, bit_setBits w hi lo 0 _ h hl, Nat.zero_testBit, Nat.zero_testBit]
  split
  · exact Bool.and_false _
  · exact hj

/-! ### The parts of a core reset -/

section
variable (s : State) (ph : ℕ)

/-- The token counters of a core cleared. -/
def State.toksCleared : State := (List.range 64).foldl (fun s k => s.setTok ph k 0) s

/-- MX_FLAGS, VX_FLAGS and NM_FLAGS of a core cleared. -/
def State.flagsCleared : State := [0x100, 0x104, 0x108].foldl (fun s o => s.setReg (pCore ph + o) 0) s

/-- The fields of a core's registers that a read clears. -/
def rcFields : List FRef :=
  coreRegs.flatMap fun r => (r.fields.filter fun f => f.acc = .rc).map fun f => ⟨r.off, f.hi, f.lo⟩

/-- Those fields cleared. -/
def State.rcCleared : State := rcFields.foldl (fun s f => s.fset (pCore ph) f 0) s

/-- What a core reset makes of the matrix engine, the tracker and the exchange, when nothing is in flight. -/
def State.enginesReset : State :=
  let t := (s.setMx ph Mx.init).dropReqs fun r => match r.owner with
    | .move c _ _ _ _ | .chain c _ _ | .sync c _ => c == ph
    | _ => false
  { t with zwk := { t.zwk with outs := t.zwk.outs.filter fun o => !(o.phys == ph && o.final.isNone) } }

/-- All that a core reset clears. -/
def State.allCleared : State := ((((s.enginesReset ph).toksCleared ph).clearAnchors ph).flagsCleared ph).rcCleared ph

variable {s}

theorem State.coreReset_landed (hc : s.coresOk) (h : (s.core ph).inflight = []) : s.coreReset ph
    = (s.allCleared ph).fset (pCore ph) F.SQ_CTRL_HALT 1 := by
  have hempty : ((s.setMx ph Mx.init).core ph).inflight = [] := (congrArg CoreSt.inflight (State.core_setMx hc ph _)).trans h
  have hrc (t : State) : (coreRegs.foldl (fun s r => r.fields.foldl (fun s f => if f.acc = .rc
      then s.setReg (pCore ph + r.off) (setBits (s.reg (pCore ph + r.off)) f.hi f.lo 0) else s) s) t) = t.rcCleared ph := by
    unfold State.rcCleared rcFields
    simp only [List.foldl_flatMap, List.foldl_map, List.foldl_filter, decide_eq_true_eq]
    rfl
  unfold State.coreReset
  dsimp only
  rw [hempty, hrc]
  rfl

/-! ### What each part clears, and what it leaves -/

variable (s)

theorem State.toksCleared_mem : (s.toksCleared ph).mem = s.mem :=
  foldl_keeps (f := fun t k => t.setTok ph k 0) State.mem (fun t _ => t.setReg_mem _ _) _ s

theorem State.toksCleared_cores : (s.toksCleared ph).cores = s.cores :=
  foldl_keeps (f := fun t k => t.setTok ph k 0) State.cores (fun t _ => t.setReg_cores _ _) _ s

theorem State.flagsCleared_mem : (s.flagsCleared ph).mem = s.mem :=
  foldl_keeps (f := fun t o => t.setReg (pCore ph + o) 0) State.mem (fun t _ => t.setReg_mem _ _) _ s

theorem State.flagsCleared_cores : (s.flagsCleared ph).cores = s.cores :=
  foldl_keeps (f := fun t o => t.setReg (pCore ph + o) 0) State.cores (fun t _ => t.setReg_cores _ _) _ s

theorem State.rcCleared_mem : (s.rcCleared ph).mem = s.mem :=
  foldl_keeps (f := fun t f => t.fset (pCore ph) f 0) State.mem (fun t _ => t.fset_mem _ _ _) _ s

theorem State.rcCleared_cores : (s.rcCleared ph).cores = s.cores :=
  foldl_keeps (f := fun t f => t.fset (pCore ph) f 0) State.cores (fun t _ => t.fset_cores _ _ _) _ s

/-- A read-clear field lies within its word, and none lies in a flag register, in SQ_CTRL or in a token counter. -/
theorem rcFields_ok : ∀ f ∈ rcFields, f.ok = true ∧ f.off ∉ [0x040, 0x100, 0x104, 0x108] ∧ f.off < 0x200 := by decide

theorem mem_rcFields {r : Reg} {f : Field} (hr : r ∈ coreRegs) (hf : f ∈ r.fields) (ha : f.acc = .rc) :
    (⟨r.off, f.hi, f.lo⟩ : FRef) ∈ rcFields :=
  List.mem_flatMap.2 ⟨r, hr, List.mem_map.2 ⟨f, List.mem_filter.2 ⟨hf, decide_eq_true ha⟩, rfl⟩⟩

theorem foldl_keeps_mem {α β γ : Type} (part : α → γ) {f : α → β → α} {l : List β} (h : ∀ a, ∀ b ∈ l, part (f a b) = part a)
    (a : α) : part (l.foldl f a) = part a := by
  induction l generalizing a with
  | nil => rfl
  | cons b l ih =>
    rw [List.foldl_cons, ih fun a c hc => h a c (List.mem_cons_of_mem _ hc), h a b (List.mem_cons_self ..)]

/-- A register with no read-clear field, of any page. -/
theorem State.reg_rcCleared_ne {a : ℕ} (h : ∀ f ∈ rcFields, a ≠ pCore ph + f.off) : (s.rcCleared ph).reg a = s.reg a :=
  foldl_keeps_mem (State.reg · a) (fun t f hf => t.reg_fset_ne _ f 0 (h f hf)) s

theorem State.reg_toksCleared_ne {a : ℕ} (h : ∀ k < 64, a ≠ pCore ph + 0x200 + 4 * k) :
    (s.toksCleared ph).reg a = s.reg a :=
  foldl_keeps_mem (State.reg · a) (fun t k hk => t.reg_setTok_ne ph k 0 (h k (List.mem_range.1 hk))) s

theorem State.reg_flagsCleared_ne {a : ℕ} (h : ∀ o ∈ [0x100, 0x104, 0x108], a ≠ pCore ph + o) :
    (s.flagsCleared ph).reg a = s.reg a :=
  foldl_keeps_mem (State.reg · a) (fun t o ho => t.reg_setReg_ne (h o ho) 0) s

variable {s}

/-- Every token counter is 0 once they are cleared. -/
theorem State.tok_toksCleared (hr : s.regsOk) : (s.toksCleared ph).regsOk ∧ ∀ k < 64, (s.toksCleared ph).tok ph k = 0 := by
  obtain ⟨hok, hall⟩ := foldl_attains (ok := State.regsOk) (done := fun k t => t.tok ph k = 0)
    (f := fun t k => t.setTok ph k 0) (l := List.range 64) (fun t k _ ht => State.regsOk_setReg ht _ _)
    (fun t k _ ht => by rw [State.tok_setTok t ph k 0 k ht, if_pos rfl])
    (fun t k _ j ht hj => by rw [State.tok_setTok t ph k 0 j ht, hj]; exact ite_self 0) hr
  exact ⟨hok, fun k hk => hall k (.inl (List.mem_range.2 hk))⟩

theorem State.reg_clearAnchors (a : ℕ) : (s.clearAnchors ph).reg a = s.reg a := rfl

theorem State.mem_clearAnchors : (s.clearAnchors ph).mem = s.mem := rfl

theorem State.enginesReset_mem : (s.enginesReset ph).mem = s.mem := rfl

theorem State.reg_enginesReset (a : ℕ) : (s.enginesReset ph).reg a = s.reg a := rfl

theorem State.enginesReset_cores : (s.enginesReset ph).cores = (s.setMx ph Mx.init).cores := rfl

theorem State.reg_flagsCleared (hr : s.regsOk) :
    (s.flagsCleared ph).regsOk ∧ ∀ o ∈ [0x100, 0x104, 0x108], (s.flagsCleared ph).reg (pCore ph + o) = 0 := by
  obtain ⟨hok, hall⟩ := foldl_attains (ok := State.regsOk) (done := fun o t => t.reg (pCore ph + o) = 0)
    (f := fun t o => t.setReg (pCore ph + o) 0) (l := [0x100, 0x104, 0x108]) (fun t o _ ht => State.regsOk_setReg ht _ _)
    (fun t o _ ht => State.reg_setReg _ _ _ ht)
    (fun t o _ o' ht ho' => by
      by_cases e : o' = o
      · rw [e, State.reg_setReg _ _ _ ht]
      · rw [State.reg_setReg_ne _ (by omega), ho']) hr
  exact ⟨hok, fun o ho => hall o (.inl ho)⟩

/-- Every read-clear field is 0 once they are cleared. -/
theorem State.fget_rcCleared (hr : s.regsOk) :
    (s.rcCleared ph).regsOk ∧ ∀ f ∈ rcFields, (s.rcCleared ph).fget (pCore ph) f = 0 := by
  obtain ⟨hok, hall⟩ := foldl_attains (ok := State.regsOk) (done := fun f t => t.fget (pCore ph) f = 0)
    (f := fun t f => t.fset (pCore ph) f 0) (l := rcFields) (fun t f _ ht => State.regsOk_setReg ht _ _)
    (fun t f hf ht => (State.fget_fset t _ f 0 ht (rcFields_ok f hf).1).trans (Nat.zero_mod _))
    (fun t f hf g ht hg => by
      have hw := (rcFields_ok f hf).1
      simp only [FRef.ok, Bool.and_eq_true, decide_eq_true_eq] at hw
      unfold State.fget at hg ⊢
      by_cases e : g.off = f.off
      · rw [e] at hg ⊢
        rw [State.reg_fset t _ f 0 ht]
        exact bits_setBits_zero hw.1 hw.2 hg
      · rwa [t.reg_fset_ne _ f 0 (by omega)]) hr
  exact ⟨hok, fun f hf => hall f (.inl hf)⟩

/-! ### All of it -/

/-- A flag register or a token counter has no read-clear field. -/
theorem rcFields_apart {o : ℕ} (ho : o ∈ [0x100, 0x104, 0x108] ∨ 0x200 ≤ o) {f : FRef} (hf : f ∈ rcFields) :
    pCore ph + o ≠ pCore ph + f.off := by
  obtain ⟨_, hne, hlt⟩ := rcFields_ok f hf
  intro e
  rcases ho with ho | ho
  · exact hne (List.mem_cons_of_mem _ (Nat.add_left_cancel e ▸ ho))
  · omega

/-- The offsets of the flag registers. -/
theorem flagOffsets_range : ∀ o ∈ [0x100, 0x104, 0x108], 0x100 ≤ o ∧ o < 0x200 := by decide

theorem State.regsOk_clearAnchors (hr : s.regsOk) : (s.clearAnchors ph).regsOk := hr

/-- The state before the flag registers are cleared. -/
theorem State.regsOk_beforeFlags (hr : s.regsOk) : (((s.enginesReset ph).toksCleared ph).clearAnchors ph).regsOk :=
  State.regsOk_clearAnchors ph (State.tok_toksCleared (s := s.enginesReset ph) ph hr).1

theorem State.regsOk_allCleared (hr : s.regsOk) : (s.allCleared ph).regsOk := by
  unfold State.allCleared
  exact (State.fget_rcCleared ph (State.reg_flagsCleared ph (State.regsOk_beforeFlags ph hr)).1).1

theorem State.fget_allCleared (hr : s.regsOk) {f : FRef} (hf : f ∈ rcFields) : (s.allCleared ph).fget (pCore ph) f = 0 := by
  unfold State.allCleared
  exact (State.fget_rcCleared ph (State.reg_flagsCleared ph (State.regsOk_beforeFlags ph hr)).1).2 f hf

theorem State.flag_allCleared (hr : s.regsOk) {o : ℕ} (ho : o ∈ [0x100, 0x104, 0x108]) :
    (s.allCleared ph).reg (pCore ph + o) = 0 := by
  unfold State.allCleared
  rw [State.reg_rcCleared_ne _ ph fun f => rcFields_apart ph (.inl ho)]
  exact (State.reg_flagsCleared ph (State.regsOk_beforeFlags ph hr)).2 o ho

theorem State.tok_allCleared (hr : s.regsOk) {k : ℕ} (hk : k < 64) : (s.allCleared ph).tok ph k = 0 := by
  have hflag : ∀ o ∈ [0x100, 0x104, 0x108], pCore ph + (0x200 + 4 * k) ≠ pCore ph + o := fun o ho => by
    have hlt := (flagOffsets_range o ho).2
    omega
  have htok := (State.tok_toksCleared (s := s.enginesReset ph) ph hr).2 k hk
  unfold State.tok at htok ⊢
  unfold State.allCleared
  rw [Nat.add_assoc] at htok ⊢
  rw [State.reg_rcCleared_ne _ ph fun f => rcFields_apart ph (.inr (Nat.le_add_right _ _)), State.reg_flagsCleared_ne _ ph hflag,
    State.reg_clearAnchors]
  exact htok

theorem State.allCleared_mem (s : State) : (s.allCleared ph).mem = s.mem := by
  unfold State.allCleared
  rw [State.rcCleared_mem, State.flagsCleared_mem, State.mem_clearAnchors, State.toksCleared_mem, State.enginesReset_mem]

theorem State.core_allCleared (hc : s.coresOk) (i : ℕ) : (s.allCleared ph).core i
    = if i = ph then { s.core ph with mx := Mx.init, anchors := [] } else s.core i := by
  have hcores : (s.allCleared ph).cores = (((s.enginesReset ph).toksCleared ph).clearAnchors ph).cores := by
    unfold State.allCleared
    rw [State.rcCleared_cores, State.flagsCleared_cores]
  have hengines : ((s.enginesReset ph).toksCleared ph).cores = (s.setMx ph Mx.init).cores :=
    (State.toksCleared_cores _ ph).trans (State.enginesReset_cores ph)
  rw [State.core_of_cores hcores]
  split
  · next hi =>
    subst hi
    refine (State.core_setCore _ i _ (State.coresOk_of_cores hengines (State.coresOk_setMx hc i _))).trans ?_
    rw [State.core_of_cores hengines, State.core_setMx hc]
  · next hi =>
    refine (State.core_setCore_ne _ _ hi).trans ?_
    rw [State.core_of_cores hengines, State.core_setMx_ne _ hi]

/-- Registers of other pages stay as they are. -/
theorem State.reg_allCleared_page (s : State) {a : ℕ} (ha : a / 0x4000 ≠ pCore ph / 0x4000) :
    (s.allCleared ph).reg a = s.reg a := by
  have hpage : pCore ph = 0x2000000 + ph * 0x4000 := rfl
  have hflag : ∀ o ∈ [0x100, 0x104, 0x108], a ≠ pCore ph + o := fun o ho => by
    have hlt := (flagOffsets_range o ho).2
    omega
  have hrc : ∀ f ∈ rcFields, a ≠ pCore ph + f.off := fun f hf => by
    have hlt := (rcFields_ok f hf).2.2
    omega
  unfold State.allCleared
  rw [State.reg_rcCleared_ne _ ph hrc, State.reg_flagsCleared_ne _ ph hflag, State.reg_clearAnchors,
    State.reg_toksCleared_ne _ ph fun k hk => by omega, State.reg_enginesReset]

end

end Sys2Proof.Machine

open Sys2Proof.Machine

/-- Settles O8: all that the reset clears is cleared when HALT is set, and HALT is another register. -/
theorem coreResetClears : Obligations.CoreResetClears := by
  intro s ph hr hc h t
  have hpage : pCore ph = 0x2000000 + ph * 0x4000 := rfl
  have ht : t = (s.allCleared ph).fset (pCore ph) F.SQ_CTRL_HALT 1 := State.coreReset_landed ph hc h
  have hreg {a : ℕ} (ha : a ≠ pCore ph + 0x040) : t.reg a = (s.allCleared ph).reg a := by
    rw [ht]
    exact State.reg_fset_ne _ _ _ 1 ha
  have hcore (i : ℕ) : t.core i = if i = ph then { s.core ph with mx := Mx.init, anchors := [] } else s.core i := by
    rw [ht, State.core_of_cores (State.fset_cores _ _ _ _), State.core_allCleared ph hc]
  refine ⟨fun k hk => ?_, fun o ho => ?_, fun r hrg f hf ha => ?_, ?_, ?_, ?_, ?_, fun i hi => ?_, fun a ha => ?_⟩
  · refine Eq.trans ?_ (State.tok_allCleared ph hr hk)
    unfold State.tok
    rw [hreg (by omega)]
  · have hlo := (flagOffsets_range o ho).1
    rw [hreg (by omega)]
    exact State.flag_allCleared ph hr ho
  · have hmem := mem_rcFields hrg hf ha
    have hne := (rcFields_ok _ hmem).2.1
    rw [hreg fun e => hne (by rw [Nat.add_left_cancel e]; exact List.mem_cons_self ..)]
    have hzero := State.fget_allCleared ph hr hmem
    exact hzero
  · rw [ht, State.fget_fset _ _ _ 1 (State.regsOk_allCleared ph hr) (by decide)]
    rfl
  · rw [hcore, if_pos rfl]
  · unfold State.mx
    rw [hcore, if_pos rfl]
  · rw [ht, State.fset_mem, State.allCleared_mem]
  · rw [hcore, if_neg hi]
  · rw [hreg (by omega), State.reg_allCleared_page ph s ha]

end


section
/-! SUPPORT. The state right after a reset (R536): every register at its reset value. -/

namespace Sys2Proof.Machine

theorem State.reg_reset (a : ℕ) : State.reset.reg a = regRst a := rfl

/-- SQ_CTRL of every physical core is 1 after reset: HALT is set (R160). -/
theorem regRst_sqCtrl {i : ℕ} (hi : i < 1088) : regRst (pCore i + 0x040) = 1 := by
  unfold regRst pCore
  rw [pageOf_page .pcore i _ (by decide) hi (by decide)]
  dsimp only
  rw [Nat.add_sub_cancel_left]
  decide

theorem State.halt_reset {i : ℕ} (hi : i < 1088) : State.reset.fget (pCore i) F.SQ_CTRL_HALT = 1 := by
  show bits (State.reset.reg (pCore i + 0x040)) 0 0 = 1
  rw [State.reg_reset, regRst_sqCtrl hi]
  rfl

theorem State.formOk_reset : State.reset.formOk := ⟨rfl, rfl, rfl, rfl, rfl, rfl⟩

theorem State.quiet_reset : State.reset.quiet := ⟨rfl, rfl, fun _ he => absurd he List.not_mem_nil⟩

theorem State.rpbOk_reset : State.reset.rpb.ok := ⟨by decide, fun _ => rfl, by decide⟩

/-- The power manager shows P0 after reset. -/
theorem State.pState_reset : State.reset.pState = 0 := by decide

end Sys2Proof.Machine

open Sys2Proof.Machine

/-- Settles O3: the tables of the reset state are empty, so that everything reads as its default. -/
theorem resetState : Obligations.ResetState :=
  ⟨State.formOk_reset, State.rpbOk_reset, State.quiet_reset, rfl, rfl, State.reg_reset, fun _ => rfl,
    fun _ hi => State.halt_reset hi, fun _ => rfl, fun _ _ => rfl, State.pState_reset, rfl, rfl⟩

end

section
/-! SUPPORT. The map of HBM (R265, R266) and the holds of accesses (R277, R344, R548) read few parts of the state, and two
states that agree on them agree on every place and every hold. -/

namespace Sys2Proof.Machine

/-- Two states agree on the slots, the units, the wear and what of each stack the map and its repairs read. -/
structure State.SameMap (s t : State) : Prop where
  units : t.units = s.units
  slots : t.slots = s.slots
  wear : t.wear = s.wear
  retired : ∀ n, t.retired n = s.retired n
  st : ∀ n, (t.hbmc n).st = (s.hbmc n).st
  inMap : ∀ n, (t.hbmc n).inMap = (s.hbmc n).inMap
  repairing : ∀ n, (t.hbmc n).repairing = (s.hbmc n).repairing

/-- A value of a table is its default or listed. -/
theorem Tab.get_eq_or_mem {β : Type} (d : β) (k : ℕ) (t : Tab β) : Tab.get d k t = d ∨ ∃ e ∈ t, e.2 = Tab.get d k t := by
  induction t with
  | nil => exact .inl rfl
  | cons e t ih =>
    obtain ⟨j, v⟩ := e
    unfold Tab.get
    split
    · exact .inr ⟨_, List.mem_cons_self, rfl⟩
    · exact ih.imp id fun ⟨e, he, hv⟩ => ⟨e, List.mem_cons_of_mem _ he, hv⟩

/-- A stack with a row under repair is listed. -/
theorem State.any_repairing {s : State} {n row : ℕ} (h : (s.hbmc n).repairing = some row) :
    (s.hbm.any fun e => e.2.repairing.isSome) = true := by
  rcases Tab.get_eq_or_mem HbmCtl.init n s.hbm with hd | ⟨e, he, hv⟩
  · rw [State.hbmc, hd] at h
    exact absurd h nofun
  · exact List.any_eq_true.2 ⟨e, he, by rw [hv, ← State.hbmc, h, Option.isSome_some]⟩

/-- Is the bank of a place the bank of a row under repair? -/
def HbmCtl.repairs (c : HbmCtl) (bank : ℕ) : Bool :=
  match c.repairing with
  | some row => bank % 2 ^ 21 == row / 2 ^ 32 % 2 ^ 21
  | none => false

theorem HbmCtl.repairs_congr {c d : HbmCtl} (h : d.repairing = c.repairing) (bank : ℕ) : d.repairs bank = c.repairs bank := by
  unfold HbmCtl.repairs
  rw [h]

theorem State.repairs_any {s : State} {n bank : ℕ} (h : (s.hbmc n).repairs bank = true) :
    (s.hbm.any fun e => e.2.repairing.isSome) = true := by
  unfold HbmCtl.repairs at h
  split at h
  next hr => exact s.any_repairing hr
  next => contradiction

/-- Which bytes a repair holds depends on the stacks one by one (R277). -/
theorem State.underRepair_eq (s : State) (off n : ℕ) : s.underRepair off n = (decide (off < hbmEnd) &&
    (cuts256 off n).any fun c => (s.hbmc (s.hbmPlace c.1).1).repairs (bankKey (s.hbmPlace c.1))) := by
  have hdef : s.underRepair off n = (decide (off < hbmEnd) && (s.hbm.any fun h => h.2.repairing.isSome) &&
      (cuts256 off n).any fun c => (s.hbmc (s.hbmPlace c.1).1).repairs (bankKey (s.hbmPlace c.1))) := rfl
  rw [hdef]
  cases hc : (cuts256 off n).any fun c => (s.hbmc (s.hbmPlace c.1).1).repairs (bankKey (s.hbmPlace c.1)) with
  | false => rw [Bool.and_false, Bool.and_false]
  | true =>
    obtain ⟨c, -, hr⟩ := List.any_eq_true.1 hc
    rw [s.repairs_any hr, Bool.and_true]

namespace State.SameMap

variable {s t : State} (h : s.SameMap t)
include h

theorem dieStacks (d : ℕ) : t.stacks d = s.stacks d := by
  unfold State.stacks
  simp only [h.units, h.inMap]

theorem dieCap (d : ℕ) : t.dieCap d = s.dieCap d := by
  have hp : t.pcs = s.pcs := funext fun n => by unfold State.pcs; rw [h.retired]
  unfold State.dieCap State.dieUnits
  rw [h.dieStacks, hp]

theorem hbmPlace (x : ℕ) : t.hbmPlace x = s.hbmPlace x := by
  unfold State.hbmPlace State.pcList
  simp only [h.dieStacks, h.retired]

theorem rebuilding (d : ℕ) : t.rebuilding d = s.rebuilding d := by
  unfold State.rebuilding
  rw [h.wear]

theorem phys (n : ℕ) : t.phys n = s.phys n := by
  unfold State.phys
  rw [h.units]

theorem place (off n : ℕ) : t.place off n = s.place off n := by
  unfold State.place
  simp only [h.rebuilding, h.dieCap, h.phys]

theorem hbmBlocked (x : ℕ) : t.hbmBlocked x = s.hbmBlocked x := by
  unfold State.hbmBlocked
  rw [h.rebuilding, h.hbmPlace, h.st]

theorem underRepair (off n : ℕ) : t.underRepair off n = s.underRepair off n := by
  rw [t.underRepair_eq, s.underRepair_eq]
  simp only [h.hbmPlace, HbmCtl.repairs_congr (h.repairing _)]

theorem lockedEntries : t.lockedEntries = s.lockedEntries := by
  unfold State.lockedEntries State.slot
  rw [h.slots]

theorem coreHeld (n : ℕ) : t.coreHeld n = s.coreHeld n := by
  unfold State.coreHeld
  rw [h.wear]

theorem memHeld (off n : ℕ) : t.memHeld off n = s.memHeld off n := by
  unfold State.memHeld State.lockedMem
  rw [h.lockedEntries, h.underRepair, h.coreHeld]

end State.SameMap

end Sys2Proof.Machine
end

section
/-! SUPPORT. A piece of a MOVE within HBM (R175, R268): a read and a write within one slot of 256 bytes. -/

namespace Sys2Proof.Machine

theorem State.hbmc_setHbmc {s : State} (ht : Tab.rising s.hbm = true) (k n : ℕ) (c : HbmCtl) :
    (s.setHbmc k c).hbmc n = if n = k then c else s.hbmc n := by
  split
  next hn => subst hn; exact Tab.get_set_self _ _ _ _ ht
  next hn => exact Tab.get_set_ne _ _ hn _ _

/-- An access takes a pseudo-channel out of self-refresh, and the map and its repairs stay (R288). -/
theorem State.sameMap_wakePc {s : State} (ht : Tab.rising s.hbm = true) (x : ℕ) : s.SameMap (s.wakePc x) := by
  have hrefl : s.SameMap s := ⟨rfl, rfl, rfl, fun _ => rfl, fun _ => rfl, fun _ => rfl, fun _ => rfl⟩
  unfold State.wakePc
  dsimp only
  split
  · exact hrefl
  · refine ⟨rfl, rfl, rfl, fun _ => rfl, fun n => ?_, fun n => ?_, fun n => ?_⟩ <;>
    · rw [State.hbmc_setHbmc ht]
      split
      next hn => rw [hn]
      next => rfl

theorem State.wakePc_keeps {α : Type} {part : State → α} (hp : ∀ (s : State) n c, part (s.setHbmc n c) = part s)
    (s : State) (x : ℕ) : part (s.wakePc x) = part s := by
  unfold State.wakePc
  dsimp only
  split
  · rfl
  · exact hp _ _ _

theorem State.wakePc_mem (s : State) (x : ℕ) : (s.wakePc x).mem = s.mem := State.wakePc_keeps (fun _ _ _ => rfl) s x

theorem State.wakePc_regs (s : State) (x : ℕ) : (s.wakePc x).regs = s.regs := State.wakePc_keeps (fun _ _ _ => rfl) s x

theorem State.wakePc_cores (s : State) (x : ℕ) : (s.wakePc x).cores = s.cores := State.wakePc_keeps (fun _ _ _ => rfl) s x

/-- Bytes within one block of 256 are one cut. -/
theorem cuts256_one {x n : ℕ} (hn : 0 < n) (h : x % 256 + n ≤ 256) : cuts256 x n = [(x, n)] := by
  have hc : cdiv (x % 256 + n) 256 = 1 := by
    unfold cdiv
    omega
  unfold cuts256
  rw [if_neg (by omega), hc]
  simp only [List.range_one, List.map_cons, List.map_nil, List.cons.injEq, Prod.mk.injEq, and_true]
  omega

theorem State.memRead_one (s : State) {x n : ℕ} (hn : 0 < n) (h : x % 256 + n ≤ 256) :
    s.memRead x n = s.memRead1 x n := by
  unfold State.memRead
  rw [cuts256_one hn h]
  rfl

/-- Where a code word of HBM is without error, a read finds none. -/
theorem Mem.faulty_hbm {m : Mem} (hc : m.hbmClean = true) {x n : ℕ} (hx : x + n ≤ spBase) : m.faulty x n = [] := by
  unfold Mem.faulty
  split
  · rfl
  rw [List.filter_eq_nil_iff]
  intro k hk
  obtain ⟨u, hu, rfl⟩ := List.mem_map.1 hk
  obtain ⟨i, hi, rfl⟩ := List.mem_map.1 hu
  rw [m.wrong_of_hbmClean _ hc]
  · decide
  · rw [List.mem_range] at hi
    have hs : codeSize x = 32 := by
      unfold codeSize isSp
      rw [if_neg]
      simp only [decide_eq_true_eq]
      omega
    rw [hs] at hi ⊢
    unfold isSp
    simp only [decide_eq_false_iff_not]
    unfold cdiv at hi
    unfold spBase at *
    omega

variable {s : State} {x : ℕ}

theorem State.hbmRead_clean (hc : s.mem.hbmClean = true) {n : ℕ} (hx : x + n ≤ spBase) (hb : s.hbmBlocked x = none) :
    s.hbmRead x n = ⟨s.wakePc x, 0, 0, s.mem.read x n⟩ := by
  unfold State.hbmRead Mem.failing Mem.corrected
  rw [hb, Mem.faulty_hbm hc hx]
  simp only [List.filter_nil, List.foldl_nil, List.isEmpty_nil, if_true, State.wakePc_mem]

theorem State.hbmWrite_clean (hc : s.mem.hbmClean = true) {bs : List Byte} (hx : x + bs.length ≤ spBase)
    (hb : s.hbmBlocked x = none) :
    s.hbmWrite x bs = ⟨{ s.wakePc x with mem := s.mem.put x bs }, 0, 0, []⟩ := by
  unfold State.hbmWrite
  rw [hb, Mem.write_hbm _ _ _ hx hc]
  rfl

/-- An offset of HBM is neither a register nor in a scratchpad. -/
theorem State.place_hbm {n : ℕ} (h : s.place x n = .hbm x) : x + n ≤ hbmEnd := by
  unfold State.place at h
  dsimp only at h
  by_contra hgt
  rw [if_neg hgt] at h
  repeat' split at h
  all_goals simp only [reduceCtorEq] at h

theorem inRegs_hbm {n : ℕ} (h : x + n ≤ hbmEnd) : inRegs x = false := by
  unfold inRegs
  unfold hbmEnd at h
  unfold regBase
  simp only [decide_eq_false_iff_not]
  omega

theorem State.engineRead_hbm (hc : s.mem.hbmClean = true) {n : ℕ} (hn : 0 < n) (h256 : x % 256 + n ≤ 256)
    (hp : s.place x n = .hbm x) (hb : s.hbmBlocked x = none) (hcov : s.covered x n = false) :
    s.engineRead x n = ⟨s.wakePc x, 0, 0, s.mem.read x n⟩ := by
  have hend := State.place_hbm hp
  have hread := State.hbmRead_clean hc (n := n) (hend.trans (by decide)) hb
  unfold State.engineRead
  rw [inRegs_hbm hend, hcov, if_neg Bool.false_ne_true, if_neg Bool.false_ne_true, s.memRead_one hn h256]
  unfold State.memRead1
  rw [hp]
  exact hread

theorem State.engineWrite_hbm (hc : s.mem.hbmClean = true) {bs : List Byte} (hn : 0 < bs.length)
    (h256 : x % 256 + bs.length ≤ 256) (hp : s.place x bs.length = .hbm x) (hb : s.hbmBlocked x = none) :
    s.engineWrite x bs = ⟨{ s.wakePc x with mem := s.mem.put x bs }, 0, 0, []⟩ := by
  have hend := State.place_hbm hp
  have hwrite := State.hbmWrite_clean hc (hend.trans (by decide)) hb
  unfold State.engineWrite State.memWrite
  rw [inRegs_hbm hend, if_neg Bool.false_ne_true, cuts256_one hn h256]
  simp only [List.foldl_cons, List.foldl_nil, if_true, Nat.sub_self, List.drop_zero, List.take_length]
  unfold State.memWrite1
  rw [hp]
  dsimp only
  rw [hwrite]

/-- The piece as a whole: a read that takes one pseudo-channel out of self-refresh, then the write. -/
theorem State.movePiece_hbm {y ph idx cls : ℕ} {m : MoveSt} {p : Piece} (ht : s.tabsOk) (hm : m.stopped = false)
    (hc : s.mem.hbmClean = true) (hsrc : s.isLocal p.src = true) (hdst : s.isLocal p.dst = true) (hx : p.src % 2 ^ 44 = x)
    (hy : p.dst % 2 ^ 44 = y) (hn : 0 < p.len) (hx256 : x % 256 + p.len ≤ 256) (hy256 : y % 256 + p.len ≤ 256)
    (hpx : s.place x p.len = .hbm x) (hpy : s.place y p.len = .hbm y) (hbx : s.hbmBlocked x = none)
    (hby : s.hbmBlocked y = none) (hhx : s.endHeld x p.len = false) (hhy : s.endHeld y p.len = false)
    (hcov : s.covered x p.len = false) : s.movePiece ph idx none cls m p
      = ({ (s.wakePc x).wakePc y with mem := s.mem.put y (s.mem.read x p.len) }, m) := by
  have hmap := State.sameMap_wakePc ht.1 x
  have hlen : (s.mem.read x p.len).length = p.len := Mem.read_length _ _ _
  have hregs : inRegs y = false := inRegs_hbm (State.place_hbm hpy)
  have hheld : (s.wakePc x).endHeld y p.len = false := by
    unfold State.endHeld at hhy ⊢
    rw [hregs, if_neg Bool.false_ne_true] at hhy ⊢
    rw [hmap.memHeld]
    exact hhy
  have hlocal : (s.wakePc x).isLocal p.dst = true := by
    rw [← hdst]
    exact State.wakePc_keeps (part := fun s => s.isLocal p.dst) (fun _ _ _ => rfl) s x
  have hwrite : (s.wakePc x).engineWrite y (s.mem.read x p.len)
      = ⟨{ (s.wakePc x).wakePc y with mem := s.mem.put y (s.mem.read x p.len) }, 0, 0, []⟩ := by
    rw [← s.wakePc_mem x] at hc ⊢
    rw [← s.wakePc_mem x] at hlen
    exact State.engineWrite_hbm hc (by omega) (by omega) (by rw [hlen, hmap.place, hpy]) (by rw [hmap.hbmBlocked, hby])
  unfold State.movePiece
  simp only [hm, hsrc, hdst, hx, hy, hhx, hhy, State.engineRead_hbm hc hn hx256 hpx hbx hcov, Bool.false_eq_true, if_false,
    if_true, Bool.or_self, Option.isNone_none, Bool.and_self, Bool.and_false]
  unfold State.movePut
  simp only [hm, hlocal, hy, hlen, hheld, hwrite, Bool.false_eq_true, if_false, if_true]

end Sys2Proof.Machine

open Sys2Proof.Machine

/-- Settles O23: the piece is one read and one write within one slot, and the read moves nothing that the write meets. -/
theorem movePieceCopies : Obligations.MovePieceCopies := by
  unfold Obligations.MovePieceCopies
  intro s ph idx cls m p x y hmem ht hm hc hsrc hdst hx hy hn hx256 hy256 hpx hpy hbx hby hhx hhy hcov
  rw [State.movePiece_hbm ht hm hc hsrc hdst hx hy hn hx256 hy256 hpx hpy hbx hby hhx hhy hcov]
  have hlen : (s.mem.read x p.len).length = p.len := Mem.read_length _ _ _
  refine ⟨rfl, ?_, fun a ha => Mem.byte_put_out _ _ _ _ (by rwa [hlen]), ?_, ?_⟩
  · have hread := Mem.read_put s.mem y (s.mem.read x p.len) hmem
    rwa [hlen] at hread
  · exact (State.wakePc_regs _ _).trans (State.wakePc_regs _ _)
  · exact (State.wakePc_cores _ _).trans (State.wakePc_cores _ _)

end

section
/-! SUPPORT. MOVE, FPRINT and the end of their local accesses by the branch of the model that they take (R174 to R178,
R189 to R192). -/

namespace Sys2Proof.Machine

/-- A command that leaves one state, from another name of it. -/
theorem next_congr {t u : State} (h : t = u) : (.next t : Result) = .next u := by rw [h]

/-- The queue of an engine that had nothing, after an issue to it. -/
theorem State.queue_issue_alone {s : State} {ph ty : ℕ} {f : Fetched} (hc : s.coresOk) (hty : hType f.words = ty)
    (hq : s.queue ph ty = []) :
    (s.issue ph f .queued).queue ph ty = [⟨f.idx, f.words, .queued, (s.core ph).attach⟩] := by
  rw [s.queue_issue ph f .queued hc, hq, if_pos ⟨hty, rfl⟩, List.nil_append]

/-! ### MOVE and REGISTER_MOVE -/

/-- The action of a MOVE counts in the transaction that its core is attached to (R332); false when the limit is passed. -/
def State.countMove (s : State) (txn : Option ℕ) : State × Bool :=
  match txn with
  | some x => s.countActions x 1
  | none => (s, true)

section
variable {s : State} {n ph : ℕ} {f : Fetched}

/-- The command that a MOVE takes at the head of its ring: the one for registers, or the one for memory (R178). -/
theorem exec_move {n : CoreId} (h : s.phys n.val = some ph) (hf : s.heads ph f tMOVE) :
    exec (if s.isRegMove (moveD f.words) then .registerMove n else .move n) s = .next (s.moveIssue ph f) := by
  have hty : hType f.words == tMOVE := beq_iff_eq.2 hf.2.1
  cases hreg : s.isRegMove (moveD f.words) with
  | true =>
    have hrun : registerMove n.val s = s.moveIssue ph f := by
      unfold registerMove
      rw [State.onCore_phys h, s.issuable_heads ph f tMOVE _ hf (by rw [hty, hreg]; rfl)]
    exact next_congr hrun
  | false =>
    have hrun : move n.val s = s.moveIssue ph f := by
      unfold move
      rw [State.onCore_phys h, s.issuable_heads ph f tMOVE _ hf (by rw [hty, hreg]; rfl)]
    exact next_congr hrun

/-- A MOVE that passes its checks, or that has nothing to check, counts its action, and then is done or starts. -/
theorem State.moveIssue_counts (hr : ((moveD f.words).rows = 0 ∨ (moveD f.words).rowBytes = 0)
    ∨ s.moveReasons (moveD f.words) = []) :
    s.moveIssue ph f = (let r := (s.issue ph f .queued).countMove (s.core ph).attach
      let e : Infl := ⟨f.idx, f.words, .queued, (s.core ph).attach⟩
      if r.2 = false then r.1.complete ph e (Rec.of 0x0C)
      else if (moveD f.words).rows = 0 ∨ (moveD f.words).rowBytes = 0 then r.1.complete ph e (Rec.of 0)
      else r.1.moveStart ph f.idx (moveD f.words)) := by
  have hreasons : (if (moveD f.words).rows = 0 ∨ (moveD f.words).rowBytes = 0 then [] else s.moveReasons (moveD f.words)) = [] := by
    split
    next => rfl
    next hn => exact hr.resolve_left hn
  unfold State.moveIssue State.countMove
  simp only [hreasons, Bool.not_eq_true'] <;> cases (s.core ph).attach <;> rfl

theorem State.moveIssue_empty (hr : (moveD f.words).rows = 0 ∨ (moveD f.words).rowBytes = 0) :
    s.moveIssue ph f = (let r := (s.issue ph f .queued).countMove (s.core ph).attach
      r.1.complete ph ⟨f.idx, f.words, .queued, (s.core ph).attach⟩ (Rec.of (if r.2 then 0 else 0x0C))) := by
  rw [State.moveIssue_counts (.inl hr)]
  dsimp only
  rw [if_pos hr]
  cases ((s.issue ph f .queued).countMove (s.core ph).attach).2 <;> rfl

theorem State.moveIssue_refused (hrows : (moveD f.words).rows ≠ 0) (hbytes : (moveD f.words).rowBytes ≠ 0) {x : ℕ} {xs : List ℕ}
    (hr : s.moveReasons (moveD f.words) = x :: xs) : s.moveIssue ph f = s.issueDone ph f (Rec.refused x) := by
  unfold State.moveIssue
  simp only [hrows, hbytes, hr, or_self, if_false]

theorem State.moveIssue_starts (hrows : (moveD f.words).rows ≠ 0) (hbytes : (moveD f.words).rowBytes ≠ 0)
    (hr : s.moveReasons (moveD f.words) = []) :
    s.moveIssue ph f = (let r := (s.issue ph f .queued).countMove (s.core ph).attach
      if r.2 then r.1.moveStart ph f.idx (moveD f.words)
      else r.1.complete ph ⟨f.idx, f.words, .queued, (s.core ph).attach⟩ (Rec.of 0x0C)) := by
  rw [State.moveIssue_counts (.inr hr)]
  dsimp only
  rw [if_neg (not_or.2 ⟨hrows, hbytes⟩)]
  cases ((s.issue ph f .queued).countMove (s.core ph).attach).2 <;> rfl

/-! ### FPRINT -/

variable (h : s.phys n = some ph) (hf : s.heads ph f tFPRINT)
include h hf

omit h in
theorem State.issuable_fprint : s.issuable ph (fun w => hType w == tFPRINT) = some f :=
  s.issuable_heads ph f tFPRINT _ hf (beq_iff_eq.2 hf.2.1)

theorem fprint_refused (hb : fprintBad (fprintD f.words) = true) : fprint n s = s.issueDone ph f (Rec.refused 0x1E) := by
  unfold fprint
  rw [State.onCore_phys h, State.issuable_fprint hf]
  exact if_pos hb

theorem fprint_queued (hb : fprintBad (fprintD f.words) = false) : fprint n s = (s.issue ph f .queued).fprintNext 3 ph := by
  unfold fprint
  rw [State.onCore_phys h, State.issuable_fprint hf]
  exact if_neg (by rw [hb]; exact Bool.false_ne_true)

end

section
variable {s : State} {ph : ℕ} {e : Infl} {es : List Infl} (hq : s.queue ph tFPRINT = e :: es) (hp : e.prog = .queued)
include hq hp

/-- An FPRINT of no slices is done, with the digest of nothing, and the one behind it may start. -/
theorem State.fprintNext_empty (h0 : (fprintD e.words).slices = 0) (fuel : ℕ) :
    s.fprintNext (fuel + 1) ph = State.fprintNext fuel (s.complete ph e ⟨0, 0, 0, 0, some 0⟩) ph := by
  rw [State.fprintNext, hq]
  dsimp only
  rw [if_neg (not_not.2 hp), if_pos h0]

/-- The FPRINT engine starts the head of its queue: its remote reads go out, and where it has a remote end it goes on. -/
theorem State.fprintNext_starts (h0 : (fprintD e.words).slices ≠ 0) (fuel : ℕ) :
    s.fprintNext (fuel + 1) ph = (let d := fprintD e.words
      let r := s.fprintReads ph e.idx d { MoveSt.init with full := partsOf (d.records.flatMap fun x => d.parts x.1 x.2) }
      let u := r.1.setMove ph e.idx r.2
      if u.fprintRemote d then State.fprintNext fuel (u.fprintForm ph e.idx) ph else u) := by
  rw [State.fprintNext, hq]
  dsimp only
  rw [if_neg (not_not.2 hp), if_neg h0]

end

/-! ### LOCAL_MOVE_DONE -/

section
variable {s : State} {n ph k : ℕ} {e : Infl} {m : MoveSt} (h : s.phys n = some ph)
  (hk : ((s.core ph).inflight.filter fun e => hType e.words == tMOVE || hType e.words == tFPRINT)[k]? = some e)
  (hp : e.prog = .move m)
include h hk hp

theorem localMoveDone_refused (hty : hType e.words = tMOVE) (hcov : s.readsCovered m.pieces = true) :
    localMoveDone n k s = s.complete ph e (Rec.refused 0x8C) := by
  unfold localMoveDone
  rw [State.onCore_phys h, hk]
  dsimp only
  rw [hp]
  exact if_pos (by rw [hty, hcov]; rfl)

theorem localMoveDone_goes (hcov : (hType e.words == tMOVE && s.readsCovered m.pieces) = false)
    (hheld : s.held.contains (.piece ph e.idx) = false) : localMoveDone n k s = s.pieceGo ph e.idx := by
  unfold localMoveDone
  rw [State.onCore_phys h, hk]
  dsimp only
  rw [hp]
  dsimp only
  rw [hcov, hheld]
  rfl

end

theorem State.pieceGo_move {s : State} {ph : ℕ} {e : Infl} (hi : s.infl ph e.idx = some e) (hty : hType e.words = tMOVE) :
    s.pieceGo ph e.idx = s.moveRun ph e.idx := by
  unfold State.pieceGo
  rw [hi]
  exact if_neg (by rw [hty]; decide)

theorem State.pieceGo_fprint {s : State} {ph : ℕ} {e : Infl} (hi : s.infl ph e.idx = some e) (hty : hType e.words = tFPRINT) :
    s.pieceGo ph e.idx = (s.fprintForm ph e.idx).fprintNext 3 ph := by
  unfold State.pieceGo
  rw [hi]
  exact if_pos hty

end Sys2Proof.Machine

open Sys2Proof.Machine

/-- Settles O22: each command by the branch that its descriptor takes. -/
theorem moveCommands : Obligations.MoveCommands := by
  unfold Obligations.MoveCommands
  intro s n ph h hc
  refine ⟨fun f hf => ?_, fun f hf => ?_, fun k e m hk hp hi hheld => ⟨fun hty hcov => ?_, fun hty hcov => ?_, fun hty => ?_⟩⟩
  · dsimp only
    rw [exec_move h hf]
    refine ⟨fun hr => ?_, fun hrows hbytes x xs hr => ?_, fun hrows hbytes hr => ?_⟩
    · rw [State.moveIssue_empty hr]
      cases (s.core ph).attach <;> rfl
    · rw [State.moveIssue_refused hrows hbytes hr]
    · rw [State.moveIssue_starts hrows hbytes hr]
      cases (s.core ph).attach <;> rfl
  · refine ⟨fun hb => next_congr (fprint_refused h hf hb), fun hb hq h0 => next_congr ?_,
      fun hb hq h0 => next_congr ?_⟩
    · rw [fprint_queued h hf hb, State.fprintNext_empty (State.queue_issue_alone hc hf.2.1 hq) rfl h0]
    · rw [fprint_queued h hf hb]
      exact State.fprintNext_starts (State.queue_issue_alone hc hf.2.1 hq) rfl h0 2
  · exact next_settle_congr (localMoveDone_refused h hk hp hty hcov)
  · exact next_settle_congr ((localMoveDone_goes h hk hp (by rw [hcov, Bool.and_false]) hheld).trans (State.pieceGo_move hi hty))
  · exact next_settle_congr ((localMoveDone_goes h hk hp (by rw [hty]; rfl) hheld).trans (State.pieceGo_fprint hi hty))

end

section
/-! SUPPORT. The vector unit, the Zwikai quantiser and the update engine by the branch of the model that they take (R183,
R240, R390). -/

namespace Sys2Proof.Machine

/-! ### What an issue leaves as it was -/

/-- An issue writes DR_HEAD and the token of the header wait (R147, R152). -/
theorem State.reg_issue_ne (s : State) (ph : ℕ) (f : Fetched) (p : Prog) {a : ℕ} (hhead : a ≠ pCore ph + 0x054)
    (htok : a ≠ pCore ph + 0x200 + 4 * hWaitTok f.words) : (s.issue ph f p).reg a = s.reg a := by
  have hpop : (s.popHead ph).reg a = s.reg a := State.reg_setReg_ne _ hhead _
  rw [State.reg_of_regs (s.issue_regs ph f p)]
  split
  · exact (State.reg_setTok_ne _ ph _ _ htok).trans hpop
  · exact hpop

theorem State.issue_hbm (s : State) (ph : ℕ) (f : Fetched) (p : Prog) : (s.issue ph f p).hbm = s.hbm := by
  unfold State.issue
  dsimp only
  split <;> rfl

theorem State.issue_wear (s : State) (ph : ℕ) (f : Fetched) (p : Prog) : (s.issue ph f p).wear = s.wear := by
  unfold State.issue
  dsimp only
  split <;> rfl

/-- An issue leaves the map of HBM and the holds of accesses as they were. -/
theorem State.sameMap_issue (s : State) (ph : ℕ) (f : Fetched) (p : Prog) : s.SameMap (s.issue ph f p) := by
  have hctl : ∀ n, (s.issue ph f p).hbmc n = s.hbmc n := fun n => by
    unfold State.hbmc
    rw [s.issue_hbm]
  refine ⟨s.issue_units ph f p, s.issue_slots ph f p, s.issue_wear ph f p, fun n => ?_, fun n => by rw [hctl],
    fun n => by rw [hctl], fun n => by rw [hctl]⟩
  have htok : hWaitTok f.words < 64 := bits_lt _ 29 24
  have hoff : F.HBM_PC_RETIRED_MAP.off = 0x04C := rfl
  have hhbm : pHbm n % 0x4000 = 0 := by
    show (Block.hbm.info.1 + n * 0x4000) % 0x4000 = 0
    rw [Nat.add_mul_mod_self_right]
    decide
  have hcore : pCore ph % 0x4000 = 0 := by
    show (Block.pcore.info.1 + ph * 0x4000) % 0x4000 = 0
    rw [Nat.add_mul_mod_self_right]
    decide
  show bits _ _ _ = bits _ _ _
  rw [s.reg_issue_ne ph f p] <;> omega

theorem State.SameMap.updateLocked {s t : State} (h : s.SameMap t) (ph : ℕ) (d : UpdateD) :
    t.updateLocked ph d = s.updateLocked ph d := by
  unfold State.updateLocked State.locLocked
  simp only [h.memHeld, s.spLocked_congr t h.slots h.units]

/-! ### VECTOR -/

/-- The OPs of Zwikai are those from 0xC0 to 0xCF (R390). -/
theorem isZop_eq (w : List Word) : isZop w = (bits (wd w 2) 31 24 / 16 == 0xC) := by
  have hbits : bits (wd w 2) 31 28 = bits (wd w 2) 31 24 / 16 := by
    unfold bits nbits
    rw [Nat.shiftRight_eq_div_pow, Nat.shiftRight_eq_div_pow]
    omega
  rw [isZop, hbits]

/-- The failed checks of a descriptor of the vector unit, or of its Zwikai quantiser. -/
def State.vxReasons (s : State) (ph : ℕ) (w : List Word) : List ℕ :=
  if isZop w then s.zopReasons ph (zopD w) else s.vectorReasons ph (vectorD w)

/-- Is it an operation without elements? -/
def vxEmpty (w : List Word) : Prop :=
  if isZop w then (zopD w).slices = 0 else (vectorD w).rows = 0 ∨ (vectorD w).cols = 0

/-- Its effect and its record. -/
def State.vxRun (s : State) (ph : ℕ) (w : List Word) : State × Rec :=
  if isZop w then s.zopRun ph w else s.vectorRun ph w

theorem State.vxNext_runs {s : State} {ph : ℕ} {e : Infl} {es : List Infl} (hq : s.queue ph tVECTOR = e :: es)
    (hp : e.prog = .queued) (hl : s.spLocked ph (vxRegion e.words) = false) :
    s.vxNext ph = (s.vxRun ph e.words).1.modInfl ph e.idx fun e' => { e' with prog := .ran (s.vxRun ph e.words).2 } := by
  unfold State.vxNext
  rw [hq]
  dsimp only
  rw [hl]
  exact if_pos ⟨hp, rfl⟩

section
variable {s : State} {n ph : ℕ} {f : Fetched} {p : ℕ → Bool} (h : s.phys n = some ph) (hf : s.heads ph f tVECTOR)
  (hp : p (bits (wd f.words 2) 31 24) = true)

include hf hp in
theorem State.issuable_vector : s.issuable ph (fun w => hType w == tVECTOR && p (bits (wd w 2) 31 24)) = some f :=
  s.issuable_heads ph f tVECTOR _ hf (by rw [hp, hf.2.1]; rfl)

include h hf hp

theorem vectorIssue_refused {r : ℕ} {rs : List ℕ} (hr : s.vxReasons ph f.words = r :: rs) :
    vectorIssue p n s = s.issueDone ph f (Rec.refused r) := by
  unfold State.vxReasons at hr
  unfold vectorIssue
  rw [State.onCore_phys h, State.issuable_vector hf hp]
  dsimp only
  rw [hr]

theorem vectorIssue_empty (hr : s.vxReasons ph f.words = []) (he : vxEmpty f.words) :
    vectorIssue p n s = s.issueDone ph f (Rec.of 0) := by
  unfold State.vxReasons at hr
  unfold vectorIssue
  rw [State.onCore_phys h, State.issuable_vector hf hp]
  dsimp only
  rw [hr]
  exact if_pos he

theorem vectorIssue_queued (hr : s.vxReasons ph f.words = []) (he : ¬vxEmpty f.words) :
    vectorIssue p n s = (s.issue ph f .queued).vxNext ph := by
  unfold State.vxReasons at hr
  unfold vectorIssue
  rw [State.onCore_phys h, State.issuable_vector hf hp]
  dsimp only
  rw [hr]
  exact if_neg he

theorem vectorIssue_runs (hc : s.coresOk) (hr : s.vxReasons ph f.words = []) (he : ¬vxEmpty f.words)
    (hq : s.queue ph tVECTOR = []) (hl : s.spLocked ph (vxRegion f.words) = false) :
    vectorIssue p n s = (let r := (s.issue ph f .queued).vxRun ph f.words
      r.1.modInfl ph f.idx fun e => { e with prog := .ran r.2 }) := by
  rw [← s.spLocked_congr _ (s.issue_slots ph f .queued) (s.issue_units ph f .queued)] at hl
  rw [vectorIssue_queued h hf hp hr he, State.vxNext_runs (State.queue_issue_alone hc hf.2.1 hq) rfl hl]

end

/-- A row of the vector unit: the command issues the descriptors of its OP, under some test of the OP. -/
def vectorRow (row : (CoreId → Instr) × ℕ) : Prop :=
  ∃ p : ℕ → Bool, (∀ n s, exec (row.1 n) s = .next (vectorIssue p n.val s)) ∧ p row.2 = true

/-- The rows of the vector unit with their OPs (R183). -/
theorem vectorRows : ∀ row ∈ [(Instr.add, 0x01), (Instr.sub, 0x02), (Instr.mul, 0x03), (Instr.fma, 0x04), (Instr.max, 0x05),
    (Instr.min, 0x06), (Instr.scale, 0x07), (Instr.cvt, 0x08), (Instr.abs, 0x09), (Instr.neg, 0x0A), (Instr.exp2, 0x10),
    (Instr.log2, 0x11), (Instr.rcp, 0x12), (Instr.rsqrt, 0x13), (Instr.sqrt, 0x14), (Instr.tanh, 0x15), (Instr.erf, 0x16),
    (Instr.rowsum, 0x20), (Instr.rowmax, 0x21), (Instr.rowssq, 0x22), (Instr.rowmul, 0x23), (Instr.colmul, 0x24)],
    vectorRow row ∧ row.2 / 16 ≠ 0xC := by
  simp only [List.forall_mem_cons, List.not_mem_nil, false_imp_iff, implies_true, and_true]
  refine ⟨?_, ?_, ?_, ?_, ?_, ?_, ?_, ?_, ?_, ?_, ?_, ?_, ?_, ?_, ?_, ?_, ?_, ?_, ?_, ?_, ?_, ?_⟩ <;>
  exact ⟨⟨_, fun _ _ => rfl, rfl⟩, by decide⟩

/-- The rows of the Zwikai quantiser with their OPs (R390). -/
theorem zopRows : ∀ row ∈ [(Instr.zenc, 0xC0), (Instr.zacc, 0xC1), (Instr.zundo, 0xC2), (Instr.zmean, 0xC3),
    (Instr.zfield, 0xC4)], vectorRow row ∧ row.2 / 16 = 0xC := by
  simp only [List.forall_mem_cons, List.not_mem_nil, false_imp_iff, implies_true, and_true]
  refine ⟨?_, ?_, ?_, ?_, ?_⟩ <;>
  exact ⟨_, fun _ _ => rfl, rfl⟩

/-! ### UPDATE -/

theorem State.nmNext_starts {s : State} {ph : ℕ} {e : Infl} {es : List Infl} (hq : s.queue ph tUPDATE = e :: es)
    (hp : e.prog = .queued) (hl : s.updateLocked ph (updateD e.words) = false) :
    s.nmNext ph = (s.nmStart ph e.words).1.modInfl ph e.idx fun e' => { e' with prog := (s.nmStart ph e.words).2 } := by
  unfold State.nmNext
  rw [hq]
  dsimp only
  rw [hl]
  exact if_pos ⟨hp, rfl⟩

section
variable {s : State} {n ph : ℕ} {f : Fetched} {p : ℕ → Bool} (h : s.phys n = some ph) (hf : s.heads ph f tUPDATE)
  (hp : p (updateD f.words).op = true)

include hf hp in
theorem State.issuable_update : s.issuable ph (fun w => hType w == tUPDATE && p (bits (wd w 2) 31 28)) = some f :=
  s.issuable_heads ph f tUPDATE _ hf (by rw [hf.2.1]; exact hp)

include h hf hp

theorem updateIssue_empty (h0 : (updateD f.words).slices = 0) : updateIssue p n s = s.issueDone ph f (Rec.of 0) := by
  unfold updateIssue
  rw [State.onCore_phys h, State.issuable_update hf hp]
  exact if_pos h0

theorem updateIssue_refused (h0 : (updateD f.words).slices ≠ 0) {r : ℕ} {rs : List ℕ}
    (hr : s.updateReasons ph (updateD f.words) = r :: rs) : updateIssue p n s = s.issueDone ph f (Rec.refused r) := by
  unfold updateIssue
  rw [State.onCore_phys h, State.issuable_update hf hp]
  dsimp only
  rw [if_neg h0, hr]

theorem updateIssue_queued (h0 : (updateD f.words).slices ≠ 0) (hr : s.updateReasons ph (updateD f.words) = []) :
    updateIssue p n s = (s.issue ph f .queued).nmNext ph := by
  unfold updateIssue
  rw [State.onCore_phys h, State.issuable_update hf hp]
  dsimp only
  rw [if_neg h0, hr]

theorem updateIssue_starts (hc : s.coresOk) (h0 : (updateD f.words).slices ≠ 0)
    (hr : s.updateReasons ph (updateD f.words) = []) (hq : s.queue ph tUPDATE = [])
    (hl : s.updateLocked ph (updateD f.words) = false) :
    updateIssue p n s = (let r := (s.issue ph f .queued).nmStart ph f.words
      r.1.modInfl ph f.idx fun e => { e with prog := r.2 }) := by
  rw [← (s.sameMap_issue ph f .queued).updateLocked] at hl
  rw [updateIssue_queued h hf hp h0 hr, State.nmNext_starts (State.queue_issue_alone hc hf.2.1 hq) rfl hl]

end

/-- The rows of the update menu with their OPs (R240). -/
theorem updateRows : ∀ row ∈ [(Instr.rule, 0x0), (Instr.seed, 0x1), (Instr.derive, 0x2), (Instr.fold, 0x3), (Instr.norms, 0x4),
    (Instr.nmerge, 0x5), (Instr.audit, 0x6), (Instr.eval, 0x7), (Instr.extract, 0x8), (Instr.cmp, 0x9), (Instr.outer, 0xA)],
    ∃ p : ℕ → Bool, (∀ n s, exec (row.1 n) s = .next (updateIssue p n.val s)) ∧ p row.2 = true := by
  simp only [List.forall_mem_cons, List.not_mem_nil, false_imp_iff, implies_true, and_true]
  refine ⟨?_, ?_, ?_, ?_, ?_, ?_, ?_, ?_, ?_, ?_, ?_⟩ <;>
  exact ⟨_, fun _ _ => rfl, rfl⟩

/-! ### Completions -/

section
variable {s : State} {n ph : ℕ} {e : Infl} {es : List Infl} (h : s.phys n = some ph)
include h

theorem vectorComplete_ran (hq : s.queue ph tVECTOR = e :: es) {r : Rec} (hp : e.prog = .ran r) :
    vectorComplete n s = (s.complete ph e r).vxNext ph := by
  unfold vectorComplete
  rw [State.onCore_phys h, hq]
  dsimp only
  rw [hp]

theorem updateComplete_ran (hq : s.queue ph tUPDATE = e :: es) {r : Rec} (hp : e.prog = .ran r) :
    updateComplete n s = (s.complete ph e r).nmNext ph := by
  unfold updateComplete
  rw [State.onCore_phys h, hq]
  dsimp only
  rw [hp]

theorem updateComplete_slices (hq : s.queue ph tUPDATE = e :: es) {c : NmSt} (hp : e.prog = .nm c)
    (hl : s.updateLocked ph (updateD e.words) = false) :
    updateComplete n s = ((s.nmRun ph e.words c).1.complete ph e (s.nmRun ph e.words c).2).nmNext ph := by
  unfold updateComplete
  rw [State.onCore_phys h, hq]
  dsimp only
  rw [hp]
  dsimp only
  rw [hl]
  exact if_neg Bool.false_ne_true

end

/-! ### The rows, case by case -/

section
variable {s : State} {n ph : ℕ} {w : List Word}

/-- For a row of R183 the checks, the elements and the effect are those of a VECTOR. -/
theorem vector_of_op {op : ℕ} (hop : op / 16 ≠ 0xC) (h : (vectorD w).op = op) : isZop w = false := by
  rw [isZop_eq, show bits (wd w 2) 31 24 = op from h]
  exact beq_false_of_ne hop

/-- For a row of R390 they are those of the Zwikai operation. -/
theorem zop_of_op {op : ℕ} (hop : op / 16 = 0xC) (h : (zopD w).op = op) : isZop w = true := by
  rw [isZop_eq, show bits (wd w 2) 31 24 = op from h]
  exact beq_iff_eq.2 hop

theorem State.vxReasons_vector (hz : isZop w = false) : s.vxReasons ph w = s.vectorReasons ph (vectorD w) :=
  if_neg (by rw [hz]; exact Bool.false_ne_true)

theorem State.vxReasons_zop (hz : isZop w = true) : s.vxReasons ph w = s.zopReasons ph (zopD w) := if_pos hz

theorem vxEmpty_vector (hz : isZop w = false) : vxEmpty w ↔ (vectorD w).rows = 0 ∨ (vectorD w).cols = 0 :=
  iff_of_eq (if_neg (by rw [hz]; exact Bool.false_ne_true))

theorem vxEmpty_zop (hz : isZop w = true) : vxEmpty w ↔ (zopD w).slices = 0 := iff_of_eq (if_pos hz)

theorem State.vxRun_vector (hz : isZop w = false) : s.vxRun ph w = s.vectorRun ph w :=
  if_neg (by rw [hz]; exact Bool.false_ne_true)

theorem State.vxRun_zop (hz : isZop w = true) : s.vxRun ph w = s.zopRun ph w := if_pos hz

end

end Sys2Proof.Machine

open Sys2Proof.Machine

/-- Settles O14: each row's command issues the descriptors of its OP, by the branch that the descriptor takes. -/
theorem engineCommands : Obligations.EngineCommands := by
  unfold Obligations.EngineCommands
  refine ⟨fun row hrow s n ph f h hc hf hop => ?_, fun row hrow s n ph f h hc hf hop => ?_,
    fun row hrow s n ph f h hc hf hop => ?_, fun s n ph e es r h hp => ⟨fun hq => ?_, fun hq => ?_, fun x xs c hq hx hl => ?_⟩⟩
  · obtain ⟨⟨p, hexec, hpop⟩, hrange⟩ := vectorRows row hrow
    have hz := vector_of_op hrange hop
    rw [← hop] at hpop
    rw [hexec]
    refine ⟨fun r rs hr => next_congr ?_, fun hr he => next_congr ?_, fun hr hrows hcols hq hl => next_congr ?_⟩
    · exact vectorIssue_refused h hf hpop ((State.vxReasons_vector hz).trans hr)
    · exact vectorIssue_empty h hf hpop ((State.vxReasons_vector hz).trans hr) ((vxEmpty_vector hz).2 he)
    · rw [← State.vxRun_vector hz]
      exact vectorIssue_runs h hf hpop hc ((State.vxReasons_vector hz).trans hr)
        ((vxEmpty_vector hz).not.2 (not_or.2 ⟨hrows, hcols⟩)) hq hl
  · obtain ⟨⟨p, hexec, hpop⟩, hrange⟩ := zopRows row hrow
    have hz := zop_of_op hrange hop
    rw [← hop] at hpop
    rw [hexec]
    refine ⟨fun r rs hr => next_congr ?_, fun hr he => next_congr ?_, fun hr hn hq hl => next_congr ?_⟩
    · exact vectorIssue_refused h hf hpop ((State.vxReasons_zop hz).trans hr)
    · exact vectorIssue_empty h hf hpop ((State.vxReasons_zop hz).trans hr) ((vxEmpty_zop hz).2 he)
    · rw [← State.vxRun_zop hz]
      exact vectorIssue_runs h hf hpop hc ((State.vxReasons_zop hz).trans hr) ((vxEmpty_zop hz).not.2 hn) hq hl
  · obtain ⟨p, hexec, hpop⟩ := updateRows row hrow
    rw [← hop] at hpop
    rw [hexec]
    refine ⟨fun h0 => next_congr ?_, fun r rs h0 hr => next_congr ?_, fun hr h0 hq hl => next_congr ?_⟩
    · exact updateIssue_empty h hf hpop h0
    · exact updateIssue_refused h hf hpop h0 hr
    · exact updateIssue_starts h hf hpop hc h0 hr hq hl
  · exact next_settle_congr (vectorComplete_ran h hq hp)
  · exact next_settle_congr (updateComplete_ran h hq hp)
  · exact next_settle_congr (updateComplete_slices h hq hx hl)

end

section
/-! SUPPORT. What the outcome of a step transaction does to the step registers (R221, R222, R229). -/

namespace Sys2Proof.Machine

/-! ### A signed byte in a register field -/

theorem sint_8_bounds (n : ℕ) : -128 ≤ sint 8 n ∧ sint 8 n < 128 := by
  unfold sint
  norm_num
  split <;> omega

/-- An integer of a signed byte's range reads back from its code. -/
theorem sint_ofSint_8 {v : ℤ} (hlo : -128 ≤ v) (hhi : v < 128) : sint 8 (ofSint 8 v) = v := by
  unfold sint ofSint
  norm_num
  split <;> omega

theorem sint_8_mod (n : ℕ) : sint 8 (n % 256) = sint 8 n := by
  simp only [sint, Nat.reducePow, Nat.mod_mod]

/-! ### One step of EXP -/

section
variable {s t : State}

theorem State.regsOk_fset (h : s.regsOk) (p : ℕ) (f : FRef) (v : ℕ) : (s.fset p f v).regsOk := s.regs_fset_rising p f v h

theorem State.reg_send (s : State) (o : Out) (a : ℕ) : (s.send o).reg a = s.reg a := rfl

theorem State.fget_send (s : State) (o : Out) (p : ℕ) (f : FRef) : (s.send o).fget p f = s.fget p f := rfl

/-- Nothing but LSCALE.EXP differs between two states. -/
def State.ExpOnly (s t : State) : Prop := t = s ∨ ∃ v, t = s.fset pGctl F.GCTL_LSCALE_EXP v

theorem State.expOnly_expStep (s : State) (d : ℤ) : s.ExpOnly (s.expStep d).1 := by
  unfold State.expStep
  dsimp only
  split
  · exact .inl rfl
  · exact .inr ⟨_, rfl⟩

theorem State.ExpOnly.reg_ne (h : s.ExpOnly t) {a : ℕ} (ha : a ≠ pGctl + 0x1C8) : t.reg a = s.reg a := by
  obtain rfl | ⟨v, rfl⟩ := h
  · rfl
  · exact s.reg_fset_ne _ _ v ha

theorem State.ExpOnly.fget_off (h : s.ExpOnly t) {f : FRef} (hf : f.off ≠ 0x1C8) : t.fget pGctl f = s.fget pGctl f :=
  congrArg (bits · f.hi f.lo) (h.reg_ne fun e => hf (Nat.add_left_cancel e))

theorem State.ExpOnly.regsOk (h : s.ExpOnly t) (hs : s.regsOk) : t.regsOk := by
  obtain rfl | ⟨v, rfl⟩ := h
  · exact hs
  · exact State.regsOk_fset hs _ _ v

theorem State.ExpOnly.rest (h : s.ExpOnly t) : t.out = s.out ∧ t.mem = s.mem ∧ t.slots = s.slots := by
  obtain rfl | ⟨v, rfl⟩ := h
  · exact ⟨rfl, rfl, rfl⟩
  · exact ⟨rfl, rfl, rfl⟩

/-- EXP at MIN is not lowered (R222). -/
theorem State.expStep_atMin (h : sint 8 (s.fget pGctl F.GCTL_LSCALE_EXP) ≤ sint 8 (s.fget pGctl F.GCTL_LSCALE_MIN)) :
    s.expStep (-1) = (s, false) :=
  if_pos (.inr ⟨by decide, by omega⟩)

/-- EXP above MIN is lowered by one. -/
theorem State.sint_expStep_lowered (hs : s.regsOk)
    (h : sint 8 (s.fget pGctl F.GCTL_LSCALE_MIN) < sint 8 (s.fget pGctl F.GCTL_LSCALE_EXP)) :
    sint 8 ((s.expStep (-1)).1.fget pGctl F.GCTL_LSCALE_EXP) = sint 8 (s.fget pGctl F.GCTL_LSCALE_EXP) - 1 := by
  have hmin := sint_8_bounds (s.fget pGctl F.GCTL_LSCALE_MIN)
  have hexp := sint_8_bounds (s.fget pGctl F.GCTL_LSCALE_EXP)
  have hstep : s.expStep (-1) =
      (s.fset pGctl F.GCTL_LSCALE_EXP (ofSint 8 (sint 8 (s.fget pGctl F.GCTL_LSCALE_EXP) + -1)), true) :=
    if_neg (by omega)
  rw [hstep]
  calc sint 8 ((s.fset pGctl F.GCTL_LSCALE_EXP _).fget pGctl F.GCTL_LSCALE_EXP)
      = sint 8 (ofSint 8 (sint 8 (s.fget pGctl F.GCTL_LSCALE_EXP) + -1) % 256) :=
        congrArg (sint 8) (State.fget_fset _ _ _ _ hs (by decide))
    _ = sint 8 (s.fget pGctl F.GCTL_LSCALE_EXP) + -1 := by rw [sint_8_mod, sint_ofSint_8 (by omega) (by omega)]

/-! ### The registers after each outcome -/

/-- The step closed, with the next version (R221). -/
def State.nextVersion (s : State) : State :=
  (s.fset pGctl F.GCTL_STEP_STAT_OPEN 0).setReg (pGctl + 0x1C0) ((s.fset pGctl F.GCTL_STEP_STAT_OPEN 0).reg (pGctl + 0x1C0) + 1)

/-- EXP grown when GOOD + 1 reaches an INTERVAL that is not 0, and whether it rose (R221, R222). -/
def State.growExp (s : State) : State × Bool :=
  if s.fget pGctl F.GCTL_LS_GOOD_INTERVAL ≠ 0 ∧ s.fget pGctl F.GCTL_LS_GOOD_INTERVAL ≤ s.fget pGctl F.GCTL_LS_GOOD_GOOD + 1
  then s.expStep 1 else (s, false)

/-- GOOD after a commit: 0 when EXP rose, else one more commit counted (R221). -/
def State.goodAfter (s : State) : ℕ := if s.growExp.2 then 0 else sat 16 (s.fget pGctl F.GCTL_LS_GOOD_GOOD + 1)

/-- What ends a committed and a skipped step alike: GOOD and LAST written. -/
def State.noteStep (s : State) (good last : ℕ) : State :=
  (s.fset pGctl F.GCTL_LS_GOOD_GOOD good).fset pGctl F.GCTL_STEP_STAT_LAST last

theorem State.stepOutcome_committed (s : State) : s.stepOutcome .committed =
    (s.nextVersion.growExp.1.noteStep s.nextVersion.goodAfter 1).send (.pin 6 true) := rfl

theorem State.stepOutcome_skipped (s : State) : s.stepOutcome .skipped =
    (((s.fset pGctl F.GCTL_STEP_STAT_OPEN 0).expStep (-1)).1.noteStep 0 2).finc pGctl F.GCTL_STEP_STAT_SKIPS := rfl

theorem State.expOnly_growExp (s : State) : s.ExpOnly s.growExp.1 := by
  unfold State.growExp
  split
  · exact s.expOnly_expStep 1
  · exact .inl rfl

/-- EXP waits while GOOD + 1 is below INTERVAL (R221). -/
theorem State.growExp_below (h : s.fget pGctl F.GCTL_LS_GOOD_GOOD + 1 < s.fget pGctl F.GCTL_LS_GOOD_INTERVAL) :
    s.growExp = (s, false) :=
  if_neg fun hi => Nat.not_lt.2 hi.2 h

/-- The next version changes only STEP_VER and STEP_STAT. -/
theorem State.fget_nextVersion_off (s : State) {f : FRef} (hv : f.off ≠ 0x1C0) (ho : f.off ≠ 0x1C4) :
    s.nextVersion.fget pGctl f = s.fget pGctl f :=
  (State.fget_setReg_ne _ _ _ _ _ fun e => hv (Nat.add_left_cancel e)).trans
    (State.fget_fset_off _ _ _ _ _ _ fun e => ho (Nat.add_left_cancel e))

theorem State.reg_nextVersion (h : s.regsOk) : s.nextVersion.reg (pGctl + 0x1C0) = s.reg (pGctl + 0x1C0) + 1 := by
  unfold State.nextVersion
  rw [State.reg_setReg _ _ _ (State.regsOk_fset h _ _ _), State.reg_fset_ne _ _ _ _ (by decide)]

theorem State.open_nextVersion (h : s.regsOk) : s.nextVersion.fget pGctl F.GCTL_STEP_STAT_OPEN = 0 :=
  (State.fget_setReg_ne _ _ _ _ _ (by decide)).trans (State.fget_fset _ _ _ _ h (by decide))

theorem State.regsOk_nextVersion (h : s.regsOk) : s.nextVersion.regsOk :=
  State.regsOk_setReg (State.regsOk_fset h _ _ _) _ _

/-- The note touches only STEP_STAT and LS_GOOD. -/
theorem State.reg_noteStep_ne (s : State) (good last : ℕ) {a : ℕ} (hg : a ≠ pGctl + 0x1CC) (hl : a ≠ pGctl + 0x1C4) :
    (s.noteStep good last).reg a = s.reg a :=
  (State.reg_fset_ne _ _ _ _ hl).trans (State.reg_fset_ne _ _ _ _ hg)

theorem State.regsOk_noteStep (h : s.regsOk) (good last : ℕ) : (s.noteStep good last).regsOk :=
  State.regsOk_fset (State.regsOk_fset h _ _ _) _ _ _

theorem State.fget_noteStep (h : s.regsOk) (good last : ℕ) :
    (s.noteStep good last).fget pGctl F.GCTL_STEP_STAT_OPEN = s.fget pGctl F.GCTL_STEP_STAT_OPEN
    ∧ (s.noteStep good last).fget pGctl F.GCTL_STEP_STAT_LAST = last % 4
    ∧ (s.noteStep good last).fget pGctl F.GCTL_LS_GOOD_GOOD = good % 65536
    ∧ (s.noteStep good last).fget pGctl F.GCTL_LSCALE_EXP = s.fget pGctl F.GCTL_LSCALE_EXP := by
  have hg : (s.fset pGctl F.GCTL_LS_GOOD_GOOD good).regsOk := State.regsOk_fset h _ _ _
  unfold State.noteStep
  refine ⟨?_, State.fget_fset _ _ _ _ hg (by decide), ?_, ?_⟩
  · rw [State.fget_fset_ne _ _ _ _ _ hg (by decide) (by decide), State.fget_fset_off _ _ _ _ _ _ (by decide)]
  · rw [State.fget_fset_off _ _ _ _ _ _ (by decide)]
    exact State.fget_fset _ _ _ _ h (by decide)
  · rw [State.fget_fset_off _ _ _ _ _ _ (by decide), State.fget_fset_off _ _ _ _ _ _ (by decide)]

/-- A committed step is the next version, closed, whatever EXP and GOOD become. -/
theorem State.committed_regs (h : s.regsOk) :
    (s.stepOutcome .committed).reg (pGctl + 0x1C0) = s.reg (pGctl + 0x1C0) + 1
    ∧ (s.stepOutcome .committed).fget pGctl F.GCTL_STEP_STAT_OPEN = 0
    ∧ (s.stepOutcome .committed).fget pGctl F.GCTL_STEP_STAT_LAST = 1 := by
  have hx := s.nextVersion.expOnly_growExp
  obtain ⟨hopen, hlast, -, -⟩ :=
    State.fget_noteStep (hx.regsOk (State.regsOk_nextVersion h)) s.nextVersion.goodAfter 1
  rw [State.stepOutcome_committed, State.reg_send, State.fget_send, State.fget_send]
  refine ⟨?_, ?_, hlast⟩
  · rw [State.reg_noteStep_ne _ _ _ (by decide) (by decide), hx.reg_ne (by decide), State.reg_nextVersion h]
  · rw [hopen, hx.fget_off (by decide), State.open_nextVersion h]

/-- A commit below INTERVAL counts in GOOD and keeps EXP. -/
theorem State.committed_below (h : s.regsOk)
    (hg : s.fget pGctl F.GCTL_LS_GOOD_GOOD + 1 < s.fget pGctl F.GCTL_LS_GOOD_INTERVAL) :
    (s.stepOutcome .committed).fget pGctl F.GCTL_LS_GOOD_GOOD = s.fget pGctl F.GCTL_LS_GOOD_GOOD + 1
    ∧ (s.stepOutcome .committed).fget pGctl F.GCTL_LSCALE_EXP = s.fget pGctl F.GCTL_LSCALE_EXP := by
  have hgood := s.fget_nextVersion_off (f := F.GCTL_LS_GOOD_GOOD) (by decide) (by decide)
  have hiv := s.fget_nextVersion_off (f := F.GCTL_LS_GOOD_INTERVAL) (by decide) (by decide)
  have hlt : s.fget pGctl F.GCTL_LS_GOOD_INTERVAL < 65536 := s.fget_lt pGctl F.GCTL_LS_GOOD_INTERVAL
  have hstay : s.nextVersion.growExp = (s.nextVersion, false) := State.growExp_below (by rwa [hgood, hiv])
  have hafter : s.nextVersion.goodAfter = s.fget pGctl F.GCTL_LS_GOOD_GOOD + 1 := by
    rw [State.goodAfter, hstay, hgood]
    exact Nat.min_eq_left (by omega)
  obtain ⟨-, -, hcount, hexp⟩ := State.fget_noteStep (State.regsOk_nextVersion h) s.nextVersion.goodAfter 1
  rw [State.stepOutcome_committed, State.fget_send, State.fget_send, hstay, hcount, hexp, hafter]
  exact ⟨Nat.mod_eq_of_lt (by omega), s.fget_nextVersion_off (by decide) (by decide)⟩

/-- A skipped step keeps STEP_VER, closes, clears GOOD, and has the EXP that one step down leaves. -/
theorem State.skipped_regs (h : s.regsOk) :
    (s.stepOutcome .skipped).reg (pGctl + 0x1C0) = s.reg (pGctl + 0x1C0)
    ∧ (s.stepOutcome .skipped).fget pGctl F.GCTL_STEP_STAT_OPEN = 0
    ∧ (s.stepOutcome .skipped).fget pGctl F.GCTL_STEP_STAT_LAST = 2
    ∧ (s.stepOutcome .skipped).fget pGctl F.GCTL_LS_GOOD_GOOD = 0
    ∧ (s.stepOutcome .skipped).fget pGctl F.GCTL_LSCALE_EXP
      = ((s.fset pGctl F.GCTL_STEP_STAT_OPEN 0).expStep (-1)).1.fget pGctl F.GCTL_LSCALE_EXP := by
  have hx := (s.fset pGctl F.GCTL_STEP_STAT_OPEN 0).expOnly_expStep (-1)
  have hr := hx.regsOk (State.regsOk_fset h _ _ _)
  have hn := State.regsOk_noteStep hr 0 2
  obtain ⟨hopen, hlast, hgood, hexp⟩ := State.fget_noteStep hr 0 2
  rw [State.stepOutcome_skipped]
  unfold State.finc
  refine ⟨?_, ?_, ?_, ?_, ?_⟩
  · rw [State.reg_fset_ne _ _ _ _ (by decide), State.reg_noteStep_ne _ _ _ (by decide) (by decide), hx.reg_ne (by decide)]
    exact State.reg_fset_ne _ _ _ _ (by decide)
  · rw [State.fget_fset_ne _ _ _ _ _ hn (by decide) (by decide), hopen, hx.fget_off (by decide)]
    exact State.fget_fset _ _ _ _ h (by decide)
  · exact (State.fget_fset_ne _ _ _ _ _ hn (by decide) (by decide)).trans hlast
  · exact (State.fget_fset_off _ _ _ _ _ _ (by decide)).trans hgood
  · exact (State.fget_fset_off _ _ _ _ _ _ (by decide)).trans hexp

/-- Closing the step does not touch LSCALE. -/
theorem State.fget_closed_lscale (s : State) {f : FRef} (hf : f.off = 0x1C8) :
    (s.fset pGctl F.GCTL_STEP_STAT_OPEN 0).fget pGctl f = s.fget pGctl f :=
  State.fget_fset_off _ _ _ _ _ _ (by rw [hf]; decide)

end

end Sys2Proof.Machine

open Sys2Proof.Machine

/-- Settles O32: EXP moves by one `expStep` and everything else of the step registers is written in `noteStep`, so each
outcome is read off its own form (`stepOutcome_committed`, `stepOutcome_skipped`). -/
theorem stepOutcomes : Obligations.StepOutcomes := by
  unfold Obligations.StepOutcomes
  intro s h
  obtain ⟨hver, hopen, hlast⟩ := State.committed_regs h
  obtain ⟨kver, kopen, klast, kgood, kexp⟩ := State.skipped_regs h
  obtain ⟨cout, cmem, cslots⟩ := s.nextVersion.expOnly_growExp.rest
  obtain ⟨-, kmem, kslots⟩ := ((s.fset pGctl F.GCTL_STEP_STAT_OPEN 0).expOnly_expStep (-1)).rest
  have hexp := s.fget_closed_lscale (f := F.GCTL_LSCALE_EXP) rfl
  have hmin := s.fget_closed_lscale (f := F.GCTL_LSCALE_MIN) rfl
  refine ⟨hver, hopen, hlast, congrArg (· ++ [Out.pin 6 true]) cout, State.committed_below h, kver, kopen, klast, kgood,
    fun hl => ?_, fun hl => ?_, cmem, kmem, cslots, kslots⟩
  · rw [kexp, State.sint_expStep_lowered (State.regsOk_fset h _ _ _) (by rwa [hexp, hmin]), hexp]
  · rw [kexp, State.expStep_atMin (by rwa [hexp, hmin]), hexp]

end

section
/-! SUPPORT. What P4 and a module reset keep: the registers whose values lie in flash or stay until the next map rebuild, the
replay-protected block and the logs (R479, R515, R536, R542, R543). -/

namespace Sys2Proof.Machine

/-- Entries of a table dropped by their number: a number that stays holds its value, any other its default. -/
theorem Tab.get_filter_key {β : Type} (d : β) (p : ℕ → Bool) (k : ℕ) (t : Tab β) :
    Tab.get d k (t.filter fun e => p e.1) = if p k = true then Tab.get d k t else d := by
  induction t with
  | nil => exact (ite_self d).symm
  | cons e t ih =>
    obtain ⟨j, v⟩ := e
    rw [List.filter_cons]
    by_cases hj : j = k
    · subst hj
      by_cases hp : p j = true
      · simp [hp, Tab.get]
      · rw [if_neg hp, ih, if_neg hp, if_neg hp]
    · have hskip : Tab.get d k ((j, v) :: t) = Tab.get d k t := if_neg hj
      split
      · rw [Tab.get, if_neg hj, ih, hskip]
      · rw [ih, hskip]

section
variable (s : State)

/-- What is lost reads as its reset value. -/
theorem State.reg_loseVolatile (keep : ℕ → Bool) (a : ℕ) :
    (s.loseVolatile keep).reg a = if keep a = true then s.reg a else regRst a :=
  Tab.get_filter_key (regRst a) keep a s.regs

theorem State.regsOk_loseVolatile {s : State} (h : s.regsOk) (keep : ℕ → Bool) : (s.loseVolatile keep).regsOk :=
  Tab.rising_filter h fun e => keep e.1

/-- P4 writes no register but STAT.STATE. -/
theorem State.reg_fatal_ne {a : ℕ} (h : a ≠ pPwr + F.PWR_STAT_STATE.off) :
    s.fatal.reg a = if flashReg a = true then s.reg a else regRst a :=
  (State.reg_fset_ne _ _ _ _ h).trans ((s.send (.pin 0 false)).reg_loseVolatile flashReg a)

theorem State.pState_fatal {s : State} (h : s.regsOk) : s.fatal.pState = 4 :=
  State.fget_fset _ pPwr F.PWR_STAT_STATE 4 (State.regsOk_loseVolatile h flashReg) (by decide)

/-- STAT.STATE of the power manager does not lie in flash. -/
theorem flashReg_pwrState : flashReg (pPwr + F.PWR_STAT_STATE.off) = false := by decide

/-- The registers that a module reset keeps (R536). -/
def resetKeeps (internal : Bool) (a : ℕ) : Bool :=
  flashReg a || pendReg a || (internal && (a == pSumac + 0x040 || a == pSumac + 0x048))

theorem resetKeeps_pin (a : ℕ) : resetKeeps false a = (flashReg a || pendReg a) := Bool.or_false _

/-- Steps that change HBM controllers alone change HBM controllers alone together. -/
theorem State.foldl_hbm {f : State → ℕ → State} (h : ∀ s n, f s n = { s with hbm := (f s n).hbm }) (l : List ℕ)
    (s : State) : l.foldl f s = { s with hbm := (l.foldl f s).hbm } := by
  induction l generalizing s with
  | nil => rfl
  | cons n l ih =>
    rw [List.foldl_cons, ih (f s n), h s n]

/-- What is volatile lost by a module reset, key slots among it, with the HBM controllers, the power manager and the start-up
state as given. -/
def State.lost (internal : Bool) (hbm : Tab HbmCtl) (pwr : PwrSt) (boot : BootSt) : State :=
  { s.loseVolatile (resetKeeps internal) with
    hbm := hbm, pwr := pwr, time := TimeSt.init, boot := boot,
    sec := { (s.loseVolatile (resetKeeps internal)).sec with keys := [] } }

theorem State.reg_lost (internal : Bool) (hbm : Tab HbmCtl) (pwr : PwrSt) (boot : BootSt) (a : ℕ) :
    (s.lost internal hbm pwr boot).reg a = if resetKeeps internal a = true then s.reg a else regRst a :=
  s.reg_loseVolatile (resetKeeps internal) a

theorem State.modReset_lost (internal : Bool) : ∃ hbm pwr boot, s.modReset internal = s.lost internal hbm pwr boot := by
  unfold State.modReset
  dsimp only
  generalize List.range 32 = l
  rw [State.foldl_hbm (fun _ _ => rfl) l (s.loseVolatile _)]
  exact ⟨_, _, _, rfl⟩

end

/-- MOD_RESET_N low with PWR_OK high (R514, R536). -/
theorem modResetAssert_lost {s : State} (h : s.boot.pwrOk = true) :
    ∃ (hbm : Tab HbmCtl) (pwr : PwrSt) (boot : BootSt),
      modResetAssert s = s.lost false hbm pwr { boot with resetLow := true, samples := [] } := by
  obtain ⟨hbm, pwr, boot, hreset⟩ := s.modReset_lost false
  refine ⟨hbm, pwr, boot, ?_⟩
  unfold modResetAssert
  rw [h, hreset]
  rfl

/-- PWR_OK rises (R534). -/
theorem pwrOkRise_lost {s : State} (h : s.boot.pwrOk = false) :
    ∃ (pwr : PwrSt) (boot : BootSt),
      pwrOkRise s = s.lost false [] pwr { boot with pwrOk := true, resetLow := true, samples := [] } := by
  obtain ⟨hbm, pwr, boot, hreset⟩ := s.modReset_lost false
  refine ⟨pwr, boot, ?_⟩
  unfold pwrOkRise
  rw [h, hreset]
  rfl

end Sys2Proof.Machine

open Sys2Proof.Machine

/-- Settles O45: P4 and a module reset are `loseVolatile` with the registers that they keep, and what else they write is
neither a log nor the replay-protected block, and no register but STAT.STATE in P4. -/
theorem flashOutlivesResets : Obligations.FlashOutlivesResets := by
  unfold Obligations.FlashOutlivesResets
  refine ⟨fun s hr => ?_, fun s _ => ⟨fun hp => ?_, fun hp => ?_⟩⟩
  · refine ⟨rfl, rfl, State.pState_fatal hr, rfl, rfl, rfl, rfl, rfl, rfl, fun a ha => ?_, fun a ha hne => ?_⟩
    · have hne : a ≠ pPwr + F.PWR_STAT_STATE.off := fun e => by
        rw [e, flashReg_pwrState] at ha
        contradiction
      rw [s.reg_fatal_ne hne, if_pos ha]
    · rw [s.reg_fatal_ne hne, ha, if_neg Bool.false_ne_true]
  · obtain ⟨hbm, pwr, boot, hreset⟩ := modResetAssert_lost hp
    refine ⟨_, next_congr hreset, rfl, rfl, rfl, rfl, rfl, rfl, rfl, rfl, fun a ha => ?_, fun a hf hpend => ?_⟩
    · rw [s.reg_lost, resetKeeps_pin, if_pos (Bool.or_eq_true_iff.2 ha)]
    · rw [s.reg_lost, resetKeeps_pin, hf, hpend, Bool.or_false, if_neg Bool.false_ne_true]
  · obtain ⟨pwr, boot, hreset⟩ := pwrOkRise_lost hp
    refine ⟨_, next_congr hreset, rfl, rfl, rfl, rfl, fun a ha => ?_⟩
    rw [s.reg_lost, resetKeeps_pin, ha, Bool.true_or, if_pos rfl]

end

section
/-! SUPPORT. The HBM controllers one command at a time: what the log and the degraded conditions leave alone, and each command
by the branch of the model that it takes (R277, R278, R282, R286 to R289). -/

namespace Sys2Proof.Machine

/-! ### The log and the degraded conditions -/

theorem State.logRepair_keeps {α : Type} {part : State → α} (hlogs : ∀ (s : State) l, part { s with logs := l } = part s)
    (hfull : ∀ s : State, part ((s.event pCdm F.CDM_PG_EVT_LOG_FULL).fset pCdm ⟨0x054, 8, 8⟩ 1) = part s)
    (s : State) (b i v c d : ℕ) : part (s.logRepair b i v c d) = part s := by
  unfold State.logRepair
  split
  · exact hlogs s _
  · exact hfull s

theorem State.refreshDeg_keeps {α : Type} {part : State → α}
    (h : ∀ (s : State) v w,
      part (((s.fset pCdm F.CDM_DEG_BITS v).fset pOgs F.OGS_CFG_DEGRADED w).event pCdm F.CDM_PG_EVT_DEGRADED) = part s)
    (s : State) : part s.refreshDeg = part s := by
  unfold State.refreshDeg
  dsimp only
  split
  · rfl
  · exact h s _ _

section
variable (s : State)

@[simp] theorem State.logRepair_mem (b i v c d : ℕ) : (s.logRepair b i v c d).mem = s.mem :=
  State.logRepair_keeps (fun _ _ => rfl) (fun s => s.event_mem _ _) s b i v c d

@[simp] theorem State.logRepair_sec (b i v c d : ℕ) : (s.logRepair b i v c d).sec = s.sec :=
  State.logRepair_keeps (fun _ _ => rfl) (fun s => s.event_sec _ _) s b i v c d

@[simp] theorem State.refreshDeg_mem : s.refreshDeg.mem = s.mem :=
  State.refreshDeg_keeps (fun _ _ _ => State.event_mem _ _ _) s

@[simp] theorem State.refreshDeg_sec : s.refreshDeg.sec = s.sec :=
  State.refreshDeg_keeps (fun _ _ _ => State.event_sec _ _ _) s

@[simp] theorem State.refreshDeg_hbm : s.refreshDeg.hbm = s.hbm :=
  State.refreshDeg_keeps (fun _ _ _ => State.event_hbm _ _ _) s

/-- The pages of the HBM controllers lie above those that the log and the degraded conditions write. -/
theorem pages_below_hbm (n o : ℕ) :
    pCdm + 0x4000 ≤ pHbm n + o ∧ pOgs + 0x4000 ≤ pHbm n + o ∧ pPwr + 0x4000 ≤ pHbm n + o := by
  have hhbm : pHbm n = 0x100000 + n * 0x4000 := rfl
  have hcdm : pCdm = 0x20000 := rfl
  have hogs : pOgs = 0xA0000 := rfl
  have hpwr : pPwr = 0x44000 := rfl
  omega

theorem State.reg_logRepair_hbm (b i v c d n o : ℕ) : (s.logRepair b i v c d).reg (pHbm n + o) = s.reg (pHbm n + o) := by
  obtain ⟨hcdm, -, -⟩ := pages_below_hbm n o
  refine State.logRepair_keeps (part := fun s => s.reg (pHbm n + o)) (fun _ _ => rfl) (fun s => ?_) s b i v c d
  exact (State.reg_fset_ne _ _ _ _ (by simp only; omega)).trans (s.reg_event_ne _ (by omega))

theorem State.reg_refreshDeg_hbm (n o : ℕ) : s.refreshDeg.reg (pHbm n + o) = s.reg (pHbm n + o) := by
  obtain ⟨hcdm, hogs, -⟩ := pages_below_hbm n o
  have hdeg : F.CDM_DEG_BITS.off = 0x050 := rfl
  have hcfg : F.OGS_CFG_DEGRADED.off = 0x044 := rfl
  refine State.refreshDeg_keeps (part := fun s => s.reg (pHbm n + o)) (fun s v w => ?_) s
  exact (State.reg_event_ne _ _ (by omega)).trans
    ((State.reg_fset_ne _ _ _ _ (by omega)).trans (State.reg_fset_ne _ _ _ _ (by omega)))

theorem State.regsOk_logRepair {s : State} (h : s.regsOk) (b i v c d : ℕ) : (s.logRepair b i v c d).regsOk := by
  unfold State.logRepair
  split
  · exact h
  · exact State.regsOk_fset (State.regsOk_event h _ _) _ _ _

end

/-! ### A controller that fails, trains, refreshes or repairs a row -/

/-- The entry of a stack after it has been set. -/
theorem State.hbmc_setHbmc_self {s : State} (ht : s.tabsOk) (n : ℕ) (c : HbmCtl) : (s.setHbmc n c).hbmc n = c :=
  (State.hbmc_setHbmc ht.1 n n c).trans (if_pos rfl)

theorem State.hbmc_of_hbm {s t : State} (h : t.hbm = s.hbm) (n : ℕ) : t.hbmc n = s.hbmc n := by
  unfold State.hbmc
  rw [h]

theorem State.st_hbmFail {s : State} (ht : s.tabsOk) (n old : ℕ) : ((s.hbmFail n old).hbmc n).st = .failed := by
  have hhbm : (s.hbmFail n old).hbm
      = (s.setHbmc n { s.hbmc n with st := .failed, tries := 0, repairing := none }).hbm := by
    simp [State.hbmFail, State.modHbmc]
  rw [State.hbmc_of_hbm hhbm, State.hbmc_setHbmc_self ht]

section
variable {s : State} {n : HbmId}

theorem hbmRefresh_active (h : (s.hbmc n).st = .active) :
    hbmRefresh n s = s.modHbmc n fun c => { c with refreshes := c.refreshes + 1 } := if_pos h

theorem stackNoAnswer_active (h : (s.hbmc n).st = .active) : stackNoAnswer n s = s.hbmFail n 2 := if_pos h

theorem pcSelfRefresh_idle (h : (s.hbmc n).st = .active) (hp : s.pState = 2)
    (he : s.fget (pHbm n) F.HBM_HC_CFG_PARTIAL_SR_EN = 1) (pc : Fin 32) :
    pcSelfRefresh n pc s = s.modHbmc n fun c => { c with pcSr := c.pcSr ||| 2 ^ pc.val } := if_pos ⟨hp, h, he⟩

theorem State.trained_ok (h : (s.hbmc n).st = .training) (hl : s.boot.resetLow = false) :
    s.trained n true = s.setHbmc n { s.hbmc n with st := .active, tries := 0 } := by
  unfold State.trained
  simp [h, hl]

theorem State.trained_failed (h : (s.hbmc n).st = .training) (hl : s.boot.resetLow = false) : s.trained n false =
    if 2 ≤ (s.hbmc n).tries then s.hbmFail n 1 else s.setHbmc n { s.hbmc n with tries := (s.hbmc n).tries + 1 } := by
  unfold State.trained
  simp [h, hl]

theorem State.st_trained_failed (ht : s.tabsOk) (h : (s.hbmc n).st = .training) (hl : s.boot.resetLow = false) :
    ((s.trained n false).hbmc n).st = if 2 ≤ (s.hbmc n).tries then .failed else .training := by
  rw [State.trained_failed h hl]
  split
  · exact State.st_hbmFail ht n 1
  · rw [State.hbmc_setHbmc_self ht]
    exact h

end

/-! ### Row repair (R277, R278) -/

theorem bit_or_maskBits (w : Word) {b : ℕ} (h : b < 32) : bit (w ||| maskBits b b) b = true := by
  have hm := testBit_maskBits b b b h le_rfl
  unfold bit
  rw [BitVec.toNat_or, Nat.testBit_or, hm]
  simp

/-- A pseudo-channel whose retirement is pending shows in PC_PENDING. -/
theorem State.bit_pendPc {s : State} (h : s.regsOk) (n : ℕ) {pc : ℕ} (hpc : pc < 32) :
    bit ((s.pendPc n pc).reg (pHbm n + 0x050)) pc = true := by
  unfold State.pendPc
  rw [State.reg_event_ne _ _ (by omega), State.reg_setReg _ _ _ h]
  exact bit_or_maskBits _ hpc

section
variable {s : State} {n : HbmId} {row : ℕ} {rest : List ℕ}

/-- The state after the repair of a row has begun. -/
theorem softPpr_spare (hst : (s.hbmc n).st = .active) (hc : (s.hbmc n).candidates = row :: rest)
    (hr : (s.hbmc n).repairing = none) : softPpr n true s = (s.logRepair 0x0011 n 1 0x0011 row).setHbmc n
      { s.hbmc n with candidates := rest, repairing := some row } := by
  unfold softPpr
  simp [hst, hc, hr]

theorem softPpr_noSpare (hst : (s.hbmc n).st = .active) (hc : (s.hbmc n).candidates = row :: rest)
    (hr : (s.hbmc n).repairing = none) : softPpr n false s =
      (((s.setHbmc n { s.hbmc n with candidates := rest }).finc (pHbm n) F.HBM_PPR_NOSPARE).event (pHbm n)
        F.HBM_PG_EVT_NOSPARE).pendPc n (rowPc row) := by
  unfold softPpr
  simp [hst, hc, hr]

theorem candidates_softPpr_noSpare (ht : s.tabsOk) (hst : (s.hbmc n).st = .active)
    (hc : (s.hbmc n).candidates = row :: rest) (hr : (s.hbmc n).repairing = none) :
    ((softPpr n false s).hbmc n).candidates = rest := by
  have hhbm : (softPpr n false s).hbm = (s.setHbmc n { s.hbmc n with candidates := rest }).hbm := by
    rw [softPpr_noSpare hst hc hr]
    simp [State.pendPc]
  rw [State.hbmc_of_hbm hhbm, State.hbmc_setHbmc_self ht]

theorem pending_softPpr_noSpare (hregs : s.regsOk) (hst : (s.hbmc n).st = .active)
    (hc : (s.hbmc n).candidates = row :: rest) (hr : (s.hbmc n).repairing = none) (hrow : row < 2 ^ 53) :
    bit ((softPpr n false s).reg (pHbm n + 0x050)) (rowPc row) = true := by
  rw [softPpr_noSpare hst hc hr]
  refine State.bit_pendPc (State.regsOk_event (State.regsOk_fset ?_ _ _ _) _ _) _ ?_
  · exact hregs
  · unfold rowPc
    omega

/-- The controller after its repair, and memory byte by byte. -/
theorem State.spprEnd_done (hr : (s.hbmc n).repairing = some row) :
    (s.spprEnd n).hbm = (s.setHbmc n { s.hbmc n with repairing := none, softRows := (s.hbmc n).softRows ++ [row] }).hbm
    ∧ (s.spprEnd n).mem.cells = s.mem.cells := by
  unfold State.spprEnd
  simp only [hr, State.event_hbm, State.finc_hbm, State.event_mem, State.finc_mem]
  exact ⟨rfl, rfl⟩

end

/-! ### Temperature (R286, R287) -/

/-- A reading in range is taken: the controller and its TEMP. -/
def State.tempTaken (s : State) (n : ℕ) (c : ℤ) : State :=
  let h := s.hbmc n
  ((s.setHbmc n { h with tempRun := h.tempRun - 1, temp := c, fast := decide (85 < c) || h.tempRun - 1 != 0 }).fset (pHbm n)
    F.HBM_TEMP_SENSOR_FAULT 0).fset (pHbm n) F.HBM_TEMP_DEG_C (c + 64).toNat

/-- A reading out of range is a fault of the sensor. -/
def State.tempFaulted (s : State) (n : ℕ) : State :=
  (s.setHbmc n { s.hbmc n with tempRun := 3, fast := true }).fset (pHbm n) F.HBM_TEMP_SENSOR_FAULT 1

section
variable {s : State} {n : HbmId} {c : ℤ}

theorem hbmTempRead_inRange (hst : (s.hbmc n).st ≠ .off) (hp : s.powered = true) (hlo : -20 ≤ c) (hhi : c ≤ 130) :
    hbmTempRead n c s = if 100 ≤ c then
        if (s.hbmc n).temp < 100 then
          ((s.tempTaken n c).event (pHbm n) F.HBM_PG_EVT_HOT).event pPwr F.PWR_PG_EVT_THERM_SOFT
        else (s.tempTaken n c).event (pHbm n) F.HBM_PG_EVT_HOT
      else s.tempTaken n c := by
  unfold hbmTempRead
  dsimp only
  rw [if_neg (by simp [hst, hp]), if_pos ⟨hlo, hhi⟩]
  rfl

theorem hbmTempRead_outOfRange (hst : (s.hbmc n).st ≠ .off) (hp : s.powered = true) (hout : c < -20 ∨ 130 < c) :
    hbmTempRead n c s = (s.tempFaulted n).event (pHbm n) F.HBM_PG_EVT_SENSOR := by
  unfold hbmTempRead
  dsimp only
  rw [if_neg (by simp [hst, hp]), if_neg (by omega)]
  rfl

/-- The events of a reading touch neither the controller nor TEMP. -/
theorem hbmTempRead_taken (hst : (s.hbmc n).st ≠ .off) (hp : s.powered = true) (hlo : -20 ≤ c) (hhi : c ≤ 130) :
    (hbmTempRead n c s).hbm = (s.tempTaken n c).hbm
    ∧ (hbmTempRead n c s).fget (pHbm n) F.HBM_TEMP_DEG_C = (s.tempTaken n c).fget (pHbm n) F.HBM_TEMP_DEG_C := by
  obtain ⟨-, -, hpwr⟩ := pages_below_hbm n 0x05C
  have hown : ∀ t : State, (t.event (pHbm n) F.HBM_PG_EVT_HOT).reg (pHbm n + 0x05C) = t.reg (pHbm n + 0x05C) :=
    fun t => t.reg_event_ne _ (by omega)
  have hpower : ∀ t : State, (t.event pPwr F.PWR_PG_EVT_THERM_SOFT).reg (pHbm n + 0x05C) = t.reg (pHbm n + 0x05C) :=
    fun t => t.reg_event_ne _ (by omega)
  have hreg : (hbmTempRead n c s).reg (pHbm n + 0x05C) = (s.tempTaken n c).reg (pHbm n + 0x05C) := by
    rw [hbmTempRead_inRange hst hp hlo hhi]
    split
    · split
      · rw [hpower, hown]
      · rw [hown]
    · rfl
  refine ⟨?_, congrArg (fun w => bits w 7 0) hreg⟩
  rw [hbmTempRead_inRange hst hp hlo hhi]
  split
  · split
    · rw [State.event_hbm, State.event_hbm]
    · rw [State.event_hbm]
  · rfl

theorem State.hbmc_tempTaken (ht : s.tabsOk) : (s.tempTaken n c).hbmc n = { s.hbmc n with
    tempRun := (s.hbmc n).tempRun - 1, temp := c, fast := decide (85 < c) || (s.hbmc n).tempRun - 1 != 0 } :=
  State.hbmc_setHbmc_self ht _ _

/-- DEG_C carries the reading plus 64 (R287). -/
theorem State.fget_tempTaken (h : s.regsOk) (hlo : -20 ≤ c) (hhi : c ≤ 130) :
    (s.tempTaken n c).fget (pHbm n) F.HBM_TEMP_DEG_C = (c + 64).toNat := by
  refine (State.fget_fset _ _ F.HBM_TEMP_DEG_C _ (State.regsOk_fset ?_ _ _ _) (by decide)).trans (Nat.mod_eq_of_lt ?_)
  · exact h
  · show (c + 64).toNat < 256
    omega

theorem State.hbmc_tempFaulted (ht : s.tabsOk) : (s.tempFaulted n).hbmc n
    = { s.hbmc n with tempRun := 3, fast := true } := State.hbmc_setHbmc_self ht _ _

theorem State.fget_tempFaulted (h : s.regsOk) :
    ((s.tempFaulted n).event (pHbm n) F.HBM_PG_EVT_SENSOR).fget (pHbm n) F.HBM_TEMP_SENSOR_FAULT = 1 := by
  have hreg := (s.tempFaulted n).reg_event_ne (p := pHbm n) (a := pHbm n + 0x05C) F.HBM_PG_EVT_SENSOR (by omega)
  have hset : (s.tempFaulted n).fget (pHbm n) F.HBM_TEMP_SENSOR_FAULT = 1 :=
    State.fget_fset (s.setHbmc n _) (pHbm n) F.HBM_TEMP_SENSOR_FAULT 1 h (by decide)
  exact (congrArg (fun w => bits w 8 8) hreg).trans hset

end

end Sys2Proof.Machine
end

section
/-! SUPPORT. The patrol scrub (R275): what it corrects, counts and leaves alone in one slot. -/

namespace Sys2Proof.Machine

/-- An error of the code changes no byte. -/
theorem Mem.takeAll_cells (m : Mem) (hbm : List HbmHit) (sp : List SpHit) :
    (sp.foldl Mem.takeSp (hbm.foldl Mem.takeHbm m)).cells = m.cells := by
  have hsp := foldl_keeps Mem.cells (f := Mem.takeSp) (fun m h => m.hit_cells _ _) sp
  have hhbm := foldl_keeps Mem.cells (f := Mem.takeHbm) (fun m h => m.hit_cells _ _) hbm
  rw [hsp, hhbm]

/-- Code words healed one after another. -/
theorem Mem.foldl_heal_cells (l : List ℕ) (m : Mem) : (l.foldl Mem.heal m).cells = m.cells :=
  foldl_keeps Mem.cells (fun m k => m.heal_cells k) l m

theorem Mem.mem_foldl_heal (l : List ℕ) (m : Mem) (e : ℕ × ℕ) :
    e ∈ (l.foldl Mem.heal m).errs ↔ e ∈ m.errs ∧ e.1 ∉ l := by
  induction l generalizing m with
  | nil => simp
  | cons k l ih =>
    have hheal : e ∈ (m.heal k).errs ↔ e ∈ m.errs ∧ e.1 ≠ k := by
      unfold Mem.heal
      rw [List.mem_filter, bne_iff_ne]
    rw [List.foldl_cons, ih, hheal, List.mem_cons, not_or, and_assoc]

section
variable (s : State)

@[simp] theorem State.candidate_mem (n row : ℕ) : (s.candidate n row).mem = s.mem := by
  unfold State.candidate
  split <;> rfl

/-- A corrected error on a row changes the count of rows, and a row that reaches CE_ROW raises its event (R276). -/
theorem State.rowCe_cases (n row : ℕ) : ∃ rows,
    s.rowCe n row = (s.modHbmc n fun h => { h with rows := rows })
    ∨ s.rowCe n row
      = ((s.modHbmc n fun h => { h with rows := rows }).event (pHbm n) F.HBM_PG_EVT_CE_ROW).candidate n row := by
  unfold State.rowCe
  dsimp only
  split
  · exact ⟨_, (ite_eq_or_eq _ _ _).symm⟩
  · exact ⟨_, .inl rfl⟩

@[simp] theorem State.rowCe_mem (n row : ℕ) : (s.rowCe n row).mem = s.mem := by
  obtain ⟨rows, h | h⟩ := s.rowCe_cases n row <;> rw [h]
  · rfl
  · rw [State.candidate_mem, State.event_mem, State.modHbmc_mem]

@[simp] theorem State.hbmCe_mem (x : ℕ) : (s.hbmCe x).mem = s.mem := by simp [State.hbmCe]

@[simp] theorem State.countUePc_mem (n pc : ℕ) : (s.countUePc n pc).mem = s.mem := by
  unfold State.countUePc
  dsimp only
  split <;> simp

/-- An uncorrectable read counts, logs and captures; of the controllers it changes what the candidates and the count of the
pseudo-channel change (R273, R276, R280). -/
theorem State.hbmUe_cases (x : ℕ) (capture : Bool) : ∃ (t : State) (n row pc : ℕ), t.mem = s.mem ∧ t.hbm = s.hbm
    ∧ s.hbmUe x capture = (t.candidate n row).countUePc n pc := by
  refine ⟨_, _, _, _, ?_, ?_, rfl⟩
  · rw [State.logEvent_mem, apply_ite State.mem, State.setReg_mem, State.setReg_mem, ite_self, State.event_mem, State.finc_mem]
  · rw [State.logEvent_hbm, apply_ite State.hbm, State.setReg_hbm, State.setReg_hbm, ite_self, State.event_hbm, State.finc_hbm]

@[simp] theorem State.hbmUe_mem (x : ℕ) (capture : Bool) : (s.hbmUe x capture).mem = s.mem := by
  obtain ⟨t, n, row, pc, hmem, -, h⟩ := s.hbmUe_cases x capture
  rw [h, State.countUePc_mem, State.candidate_mem, hmem]

end

/-- The next slot that the scrub of a stack reads, in a table of controllers that is in order. -/
def State.scrubsAt (s : State) (n j : ℕ) : Prop := Tab.rising s.hbm = true ∧ (s.hbmc n).scrub = j

namespace State.scrubsAt

variable {s : State} {n j : ℕ} (h : s.scrubsAt n j)
include h

theorem of_hbm {t : State} (e : t.hbm = s.hbm) : t.scrubsAt n j := by
  unfold State.scrubsAt
  rw [State.hbmc_of_hbm e, e]
  exact h

/-- A change of a controller that leaves its next slot. -/
theorem modHbmc (k : ℕ) {f : HbmCtl → HbmCtl} (hf : ∀ c, (f c).scrub = c.scrub) : (s.modHbmc k f).scrubsAt n j := by
  refine ⟨Tab.rising_set _ _ _ _ h.1, ?_⟩
  unfold State.modHbmc
  rw [State.hbmc_setHbmc h.1]
  split
  next hn => rw [hf, ← hn, h.2]
  next => exact h.2

theorem candidate (k row : ℕ) : (s.candidate k row).scrubsAt n j := by
  unfold State.candidate
  split
  · exact h.modHbmc k fun _ => rfl
  · exact h

theorem rowCe (k row : ℕ) : (s.rowCe k row).scrubsAt n j := by
  obtain ⟨rows, e⟩ := s.rowCe_cases k row
  have hrows : (s.modHbmc k fun c => { c with rows := rows }).scrubsAt n j := h.modHbmc k fun _ => rfl
  rcases e with e | e <;> rw [e]
  · exact hrows
  · exact (hrows.of_hbm (State.event_hbm _ _ _)).candidate k row

theorem hbmCe (x : ℕ) : (s.hbmCe x).scrubsAt n j := (h.of_hbm (s.finc_hbm _ _ _)).rowCe _ _

theorem countUePc (k pc : ℕ) : (s.countUePc k pc).scrubsAt n j := by
  unfold State.countUePc
  dsimp only
  have hcount := h.modHbmc k (f := fun c => { c with uePc := Tab.set 0 pc (Tab.get 0 pc (s.hbmc k).uePc + 1) c.uePc })
    fun _ => rfl
  split
  · exact hcount.of_hbm (State.event_hbm _ _ _)
  · exact hcount

theorem hbmUe (x : ℕ) (capture : Bool) : (s.hbmUe x capture).scrubsAt n j := by
  obtain ⟨t, k, row, pc, -, hhbm, e⟩ := s.hbmUe_cases x capture
  rw [e]
  exact ((h.of_hbm hhbm).candidate k row).countUePc k pc

theorem foldl {f : State → ℕ → State} (hf : ∀ t k, State.scrubsAt t n j → (f t k).scrubsAt n j) (l : List ℕ) :
    (l.foldl f s).scrubsAt n j :=
  List.foldlRecOn l f h fun t ht k _ => hf t k ht

end State.scrubsAt

/-- A correctable code word of HBM met by the scrub: corrected and counted. -/
def State.healCe (s : State) (k : ℕ) : State := ({ s with mem := s.mem.heal k } : State).hbmCe k

theorem State.scrubsAt.healCe {s : State} {n j : ℕ} (h : s.scrubsAt n j) (k : ℕ) : (s.healCe k).scrubsAt n j := by
  have hmem : ({ s with mem := s.mem.heal k } : State).scrubsAt n j := h
  exact hmem.hbmCe k

theorem State.foldl_healCe_mem (l : List ℕ) (s : State) : (l.foldl State.healCe s).mem = l.foldl Mem.heal s.mem := by
  induction l generalizing s with
  | nil => rfl
  | cons k l ih =>
    rw [List.foldl_cons, List.foldl_cons, ih]
    unfold State.healCe
    rw [State.hbmCe_mem]

/-- The scrub of slot j of a stack, at offset x. -/
def State.scrubSlot (s : State) (n j x : ℕ) : State :=
  (s.mem.failing x 256).foldl (fun t k => t.hbmUe k false)
    ((s.mem.corrected x 256).foldl State.healCe (s.modHbmc n fun h => { h with scrub := j + 1 }))

theorem State.scrubSlot_mem (s : State) (n j x : ℕ) :
    (s.scrubSlot n j x).mem = (s.mem.corrected x 256).foldl Mem.heal s.mem := by
  unfold State.scrubSlot
  rw [foldl_keeps State.mem fun t k => t.hbmUe_mem k false, State.foldl_healCe_mem, State.modHbmc_mem]

theorem State.scrub_scrubSlot {s : State} (ht : s.tabsOk) (n j x : ℕ) : ((s.scrubSlot n j x).hbmc n).scrub = j + 1 := by
  have hnext : (s.modHbmc n fun h => { h with scrub := j + 1 }).scrubsAt n (j + 1) :=
    ⟨Tab.rising_set _ _ _ _ ht.1, congrArg HbmCtl.scrub (State.hbmc_setHbmc_self ht n _)⟩
  have hcorrected := hnext.foldl (fun t k h => h.healCe k) (s.mem.corrected x 256)
  have hall := hcorrected.foldl (fun t k h => h.hbmUe k false) (s.mem.failing x 256)
  unfold State.scrubSlot
  exact hall.2

/-- PATROL_SCRUB over a slot that nothing holds. -/
theorem patrolScrub_slot {s : State} {n : HbmId} {x : ℕ} (hst : (s.hbmc n).st = .active)
    (hh : s.fget (pHbm n) F.HBM_RAS_CFG_SCRUB_H ≠ 0) (hx : s.stripeOff n (s.hbmc n).scrub = some x)
    (hheld : s.memHeld x 256 = false) (hbm : List HbmHit) (sp : List SpHit) : patrolScrub n hbm sp s =
      ({ s with mem := sp.foldl Mem.takeSp (hbm.foldl Mem.takeHbm s.mem) } : State).scrubSlot n (s.hbmc n).scrub x := by
  unfold patrolScrub
  generalize sp.foldl Mem.takeSp (hbm.foldl Mem.takeHbm s.mem) = m
  have hst' : (({ s with mem := m } : State).hbmc n).st = .active := hst
  have hh' : ({ s with mem := m } : State).fget (pHbm n) F.HBM_RAS_CFG_SCRUB_H ≠ 0 := hh
  have hx' : ({ s with mem := m } : State).stripeOff n (({ s with mem := m } : State).hbmc n).scrub = some x := hx
  have hheld' : ({ s with mem := m } : State).memHeld x 256 = false := hheld
  dsimp only
  rw [if_neg (by simp [hst', hh']), hx']
  dsimp only
  rw [hheld', if_neg Bool.false_ne_true]
  rfl

end Sys2Proof.Machine
end

section
/-! SUPPORT. The map rebuild of a die (R283): its stacks one by one, its bytes and its untrusted entries. -/

namespace Sys2Proof.Machine

theorem Mem.byte_wipe (m : Mem) (a n k : ℕ) : (m.wipe a n).byte k = if a ≤ k ∧ k < a + n then Mem.blank else m.byte k := by
  refine (Tab.get_filter_key Mem.blank (fun k => !decide (a ≤ k ∧ k < a + n)) k m.cells).trans ?_
  by_cases h : a ≤ k ∧ k < a + n
  · rw [if_pos h, decide_eq_true h, Bool.not_true, if_neg Bool.false_ne_true]
  · rw [if_neg h, decide_eq_false h, Bool.not_false, if_pos rfl]
    rfl

/-- What is pending on a stack and not yet retired. -/
def State.toRetire (s : State) (n : ℕ) : Word := s.reg (pHbm n + 0x050) &&& ~~~ s.reg (pHbm n + 0x04C)

/-- The pseudo-channels that a rebuild retires, recorded one by one in REPAIR. -/
def State.recordRetired (s : State) (n : ℕ) (pend : Word) : State :=
  (List.range 32).foldl (fun s p => if bit pend p then s.logRepair 0x0011 n 2 0x0012 p else s) s

/-- What is pending on a stack is retired. -/
def State.retirePcs (s : State) (n : ℕ) : State :=
  let t := s.recordRetired n (s.toRetire n)
  (t.setReg (pHbm n + 0x04C) (t.reg (pHbm n + 0x04C) ||| s.toRetire n)).setReg (pHbm n + 0x050) 0

/-- A stack as the rebuild leaves it: it is in the map when it is ACTIVE. -/
def State.retireStack (s : State) (n : ℕ) : State :=
  (s.retirePcs n).modHbmc n fun h => { h with inMap := h.st == .active, scrub := 0 }

/-- The stacks of a die. -/
def dieStackNos (d : ℕ) : List ℕ := (List.range 4).map (· + 4 * d)

/-- The contents of a die and the untrusted entries that begin there. -/
def State.wipeDie (s : State) (d : ℕ) : State :=
  { s with
    mem := { s.mem.wipe (d * dieSize) dieSize with
      errs := s.mem.errs.filter fun e => !decide (d * dieSize ≤ e.1 ∧ e.1 < d * dieSize + dieSize) }
    sec := { s.sec with untr := s.sec.untr.filter fun e => e.2.1 / dieSize != d } }

def State.announceRebuilt (s : State) (d : ℕ) : State :=
  (dieStackNos d).foldl (fun s n => s.event (pHbm n) F.HBM_PG_EVT_REBUILT) s

theorem State.rebuildMap_eq (s : State) (d : ℕ) :
    s.rebuildMap d = ((((dieStackNos d).foldl State.retireStack s).wipeDie d).announceRebuilt d).refreshDeg := rfl

theorem State.recordRetired_keeps {α : Type} {part : State → α}
    (h : ∀ (s : State) b i v c d, part (s.logRepair b i v c d) = part s) (s : State) (n : ℕ) (pend : Word) :
    part (s.recordRetired n pend) = part s := by
  refine foldl_keeps part (fun s p => ?_) _ s
  split
  · exact h s _ _ _ _ _
  · rfl

theorem State.regsOk_recordRetired {s : State} (h : s.regsOk) (n : ℕ) (pend : Word) : (s.recordRetired n pend).regsOk := by
  refine List.foldlRecOn _ _ h fun t ht p _ => ?_
  split
  · exact State.regsOk_logRepair ht _ _ _ _ _
  · exact ht

theorem State.reg_recordRetired (s : State) (n : ℕ) (pend : Word) (k o : ℕ) :
    (s.recordRetired n pend).reg (pHbm k + o) = s.reg (pHbm k + o) :=
  State.recordRetired_keeps (part := fun s => s.reg (pHbm k + o)) (fun s b i v c d => s.reg_logRepair_hbm b i v c d k o) s n pend

section
variable (s : State)

theorem State.retireStack_mem (n : ℕ) : (s.retireStack n).mem = s.mem := by
  unfold State.retireStack State.retirePcs
  rw [State.modHbmc_mem, State.setReg_mem, State.setReg_mem]
  exact State.recordRetired_keeps (fun s b i v c d => s.logRepair_mem b i v c d) s n _

theorem State.reg_retireStack_eq (n a : ℕ) : (s.retireStack n).reg a = (s.retirePcs n).reg a :=
  State.reg_of_regs ((s.retirePcs n).modHbmc_regs n _) a

theorem State.announceRebuilt_mem (d : ℕ) : (s.announceRebuilt d).mem = s.mem :=
  foldl_keeps State.mem (fun s n => s.event_mem (pHbm n) F.HBM_PG_EVT_REBUILT) _ s

theorem State.announceRebuilt_sec (d : ℕ) : (s.announceRebuilt d).sec = s.sec :=
  foldl_keeps State.sec (fun s n => s.event_sec (pHbm n) F.HBM_PG_EVT_REBUILT) _ s

/-- Announcing a rebuild writes page headers alone. -/
theorem State.reg_announceRebuilt (d k : ℕ) {o : ℕ} (ho : 0x040 ≤ o) (ho' : o < 0x4000) :
    (s.announceRebuilt d).reg (pHbm k + o) = s.reg (pHbm k + o) := by
  refine foldl_keeps (fun s : State => s.reg (pHbm k + o)) (fun s n => ?_) _ s
  have hk : pHbm k = 0x100000 + k * 0x4000 := rfl
  have hn : pHbm n = 0x100000 + n * 0x4000 := rfl
  refine s.reg_event_ne _ ?_
  rcases Nat.lt_or_ge k n with h | h <;> omega

end

/-- What is retired or pending on a stack. -/
def State.goneOrPending (s : State) (n : ℕ) : Word := s.reg (pHbm n + 0x04C) ||| s.reg (pHbm n + 0x050)

theorem State.regsOk_retireStack {s : State} (h : s.regsOk) (n : ℕ) : (s.retireStack n).regsOk := by
  have hpcs : (s.retirePcs n).regsOk := by
    unfold State.retirePcs
    exact State.regsOk_setReg (State.regsOk_setReg (State.regsOk_recordRetired h n _) _ _) _ _
  exact State.regsOk_of_regs ((s.retirePcs n).modHbmc_regs n _) hpcs

theorem or_and_not (a b : Word) : a ||| (b &&& ~~~a) = a ||| b := by
  ext i hi
  simp only [BitVec.getElem_or, BitVec.getElem_and, BitVec.getElem_not]
  cases a[i] <;> simp

/-- The stack itself: nothing is pending any more, and what was pending is retired. -/
theorem State.reg_retireStack {s : State} (h : s.regsOk) (n : ℕ) :
    (s.retireStack n).reg (pHbm n + 0x050) = 0 ∧ (s.retireStack n).reg (pHbm n + 0x04C) = s.goneOrPending n := by
  have hr := State.regsOk_recordRetired h n (s.toRetire n)
  rw [s.reg_retireStack_eq, s.reg_retireStack_eq]
  unfold State.retirePcs
  rw [State.reg_setReg _ _ _ (State.regsOk_setReg hr _ _), State.reg_setReg_ne _ (by omega), State.reg_setReg _ _ _ hr,
    s.reg_recordRetired]
  exact ⟨rfl, or_and_not _ _⟩

/-- The other stacks. -/
theorem State.reg_retireStack_ne (s : State) {n k : ℕ} (hk : k ≠ n) {o : ℕ} (ho : o < 0x4000) :
    (s.retireStack n).reg (pHbm k + o) = s.reg (pHbm k + o) := by
  have hpk : pHbm k = 0x100000 + k * 0x4000 := rfl
  have hpn : pHbm n = 0x100000 + n * 0x4000 := rfl
  have hne : ∀ o' < 0x4000, pHbm k + o ≠ pHbm n + o' := fun o' ho' => by omega
  rw [s.reg_retireStack_eq]
  unfold State.retirePcs
  rw [State.reg_setReg_ne _ (hne 0x050 (by decide)), State.reg_setReg_ne _ (hne 0x04C (by decide)), s.reg_recordRetired]

theorem State.goneOrPending_retireStack {s : State} (h : s.regsOk) (n k : ℕ) :
    (s.retireStack n).goneOrPending k = s.goneOrPending k := by
  by_cases hk : k = n
  · subst hk
    obtain ⟨h0, h1⟩ := State.reg_retireStack h k
    rw [State.goneOrPending, h0, h1]
    exact BitVec.or_zero
  · unfold State.goneOrPending
    rw [s.reg_retireStack_ne hk (by decide), s.reg_retireStack_ne hk (by decide)]

/-- Where nothing is pending, nothing becomes so. -/
theorem State.pending_retireStack {s : State} (h : s.regsOk) (n : ℕ) {k : ℕ} (h0 : s.reg (pHbm k + 0x050) = 0) :
    (s.retireStack n).reg (pHbm k + 0x050) = 0 := by
  by_cases hk : k = n
  · subst hk
    exact (State.reg_retireStack h k).1
  · rwa [s.reg_retireStack_ne hk (by decide)]

/-- The stacks of a list: what was retired or pending is retired, and nothing is pending. -/
theorem State.reg_retireStacks {s : State} (h : s.regsOk) {l : List ℕ} {n : ℕ} (hn : n ∈ l) :
    (l.foldl State.retireStack s).reg (pHbm n + 0x050) = 0
    ∧ (l.foldl State.retireStack s).reg (pHbm n + 0x04C) = s.goneOrPending n := by
  have hrun := foldl_attains (ok := fun t => t.regsOk ∧ ∀ k, t.goneOrPending k = s.goneOrPending k)
    (done := fun k t => t.reg (pHbm k + 0x050) = 0) (f := State.retireStack) (l := l)
    (fun t k _ ⟨hr, hp⟩ => ⟨State.regsOk_retireStack hr k, fun j => (State.goneOrPending_retireStack hr k j).trans (hp j)⟩)
    (fun t k _ ⟨hr, _⟩ => (State.reg_retireStack hr k).1)
    (fun t k _ j ⟨hr, _⟩ hj => State.pending_retireStack hr k hj) ⟨h, fun _ => rfl⟩
  obtain ⟨⟨-, hp⟩, hdone⟩ := hrun
  have hnone := hdone n (.inl hn)
  have hsum := hp n
  rw [State.goneOrPending, hnone] at hsum
  exact ⟨hnone, (BitVec.or_zero).symm.trans hsum⟩

/-- The whole rebuild, for the stacks of the die. -/
theorem State.reg_rebuildMap {s : State} (h : s.regsOk) (d : ℕ) {k : ℕ} (hk : k < 4) :
    (s.rebuildMap d).reg (pHbm (4 * d + k) + 0x050) = 0
    ∧ (s.rebuildMap d).reg (pHbm (4 * d + k) + 0x04C) = s.goneOrPending (4 * d + k) := by
  have hmem : 4 * d + k ∈ dieStackNos d := List.mem_map.2 ⟨k, List.mem_range.2 hk, Nat.add_comm _ _⟩
  have hafter : ∀ o, 0x040 ≤ o → o < 0x4000 → (s.rebuildMap d).reg (pHbm (4 * d + k) + o)
      = ((dieStackNos d).foldl State.retireStack s).reg (pHbm (4 * d + k) + o) := fun o ho ho' => by
    rw [s.rebuildMap_eq, State.reg_refreshDeg_hbm, State.reg_announceRebuilt _ d _ ho ho']
    rfl
  rw [hafter _ (by decide) (by decide), hafter _ (by decide) (by decide)]
  exact State.reg_retireStacks h hmem

section
variable (s : State)

theorem State.rebuildMap_mem (d : ℕ) : (s.rebuildMap d).mem = (s.wipeDie d).mem := by
  have hretired : ((dieStackNos d).foldl State.retireStack s).mem = s.mem :=
    foldl_keeps State.mem (fun s n => s.retireStack_mem n) _ s
  rw [s.rebuildMap_eq, State.refreshDeg_mem, State.announceRebuilt_mem]
  unfold State.wipeDie
  rw [hretired]

/-- A rebuild wipes the die and no other byte. -/
theorem State.byte_rebuildMap (d a : ℕ) : (s.rebuildMap d).mem.byte a
    = if d * dieSize ≤ a ∧ a < d * dieSize + dieSize then Mem.blank else s.mem.byte a := by
  rw [s.rebuildMap_mem]
  exact s.mem.byte_wipe _ _ _

/-- No untrusted entry of the die stays. -/
theorem State.untr_rebuildMap (d : ℕ) : ∀ e ∈ (s.rebuildMap d).sec.untr, e.2.1 / dieSize ≠ d := by
  rw [s.rebuildMap_eq, State.refreshDeg_sec, State.announceRebuilt_sec]
  intro e he
  exact bne_iff_ne.1 (List.mem_filter.1 he).2

end

/-- MAP_REBUILD of the die that SPARE_OP names, with its cores HALTED. -/
theorem mapRebuild_halted {s : State} {d : DieId} {o : SpareOp} (hrun : s.wear.running = some o) (hop : o.op = 3)
    (hdie : o.die = d.val) (hh : s.dieHalted d = true) :
    mapRebuild d s = { s.rebuildMap d with wear := { s.wear with running := some { o with spare := 1 } } } := by
  unfold mapRebuild
  rw [hrun]
  exact if_pos ⟨hop, hdie, hh⟩

end Sys2Proof.Machine

open Sys2Proof.Machine

/-- Settles O47: each command is read off the branch that its hypotheses take; the scrub moves on in `scrubsAt`, and a rebuild
keeps what is retired or pending on each stack (`goneOrPending`) while nothing stays pending. -/
theorem hbmCommands : Obligations.HbmCommands := by
  unfold Obligations.HbmCommands
  refine ⟨fun s n hr ht => ⟨fun hst => ⟨?_, ?_, fun pc hp he => ?_, fun row rest hc hnone hrow => ⟨?_, ?_⟩⟩,
    fun hst hp => ⟨fun c hlo hhi => ?_, fun c hout => ?_⟩, fun hst hl => ⟨?_, ?_⟩, fun row hrow => ?_⟩,
    fun s n hbm sp x ht hst hh hx hheld => ?_, fun s d o hr hrun hop hdie hhalt => ?_⟩
  · exact next_congr (hbmRefresh_active hst)
  · exact next_settle_congr (stackNoAnswer_active hst)
  · exact next_congr (pcSelfRefresh_idle hst hp he pc)
  · exact next_congr (softPpr_spare hst hc hnone)
  · exact ⟨_, rfl, candidates_softPpr_noSpare ht hst hc hnone, pending_softPpr_noSpare hr hst hc hnone hrow⟩
  · obtain ⟨hhbm, hdeg⟩ := hbmTempRead_taken hst hp hlo hhi
    have hctl := (State.hbmc_of_hbm hhbm n).trans (State.hbmc_tempTaken ht)
    refine ⟨_, rfl, ?_, fun h => ?_, hdeg.trans (State.fget_tempTaken hr hlo hhi)⟩
    · rw [hctl]
    · rw [hctl, decide_eq_true h, Bool.true_or]
  · have hread := hbmTempRead_outOfRange hst hp hout
    refine ⟨_, next_congr hread, ?_, State.fget_tempFaulted hr⟩
    rw [State.hbmc_of_hbm (State.event_hbm _ _ _), State.hbmc_tempFaulted ht]
  · exact next_congr (State.trained_ok hst hl)
  · exact ⟨_, rfl, State.st_trained_failed ht hst hl⟩
  · obtain ⟨hhbm, hcells⟩ := State.spprEnd_done hrow
    have hctl := (State.hbmc_of_hbm hhbm n).trans (State.hbmc_setHbmc_self ht n _)
    refine ⟨_, rfl, ?_, ?_, ?_, hcells⟩ <;> rw [hctl]
  · have hcells := s.mem.takeAll_cells hbm sp
    refine ⟨_, next_congr (patrolScrub_slot hst hh hx hheld hbm sp), ?_, ?_, fun e => ?_⟩
    · rw [State.scrubSlot_mem, Mem.foldl_heal_cells, hcells]
    · refine State.scrub_scrubSlot ?_ n _ x
      exact ht
    · rw [State.scrubSlot_mem]
      exact Mem.mem_foldl_heal _ _ e
  · have hend : (d.val + 1) * dieSize = d.val * dieSize + dieSize := Nat.succ_mul _ _
    refine ⟨_, next_congr (mapRebuild_halted hrun hop hdie hhalt), fun a hlo hhi => ?_, fun a hout => ?_,
      s.untr_rebuildMap d, fun k hk => State.reg_rebuildMap hr d hk⟩
    · exact (s.byte_rebuildMap d a).trans (if_pos ⟨hlo, by omega⟩)
    · exact (s.byte_rebuildMap d a).trans (if_neg (by omega))

end

section
/-! SUPPORT. Served writes of the pages of the global space, and what their registers OGS.ROUTE_GEN, RT_DATA and MOD_ID do
(R305, R308, R311). -/

namespace Sys2Proof.Machine

/-! ### A served write of a page other than a core's -/

/-- A register beyond the common header of a page other than GCTL and a core's: the write is the page's own. -/
theorem State.put_page {s t : State} {b : Block} {i off : ℕ} {p : Put} (hb : b ∈ Block.all) (hc : b ≠ .core)
    (hg : 0x4000 ≤ b.page i) (hi : i < b.info.2.2) (ho : off < 0x400) (h4 : off % 4 = 0)
    (hw : s.pageWritable ⟨b, i, i, b.page i, off, p.view.val⟩ = true) (hs : s.serves p.rq (p.addr (b.page i + off)))
    (ht : s.writeLoc p.rq ⟨b, i, i, b.page i, off, p.view.val⟩ (p.addr (b.page i + off)) (p.val &&& beMask p.be)
      (beMask p.be) = (t, true)) : s.put (b.page i + off) p = t.settle := by
  have hidx (o : ℕ) : isIdx (b.page i + off + p.view.val * 0x1000) o = false := by
    have : (b.page i + off + p.view.val * 0x1000) / 0x4000 ≠ 0 := by omega
    simp [isIdx, this]
  exact congrArg State.settle
    (State.writeAcc_done hs (s.regLoc_page b i off p.view hb hc hi ho h4) hw (hidx _) (hidx _) ht)

/-- The register of the OGS page at an offset and a view. -/
def ogsReg (off : ℕ) (v : Fin 4) : RegAt := ⟨.ogs, 0, 0, pOgs, off, v.val⟩

theorem State.put_ogs {s : State} {off : ℕ} {p : Put} (ho : 0x040 ≤ off) (ho' : off < 0x400) (h4 : off % 4 = 0)
    (hs : s.serves p.rq (p.addr (pOgs + off))) :
    s.put (pOgs + off) p = (s.ogsWrite (ogsReg off p.view) (p.val &&& beMask p.be) (beMask p.be)).settle := by
  refine State.put_page (b := .ogs) (i := 0) (by decide) (by decide) (by decide) (by decide) ho' h4 rfl hs ?_
  unfold State.writeLoc
  rw [s.headerWrite_none _ _ _ ho]
  rfl

/-! ### The commands -/

section
variable {s : State}

theorem routeGen_served {rq : Requester} (hs : s.serves rq (pOgs + 0x04C)) (hf : s.fab.fill = false) :
    routeGen rq s = ({ s with fab := { s.fab with fill := true } } : State).settle := by
  unfold routeGen
  rw [State.putWord_eq_put, State.put_ogs (by decide) (by decide) (by decide) (by rwa [put_addr_normal])]
  have hgo : bit ((1 : Word) &&& beMask 0xF) 0 = true := by decide
  exact congrArg State.settle (if_pos ⟨rfl, hgo, by rw [hf]; rfl⟩)

theorem rtDataWrite_served {p : Put} (hs : s.serves p.rq (p.addr (pOgs + 0x054))) {id : ℕ} {w : Word}
    (hid : id = s.fget pOgs F.OGS_RT_IDX_ID)
    (hw : w = viewPut p.view.val (BitVec.ofNat 32 (routeBits (Tab.get Route.init id s.fab.routes)))
      (p.val &&& beMask p.be) 0x8000010F (beMask p.be)) :
    rtDataWrite p s = (({ s with fab := { s.fab with
      routes := Tab.set Route.init id ⟨bits w 3 0, bit w 8, bit w 31⟩ s.fab.routes } } : State).fset pOgs
      F.OGS_RT_IDX_ID ((id + 1) % 4096)).settle := by
  have hmask : accMask (Block.ogs.fieldsAt 0x054) .rw = 0x8000010F := by decide
  subst hid hw
  rw [← hmask]
  exact State.put_ogs (by decide) (by decide) (by decide) hs

theorem modIdWrite_served {p : Put} (hs : s.serves p.rq (p.addr (pOgs + 0x040))) :
    modIdWrite p s = s.putReg (pOgs + 0x040) (p.word (s.reg (pOgs + 0x040)) 0x80000FFF) := by
  obtain ⟨hrw, hw1c, hrws⟩ : accMask (Block.ogs.fieldsAt 0x040) .rw = 0x80000FFF
      ∧ accMask (Block.ogs.fieldsAt 0x040) .w1c = 0 ∧ accMask (Block.ogs.fieldsAt 0x040) .rws = 0 := by decide
  refine (State.put_ogs (by decide) (by decide) (by decide) hs).trans (congrArg State.settle ?_)
  exact s.plainWrite_rw (ogsReg 0x040 p.view) _ _ 0x80000FFF hrw hw1c hrws

end

/-! ### The fill of the routes (R305) -/

/-- A table filled from a function over a list of numbers gives the function's value at each of them. -/
theorem Tab.get_filterMap_keys {β : Type} (d : β) (f : ℕ → Option β) (l : List ℕ) (j : ℕ) :
    Tab.get d j (l.filterMap fun k => (f k).map fun v => (k, v)) = if j ∈ l then (f j).getD d else d := by
  induction l with
  | nil => rfl
  | cons k l ih =>
    cases hk : f k with
    | none =>
      simp only [List.filterMap_cons, hk, Option.map_none, ih, List.mem_cons]
      by_cases hjk : j = k
      · simp [hjk, hk]
      · simp [hjk]
    | some v =>
      simp only [List.filterMap_cons, hk, Option.map_some, Tab.get, ih, List.mem_cons]
      by_cases hjk : j = k
      · simp [hjk, hk]
      · simp [hjk, Ne.symm hjk]

theorem routeFillDone_routes {s : State} (hf : s.fab.fill = true) : routeFillDone s = { s with fab := { s.fab with
    fill := false
    routes := (List.range 4096).filterMap fun j => (s.routeTo j).map fun r => (j, r) } } := by
  unfold routeFillDone
  rw [hf]
  rfl

/-! ### Dimension-ordered routes (R305, R306) -/

/-- The hop of a route for module j along one dimension, a ring of n, from position a to position b. -/
def ringHop (n a b dim j : ℕ) : Option Route :=
  if ringDir n a b = 0 then none else some ⟨2 * dim + (ringDir n a b - 1) + 8 * (j % 2), wraps n a (ringDir n a b), true⟩

theorem ringHop_none {n a b : ℕ} (h : (b + n - a) % n = 0) (dim j : ℕ) : ringHop n a b dim j = none :=
  if_pos (if_pos h)

/-- The shorter way round, and the positive one when both are equally long. -/
theorem ringHop_port {n a b : ℕ} (h : (b + n - a) % n ≠ 0) (dim j : ℕ) : (ringHop n a b dim j).map (·.port)
    = some (2 * dim + (if 2 * ((b + n - a) % n) ≤ n then 0 else 1) + 8 * (j % 2)) := by
  unfold ringHop ringDir
  by_cases hn : 2 * ((b + n - a) % n) ≤ n <;> simp [h, hn]

/-- Two positions on a ring that no hop parts are equal. -/
theorem eq_of_ring {n a b : ℕ} (ha : a < n) (hb : b < n) (h : (b + n - a) % n = 0) : b = a := by
  rcases Nat.lt_or_ge b a with hlt | hge
  · rw [Nat.mod_eq_of_lt (by omega)] at h
    omega
  · rw [show b + n - a = b - a + n by omega, Nat.add_mod_right, Nat.mod_eq_of_lt (by omega)] at h
    omega

theorem findSome?_three {α β : Type} (f : α → Option β) (a b c : α) :
    [a, b, c].findSome? f = (f a).or ((f b).or (f c)) := by
  simp only [List.findSome?_cons, List.findSome?_nil]
  cases f a <;> cases f b <;> cases f c <;> rfl

section
variable {s : State} {j nx ny nz me : ℕ} (hx : nx = s.fget pOgs F.OGS_COORD_XS + 1) (hy : ny = s.fget pOgs F.OGS_COORD_YS + 1)
  (hz : nz = s.fget pOgs F.OGS_COORD_ZS + 1) (hme : me = s.lid)
include hx hy hz hme

theorem State.routeTo_outside (h : nx * ny * nz ≤ j ∨ nx * ny * nz ≤ me) : s.routeTo j = none := by
  subst hx hy hz hme
  exact if_pos h

/-- The hop of the first dimension that has one. -/
theorem State.routeTo_inside (hj : j < nx * ny * nz) (hm : me < nx * ny * nz) : s.routeTo j =
    (ringHop nx (me % nx) (j % nx) 0 j).or ((ringHop ny (me / nx % ny) (j / nx % ny) 1 j).or
      (ringHop nz (me / nx / ny) (j / nx / ny) 2 j)) := by
  subst hx hy hz hme
  exact (if_neg (by omega)).trans (findSome?_three _ _ _ _)

end

/-- A module within the torus is known by its three positions. -/
theorem eq_of_positions {nx ny nz a b : ℕ} (ha : a < nx * ny * nz) (hb : b < nx * ny * nz)
    (hdx : (b % nx + nx - a % nx) % nx = 0) (hdy : (b / nx % ny + ny - a / nx % ny) % ny = 0)
    (hdz : (b / nx / ny + nz - a / nx / ny) % nz = 0) : b = a := by
  have hx : 0 < nx := Nat.pos_of_ne_zero fun h => by simp [h] at ha
  have hy : 0 < ny := Nat.pos_of_ne_zero fun h => by simp [h] at ha
  have hlt {c : ℕ} (hc : c < nx * ny * nz) : c / nx / ny < nz := by
    rw [Nat.div_div_eq_div_mul]
    exact Nat.div_lt_of_lt_mul hc
  have ex := eq_of_ring (Nat.mod_lt _ hx) (Nat.mod_lt _ hx) hdx
  have ey := eq_of_ring (Nat.mod_lt _ hy) (Nat.mod_lt _ hy) hdy
  have ez := eq_of_ring (hlt ha) (hlt hb) hdz
  calc b = nx * (ny * (b / nx / ny) + b / nx % ny) + b % nx := by rw [Nat.div_add_mod, Nat.div_add_mod]
    _ = nx * (ny * (a / nx / ny) + a / nx % ny) + a % nx := by rw [ex, ey, ez]
    _ = a := by rw [Nat.div_add_mod, Nat.div_add_mod]

end Sys2Proof.Machine

open Sys2Proof.Machine

/-- Settles O29: the writes are those of the OGS page; a route is the hop of the first dimension that has one. -/
theorem routeCommands : Obligations.RouteCommands := by
  unfold Obligations.RouteCommands
  refine ⟨fun s => ⟨fun rq hs hf => next_congr (routeGen_served hs hf), fun hf => ?_,
    fun p hs => next_congr (rtDataWrite_served hs rfl rfl), fun p hs => next_congr (modIdWrite_served hs)⟩,
    fun s j => ⟨State.routeTo_outside rfl rfl rfl rfl, fun hj hm => ?_⟩⟩
  · refine ⟨_, next_congr (routeFillDone_routes hf), rfl, fun j hj => ?_, rfl, rfl⟩
    rw [Tab.get_filterMap_keys, if_pos (List.mem_range.2 hj)]
  · rw [State.routeTo_inside rfl rfl rfl rfl hj hm]
    refine ⟨fun hdx => ?_, fun hdx hdy => ?_, fun hdx hdy hdz => ?_, fun hdx hdy hdz => ?_⟩
    · rw [Option.map_or, ringHop_port hdx]
      rfl
    · rw [ringHop_none hdx, Option.none_or, Option.map_or, ringHop_port hdy]
      rfl
    · rw [ringHop_none hdx, ringHop_none hdy, Option.none_or, Option.none_or, ringHop_port hdz]
    · rw [ringHop_none hdx, ringHop_none hdy, ringHop_none hdz]
      exact ⟨rfl, eq_of_positions hm hj hdx hdy hdz⟩
end

section
/-! SUPPORT. The lanes that training chooses, and a fabric port after its training (R299, R300, R545). -/

namespace Sys2Proof.Machine

/-! ### Masks of lanes -/

/-- A mask less its lanes in another is the mask and not the other. -/
theorem toNat_sub_and (m : BitVec 9) (b : ℕ) : m.toNat - (m.toNat &&& b) = (m &&& ~~~(BitVec.ofNat 9 b)).toNat := by
  have hand : m.toNat &&& b = (m &&& BitVec.ofNat 9 b).toNat := by
    refine Nat.eq_of_testBit_eq fun i => ?_
    rw [Nat.testBit_and, BitVec.testBit_toNat, BitVec.testBit_toNat, BitVec.getLsbD_and, BitVec.getLsbD_ofNat]
    by_cases hi : i < 9
    · simp [hi]
    · simp [m.getLsbD_of_ge i (by omega)]
  have hdisj : (m &&& BitVec.ofNat 9 b) &&& (m &&& ~~~(BitVec.ofNat 9 b)) = 0#9 := by
    ext i hi
    simp only [BitVec.getElem_and, BitVec.getElem_not, BitVec.getElem_zero]
    cases m[i] <;> cases (BitVec.ofNat 9 b)[i] <;> rfl
  have hsum := BitVec.toNat_add_of_and_eq_zero hdisj
  rw [BitVec.add_eq_or_of_and_eq_zero _ _ hdisj, ← BitVec.and_or_distrib_left, BitVec.or_not_self, BitVec.and_allOnes]
    at hsum
  omega

/-- The lanes of a mask that are not in another. -/
theorem testBit_sub_and {m : BitVec 9} {b l : ℕ} (h : (m.toNat - (m.toNat &&& b)).testBit l = true) :
    b.testBit l = false := by
  rw [toNat_sub_and, BitVec.testBit_toNat, BitVec.getLsbD_and, BitVec.getLsbD_not, BitVec.getLsbD_ofNat] at h
  simp only [Bool.and_eq_true, decide_eq_true_eq, Bool.not_eq_true', Bool.and_eq_false_imp] at h
  exact h.2.2 h.2.1

/-- The sum of the bits of an ascending list of lanes has no other bit. -/
theorem mem_of_testBit_sum {l : List ℕ} (hl : l.SortedLT) {i : ℕ}
    (h : (l.foldl (fun a k => a + 2 ^ k) 0).testBit i = true) : i ∈ l := by
  have hsum : l.foldl (fun a k => a + 2 ^ k) 0 = (l.map fun k => 2 ^ k).sum := by
    rw [List.sum_eq_foldl, List.foldl_map]
  rwa [hsum, ← Nat.mem_bitIndices, Nat.bitIndices_sum_map_two_pow hl] at h

theorem testBit_lowLanes {m w l : ℕ} (h : (lowLanes m w).testBit l = true) : m.testBit l = true := by
  have hsorted : (((List.range 9).filter fun l => m.testBit l).take w).SortedLT :=
    ((List.pairwise_lt_range.filter _).sublist (List.take_sublist _ _)).sortedLT
  exact (List.mem_filter.1 (List.mem_of_mem_take (mem_of_testBit_sum hsorted h))).2

/-! ### The choice (R300) -/

/-- Eight of the lanes of a mask at a rate, or its seven; none where it has fewer. -/
def pickLanes (m rate : ℕ) : Option (ℕ × ℕ × ℕ) :=
  if 8 ≤ popcount m then some (8, rate, lowLanes m 8) else if popcount m = 7 then some (7, rate, m) else none

theorem chooseLanes_eq (cap : Bool) (g224 g112 : ℕ) :
    chooseLanes cap g224 g112 = (if cap then none else pickLanes g224 2).or (pickLanes g112 1) := by
  show (match (if cap then none else pickLanes g224 2) with | some x => some x | none => pickLanes g112 1) = _
  cases (if cap then none else pickLanes g224 2) <;> rfl

theorem pickLanes_none {m : ℕ} (h : popcount m < 7) (rate : ℕ) : pickLanes m rate = none := by
  unfold pickLanes
  rw [if_neg (by omega), if_neg (by omega)]

theorem pickLanes_some {m : ℕ} (h : 7 ≤ popcount m) (rate : ℕ) :
    ∃ ls, pickLanes m rate = some (min 8 (popcount m), rate, ls) := by
  unfold pickLanes
  by_cases h8 : 8 ≤ popcount m
  · exact ⟨_, by rw [if_pos h8, Nat.min_eq_left h8]⟩
  · have h7 : popcount m = 7 := by omega
    exact ⟨_, by rw [h7]; rfl⟩

/-- Only lanes of the mask are picked. -/
theorem testBit_pickLanes {m rate l : ℕ} {x : ℕ × ℕ × ℕ} (h : pickLanes m rate = some x) (hl : x.2.2.testBit l = true) :
    m.testBit l = true := by
  unfold pickLanes at h
  split at h
  · exact testBit_lowLanes (by rwa [← Option.some.inj h] at hl)
  · split at h
    · rwa [← Option.some.inj h] at hl
    · exact absurd h (by simp)

theorem testBit_chooseLanes {cap : Bool} {g224 g112 l : ℕ} {x : ℕ × ℕ × ℕ} (h : chooseLanes cap g224 g112 = some x)
    (hl : x.2.2.testBit l = true) : g224.testBit l = true ∨ g112.testBit l = true := by
  rw [chooseLanes_eq, Option.or_eq_some_iff] at h
  rcases h with h | ⟨-, h⟩
  · cases cap
    · exact .inl (testBit_pickLanes h hl)
    · exact absurd h (by simp)
  · exact .inr (testBit_pickLanes h hl)

/-! ### The registers of a fabric port after the conditions of the module have been kept -/

/-- Registers outside the pages of CDM and OGS. -/
theorem State.reg_refreshDeg (s : State) {a : ℕ} (hcdm : a < pCdm ∨ pCdm + 0x4000 ≤ a)
    (hogs : a < pOgs ∨ pOgs + 0x4000 ≤ a) :
    s.refreshDeg.reg a = s.reg a := by
  have hdeg : F.CDM_DEG_BITS.off = 0x050 := rfl
  have hcfg : F.OGS_CFG_DEGRADED.off = 0x044 := rfl
  refine State.refreshDeg_keeps (part := fun s => s.reg a) (fun s v w => ?_) s
  generalize pCdm = c, pOgs = o at *
  have hevt : a < c ∨ c + 0x040 ≤ a := by omega
  have hne : a ≠ c + F.CDM_DEG_BITS.off ∧ a ≠ o + F.OGS_CFG_DEGRADED.off := by omega
  exact (State.reg_event_ne _ _ hevt).trans ((State.reg_fset_ne _ _ _ _ hne.2).trans (State.reg_fset_ne _ _ _ _ hne.1))

theorem State.reg_logRepair (s : State) (b i v c d : ℕ) {a : ℕ} (hcdm : a < pCdm ∨ pCdm + 0x4000 ≤ a) :
    (s.logRepair b i v c d).reg a = s.reg a := by
  refine State.logRepair_keeps (part := fun s => s.reg a) (fun _ _ => rfl) (fun s => ?_) s b i v c d
  generalize pCdm = c at *
  have hevt : a < c ∨ c + 0x040 ≤ a := by omega
  have hne : a ≠ c + 0x054 := by omega
  exact (State.reg_fset_ne _ _ _ _ hne).trans (s.reg_event_ne _ hevt)

/-- A fabric port's page lies outside those of CDM and OGS. -/
theorem pFp_outside (n : FpId) {o : ℕ} (ho : o < 0x4000) : pCdm + 0x4000 ≤ pFp n.val + o ∧ pFp n.val + o < pOgs := by
  have hfp : pFp n.val = 0x60000 + n.val * 0x4000 := rfl
  have hcdm : pCdm = 0x20000 := rfl
  have hogs : pOgs = 0xA0000 := rfl
  have hn := n.isLt
  omega

section
variable {s : State} (n : FpId)

/-- The state of a port, as it is set. -/
theorem State.fpState_setFp (h : s.regsOk) {st : ℕ} (hst : st < 8) : (s.setFp n.val st).fpState n.val = st := by
  obtain ⟨hcdm, hogs⟩ := pFp_outside n (o := 0x044) (by decide)
  unfold State.setFp
  split
  · assumption
  · have hset := s.fget_fset (pFp n.val) F.FP_LINK_STAT_STATE st h (by decide)
    rw [show st % 2 ^ (F.FP_LINK_STAT_STATE.hi + 1 - F.FP_LINK_STAT_STATE.lo) = st from Nat.mod_eq_of_lt hst] at hset
    refine Eq.trans ?_ hset
    refine congrArg (fun w => bits w 18 16) ((State.reg_refreshDeg _ (.inr hcdm) (.inl hogs)).trans ?_)
    exact State.reg_event_ne _ _ (.inr (Nat.le_add_right (pFp n.val + 0x040) 4))

/-- Its other fields keep their values. -/
theorem State.fget_setFp_ne (h : s.regsOk) (st : ℕ) {f : FRef} (ho : 0x040 ≤ f.off) (ho' : f.off < 0x4000)
    (hd : f.off ≠ 0x044 ∨ f.hi < 16 ∨ 18 < f.lo) : (s.setFp n.val st).fget (pFp n.val) f = s.fget (pFp n.val) f := by
  obtain ⟨hcdm, hogs⟩ := pFp_outside n ho'
  unfold State.setFp
  split
  · rfl
  · refine Eq.trans ?_ (s.fget_fset_ne (pFp n.val) F.FP_LINK_STAT_STATE f st h (by decide) hd)
    refine congrArg (fun w => bits w f.hi f.lo) ((State.reg_refreshDeg _ (.inr hcdm) (.inl hogs)).trans ?_)
    exact State.reg_event_ne _ _ (.inr (by omega))

end

theorem SameButLinks.regs {s t : State} (h : SameButLinks s t) : t.regs = s.regs := by rw [h]

/-! ### A port that failed its training, and one that trained -/

section
variable {s : State} (h : s.regsOk) (n : FpId)
include h

theorem State.fpFail_fields (good : ℕ) : (s.fpFail n.val good).fpState n.val = 4
    ∧ (s.fpFail n.val good).fget (pFp n.val) F.FP_LANE_MAP_ACTIVE = 0 := by
  have hlog : ((s.setLink n.val { s.link n.val with unacked := [] }).logEvent 0x000D n.val 2 0x0021 (1 + 2 ^ 32 * good)).regsOk :=
    State.regsOk_of_regs (State.logEvent_regs _ _ _ _ _ _) h
  have hrate := State.regsOk_fset (State.regsOk_fset hlog (pFp n.val) F.FP_LINK_STAT_WIDTH 0) (pFp n.val) F.FP_LINK_STAT_RATE 0
  have hactive := State.regsOk_fset hrate (pFp n.val) F.FP_LANE_MAP_ACTIVE 0
  refine ⟨State.fpState_setFp n hactive (by decide), ?_⟩
  exact (State.fget_setFp_ne n hactive 4 (by decide) (by decide) (by decide)).trans (State.fget_fset _ _ _ 0 hrate (by decide))

/-- A port that trained, before its state is set: its rate, width and lanes, and its peer. -/
def State.fpLanes (s : State) (n : ℕ) (t : TrainResult) (x : ℕ × ℕ × ℕ) : State :=
  (((s.fset (pFp n) F.FP_LINK_STAT_WIDTH x.1).fset (pFp n) F.FP_LINK_STAT_RATE x.2.1).fset (pFp n) F.FP_LANE_MAP_ACTIVE
    x.2.2).setReg (pFp n + 0x04C) (BitVec.ofNat 32 (2 ^ 31 + t.peerPort.val * 4096 + t.peerLid.toNat))

theorem State.regsOk_fpLanes (t : TrainResult) (x : ℕ × ℕ × ℕ) : (s.fpLanes n.val t x).regsOk :=
  State.regsOk_setReg (State.regsOk_fset (State.regsOk_fset (State.regsOk_fset h _ _ _) _ _ _) _ _ _) _ _

theorem State.fget_fpLanes (t : TrainResult) (x : ℕ × ℕ × ℕ) :
    (s.fpLanes n.val t x).fget (pFp n.val) F.FP_LINK_STAT_WIDTH = x.1 % 16
    ∧ (s.fpLanes n.val t x).fget (pFp n.val) F.FP_LINK_STAT_RATE = x.2.1 % 4
    ∧ (s.fpLanes n.val t x).fget (pFp n.val) F.FP_LANE_MAP_ACTIVE = x.2.2 % 512 := by
  have hw := State.regsOk_fset h (pFp n.val) F.FP_LINK_STAT_WIDTH x.1
  have hr := State.regsOk_fset hw (pFp n.val) F.FP_LINK_STAT_RATE x.2.1
  have hpeer {f : FRef} (hf : f.off ≠ 0x04C) : pFp n.val + f.off ≠ pFp n.val + 0x04C := by omega
  unfold State.fpLanes
  refine ⟨?_, ?_, ?_⟩
  · rw [State.fget_setReg_ne _ _ _ _ _ (hpeer (by decide)), State.fget_fset_ne _ _ _ _ _ hr (by decide) (by decide),
      State.fget_fset_ne _ _ _ _ _ hw (by decide) (by decide), State.fget_fset _ _ _ _ h (by decide)]
    rfl
  · rw [State.fget_setReg_ne _ _ _ _ _ (hpeer (by decide)), State.fget_fset_ne _ _ _ _ _ hr (by decide) (by decide),
      State.fget_fset _ _ _ _ hw (by decide)]
    rfl
  · rw [State.fget_setReg_ne _ _ _ _ _ (hpeer (by decide)), State.fget_fset _ _ _ _ hr (by decide)]
    rfl

end

section
variable {s : State} {n : FpId} {t : TrainResult}

/-- The lanes that passed at a rate and may be used: neither recorded as failed nor failed since the port was enabled. -/
def State.goodLanes (s : State) (n : ℕ) (m : BitVec 9) : ℕ :=
  m.toNat - (m.toNat &&& (s.badLanes n ||| s.fget (pFp n) F.FP_LANE_MAP_FAILED))

/-- What training chooses for a port. -/
def State.training (s : State) (n : ℕ) (t : TrainResult) : Option (ℕ × ℕ × ℕ) :=
  chooseLanes (s.fget (pFp n) F.FP_LINK_CTRL_RATE_CAP == 1) (s.goodLanes n t.pass224) (s.goodLanes n t.pass112)

theorem State.fpTrained_none (hc : s.training n.val t = none) :
    s.fpTrained n.val t = s.fpFail n.val (popcount (s.goodLanes n.val t.pass112)) := by
  unfold State.training State.goodLanes at hc
  unfold State.fpTrained
  simp only [hc]
  rfl

theorem State.fpTrained_some {x : ℕ × ℕ × ℕ} (hc : s.training n.val t = some x) :
    s.fpTrained n.val t = ((s.fpLanes n.val t x).setFp n.val 2).replayAll n.val := by
  unfold State.training State.goodLanes at hc
  unfold State.fpTrained
  simp only [hc]
  rfl

theorem State.fpTrained_fields (h : s.regsOk) {x : ℕ × ℕ × ℕ} (hc : s.training n.val t = some x) :
    (s.fpTrained n.val t).fpState n.val = 2
    ∧ (s.fpTrained n.val t).fget (pFp n.val) F.FP_LINK_STAT_WIDTH = x.1 % 16
    ∧ (s.fpTrained n.val t).fget (pFp n.val) F.FP_LINK_STAT_RATE = x.2.1 % 4
    ∧ (s.fpTrained n.val t).fget (pFp n.val) F.FP_LANE_MAP_ACTIVE = x.2.2 % 512 := by
  have hok := State.regsOk_fpLanes h n t x
  obtain ⟨hwidth, hrate, hactive⟩ := State.fget_fpLanes h n t x
  have hregs : ((s.fpLanes n.val t x).setFp n.val 2 |>.replayAll n.val).regs = ((s.fpLanes n.val t x).setFp n.val 2).regs :=
    (State.replayAll_same _ _).regs
  rw [State.fpTrained_some hc]
  refine ⟨(State.fget_of_regs hregs _ _).trans (State.fpState_setFp n hok (by decide)), ?_, ?_, ?_⟩
  · exact (State.fget_of_regs hregs _ _).trans
      ((State.fget_setFp_ne n hok 2 (by decide) (by decide) (by decide)).trans hwidth)
  · exact (State.fget_of_regs hregs _ _).trans
      ((State.fget_setFp_ne n hok 2 (by decide) (by decide) (by decide)).trans hrate)
  · exact (State.fget_of_regs hregs _ _).trans
      ((State.fget_setFp_ne n hok 2 (by decide) (by decide) (by decide)).trans hactive)

end

end Sys2Proof.Machine

open Sys2Proof.Machine

/-- Settles O51: a port trains at the first rate for which `pickLanes` finds lanes, and picks only lanes that are good. -/
theorem trainingChoosesLanes : Obligations.TrainingChoosesLanes := by
  unfold Obligations.TrainingChoosesLanes
  intro s n t h bad good cap u
  have hchoose : s.training n.val t
      = (if cap == 1 then none else pickLanes (good t.pass224) 2).or (pickLanes (good t.pass112) 1) :=
    chooseLanes_eq _ _ _
  have hslow (hc : cap = 1 ∨ popcount (good t.pass224) < 7) : s.training n.val t = pickLanes (good t.pass112) 1 := by
    rcases hc with hc | hc
    · rw [hchoose, hc]
      rfl
    · rw [hchoose, pickLanes_none hc, ite_self, Option.none_or]
  refine ⟨fun hcap h7 => ?_, fun hc h7 => ?_, fun hc h7 => ?_, fun l hl hon => ?_⟩
  · obtain ⟨ls, hpick⟩ := pickLanes_some h7 2
    obtain ⟨hst, hwidth, hrate, -⟩ := State.fpTrained_fields h
      (hchoose.trans (by rw [hcap, hpick]; rfl) : s.training n.val t = some _)
    exact ⟨hst, hrate, hwidth.trans (Nat.mod_eq_of_lt (by omega))⟩
  · obtain ⟨ls, hpick⟩ := pickLanes_some h7 1
    obtain ⟨hst, hwidth, hrate, -⟩ := State.fpTrained_fields h ((hslow hc).trans hpick)
    exact ⟨hst, hrate, hwidth.trans (Nat.mod_eq_of_lt (by omega))⟩
  · exact (congrArg (fun v => State.fpState v n.val) (State.fpTrained_none ((hslow hc).trans (pickLanes_none h7 1)))).trans
      (State.fpFail_fields h n _).1
  · cases hx : s.training n.val t with
    | none =>
      have hoff : u.fget (pFp n.val) F.FP_LANE_MAP_ACTIVE = 0 :=
        (congrArg (fun v => State.fget v (pFp n.val) F.FP_LANE_MAP_ACTIVE) (State.fpTrained_none hx)).trans
          (State.fpFail_fields h n _).2
      rw [hoff, Nat.zero_testBit] at hon
      exact absurd hon (by decide)
    | some x =>
      obtain ⟨-, -, -, hactive⟩ := State.fpTrained_fields h hx
      rw [hactive, Nat.testBit_mod_two_pow (j := 9), Bool.and_eq_true] at hon
      rcases testBit_chooseLanes hx hon.2 with hg | hg
      · exact testBit_sub_and hg
      · exact testBit_sub_and hg
end

section
/-! SUPPORT. A Clove message at the module that consumes it (R309, R310, R314, R349). -/

namespace Sys2Proof.Machine

section
variable {s : State} {a : Arrival} {kind : ℕ}

/-- A message whose slot does not hold its SEQ. -/
theorem State.cloveReceive_gone (h : s.cloveSlot (cloveMsg a.pkt.payload) = none) : s.cloveReceive a.pkt = (s, 4, 0x55) := by
  unfold State.cloveReceive
  dsimp only
  rw [h]

/-- What a kind of Clove message does, with the number of its kind. -/
inductive CloveEffect : ℕ → (State → ℕ → CloveMsg → State) → Prop
  | join : CloveEffect kJOIN State.cloveJoin
  | vote : CloveEffect kVOTE State.cloveVote
  | decide : CloveEffect kDECIDE fun s _ m => s.cloveDecide m
  | ack : CloveEffect kACK State.cloveAck
  | query : CloveEffect kQUERY State.cloveQuery

theorem State.cloveReceive_taken {f : State → ℕ → CloveMsg → State} {x : Slot} (hf : CloveEffect kind f)
    (hk : (cloveMsg a.pkt.payload).kind = kind) (h : s.cloveSlot (cloveMsg a.pkt.payload) = some x) :
    s.cloveReceive a.pkt = (f s a.pkt.src (cloveMsg a.pkt.payload), 0, 0) := by
  unfold State.cloveReceive
  dsimp only
  rw [h, hk]
  cases hf <;> rfl

/-- The three ends of a message of a kind: turned away, answered with reason 0x55, or taken. -/
theorem State.cloveArrive_cases {f : State → ℕ → CloveMsg → State} (hf : CloveEffect kind f) (hop : a.pkt.op = opMSG)
    (hcls : a.pkt.cls = 0) (hk : (cloveMsg a.pkt.payload).kind = kind) (hc : s.consumes a.pkt = true) :
    (∀ t, s.turnAway a = some t → s.cloveArrive a kind = t)
    ∧ (s.turnAway a = none → s.cloveSlot (cloveMsg a.pkt.payload) = none →
      s.cloveArrive a kind = (s.respond a.pkt 4 0x55 []).settle)
    ∧ (∀ x, s.turnAway a = none → s.cloveSlot (cloveMsg a.pkt.payload) = some x →
      s.cloveArrive a kind = ((f s a.pkt.src (cloveMsg a.pkt.payload)).respond a.pkt 0 0 []).settle) := by
  have hmine : ¬(a.pkt.op ≠ opMSG ∨ a.pkt.cls ≠ 0 ∨ (cloveMsg a.pkt.payload).kind ≠ kind
      ∨ (!s.consumes a.pkt) = true) := by
    simp [hop, hcls, hk, hc]
  unfold State.cloveArrive
  rw [if_neg hmine]
  refine ⟨fun t ht => by rw [ht], fun ht hs => ?_, fun x ht hs => ?_⟩
  · rw [ht, State.cloveReceive_gone hs]
  · rw [ht, State.cloveReceive_taken hf hk hs]

end

end Sys2Proof.Machine

open Sys2Proof Sys2Proof.Machine

/-- Settles O33: every kind is an effect of `CloveEffect`, and its message ends in one of the three ways. -/
theorem cloveMessages : Obligations.CloveMessages := by
  unfold Obligations.CloveMessages
  intro s a hop hcls hc m
  have hends {kind : ℕ} {f : State → ℕ → CloveMsg → State} {i : Arrival → Instr} (hf : CloveEffect kind f)
      (hi : exec (i a) s = .next (s.cloveArrive a kind)) (hkind : m.kind = kind) :
      (∀ t, s.turnAway a = some t → exec (i a) s = .next t)
      ∧ (s.turnAway a = none → s.cloveSlot m = none → exec (i a) s = .next (s.respond a.pkt 4 0x55 []).settle)
      ∧ (∀ x, s.turnAway a = none → s.cloveSlot m = some x →
        exec (i a) s = .next ((f s a.pkt.src m).respond a.pkt 0 0 []).settle) := by
    obtain ⟨haway, hgone, htaken⟩ := State.cloveArrive_cases hf hop hcls hkind hc
    exact ⟨fun t ht => hi.trans (next_congr (haway t ht)), fun ht hs => hi.trans (next_congr (hgone ht hs)),
      fun x ht hs => hi.trans (next_congr (htaken x ht hs))⟩
  simp only [List.forall_mem_cons]
  exact ⟨hends .join rfl, hends .vote rfl, hends (f := fun s _ m => s.cloveDecide m) .decide rfl, hends .ack rfl,
    hends .query rfl, fun _ hnil => absurd hnil List.not_mem_nil⟩
end

section
/-! SUPPORT. RD, WR and SIG at their target, what it turns away, and packets that pass through (R303, R304, R309, R310, R313,
R314, R321). -/

namespace Sys2Proof.Machine

/-! ### Requests that reach this module -/

section
variable {s : State} {a : Arrival}

/-- A request that the target takes is held or performed. -/
theorem State.arrive_taken {op : ℕ} (hop : a.pkt.op = op) (hc : s.consumes a.pkt = true) (ht : s.turnAway a = none) :
    s.arrive a op = if s.packetHeld a.pkt = true then { s with held := s.held ++ [.packet a] } else s.serve a.pkt := by
  unfold State.arrive
  rw [if_neg (by simp [hop, hc]), ht]

theorem State.arrive_turned {op : ℕ} {t : State} (hop : a.pkt.op = op) (hc : s.consumes a.pkt = true)
    (ht : s.turnAway a = some t) : s.arrive a op = t := by
  unfold State.arrive
  rw [if_neg (by simp [hop, hc]), ht]

theorem State.serve_rd (hop : a.pkt.op = opRD) : s.serve a.pkt
    = (s.serveRd a.pkt).st.respond a.pkt (s.serveRd a.pkt).status (s.serveRd a.pkt).detail (s.serveRd a.pkt).data := by
  unfold State.serve
  rw [if_pos hop]

theorem State.serve_wr (hop : a.pkt.op = opWR) : s.serve a.pkt
    = (s.serveWr a.pkt).st.respond a.pkt (s.serveWr a.pkt).status (s.serveWr a.pkt).detail (s.serveWr a.pkt).data := by
  unfold State.serve
  rw [if_neg (by rw [hop]; decide), if_pos hop]

theorem State.serve_sig (hop : a.pkt.op = opSIG) : s.serve a.pkt
    = (s.serveSig a.pkt).st.respond a.pkt (s.serveSig a.pkt).status (s.serveSig a.pkt).detail (s.serveSig a.pkt).data := by
  unfold State.serve
  rw [if_neg (by rw [hop]; decide), if_neg (by rw [hop]; decide)]

/-! ### What a target turns away -/

theorem State.turnAway_closed (h : s.fget pOgs F.OGS_CFG_ACCEPT = 0) (hr : toRegs a.pkt = false) :
    s.turnAway a = some (s.respond a.pkt 4 0x46 []) := if_pos ⟨h, by rw [hr]; rfl⟩

section
variable (h : s.fget pOgs F.OGS_CFG_ACCEPT = 1)
include h

theorem State.turnAway_noDepth (hcls : a.pkt.cls = 2) (hd : s.fget pOgs F.OGS_CFG_C2_DEPTH = 0) :
    s.turnAway a = some (s.respond a.pkt 4 0x44 []) := by
  unfold State.turnAway
  simp [h, hcls, hd]

theorem State.turnAway_nak (hcls : a.pkt.cls = 2) (hd : s.fget pOgs F.OGS_CFG_C2_DEPTH ≠ 0) (hq : 2048 ≤ s.queuedAt a) :
    s.turnAway a = some (s.sendAnswer (answer opNAK a.pkt s.lid 0 (min (s.queuedAt a) 65535) false [])) := by
  unfold State.turnAway
  simp [h, hcls, hd, hq]

theorem State.turnAway_c3 (hcls : a.pkt.cls = 3) (hq : 512 ≤ s.queuedAt a) :
    s.turnAway a = some (s.respond a.pkt 4 0x45 []) := by
  unfold State.turnAway
  simp [h, hcls, hq]

/-- A full queue of class C0 or C1 leaves the packet in the fabric (R313). -/
theorem State.turnAway_full (hq : (a.pkt.cls = 0 ∧ 256 ≤ s.queuedAt a) ∨ (a.pkt.cls = 1 ∧ 4096 ≤ s.queuedAt a)) :
    s.turnAway a = some s := by
  have hcls : a.pkt.cls ≠ 2 := by omega
  unfold State.turnAway
  simp [h, hcls, hq]

end

/-! ### PACKET_FORWARD -/

theorem packetForward_reserved (hop : a.pkt.op ∉ [1, 2, 3, 4, 8, 9]) :
    packetForward a s = s.finc (pFp a.port.val) F.FP_LINK_CNT0_CRC_ERR := by
  simp only [List.mem_cons, List.not_mem_nil, or_false, not_or] at hop
  obtain ⟨h1, h2, h3, h4, h8, h9⟩ := hop
  have hreq : ¬(1 ≤ a.pkt.op ∧ a.pkt.op ≤ 4) := by omega
  exact if_pos (by simp [hreq, opRSP, opNAK, h8, h9])

section
variable (hc : s.consumes a.pkt = false) (h1 : 1 ≤ a.pkt.op) (h4 : a.pkt.op ≤ 4)
include hc h1 h4

theorem packetForward_noRoute (hr : s.egress a.pkt.dst = none) : packetForward a s = s.respond a.pkt 4 0x40 [] := by
  unfold packetForward
  simp [hc, h1, h4, hr]

/-- A request for another module goes on while HOP_MAX allows one more link (R304). -/
theorem packetForward_route {port : ℕ} (hr : s.egress a.pkt.dst = some port) : packetForward a s =
    if a.pkt.hops + 1 ≤ s.fget pOgs F.OGS_CFG_HOP_MAX then s.toPort port a.pkt.hop else s.respond a.pkt 4 0x41 [] := by
  have hreq : decide (1 ≤ a.pkt.op ∧ a.pkt.op ≤ 4) = true := decide_eq_true ⟨h1, h4⟩
  unfold packetForward
  simp only [hreq, hc, hr, gt_iff_lt, ← Nat.not_le, ite_not]
  rfl

end

end

end Sys2Proof.Machine

open Sys2Proof.Machine

/-- Settles O55: a request that is taken is held or performed, and one that is turned away is answered by the branch of
`turnAway` that its conditions take. -/
theorem fabricTarget : Obligations.FabricTarget := by
  unfold Obligations.FabricTarget
  refine ⟨fun s a => ⟨fun hc ht => ⟨fun hop => ?_, fun hop => ?_, fun hop => ?_⟩, fun hop => ?_, fun hc h1 h4 =>
    ⟨fun hr => ?_, fun port hr => ?_⟩⟩, fun s a hc => ⟨fun h0 hr => ⟨fun hop => ?_, fun hop => ?_⟩, fun h1 hop =>
    ⟨fun hcls hd => ?_, fun hcls hd hq => ?_, fun hcls hq => ?_, fun hq => ?_⟩⟩⟩
  · exact next_congr ((State.arrive_taken hop hc ht).trans (by rw [State.serve_rd hop]))
  · exact next_settle_congr ((State.arrive_taken hop hc ht).trans (by rw [State.serve_wr hop]))
  · exact next_congr ((State.arrive_taken hop hc ht).trans (by rw [State.serve_sig hop]))
  · exact next_congr (packetForward_reserved hop)
  · exact next_congr (packetForward_noRoute hc h1 h4 hr)
  · exact next_congr (packetForward_route hc h1 h4 hr)
  · exact next_congr (State.arrive_turned hop hc (State.turnAway_closed h0 hr))
  · exact next_congr (State.arrive_turned hop hc (State.turnAway_closed h0 hr))
  · exact next_congr (State.arrive_turned hop hc (State.turnAway_noDepth h1 hcls hd))
  · exact next_congr (State.arrive_turned hop hc (State.turnAway_nak h1 hcls hd hq))
  · exact next_congr (State.arrive_turned hop hc (State.turnAway_c3 h1 hcls hq))
  · exact next_congr (State.arrive_turned hop hc (State.turnAway_full h1 hq))
end

section
/-! SUPPORT. Answers, resends, admission and timeouts at the source of a request (R314 to R317, R320, R326). -/

namespace Sys2Proof.Machine

section
variable {s : State}

/-! ### Answers -/

section
variable {a : Arrival} {gen : Fin 16} {r : Req}

theorem rsp_matched (hop : a.pkt.op = opRSP) (hm : s.matchReq a.pkt gen.val = some r) : rsp a gen s
    = s.endReq r (tableStatus a.pkt.status) a.pkt.detail a.pkt.degraded (if a.pkt.status = 0 then a.pkt.payload else []) := by
  unfold rsp
  dsimp only
  rw [if_neg (not_not_intro hop), hm]

/-- An answer that comes too late is counted where the module consumes it. -/
theorem rsp_late (hop : a.pkt.op = opRSP) (hm : s.matchReq a.pkt gen.val = none) (hc : s.consumes a.pkt = true) :
    rsp a gen s = s.finc pOgs F.OGS_ADM_CNT2_LATE_RSP := by
  unfold rsp
  dsimp only
  rw [if_neg (not_not_intro hop), hm]
  exact if_pos hc

theorem fabNak_matched (hop : a.pkt.op = opNAK) (hm : s.matchReq a.pkt gen.val = some r) (hcls : r.cls = 2) :
    fabNak a gen s = (if r.delayed = true then s else s.finc pOgs F.OGS_ADM_CNT0_C2_HELD).modReq r fun r =>
      { r with phase := .naked a.pkt.detail, delayed := true } := by
  unfold fabNak
  dsimp only
  rw [if_neg (not_not_intro hop), hm]
  exact if_neg (not_not_intro hcls)

end

/-! ### A NAKed request sent again, and the class C2 requests whose delay ran out -/

section
variable {tag : Fin 262144} {r : Req} {port : ℕ}

theorem c2Resend_sent
    (hf : (s.fab.reqs.find? fun r => r.tag == tag.val && (match r.phase with | .naked _ => true | _ => false)) = some r)
    (hen : s.fget pOgs F.OGS_CFG_EN ≠ 0) (he : s.egress r.dst = some port) (hh : 1 ≤ s.fget pOgs F.OGS_CFG_HOP_MAX) :
    c2Resend tag s = (s.modReq r fun r => { r with phase := .resent (match r.phase with | .naked d => d | _ => 0) }).toPort port
      (reqPacket r.op r.cls r.len r.tag r.src r.dst r.off r.txn r.data).hop := by
  unfold c2Resend
  split
  case h_1 hnone => exact absurd (hnone.symm.trans hf) (by simp)
  case h_2 q hsome =>
    obtain rfl : q = r := Option.some.inj (hsome.symm.trans hf)
    rw [if_neg hen, he]
    exact if_neg (Nat.not_lt.2 hh)

theorem requestTimeout_ends (hto : s.fget pOgs ⟨0x05C, 23, 0⟩ ≠ 0)
    (hf : (s.fab.reqs.find? fun r => r.tag == tag.val && (match r.phase with | .admitted | .resent _ => true | _ => false))
      = some r) :
    requestTimeout tag s = (s.finc pOgs F.OGS_ADM_CNT2_TIMEOUTS).endReq r 9 0 false [] := by
  unfold requestTimeout
  rw [if_neg hto]
  split
  case h_1 q hsome =>
    obtain rfl : q = r := Option.some.inj (hsome.symm.trans hf)
    rfl
  case h_2 hnone => exact absurd (hnone.symm.trans hf) (by simp)

end

/-- The hint of a class C2 request that ends by its delay (R317): the requests ahead of it at its tracker, the depth that a
NAK told, or a free value. -/
def State.retryHint (s : State) (r : Req) : ℕ :=
  match r.phase with
  | .naked d => 32768 + min d 32767
  | .resent d => 32768 + min d 32767
  | .waiting => min ((s.fab.reqs.takeWhile fun x => x != r).filter fun x => x.cls == 2 && !x.holds).length 32767
  | .admitted => (Config.freeWord s.freeCtr).toNat % 65536

theorem c2Timeout_ends {k : ℕ} {r : Req} (hk : s.heldC2[k]? = some r) :
    c2Timeout k s = (s.draw.2.finc pOgs F.OGS_ADM_CNT1_C2_RETRY).endReq r 3 (s.retryHint r) false [] := by
  unfold c2Timeout State.retryHint
  rw [hk]
  rfl

/-! ### Admission -/

section
variable {cls : Fin 4} {r : Req} (hf : (s.fab.reqs.find? fun r => r.cls == cls.val && !r.holds) = some r)
  (hu : s.inUse cls.val < classEntries cls.val)
include hf hu

/-- The oldest request that waits takes the entry. -/
theorem trackerAdmit_granted (hg : ((s.dropReq fun x => x == r).grant r).2 = none) :
    trackerAdmit cls s = ((s.dropReq fun x => x == r).grant r).1 := by
  unfold trackerAdmit
  rw [hf]
  dsimp only
  rw [if_neg (Nat.not_le.2 hu), ← Prod.eta ((s.dropReq fun x => x == r).grant r), hg]

/-- It ends at once where it has no route, no hop or no way out (R304, R331). -/
theorem trackerAdmit_ended {f : ℕ × ℕ} (hg : ((s.dropReq fun x => x == r).grant r).2 = some f) :
    trackerAdmit cls s = ((s.dropReq fun x => x == r).grant r).1.reqEnd r f.1 f.2 false [] := by
  unfold trackerAdmit
  rw [hf]
  dsimp only
  rw [if_neg (Nat.not_le.2 hu), ← Prod.eta ((s.dropReq fun x => x == r).grant r), hg]

end

end

end Sys2Proof.Machine

open Sys2Proof.Machine

/-- Settles O56: each command is read off the branch that its hypotheses take. -/
theorem fabricSource : Obligations.FabricSource := by
  unfold Obligations.FabricSource
  refine fun s => ⟨fun a gen hop => ⟨fun r hm => ?_, fun hm hc => ?_⟩, fun a gen r hop hm hcls => ?_,
    fun tag r port hf hen he hh => ?_, fun cls r hf hu => ?_, fun tag r hto hf => ?_, fun k r hk => ⟨fun hp => ?_,
    fun d hp => ?_, fun _ => ⟨s.retryHint r, ?_⟩⟩⟩
  · exact next_settle_congr (rsp_matched hop hm)
  · exact next_settle_congr (rsp_late hop hm hc)
  · exact next_settle_congr (fabNak_matched hop hm hcls)
  · exact next_settle_congr (c2Resend_sent hf hen he hh)
  · intro u
    cases hg : u.2 with
    | none => exact next_settle_congr (trackerAdmit_granted hf hu hg)
    | some f => exact next_settle_congr (trackerAdmit_ended hf hu hg)
  · exact next_settle_congr (requestTimeout_ends hto hf)
  · refine next_settle_congr ((c2Timeout_ends hk).trans ?_)
    rw [State.retryHint, hp]
  · refine next_settle_congr ((c2Timeout_ends hk).trans ?_)
    rcases hp with hp | hp <;> rw [State.retryHint, hp]
  · exact next_settle_congr (c2Timeout_ends hk)
end

section
/-! SUPPORT. The layout of a flit, and the flits that carry a packet (R297, R302). -/

namespace Sys2Proof.Machine

/-! ### Runs of bytes cut into pieces -/

theorem length_of_mem_cutAt {g f a : ℕ} {bs : List Byte} {x : ℕ × List Byte} (h : x ∈ cutAt g f a bs) :
    x.2.length ≤ g := by
  induction f generalizing a bs with
  | zero => exact absurd h List.not_mem_nil
  | succ f ih =>
    unfold cutAt at h
    split at h
    · exact absurd h List.not_mem_nil
    · rcases List.mem_cons.1 h with rfl | h
      · exact (List.length_take_le _ _).trans (Nat.sub_le _ _)
      · exact ih h

/-- With fuel enough, the pieces of a run that begins at a multiple of the unit are the run, in order. -/
theorem flatMap_cutAt {g f a : ℕ} {bs : List Byte} (ha : a % g = 0) (hf : bs.length ≤ f * g) :
    (cutAt g f a bs).flatMap (·.2) = bs := by
  induction f generalizing a bs with
  | zero =>
    rw [List.eq_nil_of_length_eq_zero (l := bs) (by omega)]
    rfl
  | succ f ih =>
    unfold cutAt
    split
    · next he => exact (List.isEmpty_iff.1 he).symm
    · have hnext : (a + g) % g = 0 := by rw [Nat.add_mod_right, ha]
      have hrest : (bs.drop g).length ≤ f * g := by
        rw [List.length_drop]
        rw [Nat.succ_mul] at hf
        omega
      simp only [ha, Nat.sub_zero, List.flatMap_cons, ih hnext hrest, List.take_append_drop]

/-! ### The flits of a packet -/

theorem length_packetBytes (p : Packet) : p.bytes.length = 16 + p.payload.length := by
  simp only [Packet.bytes, List.length_append, leBytes_length]

theorem flatMap_flits {p : Packet} (h : p.payload.length ≤ 256) : p.flits.flatMap (·.2) = p.bytes := by
  unfold Packet.flits
  rw [List.flatMap_map]
  exact flatMap_cutAt rfl (by rw [length_packetBytes]; omega)

theorem length_of_mem_flits {p : Packet} {x : Option Packet × List Byte} (h : x ∈ p.flits) : x.2.length ≤ 240 := by
  obtain ⟨c, hc, rfl⟩ := List.mem_map.1 h
  exact length_of_mem_cutAt hc

/-! ### The control word -/

theorem flitWord_lt (seq ack credit : ℕ) : flitWord seq ack credit < 2 ^ 32 := by
  unfold flitWord
  omega

theorem flitWord_fields {seq ack credit : ℕ} (hs : seq < 4096) (ha : ack < 4096) (hc : credit < 256) :
    nbits (flitWord seq ack credit) 31 20 = seq ∧ nbits (flitWord seq ack credit) 19 8 = ack
    ∧ nbits (flitWord seq ack credit) 7 0 = credit := by
  simp only [nbits, flitWord, Nat.shiftRight_eq_div_pow]
  omega

/-! ### The layout -/

theorem field_four (a b : List Byte) {n v : ℕ} (ha : a.length = n) (hv : v < 2 ^ 32) :
    field (a ++ (leBytes 4 v ++ b)) n 4 = v := by
  unfold field
  rw [List.drop_left' ha, List.take_left' (leBytes_length 4 v), leNat_leBytes, Nat.mod_eq_of_lt (show v < 256 ^ 4 from hv)]

section
variable {body : List Byte} (hb : body.length = 240) (ctrl : ℕ)

/-- Bytes 0 to 243 of a flit, of which its CRC is formed. -/
def flitHead (body : List Byte) (ctrl : ℕ) : List Byte := body ++ leBytes 4 ctrl

/-- Bytes 0 to 247 of a flit, of which its check symbols are formed. -/
def flitCoded (body : List Byte) (ctrl : ℕ) : List Byte :=
  flitHead body ctrl ++ leBytes 4 (Config.crc32 (flitHead body ctrl)).toNat

theorem flitBytes_eq : flitBytes body ctrl = flitCoded body ctrl ++ flitCheck (flitCoded body ctrl) := rfl

theorem length_flitCheck (bs : List Byte) : (flitCheck bs).length = 8 := rfl

include hb

theorem length_flitHead : (flitHead body ctrl).length = 244 := by
  rw [flitHead, List.length_append, hb, leBytes_length]

theorem length_flitCoded : (flitCoded body ctrl).length = 248 := by
  rw [flitCoded, List.length_append, length_flitHead hb, leBytes_length]

theorem take_flitBytes_head : (flitBytes body ctrl).take 244 = flitHead body ctrl := by
  rw [flitBytes_eq, flitCoded, List.append_assoc, List.take_left' (length_flitHead hb ctrl)]

theorem take_flitBytes_coded : (flitBytes body ctrl).take 248 = flitCoded body ctrl := by
  rw [flitBytes_eq, List.take_left' (length_flitCoded hb ctrl)]

theorem flitBytes_body : (flitBytes body ctrl).take 240 = body := by
  rw [flitBytes_eq, flitCoded, flitHead, List.append_assoc, List.append_assoc, List.take_left' hb]

theorem flitBytes_ctrl (hc : ctrl < 2 ^ 32) : field (flitBytes body ctrl) 240 4 = ctrl := by
  rw [flitBytes_eq, flitCoded, flitHead, List.append_assoc, List.append_assoc]
  exact field_four _ _ hb hc

/-- The fields of the control word, as they stand in the flit. -/
theorem flitBytes_ctrl_fields {seq ack credit : ℕ} (hs : seq < 4096) (ha : ack < 4096) (hc : credit < 256) {w : Word}
    (hw : w = BitVec.ofNat 32 (field (flitBytes body (flitWord seq ack credit)) 240 4)) :
    bits w 31 20 = seq ∧ bits w 19 8 = ack ∧ bits w 7 0 = credit := by
  have hctrl := flitWord_lt seq ack credit
  have hword : w.toNat = flitWord seq ack credit := by
    rw [hw, flitBytes_ctrl hb _ hctrl, BitVec.toNat_ofNat, Nat.mod_eq_of_lt hctrl]
  unfold bits
  rw [hword]
  exact flitWord_fields hs ha hc

theorem flitBytes_crc : field (flitBytes body ctrl) 244 4 = (Config.crc32 ((flitBytes body ctrl).take 244)).toNat := by
  rw [take_flitBytes_head hb, flitBytes_eq, flitCoded, List.append_assoc]
  exact field_four _ _ (length_flitHead hb ctrl) (BitVec.isLt _)

theorem flitBytes_check : (flitBytes body ctrl).drop 248 = flitCheck ((flitBytes body ctrl).take 248) := by
  rw [take_flitBytes_coded hb, flitBytes_eq, List.drop_left' (length_flitCoded hb ctrl)]

theorem length_flitBytes : (flitBytes body ctrl).length = 256 := by
  rw [flitBytes_eq, List.length_append, length_flitCoded hb, length_flitCheck]

end

end Sys2Proof.Machine
end

section
/-! SUPPORT. Fabric ports and their lanes, received flits, and site and host links, command by command (R298 to R300, R332,
R436, R437, R474). -/

namespace Sys2Proof.Machine

/-! ### LINK_CTRL (R300) -/

/-- The word of LINK_CTRL written. -/
def State.linkCtrl (s : State) (n : FpId) (v : ℕ) : State :=
  s.setReg (pFp n.val + 0x040) (viewPut 0 (s.reg (pFp n.val + 0x040)) (BitVec.ofNat 32 v) 3 0xFFFFFFFF)

theorem and_beMask_all (v : Word) : v &&& beMask 0xF = v := by
  rw [beMask_all]
  exact BitVec.and_allOnes

theorem State.en_linkCtrl {s : State} (h : s.regsOk) (n : FpId) {v : ℕ} (hv : v < 4) :
    (s.linkCtrl n v).fget (pFp n.val) F.FP_LINK_CTRL_EN = v % 2 := by
  have hword := viewPut_low (mask := 3) (hi := 1) (by decide) (by decide) (s.reg (pFp n.val + 0x040)) (BitVec.ofNat 32 v)
    (BitVec.ofNat 32 v) fun _ _ => rfl
  rw [and_beMask_all, beMask_all] at hword
  have hreg : (s.linkCtrl n v).reg (pFp n.val + 0x040) = setBits (s.reg (pFp n.val + 0x040)) 1 0 (BitVec.ofNat 32 v).toNat :=
    (State.reg_setReg s _ _ h).trans hword
  show bits ((s.linkCtrl n v).reg (pFp n.val + 0x040)) 0 0 = v % 2
  rw [hreg, bits_zero, bit_setBits _ _ _ _ _ (by decide) (by decide), if_pos (by decide), BitVec.toNat_ofNat]
  interval_cases v <;> rfl

/-- LINK_CTRL of a port, through the normal view. -/
def linkCtrlReg (n : FpId) : RegAt := ⟨.fp, n.val, n.val, pFp n.val, 0x040, 0⟩

theorem State.plainWrite_linkCtrl (s : State) (n : FpId) (v : ℕ) :
    s.plainWrite (linkCtrlReg n) (BitVec.ofNat 32 v &&& beMask 0xF) (beMask 0xF) = s.linkCtrl n v := by
  obtain ⟨hrw, hw1c, hrws⟩ : accMask (Block.fp.fieldsAt 0x040) .rw = 3 ∧ accMask (Block.fp.fieldsAt 0x040) .w1c = 0
      ∧ accMask (Block.fp.fieldsAt 0x040) .rws = 0 := by decide
  rw [and_beMask_all, beMask_all]
  exact s.plainWrite_rw (linkCtrlReg n) _ _ 3 hrw hw1c hrws

/-- A write of LINK_CTRL takes effect by the EN that it leaves. -/
theorem State.writeLoc_linkCtrl {s t : State} {n : FpId} {m en : Word} (ht : s.plainWrite (linkCtrlReg n) m en = t)
    (rq : Requester) (a : ℕ) :
    s.writeLoc rq (linkCtrlReg n) a m en = (t.fpCtrl n.val (t.fget (pFp n.val) F.FP_LINK_CTRL_EN), true) := by
  subst ht
  unfold State.writeLoc
  rw [s.headerWrite_none _ _ _ le_rfl]
  rfl

theorem State.putWord_linkCtrl {s : State} (h : s.regsOk) {n : FpId} {rq : Requester} (hs : s.serves rq (pFp n.val + 0x040))
    {v : ℕ} (hv : v < 4) :
    s.putWord (pFp n.val + 0x040) rq (BitVec.ofNat 32 v) = ((s.linkCtrl n v).fpCtrl n.val (v % 2)).settle := by
  have hpage : 0x4000 ≤ Block.fp.page n.val := by
    show 0x4000 ≤ 0x60000 + n.val * 0x4000
    omega
  rw [State.putWord_eq_put, ← State.en_linkCtrl h n hv]
  exact State.put_page (b := .fp) (i := n.val) (by decide) (by decide) hpage n.isLt (by decide) (by decide) rfl
    (by rwa [put_addr_normal]) (State.writeLoc_linkCtrl (s.plainWrite_linkCtrl n v) rq _)

/-! ### The end of a training, and a lane that fails (R299, R300) -/

section
variable {s : State} {n : FpId}

theorem portTraining_ends (h : s.fpState n.val = 1) (t : TrainResult) : portTraining n t s = s.fpTrained n.val t := if_pos h

theorem trainingTimeout_ends (h : s.fpState n.val = 1) : trainingTimeout n s = s.fpFail n.val 0 := if_pos h

theorem retrainDone_ends (h : s.fpState n.val = 3) (t : TrainResult) : retrainDone n t s = s.fpTrained n.val t := if_pos h

theorem retrainTimeout_ends (h : s.fpState n.val = 3) : retrainTimeout n s = s.fpFail n.val 0 := if_pos h

/-- A port whose lane failed, before its state is set. -/
def State.laneLost (s : State) (n : FpId) (lane : Fin 9) : State :=
  let u := s.logRepair 0x000D n.val 1 0x0020 lane.val
  let v := u.fset (pFp n.val) F.FP_LANE_MAP_FAILED (u.fget (pFp n.val) F.FP_LANE_MAP_FAILED ||| 2 ^ lane.val)
  (v.fset (pFp n.val) F.FP_LANE_MAP_ACTIVE (v.fget (pFp n.val) F.FP_LANE_MAP_ACTIVE - 2 ^ lane.val)).finc (pFp n.val)
    F.FP_LINK_CNT1_RETRAINS

variable {lane : Fin 9}

theorem laneFailure_active (hst : s.fpState n.val = 2)
    (hl : (s.fget (pFp n.val) F.FP_LANE_MAP_ACTIVE).testBit lane.val = true) :
    laneFailure n lane s = (s.laneLost n lane).setFp n.val 3 := if_neg (by simp [hst, hl])

theorem testBit_sub_pow {m i : ℕ} (h : m.testBit i = true) : (m - 2 ^ i).testBit i = false := by
  have hge : 2 ^ i ≤ m := Nat.ge_two_pow_of_testBit h
  have hbit := Nat.testBit_two_pow_add_eq (m - 2 ^ i) i
  rw [Nat.add_sub_cancel' hge, h] at hbit
  simpa using hbit.symm

theorem State.regsOk_laneLost (h : s.regsOk) : (s.laneLost n lane).regsOk :=
  State.regsOk_fset (State.regsOk_fset (State.regsOk_fset (State.regsOk_logRepair h _ _ _ _ _) _ _ _) _ _ _) _ _ _

theorem State.lanes_laneLost (h : s.regsOk) (hl : (s.fget (pFp n.val) F.FP_LANE_MAP_ACTIVE).testBit lane.val = true) :
    ((s.laneLost n lane).fget (pFp n.val) F.FP_LANE_MAP_FAILED).testBit lane.val = true
    ∧ ((s.laneLost n lane).fget (pFp n.val) F.FP_LANE_MAP_ACTIVE).testBit lane.val = false := by
  have hu := State.regsOk_logRepair h 0x000D n.val 1 0x0020 lane.val
  have hv (m : ℕ) := State.regsOk_fset hu (pFp n.val) F.FP_LANE_MAP_FAILED m
  have hw (m k : ℕ) := State.regsOk_fset (hv m) (pFp n.val) F.FP_LANE_MAP_ACTIVE k
  have hlog : (s.logRepair 0x000D n.val 1 0x0020 lane.val).fget (pFp n.val) F.FP_LANE_MAP_ACTIVE
      = s.fget (pFp n.val) F.FP_LANE_MAP_ACTIVE :=
    congrArg (fun w => bits w 24 16) (s.reg_logRepair _ _ _ _ _ (.inr (pFp_outside n (by decide)).1))
  unfold State.laneLost State.finc
  refine ⟨?_, ?_⟩
  · rw [State.fget_fset_ne _ _ _ _ _ (hw _ _) (by decide) (by decide),
      State.fget_fset_ne _ _ _ _ _ (hv _) (by decide) (by decide), State.fget_fset _ _ _ _ hu (by decide)]
    exact (Nat.testBit_mod_two_pow _ 9 _).trans (by simp [lane.isLt])
  · rw [State.fget_fset_ne _ _ _ _ _ (hw _ _) (by decide) (by decide), State.fget_fset _ _ _ _ (hv _) (by decide),
      State.fget_fset_ne _ _ _ _ _ hu (by decide) (by decide), hlog]
    exact (Nat.testBit_mod_two_pow _ 9 _).trans (by rw [testBit_sub_pow hl, Bool.and_false])

theorem laneFailure_fields (h : s.regsOk) (hst : s.fpState n.val = 2)
    (hl : (s.fget (pFp n.val) F.FP_LANE_MAP_ACTIVE).testBit lane.val = true) :
    (laneFailure n lane s).fpState n.val = 3
    ∧ ((laneFailure n lane s).fget (pFp n.val) F.FP_LANE_MAP_FAILED).testBit lane.val = true
    ∧ ((laneFailure n lane s).fget (pFp n.val) F.FP_LANE_MAP_ACTIVE).testBit lane.val = false := by
  have hok := State.regsOk_laneLost (n := n) (lane := lane) h
  rw [laneFailure_active hst hl]
  refine ⟨State.fpState_setFp n hok (by decide), ?_⟩
  rw [State.fget_setFp_ne n hok 3 (by decide) (by decide) (by decide),
    State.fget_setFp_ne n hok 3 (by decide) (by decide) (by decide)]
  exact State.lanes_laneLost h hl

end

/-! ### FLIT_RECEIVE (R298) -/

section
variable {s u : State} {n : FpId} {f : FlitRx}

/-- An ACTIVE port counts corrected symbols, then goes by the CRC. -/
theorem flitReceive_active (hst : s.fpState n.val = 2)
    (hu : u = if f.corrected = true then s.finc (pFp n.val) F.FP_LINK_CNT1_FEC_CORR else s) :
    (f.crcOk = true → flitReceive n f s = u.flitTake n.val f)
    ∧ (f.crcOk = false → ∀ v, v = u.finc (pFp n.val) F.FP_LINK_CNT0_CRC_ERR → flitReceive n f s =
      if (v.link n.val).discarding = true then v
      else ((v.setLink n.val { v.link n.val with discarding := true }).finc (pFp n.val) F.FP_LINK_CNT0_REPLAYS).send
        (.replay n.val (v.link n.val).rxNext)) := by
  subst hu
  refine ⟨fun hc => ?_, fun hc v hv => ?_⟩
  · exact (if_neg (not_not_intro hst)).trans (if_pos hc)
  · subst hv
    exact (if_neg (not_not_intro hst)).trans (if_neg (by simp [hc]))

theorem State.flitTake_other (h : f.seq ≠ (s.link n.val).rxNext) : s.flitTake n.val f = s := if_pos h

/-- The next flit in order frees what it acknowledges, and brings the peer's replay request. -/
theorem State.flitTake_next (h : f.seq = (s.link n.val).rxNext) {ok : State}
    (hok : ok = s.setLink n.val ({ s.link n.val with rxNext := ((s.link n.val).rxNext + 1) % 4096, discarding := false }.acked
      f.ackSeq)) :
    (f.replay = none → s.flitTake n.val f = ok.pump n.val)
    ∧ (∀ k, f.replay = some k → s.flitTake n.val f = (ok.replayFrom n.val k.val).pump n.val) := by
  subst hok
  unfold State.flitTake
  rw [if_neg (not_not_intro h)]
  exact ⟨fun hr => by rw [hr], fun k hr => by rw [hr]⟩

end

/-! ### Site and host links (R436, R437, R474) -/

/-- The RATE of a port that trains at a SPEED: 1.6 Tb/s, 800 Gb/s or 400 Gb/s (R414, R436). -/
def rateOfSpeed : ℕ → Fin 4
  | 0 => 3
  | 1 => 2
  | _ => 1

theorem State.siteRate_eq (s : State) (n : ℕ) : s.siteRate n = (rateOfSpeed (s.fget (pSite n) F.SITE_LINK_CTRL_SPEED)).val := by
  unfold State.siteRate
  rcases s.fget (pSite n) F.SITE_LINK_CTRL_SPEED with _ | _ | v
  · rfl
  · rfl
  · show 3 - min 2 (v + 2) = 1
    omega

section
variable {s : State}

theorem siteLinkUp_training {n : SiteId} (hst : s.fget (pSite n.val) F.SITE_LINK_STAT_STATE = 1) {rate : Fin 4}
    (hr : s.siteRate n.val = rate.val) (r : Fin 4) :
    siteLinkUp n r s = if r = rate then s.setSite n.val 2 r.val else s := by
  unfold siteLinkUp
  simp only [hst, hr, true_and, Fin.ext_iff]

theorem siteLinkFailed_training {n : SiteId} (hst : s.fget (pSite n.val) F.SITE_LINK_STAT_STATE = 1) :
    siteLinkFailed n s = s.setSite n.val 3 0 := if_pos hst

theorem hostLinkChange_enabled {p : HostPort} (hon : s.hostOn p = true) (hp : s.powered = true)
    (hr : s.boot.perst.testBit (HostPort.ix p) = false) (l : HostLink) : hostLinkChange p l s = s.setHostLink p l :=
  if_neg (by simp [hon, hp, hr])

/-- The value of LINK_STAT for a link. -/
def linkStat (l : HostLink) : ℕ := if l.up = true then l.width % 32 * 2 ^ 16 + l.rate % 16 * 2 ^ 8 + 1 else 0

theorem State.setHostLink_eq (s : State) (p : HostPort) (l : HostLink) : s.setHostLink p l =
    if (s.reg (pHp p + 0x040)).toNat = linkStat l then s
    else ((s.setReg (pHp p + 0x040) (BitVec.ofNat 32 (linkStat l))).event (pHp p) F.HP_PG_EVT_LINK).refreshDeg := rfl

@[simp] theorem State.refreshDeg_cores (s : State) : s.refreshDeg.cores = s.cores :=
  State.refreshDeg_keeps (fun _ _ _ => State.event_cores _ _ _) s

theorem State.setHostLink_rest (p : HostPort) (l : HostLink) :
    (s.setHostLink p l).mem = s.mem ∧ (s.setHostLink p l).cores = s.cores := by
  rw [State.setHostLink_eq]
  split
  · exact ⟨rfl, rfl⟩
  · simp

theorem State.reg_setHostLink (h : s.regsOk) (p : HostPort) (l : HostLink) :
    (s.setHostLink p l).reg (pHp p + 0x040) = BitVec.ofNat 32 (linkStat l) := by
  have hlow : pHp p + 0x040 < pCdm ∧ pHp p + 0x040 < pOgs := by cases p <;> decide
  rw [State.setHostLink_eq]
  split
  · next he => rw [← he, BitVec.ofNat_toNat, BitVec.setWidth_eq]
  · rw [State.reg_refreshDeg _ (.inl hlow.1) (.inl hlow.2), State.reg_event_ne _ _ (.inr le_rfl), State.reg_setReg _ _ _ h]

end

end Sys2Proof.Machine

open Sys2Proof Sys2Proof.Machine

/-- Settles O50: each command is read off the branch that its hypotheses take; a flit is laid out by `flitBytes_eq`, and the
flits of a packet are the pieces of its bytes. -/
theorem linkCommands : Obligations.LinkCommands := by
  unfold Obligations.LinkCommands
  refine ⟨fun s n h => ⟨fun rq cap hs => ⟨?_, ?_⟩, fun hst => ⟨fun t => ?_, ?_⟩, fun hst => ⟨fun t => ?_, ?_⟩,
    fun lane hst hl => ?_⟩, fun s n f hst => ?_, ⟨fun body seq ack credit hb hs ha hc => ?_, fun p hp => ?_⟩,
    fun s h => ⟨fun n hst => ⟨fun r => ?_, ?_⟩, fun p l hon hp hr => ?_⟩⟩
  · have hput := State.putWord_linkCtrl h hs (v := 2 * b2n cap + 1) (by cases cap <;> decide)
    rw [show (2 * b2n cap + 1) % 2 = 1 by omega] at hput
    exact next_congr hput
  · have hput := State.putWord_linkCtrl h hs (v := 2 * b2n cap) (by cases cap <;> decide)
    rw [Nat.mul_mod_right] at hput
    exact next_congr hput
  · exact next_congr (portTraining_ends hst t)
  · exact next_congr (trainingTimeout_ends hst)
  · exact next_congr (retrainDone_ends hst t)
  · exact next_congr (retrainTimeout_ends hst)
  · exact ⟨_, rfl, laneFailure_fields h hst hl⟩
  · intro p u v l ok
    obtain ⟨hgood, hbad⟩ := flitReceive_active (f := f) hst (u := u) rfl
    refine ⟨fun hc hq => ?_, fun hc hq hr => ?_, fun k hc hq hr => ?_, fun hc hd => ?_, fun hc hd => ?_⟩
    · exact next_congr ((hgood hc).trans (State.flitTake_other hq))
    · exact next_congr ((hgood hc).trans ((State.flitTake_next hq rfl).1 hr))
    · exact next_congr ((hgood hc).trans ((State.flitTake_next hq rfl).2 k hr))
    · exact next_congr ((hbad hc v rfl).trans (if_pos hd))
    · exact next_congr ((hbad hc v rfl).trans (if_neg (by rw [hd]; decide)))
  · obtain ⟨hseq, hack, hcredit⟩ := flitBytes_ctrl_fields hb hs ha hc rfl
    exact ⟨length_flitBytes hb _, flitBytes_body hb _, hseq, hack, hcredit, flitBytes_crc hb _, flitBytes_check hb _⟩
  · exact ⟨flatMap_flits hp, fun x hx => length_of_mem_flits hx⟩
  · exact next_congr (siteLinkUp_training hst (s.siteRate_eq n.val) r)
  · exact next_congr (siteLinkFailed_training hst)
  · obtain ⟨hmem, hcores⟩ := State.setHostLink_rest (s := s) p l
    refine ⟨_, next_congr (hostLinkChange_enabled hon hp hr l), ?_, hmem, hcores⟩
    rw [State.reg_setHostLink h, linkStat, apply_ite (BitVec.ofNat 32)]
    rfl
end

section
/-! SUPPORT. Which operations leave the transaction slots alone: accesses to memory, completion records, requests and the
outcome of a step. -/

namespace Sys2Proof.Machine

section
variable (s : State)

/-! ### Accesses to memory -/

@[simp] theorem State.candidate_slots (n row : ℕ) : (s.candidate n row).slots = s.slots := by
  unfold State.candidate
  split <;> rfl

@[simp] theorem State.rowCe_slots (n row : ℕ) : (s.rowCe n row).slots = s.slots := by
  obtain ⟨rows, h | h⟩ := s.rowCe_cases n row <;> rw [h]
  · rfl
  · rw [State.candidate_slots, State.event_slots, State.modHbmc_slots]

@[simp] theorem State.hbmCe_slots (x : ℕ) : (s.hbmCe x).slots = s.slots := by simp [State.hbmCe]

@[simp] theorem State.countUePc_slots (n pc : ℕ) : (s.countUePc n pc).slots = s.slots := by
  unfold State.countUePc
  dsimp only
  split <;> simp

@[simp] theorem State.hbmUe_slots (x : ℕ) (capture : Bool) : (s.hbmUe x capture).slots = s.slots := by
  unfold State.hbmUe
  dsimp only
  rw [State.countUePc_slots, State.candidate_slots, State.logEvent_slots, apply_ite State.slots, State.setReg_slots,
    State.setReg_slots, ite_self, State.event_slots, State.finc_slots]

@[simp] theorem State.wakePc_slots (x : ℕ) : (s.wakePc x).slots = s.slots := State.wakePc_keeps (fun _ _ _ => rfl) s x

@[simp] theorem State.hbmWrite_slots (x : ℕ) (bs : List Byte) : (s.hbmWrite x bs).st.slots = s.slots := by
  unfold State.hbmWrite
  split
  · rfl
  · dsimp only
    rw [foldl_keeps State.slots fun t k => t.hbmUe_slots k true, foldl_keeps State.slots fun t k => t.hbmCe_slots k]
    exact s.wakePc_slots x

@[simp] theorem State.spWrite_slots (ph x : ℕ) (bs : List Byte) : (s.spWrite ph x bs).st.slots = s.slots :=
  ((State.WritesWithin.refl ph [(x, bs.length)] s).sput ⟨_, List.mem_singleton.2 rfl, le_refl _, le_refl _⟩).slots

@[simp] theorem State.memWrite1_slots (off : ℕ) (bs : List Byte) : (s.memWrite1 off bs).st.slots = s.slots := by
  unfold State.memWrite1
  split <;> simp

@[simp] theorem State.memWrite_slots (off : ℕ) (bs : List Byte) : (s.memWrite off bs).st.slots = s.slots := by
  unfold State.memWrite
  exact foldl_keeps (fun r : Res => r.st.slots) (by intro r c; exact r.st.memWrite1_slots _ _) _ _

/-! ### Completion records -/

@[simp] theorem State.ringWrite_slots (ph : ℕ) (lo hi : Word) (off : ℕ) (bs : List Byte) :
    (s.ringWrite ph lo hi off bs).slots = s.slots := by
  unfold State.ringWrite
  split <;> simp

@[simp] theorem State.putRecord_slots (ph idx ty tag : ℕ) (r : Rec) : (s.putRecord ph idx ty tag r).slots = s.slots :=
  s.draw.2.ringWrite_slots _ _ _ _ _

@[simp] theorem State.signal_slots (ph k n : ℕ) : (s.signal ph k n).slots = s.slots := by
  unfold State.signal State.signalNow
  dsimp only
  split
  · rfl
  · split <;> rfl

@[simp] theorem State.recordFor_slots (ph idx : ℕ) (w : List Word) (r : Rec) : (s.recordFor ph idx w r).slots = s.slots := by
  unfold State.recordFor
  simp only [apply_ite State.slots, State.event_slots, State.signal_slots, State.modCore_slots, State.inc64_slots,
    State.putRecord_slots, ite_self]

@[simp] theorem State.complete_slots (ph : ℕ) (e : Infl) (r : Rec) : (s.complete ph e r).slots = s.slots := by
  unfold State.complete
  split
  · rfl
  · rw [State.recordFor_slots, State.modCore_slots]

/-! ### Requests -/

theorem SameButLinks.slots {s t : State} (h : SameButLinks s t) : t.slots = s.slots := by
  unfold SameButLinks at h
  rw [h]

@[simp] theorem State.grant_slots (r : Req) : (s.grant r).1.slots = s.slots := by
  unfold State.grant
  dsimp only
  split
  · rfl
  · split
    · rfl
    · split
      · rfl
      · exact (State.toPort_same _ _ _).slots

@[simp] theorem State.captureFail_slots (status detail part cls core dst : ℕ) :
    (s.captureFail status detail part cls core dst).slots = s.slots := by
  unfold State.captureFail
  split
  · rfl
  · rw [State.setReg_slots, State.setReg_slots]

@[simp] theorem State.captureOwner_slots (o : Owner) (cls dst : ℕ) (f : ℕ × ℕ) : (s.captureOwner o cls dst f).slots = s.slots := by
  unfold State.captureOwner
  split <;> simp

@[simp] theorem State.reachTracker_slots (r : Req) (more : Bool) : (s.reachTracker r more).1.slots = s.slots := by
  unfold State.reachTracker
  split
  · rfl
  · split
    · exact s.grant_slots r
    · split
      · rfl
      · exact (apply_ite State.slots _ _ _).trans (ite_self _)
      · split <;> rfl
      · rfl

@[simp] theorem State.requestNow_slots (op cls g len : ℕ) (data : List Byte) (txn : Option ℕ) (owner : Owner) :
    (s.requestNow op cls g len data txn owner).1.slots = s.slots := by
  unfold State.requestNow
  dsimp only
  split
  · rfl
  · split
    · rfl
    · split
      · rfl
      · exact s.reachTracker_slots _ _

@[simp] theorem State.request_slots (op cls g len : ℕ) (data : List Byte) (txn : Option ℕ) (owner : Owner) :
    (s.request op cls g len data txn owner).1.slots = s.slots := by
  unfold State.request
  dsimp only
  split <;> simp

@[simp] theorem State.cloveSend_slots (n lid kind code : ℕ) : (s.cloveSend n lid kind code).slots = s.slots :=
  s.request_slots _ _ _ _ _ _ _

/-! ### What a decision does besides -/

@[simp] theorem State.expStep_slots (d : ℤ) : (s.expStep d).1.slots = s.slots := (s.expOnly_expStep d).rest.2.2

@[simp] theorem State.stepOutcome_slots (o : Outcome4) : (s.stepOutcome o).slots = s.slots := by
  cases o with
  | committed => exact s.nextVersion.expOnly_growExp.rest.2.2
  | skipped => exact State.expStep_slots (s.fset pGctl F.GCTL_STEP_STAT_OPEN 0) (-1)
  | aborted => rfl
  | conflict => rfl

@[simp] theorem State.countEnd_slots (o : Outcome4) : (s.countEnd o).slots = s.slots := by
  unfold State.countEnd
  split <;> rfl

@[simp] theorem State.detachAll_slots (n : ℕ) : (s.detachAll n).slots = s.slots :=
  foldl_keeps State.slots (fun t _ => (apply_ite State.slots _ (t.setCore _ _) t).trans (ite_self _)) _ _

end

end Sys2Proof.Machine
end

section
/-! SUPPORT. What a transaction slot holds while the others, and what is not a slot, are changed; a LOCAL transaction that
prepares (R342 to R347). -/

namespace Sys2Proof.Machine

/-- Slot n reads y, and the table of the slots is in order. -/
structure State.HoldsSlot (s : State) (n : ℕ) (y : Slot) : Prop where
  slot : s.slot n = y
  rising : Tab.rising s.slots = true

namespace State.HoldsSlot

variable {s t : State} {n : ℕ} {y : Slot}

theorem of_slots (h : s.HoldsSlot n y) (ht : t.slots = s.slots := by rfl) : t.HoldsSlot n y where
  slot := (congrArg (Tab.get Slot.init n) ht).trans h.slot
  rising := (congrArg Tab.rising ht).trans h.rising

theorem setSlot (h : s.HoldsSlot n y) (x : Slot) : (s.setSlot n x).HoldsSlot n x :=
  ⟨Tab.get_set_self _ _ _ _ h.rising, Tab.rising_set _ _ _ _ h.rising⟩

theorem modSlot (h : s.HoldsSlot n y) (f : Slot → Slot) : (s.modSlot n f).HoldsSlot n (f y) := by
  rw [← h.slot]
  exact h.setSlot _

theorem ite {c : Prop} [Decidable c] (hs : s.HoldsSlot n y) (ht : t.HoldsSlot n y) :
    (if c then s else t).HoldsSlot n y := by
  split
  · exact hs
  · exact ht

theorem foldl {β : Type} {f : State → β → State} {l : List β} (h : s.HoldsSlot n y)
    (hf : ∀ u x, u.HoldsSlot n y → (f u x).HoldsSlot n y) : (l.foldl f s).HoldsSlot n y := by
  induction l generalizing s with
  | nil => exact h
  | cons x l ih => exact ih (hf s x h)

/-! ### Another slot changes -/

section
variable {m : ℕ} (hm : n ≠ m)
include hm

theorem setSlot_ne (h : s.HoldsSlot n y) (x : Slot) : (s.setSlot m x).HoldsSlot n y :=
  ⟨(Tab.get_set_ne _ _ hm _ _).trans h.slot, Tab.rising_set _ _ _ _ h.rising⟩

theorem modSlot_ne (h : s.HoldsSlot n y) (f : Slot → Slot) : (s.modSlot m f).HoldsSlot n y := h.setSlot_ne hm _

theorem slotFree_ne (h : s.HoldsSlot n y) : (s.slotFree m).HoldsSlot n y := by
  have hfree := h.setSlot_ne hm { s.slot m with st := .free, waiter := none, log := [] }
  unfold State.slotFree
  dsimp only
  split
  · split
    · exact hfree.of_slots (State.complete_slots _ _ _ _)
    · exact hfree
  · exact hfree

theorem applyDecision_ne (h : s.HoldsSlot n y) (o : Outcome4) : (s.applyDecision m o).HoldsSlot n y := by
  unfold State.applyDecision
  extract_lets x outcome ended
  have hout (t : State) (ht : t.HoldsSlot n y) : (outcome t).HoldsSlot n y := by
    have hcount : ((t.modSlot m fun x => { x with outcome := some o }).countEnd o).HoldsSlot n y :=
      (ht.modSlot_ne hm _).of_slots (State.countEnd_slots _ _)
    exact .ite (hcount.of_slots (State.stepOutcome_slots _ _)) hcount
  have hend (t : State) (ht : t.HoldsSlot n y) : (ended t).HoldsSlot n y := .ite (ht.slotFree_ne hm) ht
  clear_value outcome ended
  split
  · exact .ite h (hend _ (hout _ ((h.modSlot_ne hm _).of_slots (State.detachAll_slots _ _))))
  · exact .ite (hout _ (h.modSlot_ne hm _)) ((hout _ (h.modSlot_ne hm _)).slotFree_ne hm)
  · exact .ite h (hend _ (hout _ h))
  · exact h

theorem decideOutcome_ne (h : s.HoldsSlot n y) (o : Outcome4) : (s.decideOutcome m o).HoldsSlot n y :=
  ((h.foldl fun _ _ hu => hu.of_slots (State.cloveSend_slots _ _ _ _ _)).modSlot_ne hm _).applyDecision_ne hm o

theorem tryDecide_ne (h : s.HoldsSlot n y) : (s.tryDecide m).HoldsSlot n y :=
  .ite h (.ite ((h.setSlot_ne hm _).decideOutcome_ne hm _) (.ite ((h.setSlot_ne hm _).decideOutcome_ne hm _)
    (.ite (h.decideOutcome_ne hm _) (.ite (h.decideOutcome_ne hm _) h))))

theorem castVote_ne (h : s.HoldsSlot n y) (code : ℕ) : (s.castVote m code).HoldsSlot n y :=
  .ite ((h.modSlot_ne hm _).tryDecide_ne hm) ((h.modSlot_ne hm _).of_slots (State.cloveSend_slots _ _ _ _ _))

theorem slotAbort_ne (h : s.HoldsSlot n y) (cause : ℕ) : (s.slotAbort m cause).HoldsSlot n y := by
  have hended : ((s.modSlot m fun x => { x.withCause cause with st := .ended, log := [] }).detachAll m).HoldsSlot n y :=
    (h.modSlot_ne hm _).of_slots (State.detachAll_slots _ _)
  unfold State.slotAbort
  refine .ite h (State.HoldsSlot.castVote_ne hm (.ite ?_ hended) _)
  exact (hended.of_slots (State.finc_slots _ _ _ _)).of_slots (State.event_slots _ _ _)

end

end State.HoldsSlot

/-! ### A LOCAL transaction without a step -/

/-- A slot is PREPARED and locks, and its cores are detached (R343). -/
def State.slotPrepared (s : State) (n : ℕ) : State := (s.modSlot n fun x => { x with st := .prepared }).detachAll n

/-- Every other OPEN slot that holds an entry for a burst or register of the log takes cause CONFLICT (R345). -/
def State.conflictOthers (s : State) (n : ℕ) (log : List LogEntry) : State :=
  (List.range 16).foldl (fun s m =>
    let y := s.slot m
    if m ≠ n ∧ y.st = .opened ∧ (y.log.any fun a => log.any fun b => s.meets a b) then s.slotAbort m 3 else s) s

theorem State.HoldsSlot.conflictOthers {s : State} {n : ℕ} {y : Slot} (h : s.HoldsSlot n y) (log : List LogEntry) :
    (s.conflictOthers n log).HoldsSlot n y := by
  refine h.foldl fun t m ht => ?_
  dsimp only
  split
  · next hc => exact ht.slotAbort_ne hc.1.symm 3
  · exact ht

theorem State.prepareNow_votes {s : State} {n : ℕ} (hst : (s.slot n).st = .opened) (hd : s.attachedDone n = true)
    (hstep : (s.slot n).step = false) :
    s.prepareNow n = ((s.slotPrepared n).conflictOthers n (s.slot n).log).castVote n voteCommit := by
  unfold State.prepareNow
  simp only [hst, hd, hstep]
  rfl

/-- A slot of a LOCAL transaction that is PREPARED, with no one joined and no outcome (R346). -/
structure Slot.LocalPrepared (y : Slot) : Prop where
  st : y.st = .prepared
  hall : y.hall = false
  isCoord : y.isCoord = true
  step : y.step = false
  outcome : y.outcome = none
  joined : y.joined = []
  joins : y.joins ≤ y.members

section
variable {s : State} {n : ℕ} {y : Slot}

/-- With the module's own vote to commit the transaction is decided (R346). -/
theorem State.tryDecide_local (h : s.HoldsSlot n y) (hy : y.LocalPrepared) (hv : y.voted = some voteCommit) :
    s.tryDecide n = s.decideOutcome n .committed := by
  have hagree : y.disagree = false := by simp [Slot.disagree, hy.step]
  have hcommits : y.commits = 1 := by simp [Slot.commits, hy.joined, hv, b2n]
  unfold State.tryDecide
  simp [h.slot, hy.isCoord, hy.outcome, hy.st, hy.joins, hagree, hy.joined, hv, hy.hall, hcommits]

theorem State.applyDecision_committed (hst : (s.slot n).st = .prepared) (hstep : (s.slot n).step = false) :
    s.applyDecision n .committed = ((s.modSlot n fun x => { x with st := .applying }).modSlot n fun x =>
      { x with outcome := some .committed }).countEnd .committed := by
  unfold State.applyDecision
  simp only [hst, hstep, if_true, Bool.false_eq_true, if_false]

theorem State.HoldsSlot.applyDecision_committed (h : s.HoldsSlot n y) (hst : y.st = .prepared) (hstep : y.step = false) :
    (s.applyDecision n .committed).HoldsSlot n { y with st := .applying, outcome := some .committed } := by
  rw [State.applyDecision_committed (h.slot ▸ hst) (h.slot ▸ hstep)]
  exact ((h.modSlot fun x => { x with st := .applying }).modSlot fun x =>
    { x with outcome := some .committed }).of_slots (State.countEnd_slots _ _)

/-- With no one joined the decision is told to no one (R347). -/
theorem State.HoldsSlot.decideOutcome_alone (h : s.HoldsSlot n y) (hj : y.joined = []) (hst : y.st = .prepared)
    (hstep : y.step = false) :
    (s.decideOutcome n .committed).HoldsSlot n { y with st := .applying, outcome := some .committed } := by
  have hsent := h.modSlot fun x => { x with joined := x.joined.map fun m => if m.joined then { m with sends := 1 } else m }
  have hquiet : ({ y with joined := y.joined.map fun m => if m.joined then { m with sends := 1 } else m } : Slot) = y := by
    rw [hj, List.map_nil, ← hj]
  have hdecide : s.decideOutcome n .committed = (s.modSlot n fun x =>
      { x with joined := x.joined.map fun m => if m.joined then { m with sends := 1 } else m }).applyDecision n .committed := by
    unfold State.decideOutcome
    rw [h.slot, hj]
    rfl
  rw [hquiet] at hsent
  rw [hdecide]
  exact hsent.applyDecision_committed hst hstep

theorem State.HoldsSlot.castVote_local (h : s.HoldsSlot n y) (hy : y.LocalPrepared) :
    (s.castVote n voteCommit).HoldsSlot n { y with
      st := .applying, outcome := some .committed, voted := some voteCommit, stepWords := s.stepWords } := by
  have hvoted := h.modSlot fun x => { x with voted := some voteCommit, stepWords := s.stepWords }
  have hlocal : ({ y with voted := some voteCommit, stepWords := s.stepWords } : Slot).LocalPrepared := { hy with }
  unfold State.castVote
  dsimp only
  rw [hvoted.slot, if_pos hlocal.isCoord, State.tryDecide_local hvoted hlocal rfl]
  exact hvoted.decideOutcome_alone hy.joined hy.st hy.step

end

end Sys2Proof.Machine

open Sys2Proof.Machine

/-- Settles O31: the slots that conflict are others (`slotAbort_ne`), so the module's own vote is the only one, and it
decides. -/
theorem localCommitDecidesAtOnce : Obligations.LocalCommitDecidesAtOnce := by
  unfold Obligations.LocalCommitDecidesAtOnce
  intro s n ht _ x hst hhall hco hstep _ _ hout hj hjoins hd
  have hx : s.HoldsSlot n x := ⟨rfl, ht.2.1⟩
  have hprepared : (s.slotPrepared n).HoldsSlot n { x with st := .prepared } :=
    (hx.modSlot fun x => { x with st := .prepared }).of_slots (State.detachAll_slots _ _)
  have hfinal := (hprepared.conflictOthers x.log).castVote_local ⟨rfl, hhall, hco, hstep, hout, hj, hjoins⟩
  dsimp only
  rw [State.prepareNow_votes hst hd hstep, hfinal.slot]
  exact ⟨rfl, rfl, rfl, rfl⟩
end

section
/-! SUPPORT. The Clove messages at a slot that holds their SEQ, and the order in which votes decide (R346, R347, R349 to
R351). -/

namespace Sys2Proof.Machine

/-! ### The first entry that satisfies a test -/

theorem modFirst_append_new {α : Type} {p : α → Bool} {a : α} (f : α → α) {l : List α} (hl : l.any p = false) (ha : p a = true) :
    modFirst p f (l ++ [a]) = l ++ [f a] := by
  induction l with
  | nil => exact if_pos ha
  | cons b l ih =>
    rw [List.any_cons, Bool.or_eq_false_iff] at hl
    obtain ⟨hb, hrest⟩ := hl
    rw [List.cons_append, modFirst, hb, if_neg Bool.false_ne_true, ih hrest, List.cons_append]

/-- A module listed once has acknowledged after its ACK. -/
theorem acked_of_mem_modFirst {lid : ℕ} {js : List Member} (hn : (js.map (·.lid)).Nodup) {j : Member} (hl : j.lid = lid)
    (hj : j ∈ modFirst (fun j => j.lid == lid) (fun j => { j with acked := true }) js) : j.acked = true := by
  induction js with
  | nil => exact absurd hj List.not_mem_nil
  | cons a js ih =>
    rw [List.map_cons, List.nodup_cons] at hn
    obtain ⟨hfresh, hn⟩ := hn
    rw [modFirst] at hj
    split at hj
    next ha =>
      rcases List.mem_cons.1 hj with rfl | hmem
      · rfl
      · refine absurd (List.mem_map_of_mem (f := (·.lid)) hmem) ?_
        rwa [hl, ← beq_iff_eq.1 ha]
    next ha =>
      rcases List.mem_cons.1 hj with rfl | hmem
      · exact absurd (beq_iff_eq.2 hl) ha
      · exact ih hn hmem

section
variable {s : State} {lid : ℕ} {m : CloveMsg} {o : Outcome4}

/-! ### JOIN, DECIDE, ACK and QUERY -/

/-- The coordinator's slot after the first JOIN of a module, which is sent the decision (R346, R350). -/
def Slot.toldJoin (x : Slot) (lid : ℕ) : Slot :=
  { x with joins := x.joins + 1, joined := x.joined ++ [⟨lid, true, none, (0, 0, 0), false, 1⟩] }

theorem State.cloveJoin_decided (hco : (s.slot m.slot).isCoord = true) (hhall : (s.slot m.slot).hall = true)
    (ho : (s.slot m.slot).outcome = some o) (hnew : ((s.slot m.slot).joined.any fun j => j.lid == lid) = false) :
    s.cloveJoin lid m
      = (s.setSlot m.slot ((s.slot m.slot).toldJoin lid)).cloveSend m.slot lid kDECIDE o.code := by
  have hknown : ((s.slot m.slot).joined.any fun j => j.lid == lid && j.joined) = false := by
    rw [List.any_eq_false] at hnew ⊢
    exact fun j hj h => hnew j hj (Bool.and_eq_true_iff.1 h).1
  have hheard : (s.slot m.slot).heard lid
      = { s.slot m.slot with joined := (s.slot m.slot).joined ++ [⟨lid, false, none, (0, 0, 0), false, 0⟩] } := if_neg (by simp [hnew])
  have hjoined := modFirst_append_new (a := ⟨lid, false, none, (0, 0, 0), false, 0⟩)
    (fun j => { j with joined := true, sends := b2n (some o).isSome }) hnew (beq_self_eq_true lid)
  unfold State.cloveJoin
  simp only [hco, hhall, hknown, hheard, ho, Bool.not_true, Bool.or_self, Bool.false_eq_true, if_false, hjoined,
    Slot.toldJoin]
  rfl

/-- Does a slot take a decision (R342)? -/
theorem Slot.takes_iff (x : Slot) (o : Outcome4) : x.takes o = true
    ↔ x.st = .prepared ∨ x.st = .ended ∨ x.st = .free ∨ (x.st = .opened ∧ o ≠ .committed) := by
  unfold Slot.takes
  cases x.st <;> simp

theorem State.cloveDecide_eq (hco : (s.slot m.slot).isCoord = false) (ho : outcomeOf m.code = some o) :
    s.cloveDecide m = if (s.slot m.slot).takes o = true then
      (s.applyDecision m.slot o).cloveSend m.slot (s.slot m.slot).coord kACK 0 else s := by
  unfold State.cloveDecide
  by_cases ht : (s.slot m.slot).takes o = true <;> simp [ho, hco, ht]

theorem State.HoldsSlot.cloveAck {y : Slot} (h : s.HoldsSlot m.slot y) (lid : ℕ) : (s.cloveAck lid m).HoldsSlot m.slot
    { y with joined := modFirst (fun j => j.lid == lid) (fun j => { j with acked := true }) y.joined } := h.modSlot _

theorem State.acked_cloveAck (ht : Tab.rising s.slots = true) (hn : ((s.slot m.slot).joined.map (·.lid)).Nodup) {j : Member}
    (hj : j ∈ ((s.cloveAck lid m).slot m.slot).joined) (hl : j.lid = lid) : j.acked = true := by
  have hslot := (State.HoldsSlot.cloveAck (m := m) ⟨rfl, ht⟩ lid).slot
  rw [hslot] at hj
  exact acked_of_mem_modFirst hn hl hj

theorem State.cloveQuery_decided (hco : (s.slot m.slot).isCoord = true) (ho : (s.slot m.slot).outcome = some o) :
    s.cloveQuery lid m = s.cloveSend m.slot lid kDECIDE o.code := by
  unfold State.cloveQuery
  simp only [ho, hco, if_true]

/-! ### VOTE -/

theorem otherCauses_getD_mem (k : ℕ) : otherCauses.getD (k % 8) 2 ∈ otherCauses := by
  have hk : k % 8 < otherCauses.length := Nat.mod_lt k (by decide)
  rw [List.getD_eq_getElem _ _ hk]
  exact List.getElem_mem hk

/-- A coordinator's slot with the vote of a module, the first that it sent (R346). -/
def Slot.withVote (x : Slot) (lid : ℕ) (m : CloveMsg) : Slot :=
  { x.heard lid with
    joined := modFirst (fun j => j.lid == lid) (fun j => if j.vote.isSome then j else
      { j with vote := some m.code, stepWords := m.step }) (x.heard lid).joined }

/-- The cause that a vote to abort stands for (R355). -/
def voteCause (code free : ℕ) : ℕ :=
  if code = voteNumeric then 1 else if code = voteConflict then 3 else otherCauses.getD (free % 8) 2

section
variable (hco : (s.slot m.slot).isCoord = true) (ho : (s.slot m.slot).outcome = none)
include hco ho

/-- A vote of a known code counts (R349). -/
theorem State.cloveVote_live (hm : m.code ≤ 3) :
    ¬ (!(s.slot m.slot).isCoord || (s.slot m.slot).outcome.isSome || decide (m.code > 3)) = true := by
  simp [hco, ho, hm]

theorem State.cloveVote_commit (hc : m.code = voteCommit) :
    s.cloveVote lid m = (s.setSlot m.slot ((s.slot m.slot).withVote lid m)).tryDecide m.slot := by
  unfold State.cloveVote
  dsimp only
  rw [if_neg (State.cloveVote_live hco ho (hc.trans_le (by decide))), if_neg (hc.trans_ne (by decide)), if_pos hc]
  rfl

/-- A vote to abort gives the slot its cause, if it has none. -/
theorem State.cloveVote_abort (hle : m.code ≤ 3) (hc : m.code ≠ voteCommit) :
    s.cloveVote lid m = (let r := if m.code = voteOther then s.draw else (0, s)
      let cause := voteCause m.code (Config.freeWord r.1).toNat
      (r.2.setSlot m.slot (((s.slot m.slot).withCause cause).withVote lid m)).tryDecide m.slot) := by
  unfold State.cloveVote
  dsimp only
  rw [if_neg (State.cloveVote_live hco ho hle)]
  simp only [if_neg hc]
  rfl

/-- A vote of numeric cause or of a conflict names its cause. -/
theorem State.cloveVote_named {c : ℕ} (hc : (m.code, c) ∈ [(voteNumeric, 1), (voteConflict, 3)]) :
    s.cloveVote lid m = (s.setSlot m.slot (((s.slot m.slot).withCause c).withVote lid m)).tryDecide m.slot := by
  simp only [List.mem_cons, Prod.mk.injEq, List.not_mem_nil, or_false] at hc
  obtain ⟨hm, rfl⟩ | ⟨hm, rfl⟩ := hc
  · rw [State.cloveVote_abort hco ho (hm.trans_le (by decide)) (hm.trans_ne (by decide)), hm]
    rfl
  · rw [State.cloveVote_abort hco ho (hm.trans_le (by decide)) (hm.trans_ne (by decide)), hm]
    rfl

/-- The cause of any other vote is a free one of those that it may stand for (R355). -/
theorem State.cloveVote_other (hc : m.code = voteOther) : ∃ c ∈ otherCauses,
    s.cloveVote lid m = (s.draw.2.setSlot m.slot (((s.slot m.slot).withCause c).withVote lid m)).tryDecide m.slot := by
  refine ⟨_, otherCauses_getD_mem (Config.freeWord s.freeCtr).toNat, ?_⟩
  rw [State.cloveVote_abort hco ho (hc.trans_le (by decide)) (hc.trans_ne (by decide)), hc]
  rfl

end

end

/-! ### The outcome of the votes (R346) -/

/-- The votes that a coordinator holds, its own last. -/
def Slot.votes (x : Slot) : List ℕ := x.joined.filterMap (·.vote) ++ x.voted.toList

theorem Slot.verdict_eq (x : Slot) : x.verdict =
    if voteConflict ∈ x.votes then .conflict
    else if voteOther ∈ x.votes ∨ x.cause ∈ [6, 7, 8] then .aborted
    else if voteNumeric ∈ x.votes then .skipped
    else .committed := by
  have habort : (x.votes.contains voteOther || x.cause == 6 || x.cause == 7 || x.cause == 8) = true
      ↔ voteOther ∈ x.votes ∨ x.cause ∈ [6, 7, 8] := by simp [or_assoc]
  exact if_congr List.contains_iff_mem rfl (if_congr habort rfl (if_congr List.contains_iff_mem rfl rfl))

end Sys2Proof.Machine

open Sys2Proof.Machine

/-- Settles O34: each message by the branch that its slot takes, and the verdict in the order of its cases. -/
theorem cloveMessageEffects : Obligations.CloveMessageEffects := by
  unfold Obligations.CloveMessageEffects
  refine ⟨fun s lid m ht => ⟨fun o hco hhall ho hnew => ?_, fun o hco ho => ⟨fun htakes => ?_, fun hstays => ?_⟩,
    fun j hj hn hl => State.acked_cloveAck ht.2.1 hn hj hl, fun o hco ho => State.cloveQuery_decided hco ho,
    fun hco ho => ⟨fun hc => State.cloveVote_commit hco ho hc, fun hc => ?_, fun hc => ?_, fun hc => ?_⟩⟩, fun x => ?_⟩
  · exact ⟨(s.slot m.slot).toldJoin lid, rfl, rfl, ho, State.cloveJoin_decided hco hhall ho hnew⟩
  · rw [State.cloveDecide_eq hco ho, if_pos ((Slot.takes_iff _ o).2 htakes)]
  · rw [State.cloveDecide_eq hco ho, if_neg]
    rw [Slot.takes_iff]
    rcases hstays with hst | ⟨hst, rfl⟩ <;> simp [hst]
  · exact State.cloveVote_named hco ho (by simp [hc])
  · exact State.cloveVote_named hco ho (by simp [hc])
  · exact State.cloveVote_other hco ho hc
  · intro votes
    have hverdict : x.verdict = if voteConflict ∈ votes then .conflict
      else if voteOther ∈ votes ∨ x.cause ∈ [6, 7, 8] then .aborted
      else if voteNumeric ∈ votes then .skipped else .committed := x.verdict_eq
    rw [hverdict]
    refine ⟨fun hc => if_pos hc, fun hc ho => ?_, fun hc ho h6 hn => ?_, fun hc ho h6 hn => ?_⟩
    · rw [if_neg hc, if_pos ho]
    · rw [if_neg hc, if_neg (not_or.2 ⟨ho, h6⟩), if_pos hn]
    · rw [if_neg hc, if_neg (not_or.2 ⟨ho, h6⟩), if_neg hn]
end

section
/-! SUPPORT. TXN descriptors: what each OP does at issue, and what the Clove port of a core runs (R333 to R343, R353). -/

namespace Sys2Proof.Machine

/-! ### Issue -/

/-- The commands of the TXN descriptors and their OPs (R336). -/
def txnRows : List ((CoreId → Instr) × ℕ) :=
  [(Instr.txnBegin, 0), (Instr.txnAttach, 1), (Instr.txnDetach, 2), (Instr.txnAction, 3), (Instr.txnCommit, 4), (Instr.txnAbort, 5)]

theorem exec_txnRow {row : (CoreId → Instr) × ℕ} (hrow : row ∈ txnRows) (n : CoreId) (s : State) :
    exec (row.1 n) s = .next (s.txnStep n.val row.2).settle := by
  revert row
  simp only [txnRows, List.forall_mem_cons]
  exact ⟨rfl, rfl, rfl, rfl, rfl, rfl, fun _ h => absurd h List.not_mem_nil⟩

section
variable {s : State} {n : CoreId} {ph : ℕ} {f : Fetched} (h : s.phys n.val = some ph) (hf : s.heads ph f tTXN)
include h hf

/-- A TXN at the head of the ring issues under the command of its OP, reserved OPs under BEGIN (R336). -/
theorem exec_txnRow_heads {row : (CoreId → Instr) × ℕ} (hrow : row ∈ txnRows)
    (hop : (txnD f.words).op = row.2 ∨ (row.2 = 0 ∧ 6 ≤ (txnD f.words).op)) :
    exec (row.1 n) s = .next ((s.txnIssue ph f).txnNext ph).settle := by
  have hmine : txnOpIs row.2 f.words = true := by
    unfold txnOpIs
    rcases hop with hop | ⟨h0, h6⟩
    · simp [hf.2.1, hop]
    · simp [hf.2.1, h0, h6]
  rw [exec_txnRow hrow]
  unfold State.txnStep
  rw [State.onCore_phys h, s.issuable_heads ph f tTXN _ hf hmine]

/-- A TXN that fails its checks is refused for the lowest (R337). -/
theorem exec_txnRow_refused {row : (CoreId → Instr) × ℕ} (hrow : row ∈ txnRows)
    (hop : (txnD f.words).op = row.2 ∨ (row.2 = 0 ∧ 6 ≤ (txnD f.words).op)) {r : ℕ} {rs : List ℕ}
    (hr : s.txnReasons ph (txnD f.words) = r :: rs) :
    exec (row.1 n) s = .next ((s.issueDone ph f (Rec.refused r)).txnNext ph).settle := by
  have hissue : s.txnIssue ph f = s.issueDone ph f (Rec.refused r) := by
    unfold State.txnIssue
    simp only [hr]
  rw [exec_txnRow_heads h hf hrow hop, hissue]

end

/-- The effect at issue of a TXN of an OP (R334, R338, R340, R342). -/
def State.txnEffect (s : State) (ph : ℕ) (f : Fetched) (op : ℕ) : State :=
  let d := txnD f.words
  let t := s.issue ph f .queued
  match op with
  | 0 => t.bindSlot d
  | 1 => t.modCore ph fun c => { c with attach := some d.slot }
  | 2 => t.modCore ph fun c => { c with attach := if c.attach = some d.slot then none else c.attach }
  | 3 =>
    let r := t.countActions d.slot 1
    if r.2 then r.1 else r.1.complete ph ⟨f.idx, f.words, .queued, (s.core ph).attach⟩ (Rec.of 0x0C)
  | _ => t.modSlot d.slot fun x => { x with ended := true }

theorem State.txnIssue_passes {s : State} {ph : ℕ} {f : Fetched} (hr : s.txnReasons ph (txnD f.words) = []) :
    s.txnIssue ph f = s.txnEffect ph f (txnD f.words).op := by
  unfold State.txnIssue
  simp only [hr]
  rfl

/-! ### The Clove port -/

section
variable {s : State} {ph : ℕ} {e : Infl} {es : List Infl} (hq : s.queue ph tTXN = e :: es)
include hq

theorem State.txnGo_done (hp : e.prog = .queued) (hop : (txnD e.words).op ≤ 2) : s.txnGo ph = s.complete ph e (Rec.of 0) := by
  unfold State.txnGo
  simp only [hq, hp, hop, if_true]

/-- The slot was released by force while the TXN waited (R353). -/
theorem State.txnGo_released (hp : e.prog = .queued) (hop : 3 ≤ (txnD e.words).op) (hs : s.txnSlotOk (txnD e.words) = false) :
    s.txnGo ph = s.complete ph e (Rec.refused 0x52) := by
  unfold State.txnGo
  simp only [hq, hp, if_true, if_neg (Nat.not_le.2 hop), hs, Bool.not_false]

section
variable (hp : e.prog = .queued) (hs : s.txnSlotOk (txnD e.words) = true)
include hp hs

theorem State.txnGo_action (hop : (txnD e.words).op = 3) : s.txnGo ph = s.actionRun ph e (txnD e.words) := by
  unfold State.txnGo
  simp [hq, hp, hs, hop]

theorem State.txnGo_end (hop : (txnD e.words).op = 4 ∨ (txnD e.words).op = 5) :
    s.txnGo ph = s.endRun ph e (txnD e.words) := by
  unfold State.txnGo
  rcases hop with hop | hop <;> simp [hq, hp, hs, hop]

end

/-- A COMMIT whose slot could not prepare yet tries again (R343). -/
theorem State.txnGo_waiting (hp : e.prog = .sync 0 none) (hop : (txnD e.words).op = 4) :
    s.txnGo ph = s.prepare (txnD e.words).slot := by
  unfold State.txnGo
  simp [hq, hp, hop]

end

section
variable {s : State} {ph : ℕ} {e : Infl} {d : TxnD}

/-- An ACTION at this module is logged, unless it signals to a number that names no core (R333, R339). -/
theorem State.actionRun_here (hto : d.toLocal = true ∨ d.module = s.lid)
    (hcore : d.kind ≠ 2 ∨ (s.phys (bits d.target 31 22)).isSome = true) :
    s.actionRun ph e d = (let l := s.logEntry d.slot d.entry
      if l.2.1 = 0 then l.1.complete ph e (Rec.of 0)
      else (l.1.slotAbort d.slot 4).complete ph e ⟨l.2.1, 0, l.2.2, 0, none⟩) := by
  have hhere : (d.toLocal || d.module == s.lid) = true := by simpa using hto
  have hnamed : (d.kind == 2 && (s.phys (bits d.target 31 22)).isNone) = false := by
    rcases hcore with hk | hk
    · simp [hk]
    · simp [Option.isNone_eq_false_iff.2 hk]
  unfold State.actionRun
  simp only [hhere, hnamed, if_true, Bool.false_eq_true, if_false]

/-- The request that carries an ACTION to its module (R336). -/
def State.sendAction (s : State) (ph idx : ℕ) (d : TxnD) : State × Option (ℕ × ℕ) :=
  match d.kind with
  | 0 => s.request opWR 0 (d.module * 2 ^ 44 + regBase + regAlias (bits d.target 25 0)) 4 (leBytes 4 d.value.toNat) (some d.slot)
      (.sync ph idx)
  | 1 => s.request opWR 0 (d.module * 2 ^ 44 + regBase + doorbellAddr (if bit d.target 8 then .b else .a)) 4
      (leBytes 4 (2 ^ bits d.target 4 0)) (some d.slot) (.sync ph idx)
  | _ => s.request opSIG 0 (d.module * 2 ^ 44) 4 (leBytes 4 d.target.toNat) (some d.slot) (.sync ph idx)

theorem State.actionRun_sent (hto : d.toLocal = false) (hm : d.module ≠ s.lid) {v : State}
    (hv : s.sendAction ph e.idx d = (v, none)) :
    s.actionRun ph e d = v.modInfl ph e.idx fun e => { e with prog := .sync 1 none } := by
  have haway : ¬ (d.toLocal || d.module == s.lid) = true := by simp [hto, hm]
  have hrun : s.actionRun ph e d = (match (s.sendAction ph e.idx d).2 with
      | none => (s.sendAction ph e.idx d).1.modInfl ph e.idx fun e => { e with prog := .sync 1 none }
      | some f => ((s.sendAction ph e.idx d).1.slotAbort d.slot 4).complete ph e ⟨f.1, 0, f.2, 0, none⟩) := if_neg haway
  rw [hrun, hv]

/-- The state in which the record of a COMMIT or ABORT waits for the decision (R343). -/
def State.awaiting (s : State) (ph idx slot : ℕ) : State :=
  (s.modInfl ph idx fun e => { e with prog := .sync 0 none }).modSlot slot fun x => { x with waiter := some (ph, idx) }

theorem State.endRun_decided (hst : ((s.awaiting ph e.idx d.slot).slot d.slot).st = .ended)
    (ho : ((s.awaiting ph e.idx d.slot).slot d.slot).outcome ≠ none) :
    s.endRun ph e d = (s.awaiting ph e.idx d.slot).slotFree d.slot := if_pos ⟨hst, Option.isSome_iff_ne_none.2 ho⟩

theorem State.endRun_open (hst : ((s.awaiting ph e.idx d.slot).slot d.slot).st ≠ .ended) :
    s.endRun ph e d = if d.op = 4 then (s.awaiting ph e.idx d.slot).prepare d.slot
      else (s.awaiting ph e.idx d.slot).slotAbort d.slot 2 := if_neg fun h => hst h.1

end

end Sys2Proof.Machine

open Sys2Proof Sys2Proof.Machine

/-- Settles O30: at issue by the checks and the OP, at the port by how far the TXN in front has come. -/
theorem txnDescriptors : Obligations.TxnDescriptors := by
  unfold Obligations.TxnDescriptors
  refine ⟨fun s n ph f h hf => ⟨fun row hrow r rs hop hr => exec_txnRow_refused h hf hrow hop hr, fun hr => ?_⟩,
    fun s ph e es hq => ⟨rfl, State.txnGo_done hq, State.txnGo_released hq,
      fun hp hs => ⟨fun hop hto hcore => ?_, fun v hop hto hm hv => ?_, fun hop => ?_⟩, State.txnGo_waiting hq⟩⟩
  · have hissue {i : CoreId → Instr} {op : ℕ} (hrow : (i, op) ∈ txnRows) (hop : (txnD f.words).op = op) {t : State}
        (ht : s.txnEffect ph f op = t) : exec (i n) s = .next (t.txnNext ph).settle := by
      rw [exec_txnRow_heads (row := (i, op)) h hf hrow (.inl hop), State.txnIssue_passes hr, hop, ht]
    refine ⟨fun hop => ?_, fun hop => ?_, fun hop => ?_, fun hop => ?_, fun hop => ?_, fun hop => ?_⟩ <;>
      exact hissue (by simp [txnRows]) hop rfl
  · have hgo := (State.txnGo_action hq hp hs hop).trans (State.actionRun_here hto hcore)
    exact ⟨fun hl => hgo.trans (if_pos hl), fun hl => hgo.trans (if_neg hl)⟩
  · exact (State.txnGo_action hq hp hs hop).trans (State.actionRun_sent hto hm hv)
  · have hgo := State.txnGo_end hq hp hs hop
    exact ⟨fun hst ho => hgo.trans (State.endRun_decided hst ho), fun hst => hgo.trans (State.endRun_open hst)⟩
end

section
/-! SUPPORT. The timers of transactions, the end of an apply, and CLV.FORCE (R341, R346, R348, R350, R351, R353). -/

namespace Sys2Proof.Machine

section
variable {s : State} {n : SlotId} {o : Outcome4}

/-! ### Timeouts -/

theorem voteTimeout_decides (hco : (s.slot n.val).isCoord = true) (hhall : (s.slot n.val).hall = true)
    (hv : (s.slot n.val).voted ≠ none) (ho : (s.slot n.val).outcome = none) (hst : (s.slot n.val).st ≠ .free) :
    voteTimeout n s = (s.setSlot n.val ((s.slot n.val).withCause 6)).decideOutcome n.val
      { s.slot n.val with cause := 6 }.verdict :=
  if_pos (by simp [hco, hhall, Option.isSome_iff_ne_none.2 hv, ho, hst])

/-- A member that sixteen sends of DECIDE have not reached is given up (R350). -/
def State.memberLost (s : State) (n lid : ℕ) : State :=
  let v := s.finc pClv F.CLV_CNT1_LOST
  (if v.fget pClv F.CLV_LOST_VALID = 1 then v
    else v.setReg (pClv + 0x060) (BitVec.ofNat 32 (2 ^ 31 + n * 4096 + lid))).event pClv F.CLV_PG_EVT_MEMBER_LOST

theorem decideResend_decided (ho : (s.slot n.val).outcome = some o) (hco : (s.slot n.val).isCoord = true) :
    decideResend n s = ((s.slot n.val).joined.foldl (fun u m =>
      if m.acked || !m.joined then u else if m.sends < 16 then u.cloveSend n.val m.lid kDECIDE o.code
      else if m.sends = 16 then u.memberLost n.val m.lid else u) s).modSlot n.val fun x =>
        { x with joined := x.joined.map fun m => if m.acked || !m.joined then m else { m with sends := min 17 (m.sends + 1) } } := by
  unfold decideResend
  simp only [ho, hco, Bool.not_true, Bool.false_eq_true, if_false]
  rfl

theorem inDoubt_asks (hst : (s.slot n.val).st = .prepared) (hhall : (s.slot n.val).hall = true)
    (hco : (s.slot n.val).isCoord = false) :
    inDoubt n s = (s.event pClv F.CLV_PG_EVT_IN_DOUBT).cloveSend n.val (s.slot n.val).coord kQUERY 0 :=
  if_pos ⟨hst, hhall, by simp [hco]⟩

/-! ### CLV.FORCE (R353) -/

/-- The register CLV.FORCE, through the normal view. -/
def forceReg : RegAt := ⟨.clv, 0, 0, pClv, 0x054, 0⟩

theorem bits_forceWord (act : Fin 4) (n : SlotId) : bits (forceWord act.val n) 9 8 = act.val ∧ bits (forceWord act.val n) 3 0 = n.val := by
  revert act n
  decide

theorem State.writeLoc_force (s : State) (rq : Requester) (a : ℕ) (act : Fin 4) (n : SlotId) :
    s.writeLoc rq forceReg a (forceWord act.val n &&& beMask 0xF) (beMask 0xF) = (s.force act.val n.val, true) := by
  obtain ⟨hact, hslot⟩ := bits_forceWord act n
  unfold State.writeLoc
  rw [s.headerWrite_none _ _ _ (by decide), and_beMask_all]
  show (s.force (bits (forceWord act.val n) 9 8) (bits (forceWord act.val n) 3 0), true) = _
  rw [hact, hslot]

/-- A served write of CLV.FORCE is the forced decision or release that its word names. -/
theorem State.putWord_force {rq : Requester} (hs : s.serves rq (pClv + 0x054)) (act : Fin 4) (n : SlotId) :
    s.putWord (pClv + 0x054) rq (forceWord act.val n) = (s.force act.val n.val).settle := by
  rw [State.putWord_eq_put]
  exact State.put_page (b := .clv) (i := 0) (by decide) (by decide) (by decide) (by decide) (by decide) (by decide) rfl
    (by rwa [put_addr_normal]) (s.writeLoc_force rq _ act n)

theorem State.force_abort (hst : (s.slot n.val).st = .opened ∨ (s.slot n.val).st = .prepared) :
    s.force 1 n.val = (s.setSlot n.val { s.slot n.val with cause := 9, forced := true }).applyDecision n.val .aborted := if_pos hst

theorem State.force_commit (hst : (s.slot n.val).st = .prepared) :
    s.force 2 n.val = (s.setSlot n.val { s.slot n.val with forced := true }).applyDecision n.val .committed := if_pos hst

theorem State.force_release (hst : (s.slot n.val).st = .ended) : s.force 3 n.val = s.forceFree n.val := if_pos hst

theorem State.forceFree_alone (hw : (s.slot n.val).waiter = none) : s.forceFree n.val =
    (if (s.slot n.val).outcome.isNone then s.finc pClv F.CLV_CNT0_ABORTS else s).setSlot n.val
      { s.slot n.val with st := .free, waiter := none, log := [] } := by
  unfold State.forceFree
  simp only [hw]

end

end Sys2Proof.Machine

open Sys2Proof.Machine

/-- Settles O35: each timer by the state of its slot, and each forced decision by `putWord_force`. -/
theorem txnTimers : Obligations.TxnTimers := by
  unfold Obligations.TxnTimers
  refine fun s n rq => ⟨fun hco hhall hv ho hst => next_settle_congr (voteTimeout_decides hco hhall hv ho hst),
    fun o ho hco => next_congr (decideResend_decided ho hco),
    fun hst hhall hco => next_congr (inDoubt_asks hst hhall hco),
    fun fails hst => next_congr (if_neg (not_not_intro hst)),
    fun hs => ⟨fun hst => ?_, fun hst => ?_, fun hst => ?_, State.forceFree_alone⟩⟩
  · rw [← State.force_abort hst]
    exact next_congr (State.putWord_force hs 1 n)
  · rw [← State.force_commit hst]
    exact next_congr (State.putWord_force hs 2 n)
  · rw [← State.force_release hst]
    exact next_congr (State.putWord_force hs 3 n)
end

section
/-! SUPPORT. Collectives: issue, delivered messages and timeouts (R363 to R369, R373, R377, R379, R382). -/

namespace Sys2Proof.Machine

/-! ### Issue -/

section
variable {s : State} {n : CoreId} {ph : ℕ} {f : Fetched} (h : s.phys n.val = some ph) (hf : s.heads ph f tCOLL)
include h hf

theorem State.collective_heads {p : ℕ → Bool} (hp : p (collD f.words).op = true) :
    s.collective n.val p = s.collIssue ph f := by
  unfold State.collective
  rw [State.onCore_phys h, s.issuable_heads ph f tCOLL _ hf (by rw [hf.2.1, hp]; rfl)]

/-- A COLL at the head of the ring issues under the command of its OP (R363). -/
theorem exec_coll_heads : ∀ r ∈ [(Instr.barrier n, 0), (.allreduce n, 1), (.reduceScatter n, 2), (.allgather n, 3),
    (.broadcast n, 4), (.alltoall n, 5)],
    (collD f.words).op = r.2 → exec r.1 s = .next (s.collIssue ph f).collSettle.settle := by
  have hissue (p : ℕ → Bool) {op : ℕ} (hp : p op = true) (hop : (collD f.words).op = op) :
      (.next (s.collective n.val p).collSettle.settle : Result) = .next (s.collIssue ph f).collSettle.settle := by
    rw [State.collective_heads h hf (by rwa [hop])]
  simp only [List.forall_mem_cons]
  exact ⟨hissue (fun op => op == 0 || decide (op > 5)) rfl, hissue (· == 1) rfl, hissue (· == 2) rfl, hissue (· == 3) rfl,
    hissue (· == 4) rfl, hissue (· == 5) rfl, fun _ hr => absurd hr List.not_mem_nil⟩

end

/-! ### Messages -/

section
variable {s u : State} {x : CollIn} {m : CollMsg} {p : Option Packet} (ht : s.collTaken x = some (m, u, p))
include ht

/-- Delivering a message leaves the map of cores alone. -/
theorem State.collTaken_phys (k : ℕ) : u.phys k = s.phys k := by
  cases x with
  | here i =>
    obtain ⟨_, -, hm⟩ := Option.map_eq_some_iff.1 ht
    cases hm
    rfl
  | net a m' =>
    obtain ⟨-, hm⟩ := Option.ite_none_right_eq_some.1 ht
    cases hm
    rfl

/-- A delivered message has the effect of its SUB; from another module it is answered (R369). -/
theorem State.collDeliver_taken {sub : ℕ} (hsub : m.body.sub = sub) {g : State → CollMsg → State} {v : State} (hg : g u m = v) :
    (s.collDeliver x sub g).settle = v.collAfter p := by
  subst hsub hg
  cases x with
  | here i =>
    obtain ⟨_, hi, hm⟩ := Option.map_eq_some_iff.1 ht
    cases hm
    unfold State.collDeliver
    simp only [hi]
    rw [if_neg (not_not_intro rfl)]
    rfl
  | net a m' =>
    obtain ⟨⟨hop, hcls, hcons, hlid, hfrom, hpay, hturn⟩, hm⟩ := Option.ite_none_right_eq_some.1 ht
    cases hm
    unfold State.collDeliver
    simp only [hturn]
    rw [if_neg (by simp [hop, hcls, hcons, hlid, hfrom, hpay])]
    rfl

end

/-! ### Timeouts -/

section
variable {s : State} {n ph : ℕ} {e : Infl} {c : CollSt} (h : s.phys n = some ph) (hc : s.collHead ph = some (e, c))
include h hc

theorem startTimeout_waiting (hp : c.phase = .entered) (hl : ∀ l, c.lead = some l → l.closed = false) (hv : c.verdict = none) :
    startTimeout n s
      = (s.collEnd ph e c ⟨match c.fail with | some f => f.1 | none => 9, 0, 0, 0⟩ 0).collSettle := by
  unfold startTimeout
  rw [State.onCore_phys h]
  simp only [hc]
  refine if_pos ⟨hp, ?_, by rw [hv]; rfl⟩
  cases hlead : c.lead with
  | none => rfl
  | some l => simp [hl l hlead]

theorem chunkTimeout_waiting (hp : c.phase = .data) (ha : c.arrived = [])
    (hd : (c.taken.foldl (fun n t => n + t.2) 0) < c.due (collD e.words)) (hr : c.reported = false) :
    chunkTimeout n s = (s.collFail ph 9 0).collSettle := by
  unfold chunkTimeout
  rw [State.onCore_phys h]
  simp only [hc]
  exact if_pos ⟨hp, by rw [ha]; rfl, hd, by rw [hr]; rfl⟩

variable {l : CollLead} (hlead : c.lead = some l)
include hlead

theorem stopTimeout_stopping (hs : l.stopSent = true) (hv : l.verdict = none) :
    stopTimeout n s = (s.modLead ph fun l => { l with stopOver := true }).collSettle := by
  unfold stopTimeout
  rw [State.onCore_phys h]
  simp only [hc, hlead]
  exact if_pos ⟨hs, by rw [hv]; rfl⟩

theorem lateTimeout_lost (hlost : (l.excluded.filter fun r => !l.served.contains r).length ≠ 0) (ho : l.lateOver = false) :
    lateTimeout n s = (((s.modLead ph fun l => { l with lateOver := true }).finc pColl F.COLL_CNT1_LATE_LOST
      (l.excluded.filter fun r => !l.served.contains r).length).event pColl F.COLL_PG_EVT_LATE_LOST).collSettle := by
  unfold lateTimeout
  rw [State.onCore_phys h]
  simp only [hc, hlead]
  exact if_neg (by simp only [hlost, ho, Bool.false_eq_true, or_self, not_false_eq_true])

end

end Sys2Proof.Machine

open Sys2Proof Sys2Proof.Machine

/-- Settles O57: issue by OP, each message by its SUB and what it says, and each timeout by the COLL that runs. -/
theorem collectiveCommands : Obligations.CollectiveCommands := by
  unfold Obligations.CollectiveCommands
  refine ⟨fun s n ph f h hf => exec_coll_heads h hf, fun s x m u p ht => ?_, fun s n ph e c h hc => ?_⟩
  · have hdeliver {sub : ℕ} {b : CollBody} (hb : m.body = b) (hsub : b.sub = sub) {g : State → CollMsg → State} {v : State}
        (hg : g u m = v) : (.next (s.collDeliver x sub g).settle : Result) = .next (v.collAfter p) :=
      next_congr (State.collDeliver_taken ht (hb ▸ hsub) hg)
    refine ⟨fun sig q ph hb hph => hdeliver hb rfl ?_, fun i ps hb => hdeliver hb rfl ?_, fun ws fx hb => hdeliver hb rfl ?_,
      fun fx hb => hdeliver hb rfl ?_, fun hb => hdeliver hb rfl rfl, fun hb => hdeliver hb rfl rfl,
      fun st c hb => hdeliver hb rfl ?_, fun hb => hdeliver hb rfl rfl, fun st bm f r hb => hdeliver hb rfl ?_,
      fun hb => hdeliver hb rfl rfl⟩
    · simp only [hb, State.collTaken_phys ht, hph]
    all_goals simp only [hb]
  · have htimer {t u : State} (ht : t = u.collSettle) : (.next t.settle : Result) = .next u.collSettle.settle := by rw [ht]
    exact ⟨fun ho => htimer ((State.onCore_phys h _).trans (if_pos ho)), fun ho => htimer ((State.onCore_phys h _).trans (if_pos ho)),
      fun hp hl hv => htimer (startTimeout_waiting h hc hp hl hv),
      fun hp ha hd hr => htimer (chunkTimeout_waiting h hc hp ha hd hr),
      fun l hlead => ⟨fun hs hv => htimer (stopTimeout_stopping h hc hlead hs hv),
        fun hlost ho => htimer (lateTimeout_lost h hc hlead hlost ho)⟩⟩
end

section
/-! SUPPORT. Replay windows: what a window refuses, and what it is once it has accepted a CTR (R413). -/

namespace Sys2Proof.Machine

section
variable {w : Window} {lid route slot ctr c : ℕ}

/-- Is it the window of a sending module, a route and a key slot? -/
def Window.isFor (lid route slot : ℕ) (w : Window) : Bool := w.lid == lid && w.route == route && w.slot == slot

theorem Window.isFor_iff : w.isFor lid route slot = true ↔ (w.lid, w.route, w.slot) = (lid, route, slot) := by
  simp [Window.isFor, and_assoc]

/-- The CTRs that a window refuses: those it has seen, and those 1,024 or more below its highest. -/
def Window.refuses (w : Window) (ctr : ℕ) : Bool := w.seen.contains ctr || decide (ctr + 1024 ≤ w.high)

theorem Window.refuses_iff : w.refuses ctr = true ↔ ctr ∈ w.seen ∨ ctr + 1024 ≤ w.high := by
  simp [Window.refuses]

/-- A window once it has accepted a CTR. -/
def Window.accept (w : Window) (ctr : ℕ) : Window :=
  { w with high := max w.high ctr, seen := (w.seen ++ [ctr]).filter fun c => decide (max w.high ctr < c + 1024) }

theorem Window.isFor_accept : (w.accept ctr).isFor lid route slot = w.isFor lid route slot := rfl

/-- A CTR that has been seen stays in the window, or falls below it when the highest CTR rises. -/
theorem Window.refuses_accept_of_mem (h : c ∈ w.seen ++ [ctr]) : (w.accept ctr).refuses c = true := by
  rw [Window.refuses_iff]
  by_cases hlow : c + 1024 ≤ max w.high ctr
  · exact .inr hlow
  · exact .inl (List.mem_filter.2 ⟨h, decide_eq_true (Nat.lt_of_not_le hlow)⟩)

theorem Window.refuses_accept_self : (w.accept ctr).refuses ctr = true := Window.refuses_accept_of_mem (by simp)

theorem Window.refuses_accept (h : w.refuses c = true) : (w.accept ctr).refuses c = true := by
  obtain hseen | hlow := Window.refuses_iff.1 h
  · exact Window.refuses_accept_of_mem (List.mem_append_left _ hseen)
  · exact Window.refuses_iff.2 (.inr (hlow.trans (Nat.le_max_left ..)))

theorem Window.refuses_of_above (hhigh : w.high < ctr) (hseen : ∀ c ∈ w.seen, c < ctr) : w.refuses ctr = false := by
  rw [Bool.eq_false_iff, Ne, Window.refuses_iff]
  rintro (hmem | hlow)
  · exact Nat.lt_irrefl _ (hseen ctr hmem)
  · omega

end

/-- The window of a sending module, a route and a key slot; none before the first CTR that it accepts. -/
def State.window (s : State) (lid route slot : ℕ) : Option Window := s.zwk.windows.find? (Window.isFor lid route slot)

section
variable {s : State} {lid route slot ctr : ℕ}

theorem State.replayed_eq : s.replayed lid route slot ctr = (s.window lid route slot).any (·.refuses ctr) := by
  show (match s.window lid route slot with
    | some w => w.refuses ctr
    | none => false) = _
  cases s.window lid route slot <;> rfl

theorem State.isFor_of_window {w : Window} (h : s.window lid route slot = some w) : w.isFor lid route slot = true :=
  List.find?_some h

/-- The window that accepts a CTR: a new one when there is none yet. -/
def State.windowOr (s : State) (lid route slot : ℕ) : Window := (s.window lid route slot).getD ⟨lid, route, slot, 0, []⟩

theorem State.isFor_windowOr : (s.windowOr lid route slot).isFor lid route slot = true := by
  unfold State.windowOr
  cases h : s.window lid route slot with
  | none => exact Window.isFor_iff.2 rfl
  | some w => exact State.isFor_of_window h

theorem State.refuses_windowOr {c : ℕ} (h : s.replayed lid route slot c = true) :
    (s.windowOr lid route slot).refuses c = true := by
  rw [State.replayed_eq] at h
  obtain ⟨w, hw, hrefuses⟩ := (Option.any_eq_true _ _).1 h
  rwa [State.windowOr, hw]

theorem State.windowAccept_windows : (s.windowAccept lid route slot ctr).zwk.windows
    = s.zwk.windows.filter (fun w => !w.isFor lid route slot) ++ [(s.windowOr lid route slot).accept ctr] := rfl

theorem State.window_windowAccept_same :
    (s.windowAccept lid route slot ctr).window lid route slot = some ((s.windowOr lid route slot).accept ctr) := by
  unfold State.window
  rw [State.windowAccept_windows, List.find?_append, List.find?_eq_none.2 (by simp), Option.none_or,
    List.find?_cons_of_pos (Window.isFor_accept.trans State.isFor_windowOr)]

theorem State.window_windowAccept_ne {l r n : ℕ} (h : (l, r, n) ≠ (lid, route, slot)) :
    (s.windowAccept lid route slot ctr).window l r n = s.window l r n := by
  have hother {w : Window} (hw : w.isFor l r n = true) : w.isFor lid route slot ≠ true := fun hsame =>
    h ((Window.isFor_iff.1 hw).symm.trans (Window.isFor_iff.1 hsame))
  have hnew : ((s.windowOr lid route slot).accept ctr).isFor l r n ≠ true := fun hw => hother hw State.isFor_windowOr
  unfold State.window
  rw [State.windowAccept_windows, List.find?_append, List.find?_filter, List.find?_cons_of_neg hnew, List.find?_nil, Option.or_none]
  congr 1
  funext w
  by_cases hw : w.isFor l r n = true
  · simp [hw, hother hw]
  · simp [hw]

end

end Sys2Proof.Machine

open Sys2Proof.Machine

/-- Settles O59: the window of the CTR is the one that accepted it, and every other one is as it was. -/
theorem replaysAreSeen : Obligations.ReplaysAreSeen := by
  unfold Obligations.ReplaysAreSeen
  intro s lid route slot ctr
  refine ⟨?_, fun c hc => ?_, fun l r n c hne => ?_, fun habove => ?_⟩
  · rw [State.replayed_eq, State.window_windowAccept_same]
    exact Window.refuses_accept_self
  · rw [State.replayed_eq, State.window_windowAccept_same]
    exact Window.refuses_accept (State.refuses_windowOr hc)
  · rw [State.replayed_eq, State.replayed_eq, State.window_windowAccept_ne hne]
  · rw [State.replayed_eq, Option.any_eq_false]
    intro w hw
    obtain ⟨hlid, hroute, hslot⟩ := by simpa using Window.isFor_iff.1 (State.isFor_of_window hw)
    obtain ⟨hhigh, hseen⟩ := habove w (List.mem_of_find?_eq_some hw) hlid hroute hslot
    simp [Window.refuses_of_above hhigh hseen]
end

section
/-! SUPPORT. Which contributions a decision includes and which it drops (R422, R426). -/

namespace Sys2Proof.Machine

section
variable {s : State} {r : ℕ} {p : ℕ × ℕ}

theorem State.mem_openContribs : p ∈ s.openContribs r ↔ p.1 ∈ sitesOf s.zMembers ∧ p.2 ≤ s.zS ∧ p.2 ≤ r
    ∧ (r - p.2, p.1) ∉ s.zwk.conv.done ∧ (p.2 = 0 → (r, p.1) ∉ s.zwk.conv.lates) := by
  obtain ⟨x, tau⟩ := p
  simp [State.openContribs, and_assoc, imp_iff_not_or]

/-- Has every member's HAVE shown an open contribution? -/
def State.backed (s : State) (r : ℕ) (p : ℕ × ℕ) : Bool :=
  (sitesOf s.zMembers).all fun y => (s.zwk.conv.shown y (r - p.2)).testBit p.1

/-- The open contributions that the decision of a round includes: site and age. -/
def State.included (s : State) (r : ℕ) : List (ℕ × ℕ) := ((s.openContribs r).filter (s.backed r)).take 32

/-- The open contributions that the decision of a round drops. -/
def State.dropped (s : State) (r : ℕ) : List (ℕ × ℕ) :=
  ((s.openContribs r).filter fun p => p.2 == s.zS
    && ((sitesOf s.zMembers).any fun y => (s.zwk.conv.shown y (r - p.2)).testBit p.1) && !p ∈ s.included r).take 8

theorem State.formDecision_contribs : (s.formDecision r).1.contribs
    = (s.included r).map fun p => ⟨r - p.2, p.1, p.2, s.staleWeight p.2⟩ := rfl

theorem State.formDecision_drops : (s.formDecision r).1.drops = (s.dropped r).map fun p => (r - p.2, p.1) := rfl

theorem State.included_open (h : p ∈ s.included r) : p ∈ s.openContribs r :=
  (List.mem_filter.1 (List.mem_of_mem_take h)).1

theorem State.included_backed (h : p ∈ s.included r) :
    ∀ y ∈ sitesOf s.zMembers, (s.zwk.conv.shown y (r - p.2)).testBit p.1 = true :=
  List.all_eq_true.1 (List.mem_filter.1 (List.mem_of_mem_take h)).2

theorem State.dropped_open (h : p ∈ s.dropped r) : p ∈ s.openContribs r ∧ p.2 = s.zS ∧ p ∉ s.included r := by
  obtain ⟨hopen, hdrop⟩ := List.mem_filter.1 (List.mem_of_mem_take h)
  simp only [Bool.and_eq_true, beq_iff_eq, Bool.not_eq_true', decide_eq_false_iff_not] at hdrop
  exact ⟨hopen, hdrop.1.1, hdrop.2⟩

/-- Two open contributions of one site and one round are the same. -/
theorem State.openContribs_ext {q : ℕ × ℕ} (hp : p ∈ s.openContribs r) (hq : q ∈ s.openContribs r)
    (h : (r - q.2, q.1) = (r - p.2, p.1)) : q = p := by
  obtain ⟨-, -, hpr, -⟩ := State.mem_openContribs.1 hp
  obtain ⟨-, -, hqr, -⟩ := State.mem_openContribs.1 hq
  obtain ⟨hround, hsite⟩ := Prod.ext_iff.1 h
  exact Prod.ext hsite (by simp only at hround; omega)

end

end Sys2Proof.Machine

open Sys2Proof.Machine

/-- Settles O60: what the decision includes is open and backed, and what it drops is open, of age S and not included. -/
theorem decisionsAreBacked : Obligations.DecisionsAreBacked := by
  unfold Obligations.DecisionsAreBacked
  intro s r
  dsimp only
  rw [State.formDecision_contribs, State.formDecision_drops]
  refine ⟨?_, ?_, rfl, rfl, fun c hc => ?_, fun x hx => ?_⟩
  · rw [List.length_map]
    exact List.length_take_le ..
  · rw [List.length_map]
    exact List.length_take_le ..
  · obtain ⟨p, hp, rfl⟩ := List.mem_map.1 hc
    obtain ⟨hsite, hs, hr, hdone, -⟩ := State.mem_openContribs.1 (State.included_open hp)
    exact ⟨hsite, hs, hr, rfl, rfl, hdone, State.included_backed hp⟩
  · obtain ⟨p, hp, rfl⟩ := List.mem_map.1 hx
    obtain ⟨hopen, hage, hnot⟩ := State.dropped_open hp
    refine ⟨by rw [hage], fun c hc heq => hnot ?_⟩
    obtain ⟨q, hq, rfl⟩ := List.mem_map.1 hc
    exact State.openContribs_ext hopen (State.included_open hq) heq ▸ hq
end

section
/-! SUPPORT. The issue of ZWK descriptors (R402, R407, R426). -/

namespace Sys2Proof.Machine

theorem next_convSettle_congr {t u : State} (h : t = u) : (.next t.convSettle : Result) = .next u.convSettle := by rw [h]

/-- A ZWK is refused where its checks gave a code, and goes on else. -/
def State.refusedOr (s : State) (ph : ℕ) (f : Fetched) (chk : Option ℕ) (go : State) : State :=
  match chk with
  | some c => s.issueDone ph f (Rec.refused c)
  | none => go

theorem State.refusedOr_some {s : State} {ph : ℕ} {f : Fetched} {chk : Option ℕ} {go : State} {c : ℕ} (h : chk = some c) :
    s.refusedOr ph f chk go = s.issueDone ph f (Rec.refused c) := by
  rw [h]
  rfl

theorem State.refusedOr_none {s : State} {ph : ℕ} {f : Fetched} {chk : Option ℕ} {go : State} (h : chk = none) :
    s.refusedOr ph f chk go = go := by
  rw [h]
  rfl

/-- A ZWK that sends issues with its stream copied; a SEND of a committed round is late (R402, R426). -/
def State.copyStream (s : State) (n ph : ℕ) (f : Fetched) (data : List Byte) : State :=
  let d := zwkD f.words
  let x : StreamOut := ⟨n, ph, f.idx, if d.op = 0 then 0 else if d.op = 4 then 1 else 2, d.round, false, data,
    max 1 (s.fget pZwk F.ZWK_RS_K), s.fget pZwk F.ZWK_RS_M, s.zTargets d, [], none⟩
  let u := s.setZwk fun z => { z with
    outs := z.outs ++ [x], lastSend := if d.op = 0 then Tab.set 0 n (d.round + 1) z.lastSend else z.lastSend }
  ((if d.op = 0 ∧ u.committed d.round = true then u.lateHere d.round else u).issue ph f .queued).zwkAll

/-- The read of the stream that a ZWK sends. -/
def State.zwkRead (s : State) (ph : ℕ) (f : Fetched) : Got := s.locRead ph (zwkD f.words).buf (zwkD f.words).bytes

/-- What becomes of a ZWK at the head of a ring: by its checks, and for one that sends by the read of its stream. -/
def State.zwkIssued (s : State) (n ph : ℕ) (f : Fetched) : State :=
  if s.zwkCheck ph n (zwkD f.words) = some 0x70 then s.issueDone ph f (Rec.refused 0x70)
  else if (zwkD f.words).sends = false then s.refusedOr ph f (s.zwkCheck ph n (zwkD f.words)) (s.issue ph f .queued).zwkAll
  else if (s.zwkRead ph f).status ≠ 0 then (s.zwkRead ph f).st.refusedOr ph f (s.zwkCheck ph n (zwkD f.words))
    ((s.zwkRead ph f).st.issueDone ph f (Rec.ofOutcome (s.zwkRead ph f).status))
  else if field (s.zwkRead ph f).data 8 4 ≠ (zwkD f.words).bytes then (s.zwkRead ph f).st.issueDone ph f (Rec.refused 0x70)
  else (s.zwkRead ph f).st.refusedOr ph f (s.zwkCheck ph n (zwkD f.words))
    ((s.zwkRead ph f).st.copyStream n ph f (s.zwkRead ph f).data)

section
variable {s : State} {n : CoreId} {ph : ℕ} {f : Fetched} (h : s.phys n.val = some ph) (hf : s.heads ph f tZWK)
include h hf

theorem State.zwkIssue_heads {p : ℕ → Bool} (hp : p (zwkD f.words).op = true) :
    s.zwkIssue n.val p = s.zwkIssued n.val ph f := by
  unfold State.zwkIssue State.zwkIssued
  rw [State.onCore_phys h, s.issuable_heads ph f tZWK _ hf (by rw [hf.2.1, hp]; rfl)]
  dsimp only
  generalize s.zwkCheck ph n.val (zwkD f.words) = chk
  split
  · rw [if_pos rfl]
  · next hchk =>
    rw [if_neg hchk]
    cases (zwkD f.words).sends with
    | false => cases chk <;> rfl
    | true =>
      cases chk <;> rfl

/-- A ZWK at the head of the ring issues under the command of its OP (R401). -/
theorem exec_zwk_heads : ∀ r ∈ [(Instr.zwkSend n, 0), (.zwkCollect n, 1), (.zwkSnapSend n, 2), (.zwkSnapRecv n, 3), (.zwkCatchup n, 4)],
    (zwkD f.words).op = r.2 → exec r.1 s = .next (s.zwkIssued n.val ph f).convSettle := by
  have hissue {op : ℕ} (p : ℕ → Bool) (hp : p op = true) (hop : (zwkD f.words).op = op) :
      (.next (s.zwkIssue n.val p).convSettle : Result) = .next (s.zwkIssued n.val ph f).convSettle :=
    next_convSettle_congr (State.zwkIssue_heads h hf (by rwa [hop]))
  simp only [List.forall_mem_cons]
  exact ⟨hissue (fun op => op == 0 || decide (4 < op)) rfl, hissue (· == 1) rfl, hissue (· == 2) rfl, hissue (· == 3) rfl,
    hissue (· == 4) rfl, fun _ hr => absurd hr List.not_mem_nil⟩

end

section
variable {s : State} {n ph : ℕ} {f : Fetched}

theorem State.zwkIssued_misformed (hc : s.zwkCheck ph n (zwkD f.words) = some 0x70) :
    s.zwkIssued n ph f = s.issueDone ph f (Rec.refused 0x70) := if_pos hc

theorem State.zwkIssued_noStream (hd : (zwkD f.words).sends = false) :
    s.zwkIssued n ph f = s.refusedOr ph f (s.zwkCheck ph n (zwkD f.words)) (s.issue ph f .queued).zwkAll := by
  by_cases h70 : s.zwkCheck ph n (zwkD f.words) = some 0x70
  · rw [State.zwkIssued_misformed h70, State.refusedOr_some h70]
  · unfold State.zwkIssued
    rw [if_neg h70, if_pos hd]

section
variable (hd : (zwkD f.words).sends = true) (h70 : s.zwkCheck ph n (zwkD f.words) ≠ some 0x70)
include hd h70

theorem State.zwkIssued_unread (hg : (s.zwkRead ph f).status ≠ 0) :
    s.zwkIssued n ph f = (s.zwkRead ph f).st.refusedOr ph f (s.zwkCheck ph n (zwkD f.words))
      ((s.zwkRead ph f).st.issueDone ph f (Rec.ofOutcome (s.zwkRead ph f).status)) := by
  unfold State.zwkIssued
  rw [if_neg h70, if_neg (by simp [hd]), if_pos hg]

variable (hg : (s.zwkRead ph f).status = 0)
include hg

theorem State.zwkIssued_badHeader (hl : field (s.zwkRead ph f).data 8 4 ≠ (zwkD f.words).bytes) :
    s.zwkIssued n ph f = (s.zwkRead ph f).st.issueDone ph f (Rec.refused 0x70) := by
  unfold State.zwkIssued
  rw [if_neg h70, if_neg (by simp [hd]), if_neg (not_not_intro hg), if_pos hl]

theorem State.zwkIssued_read (hl : field (s.zwkRead ph f).data 8 4 = (zwkD f.words).bytes) :
    s.zwkIssued n ph f = (s.zwkRead ph f).st.refusedOr ph f (s.zwkCheck ph n (zwkD f.words))
      ((s.zwkRead ph f).st.copyStream n ph f (s.zwkRead ph f).data) := by
  unfold State.zwkIssued
  rw [if_neg h70, if_neg (by simp [hd]), if_neg (not_not_intro hg), if_neg (not_not_intro hl)]

end

end

end Sys2Proof.Machine
end

section
/-! SUPPORT. Frames, parcels and the CTRL parcels of the exchange as they arrive (R389, R411 to R414, R420). -/

namespace Sys2Proof.Machine

/-! ### Frames and parcels -/

theorem frameDrop_unaccepted {s : State} {n : SiteId} {bs : List Byte} (hup : s.fget (pSite n) F.SITE_LINK_STAT_STATE = 2)
    (hf : frameIn (s.siteMac n) (s.fget (pSite n) F.SITE_IPCFG_UDP_PORT) bs = none) :
    frameDrop ⟨n, bs⟩ s = s.countFrame n 0x064 := by
  have hrx : s.rxFrame n bs = (s.countFrame n 0x064, none) := by
    unfold State.rxFrame
    rw [if_neg (not_not_intro hup), hf]
  unfold frameDrop
  rw [hrx]

section
variable {s t u v w : State} {p : ParcelIn} {x : Parcel} {n c : ℕ} {k : KeySlot}

theorem State.arriveParcel_onward {bs : List Byte} (hr : s.receive p = (u, some bs)) (hx : parcelOf bs = some x)
    (hother : ¬(x.hdr.dst = u.siteId ∧ x.hdr.lid = u.lid)) : s.arriveParcel p = (u.onward p x, none) := by
  unfold State.arriveParcel
  simp only [hr, hx]
  exact if_neg hother

theorem State.parcel_notHere {kind : ℕ} (ha : s.arriveParcel p = (t, none)) : s.parcel p kind = t := by
  unfold State.parcel
  rw [ha]

section
variable {kind : ℕ} (ha : s.arriveParcel p = (t, some x)) (hk : x.hdr.kind = kind)
include ha hk

theorem State.parcel_unopened (ho : t.openParcel x = (u, none)) : s.parcel p kind = u := by
  unfold State.parcel
  simp only [ha, ho]
  exact if_neg (not_not_intro hk)

theorem State.parcel_opened {body : List Byte} (ho : t.openParcel x = (u, some body)) :
    s.parcel p kind = (u.putParcel x.hdr body).streamStep x.hdr := by
  unfold State.parcel
  simp only [ha, ho]
  exact if_neg (not_not_intro hk)

end

theorem State.openParcel_noKey (hk : t.parcelKey x.hdr = (v, none)) : t.openParcel x = (v, none) := by
  unfold State.openParcel
  rw [hk]

/-- A parcel opened under a key, as sent through an egress port. -/
def Parcel.tried (x : Parcel) (k : KeySlot) (port : ℕ) : List Byte × Bool :=
  gcmOpen k.key (parcelIv x.hdr.src x.hdr.lid x.hdr.route port x.hdr.ctr) x.head x.cipher x.tag

/-- The attempt that counts: under egress port 0 where the tag agrees, else under port 1. -/
def Parcel.opening (x : Parcel) (k : KeySlot) : List Byte × Bool := if (x.tried k 0).2 = true then x.tried k 0 else x.tried k 1

section
variable (hk : t.parcelKey x.hdr = (v, some n)) (hi : v.invoke n = (w, some (k, c)))
include hk hi

theorem State.openParcel_keyed : t.openParcel x = if (x.opening k).2 = true then (w.parcelGood x.hdr n, some (x.opening k).1)
    else (w.parcelBad x.hdr, none) := by
  unfold State.openParcel
  simp only [hk, hi]
  rfl

/-- A parcel whose key is there is kept when it authenticates under either egress port, and is an erasure else. -/
theorem State.parcel_keyed (ha : s.arriveParcel p = (t, some x)) {kind : ℕ} (hkind : x.hdr.kind = kind) :
    s.parcel p kind = if (x.tried k 0).2 = true then ((w.parcelGood x.hdr n).putParcel x.hdr (x.tried k 0).1).streamStep x.hdr
      else if (x.tried k 1).2 = true then ((w.parcelGood x.hdr n).putParcel x.hdr (x.tried k 1).1).streamStep x.hdr
      else w.parcelBad x.hdr := by
  have ho := State.openParcel_keyed hk hi
  unfold Parcel.opening at ho
  split_ifs with h0 h1
  · rw [if_pos h0, if_pos h0] at ho
    exact State.parcel_opened ha hkind ho
  · rw [if_neg h0, if_pos h1] at ho
    exact State.parcel_opened ha hkind ho
  · rw [if_neg h0, if_neg h1] at ho
    exact State.parcel_unopened ha hkind ho

end

end

/-! ### Messages -/

section
variable {s u : State} {p : CtrlIn} {h : ParcelHdr} (ht : s.ctrlTaken p = some (u, h)) {act : ParcelHdr → State → State}
include ht

theorem State.ctrl_taken : s.ctrl p act = act h u := by
  unfold State.ctrlTaken at ht
  unfold State.ctrl
  split at ht
  case h_1 t x ha =>
    obtain ⟨hkind, ht⟩ := Option.ite_none_right_eq_some.1 ht
    split at ht
    case h_1 v body ho =>
      obtain ⟨hbody, ht⟩ := Option.ite_none_right_eq_some.1 ht
      cases ht
      simp only [ha, ho]
      rw [if_neg (not_not_intro hkind), if_pos hbody]
    case h_2 => cases ht
  case h_2 => cases ht

/-- A message between conveners does nothing elsewhere, and its further copies nothing (R420). -/
theorem State.convCtrl_idle (hidle : u.isConvener = false ∨ u.isCopy h p.body = true) : s.convCtrl p act = u.convSettle := by
  unfold State.convCtrl
  rw [State.ctrl_taken ht, if_pos]
  obtain hc | hc := hidle <;> simp [hc]

theorem State.convCtrl_taken (hc : u.isConvener = true) (hcopy : u.isCopy h p.body = false) :
    s.convCtrl p act = (act h (u.noteCopy h p.body)).convSettle := by
  unfold State.convCtrl
  rw [State.ctrl_taken ht, if_neg (by simp [hc, hcopy])]

end

/-! ### The command of each message -/

section
variable {s : State} {p : CtrlIn}

theorem zwkNak_eq {g m : ℕ} (hb : p.body = .nak g m) : zwkNak p s = (s.ctrl p fun h s => s.nak h g m).convSettle := by
  simp only [zwkNak, hb]

theorem complete_eq (hb : p.body = .complete) : complete p s = (s.ctrl p fun h s => s.report h (some [])).convSettle := by
  simp only [complete, hb]

theorem missing_eq {r : Ranges} (hb : p.body = .missing r) : missing p s = (s.ctrl p fun h s => s.report h r).convSettle := by
  simp only [missing, hb]

theorem finalMsg_eq {r : Ranges} (hb : p.body = .final r) : finalMsg p s = (s.ctrl p fun h s => s.finalIn h r).convSettle := by
  simp only [finalMsg, hb]

theorem ping_eq (hb : p.body = .ping) : ping p s = (s.ctrl p fun _ s => s).convSettle := by
  simp only [ping, hb]

theorem haveMsg_eq {r jump : ℕ} {held : List (ℕ × ℕ)} (hb : p.body = .have_ r held jump) :
    haveMsg p s = s.convCtrl p fun h s => s.setConv fun c => c.have_ h.src held jump := by
  simp only [haveMsg, hb]

theorem zwkDecide_eq {d : Decision} (hb : p.body = .decide_ d) :
    zwkDecide p s = s.convCtrl p fun h s => s.takeDecision h.src d := by
  simp only [zwkDecide, hb]

theorem dack_eq {r : ℕ} (hb : p.body = .dack r) : dack p s = s.convCtrl p fun h s => s.takeDack h.src r := by
  simp only [dack, hb]

theorem zwkCommit_eq {r : ℕ} (hb : p.body = .commit r) : zwkCommit p s = s.convCtrl p fun h s => s.takeCommit h.src r := by
  simp only [zwkCommit, hb]

theorem beat_eq {e m st r f : ℕ} (hb : p.body = .beat e m st r f) :
    beat p s = s.convCtrl p fun h s => s.takeBeat ⟨h.src, e, m, st, r, f⟩ := by
  simp only [beat, hb]

theorem newepoch_eq {e m base : ℕ} (hb : p.body = .newEpoch e m base) :
    newepoch p s = s.convCtrl p fun h s => s.epochIn h.src e m base := by
  simp only [newepoch, hb]

theorem ledger_eq {f r n : ℕ} (hb : p.body = .ledger f r n) :
    ledger p s = s.convCtrl p fun h s => s.takeLedger h.src f r n := by
  simp only [ledger, hb]

theorem zwkJoin_eq {x : ℕ} (hb : p.body = .join x) : zwkJoin p s = s.convCtrl p fun _ s => s.takeJoin x := by
  simp only [zwkJoin, hb]

theorem ready_eq {x r : ℕ} (hb : p.body = .ready x r) : ready p s = s.convCtrl p fun _ s => s.takeReady x r := by
  simp only [ready, hb]

end

/-- A command of a message between conveners takes the parcel as one, where the parcel carries its message. -/
theorem exec_conv (s : State) (p : CtrlIn) : ∀ i ∈ [Instr.haveMsg p, .zwkDecide p, .dack p, .zwkCommit p, .beat p, .newepoch p,
    .ledger p, .zwkJoin p, .ready p], (∃ act, exec i s = .next (s.convCtrl p act)) ∨ exec i s = .next s := by
  have hbranch {f : CtrlIn → State → State} (hf : (∃ act, f p s = s.convCtrl p act) ∨ f p s = s) :
      (∃ act, (.next (f p s) : Result) = .next (s.convCtrl p act)) ∨ (.next (f p s) : Result) = .next s :=
    hf.imp (fun ⟨act, ha⟩ => ⟨act, next_congr ha⟩) next_congr
  simp only [List.forall_mem_cons]
  refine ⟨hbranch (f := haveMsg) ?_, hbranch (f := zwkDecide) ?_, hbranch (f := dack) ?_, hbranch (f := zwkCommit) ?_,
    hbranch (f := beat) ?_, hbranch (f := newepoch) ?_, hbranch (f := ledger) ?_, hbranch (f := zwkJoin) ?_,
    hbranch (f := ready) ?_, fun _ hi => absurd hi List.not_mem_nil⟩
  all_goals
    simp only [haveMsg, zwkDecide, dack, zwkCommit, beat, newepoch, ledger, zwkJoin, ready]
    split
    · exact .inl ⟨_, rfl⟩
    · exact .inr rfl

end Sys2Proof.Machine
end

section
/-! SUPPORT. What a message between conveners does at its receiver (R420 to R434). -/

namespace Sys2Proof.Machine

section
variable {s : State}

/-! ### Decisions -/

theorem State.takeDecision_fits {src : ℕ} {d : Decision} (hd : d.decider = src) (hf : s.fits d = true) : s.takeDecision src d
    = (s.setConv fun c => { c with held := (c.held.filter fun x => !(x.round == d.round && x.kind == d.kind)) ++ [d] }).dack d := by
  unfold State.takeDecision
  rw [if_neg (by simp [hd, hf])]

theorem State.takeDack_open {src : ℕ} {d : Decision} (hd : s.zwk.conv.draft = some d) :
    s.takeDack src d.round = s.setConv fun c => { c with dacks := addNew src c.dacks } := by
  unfold State.takeDack
  rw [hd]
  exact if_pos rfl

theorem State.takeCommit_held {src r : ℕ} {d : Decision}
    (hd : (s.zwk.conv.held.find? fun d => d.round == r && s.fits d && d.decider == src) = some d) :
    s.takeCommit src r = s.convCommit d := by
  unfold State.takeCommit
  rw [hd]

/-! ### BEAT -/

/-- The convener that has noted the BEAT of a site as its last. -/
def State.noteBeat (s : State) (b : Beat) : State :=
  s.setConv fun c => { c with beats := c.beats.filter (fun x => x.site != b.site) ++ [b] }

theorem State.fixup_joined {f : ℕ} (h : s.zState ≠ 3) : s.fixup f = s := if_pos (.inl h)

/-- A BEAT that neither moves its receiver into REJOINING nor tells it other members of the other side. -/
theorem State.takeBeat_stays {b : Beat} (henter : ¬((s.noteBeat b).zState = 2 ∧ b.state = 3
      ∧ (b.epoch = (s.noteBeat b).zEpoch ∧ b.members = (s.noteBeat b).zMembers)
      ∧ (b.site = lowest (s.noteBeat b).zMembers ∨ ((s.noteBeat b).isDecider ∧ (s.noteBeat b).otherSide.isSome))))
    (hother : ¬((s.noteBeat b).zState = 3 ∧ (s.noteBeat b).otherMembers ≠ (s.noteBeat b).zwk.other)) : s.takeBeat b
      = if b.members ≠ (s.noteBeat b).zMembers ∧ (!(s.noteBeat b).isDecider) = true then (s.noteBeat b).fixup b.fork
        else s.noteBeat b := by
  unfold State.noteBeat at *
  unfold State.takeBeat
  dsimp only
  rw [if_neg henter, if_neg hother]

theorem State.takeBeat_noted {b : Beat} (hq : (s.noteBeat b).zState ≤ 1 ∨ ((s.noteBeat b).zState = 2
    ∧ ¬(b.state = 3 ∧ b.epoch = (s.noteBeat b).zEpoch ∧ b.members = (s.noteBeat b).zMembers))) :
    s.takeBeat b = s.noteBeat b := by
  have h3 : (s.noteBeat b).zState ≠ 3 := by omega
  rw [State.takeBeat_stays (fun ⟨h2, hst, hmine, _⟩ => ?_) (fun h => h3 h.1), State.fixup_joined h3, ite_self]
  obtain h1 | ⟨-, hno⟩ := hq
  · omega
  · exact hno ⟨hst, hmine⟩

/-- While REJOINING, a BEAT shows a member the fork round of the other side (R431). -/
theorem State.takeBeat_rejoining {b : Beat} (h3 : (s.noteBeat b).zState = 3)
    (ho : (s.noteBeat b).otherMembers = (s.noteBeat b).zwk.other) :
    s.takeBeat b = if b.members ≠ (s.noteBeat b).zMembers ∧ (s.noteBeat b).isDecider = false then (s.noteBeat b).fixup b.fork
      else s.noteBeat b := by
  rw [State.takeBeat_stays (fun h => by omega) (fun h => h.2 ho)]
  simp only [Bool.not_eq_true']

/-! ### Epochs, and rejoin -/

theorem State.epochIn_adopts {src e m base : ℕ} (hm : m.testBit s.siteId = true) (hnew : ¬(s.zEpoch = e ∧ s.zMembers = m))
    (h3 : s.zState ≠ 3) (hsrc : s.zState = 0 ∨ src = lowest s.zMembers ∨ src = lowest m) :
    s.epochIn src e m base = s.adoptEpoch e m base := by
  refine if_neg ?_
  rintro (hno | hsame | hrejoin | ⟨h0, hold, hnext⟩)
  · rw [hm] at hno
    cases hno
  · exact hnew hsame
  · exact h3 hrejoin
  · exact hsrc.elim h0 fun hs => hs.elim hold hnext

theorem State.epochIn_ignored {src e m base : ℕ} (h : m.testBit s.siteId = false ∨ s.zState = 3) : s.epochIn src e m base = s := by
  refine if_pos ?_
  obtain hm | h3 := h
  · exact .inl (by rw [hm]; rfl)
  · exact .inr (.inr (.inl h3))

section
variable {src f r n : ℕ} (hd : s.isDecider = true)
include hd

theorem State.takeLedger_rejoining (h3 : s.zState = 3) :
    s.takeLedger src f r n = (s.setConv fun c => { c with ledger := some (src, f, r, n) }).fixup f := by
  unfold State.takeLedger
  rw [if_neg (by simp [hd, h3])]
  dsimp only
  rw [if_neg (by simp [h3])]

theorem State.takeLedger_isolated (h2 : s.zState = 2) :
    s.takeLedger src f r n = (s.enterRejoin.setConv fun c => { c with ledger := some (src, f, r, n) }).fixup f := by
  unfold State.takeLedger
  rw [if_neg (by simp [hd, h2])]
  dsimp only
  rw [if_pos h2]

end

/-! ### JOIN and READY -/

theorem State.takeJoin_forwarded {x : ℕ} (hd : s.isDecider = false) : s.takeJoin x = s.toDecider s.zRound (.join x) :=
  if_pos (by rw [hd]; rfl)

theorem State.takeReady_forwarded {x r : ℕ} (hd : s.isDecider = false) : s.takeReady x r = s.toDecider r (.ready x r) :=
  if_pos (by rw [hd]; rfl)

section
variable {x : ℕ} (hd : s.isDecider = true)
include hd

theorem State.takeJoin_refused (h1 : s.zState ≠ 1) :
    s.takeJoin x = s.sendConv x s.zRound (.beat s.zEpoch s.zMembers s.zState s.zRound s.zFork) := by
  unfold State.takeJoin
  rw [if_neg (by simp [hd]), if_pos h1]

theorem State.takeJoin_observed (h1 : s.zState = 1) (hm : s.zMembers.testBit x = false)
    (ho : s.zwk.conv.observers.testBit x = false) : s.takeJoin x
      = s.setConv fun c => { c with observers := c.observers ||| 2 ^ (x % 16), joinAfter := s.zNext } := by
  unfold State.takeJoin
  rw [if_neg (by simp [hd]), if_neg (not_not_intro h1), if_neg (by simp [hm, ho])]

theorem State.takeReady_joins (h1 : s.zState = 1) (ho : s.zwk.conv.observers.testBit x = true)
    (hdraft : s.zwk.conv.draft = none) : s.takeReady x s.zRound = s.newEpoch (s.zMembers ||| 2 ^ (x % 16)) := by
  unfold State.takeReady
  rw [if_neg (by simp [hd]), if_pos ⟨h1, ho, rfl, hdraft⟩]

end

end

end Sys2Proof.Machine
end

section
/-! SUPPORT. The timers of streams and of conveners, and messages between a module and its convener (R388, R405, R417 to
R434). -/

namespace Sys2Proof.Machine

/-! ### Timers of streams -/

section
variable {s : State} {site : Fin 16} {core : CoreId} {k : Fin 4} {round group : ℕ} {x : StreamIn} (hon : s.zOn = true)
  (hx : s.streamIn site core k round = some x)
include hon hx

theorem nakTimeout_short {g : GroupIn} (hg : (x.groups.find? fun y => y.group == group) = some g) (hdata : g.data = none)
    (hps : g.parcels ≠ []) (hfin : ∀ r, x.final = some r → x.excused r group = false) :
    nakTimeout site core k round group s = s.sendPeer site core round k
      (.nak group (((List.range (min 48 (g.k + g.m))).filter fun t => !(g.parcels.any fun p => p.1 == t)).foldl
        (fun a t => a + 2 ^ t) 0)) := by
  unfold nakTimeout
  simp only [hx, hg]
  refine if_neg ?_
  cases hf : x.final with
  | none => simp [hdata, hps, hon]
  | some r => simp [hdata, hps, hon, hfin r hf]

theorem missingTime_untold (ht : x.told = false) (hw : x.whole = false) : missingTime site core k round s
    = (s.modIn site core k round fun y => { y with told := k.val != 2 }).sendPeer site core round k (.missing (capRanges x.missing)) := by
  unfold missingTime
  simp only [hx]
  exact if_neg (by simp [ht, hw, hon])

end

section
variable {s : State} {n : CoreId} {ph : ℕ} (h : s.phys n.val = some ph)
include h

theorem finalTime_running {x : StreamOut} (hx : (s.zwk.outs.find? fun x => x.phys == ph && x.skind != 2 && x.started
    && x.final.isNone && (s.infl ph x.idx).isSome) = some x) : finalTime n s = (s.finishSend x).zwkAll.convSettle := by
  unfold finalTime
  rw [State.onCore_phys h]
  simp only [hx]

theorem snapTimeout_running {e : Infl} {es : List Infl} (hq : s.queue ph tZWK = e :: es)
    (hop : (zwkD e.words).op = 2 ∨ (zwkD e.words).op = 3) (hp : e.prog ≠ .queued) : snapTimeout n s
      = ((s.setZwk fun z => { z with outs := z.outs.filter fun x => !(x.phys == ph && x.idx == e.idx && x.skind == 2) }).complete
          ph e (Rec.of 9)).zwkAll.convSettle := by
  unfold snapTimeout
  rw [State.onCore_phys h]
  simp only [hq]
  rw [if_pos ⟨hop, hp⟩]

end

/-! ### Timers of conveners -/

section
variable {s : State} (hon : s.zOn = true)
include hon

theorem pingTimer_sends (hc : s.isConvener = true ∨ s.exCores ≠ []) : pingTimer s
    = (List.range 16).foldl (fun t x => if x = t.siteId then t else
        (t.validRoutes x).foldl (fun t r => t.sendCtrl1 x r 0 t.zRound 3 .ping) t) s := by
  refine if_neg ?_
  obtain hc | hc := hc <;> simp [hon, hc]

variable (hc : s.isConvener = true)
include hc

theorem State.convening_convener : s.convening = true := by simp [State.convening, hon, hc]

theorem haveTime_sends (h0 : s.zState ≠ 0) : haveTime s = (s.sendHave s.haveNext.1).convSettle :=
  if_pos ⟨State.convening_convener hon hc, h0⟩

theorem roundClose_open (hst : s.zState = 1 ∨ s.zState = 2) (ho : s.roundOpen = true) : roundClose s = s.closeRound.convSettle :=
  if_pos ⟨State.convening_convener hon hc, hst, ho⟩

theorem zwkDecideResend_draft {d : Decision} (hd : s.zwk.conv.draft = some d) : zwkDecideResend s
    = (sitesOf d.members).foldl (fun t x => if x = t.siteId ∨ t.zwk.conv.dacks.contains x = true then t
        else t.sendConv x d.round (.decide_ d)) s := by
  unfold zwkDecideResend
  rw [hd]
  exact if_pos (State.convening_convener hon hc)

theorem beatTimer_sends : beatTimer s
    = s.sendSites s.zEnrolled s.zRound (.beat s.zEpoch s.zMembers s.zState s.zRound s.zFork) :=
  if_pos (State.convening_convener hon hc)

theorem unreachable_loses {site : Fin 16} (hs : site.val ≠ s.siteId) (he : s.zEnrolled.testBit site = true) (h0 : s.zState ≠ 0) :
    unreachable site s = (s.lose site).convSettle := if_pos ⟨State.convening_convener hon hc, hs, he, h0⟩

theorem rejoinHold_outside {site : Fin 16} (h2 : s.zState = 2) (he : s.zEnrolled.testBit site = true)
    (hm : s.zMembers.testBit site = false) (hb : (s.zwk.conv.beats.any fun b => b.site == site) = true) :
    rejoinHold site s = if s.isDecider = true then s.enterRejoin.convSettle
      else s.toDecider s.zRound (.beat s.zEpoch s.zMembers 3 s.zRound s.zFork) :=
  if_pos ⟨State.convening_convener hon hc, h2, he, by rw [hm]; rfl, hb⟩

theorem rejoinTimeout_rejoining (h3 : s.zState = 3) : rejoinTimeout s = (if s.isDecider = true then s.newEpoch s.zMembers
    else s.adoptEpoch ((s.zEpoch + 1) % 65536) s.zMembers s.zRound).convSettle := by
  unfold rejoinTimeout
  rw [if_neg (by simp [State.convening_convener hon hc, h3]), apply_ite State.convSettle]

variable (h0 : s.zState = 0) (hj : s.fget pZwk F.ZWK_CFG_JOIN = 1)
include h0 hj

theorem joinRetry_join (hr : s.zwk.conv.readyFor = none) : joinRetry s = s.sendJoin := by
  unfold joinRetry
  rw [if_pos ⟨State.convening_convener hon hc, h0, hj⟩, hr]

theorem joinRetry_ready {r : ℕ} (hr : s.zwk.conv.readyFor = some r) : joinRetry s = s.sendJoin.sendReady r := by
  unfold joinRetry
  rw [if_pos ⟨State.convening_convener hon hc, h0, hj⟩, hr]

end

/-! ### Messages between a module and its convener -/

/-- What the word of its convener does to a module (R423, R427, R429). -/
def State.obey (s : State) : ConvBody → State
  | .commit d => s.commitHere d
  | .epoch e m en st f o => ((s.setZwk fun z => { z with other := o }).setEpoch e m en st f).zwkAll
  | .late r => s.lateHere r
  | _ => s

/-- A convener holds a report, and a module obeys its convener. -/
def State.hearSite (s : State) (m : ConvIn) : State :=
  if s.isConvener = true then (s.setConv fun c => c.note m.pkt.src m.body).convSettle
  else if m.pkt.src ≠ s.fget pZwk F.ZWK_CFG_CONVENER then s else s.obey m.body

theorem convenerMsg_taken {s : State} {m : ConvIn} (hop : m.pkt.op = opMSG) (hcls : m.pkt.cls = 0)
    (hcons : s.consumes m.pkt = true) (hkind : leNat (m.pkt.payload.take 4) / 2 ^ 28 = 0xA)
    (hturn : s.turnAway ⟨0, m.pkt, 0⟩ = none) (hon : (s.respond m.pkt 0 0 []).zOn = true) :
    convenerMsg m s = (s.respond m.pkt 0 0 []).hearSite m := by
  have hmine : ¬(m.pkt.op ≠ opMSG ∨ m.pkt.cls ≠ 0 ∨ (!s.consumes m.pkt) = true
      ∨ leNat (m.pkt.payload.take 4) / 2 ^ 28 ≠ 0xA) := by
    rw [hcons, hop, hcls, hkind]
    decide
  unfold convenerMsg
  rw [if_neg hmine, hturn]
  dsimp only
  rw [if_neg (by simp [hon])]
  rfl

theorem State.hearSite_convener {s : State} {m : ConvIn} (hc : s.isConvener = true) :
    s.hearSite m = (s.setConv fun c => c.note m.pkt.src m.body).convSettle := if_pos hc

theorem State.hearSite_module {s : State} {m : ConvIn} (hc : s.isConvener = false)
    (hsrc : m.pkt.src = s.fget pZwk F.ZWK_CFG_CONVENER) : s.hearSite m = s.obey m.body := by
  unfold State.hearSite
  rw [if_neg (by simp [hc]), if_neg (not_not_intro hsrc)]

end Sys2Proof.Machine
end

section
open Sys2Proof Sys2Proof.Machine

/-- Settles O58: descriptors by their checks and the read of their stream, parcels by whether they open, each message by
what it does at its receiver, and each timer by the branch that its hypotheses take. -/
theorem zwikaiCommands : Obligations.ZwikaiCommands := by
  unfold Obligations.ZwikaiCommands
  refine ⟨fun s n ph f h hf => ?issue, ⟨fun s n bs hup hin => ?drop, fun s u p bs x hr hx => ?onward, fun s t p x ha => ?parcel⟩,
    fun s p u h ht => ?messages, fun s => ⟨fun site core k round group x g hon hx => ?stream, fun n ph x h hx => ?final,
      fun n ph e es h hq hop hp => ?snapshot, fun hon hc => ?ping, fun hon hc => ?convener, fun m hop hcls hcons hkind hturn => ?site⟩⟩
  case issue =>
    intro d chk g r hr hop
    have hissue {v : State} (hv : s.zwkIssued n.val ph f = v) : exec r.1 s = .next v.convSettle :=
      (exec_zwk_heads h hf r hr hop).trans (next_convSettle_congr hv)
    refine ⟨fun h70 => hissue (State.zwkIssued_misformed h70),
      fun hd => ⟨fun c hc => hissue ((State.zwkIssued_noStream hd).trans (State.refusedOr_some hc)),
        fun hc => hissue ((State.zwkIssued_noStream hd).trans (State.refusedOr_none hc))⟩,
      fun hd h70 => ⟨fun hg hl => hissue (State.zwkIssued_badHeader hd h70 hg hl), fun c hc hl => hissue ?_,
        fun hc hg => hissue ((State.zwkIssued_unread hd h70 hg).trans (State.refusedOr_none hc)),
        fun hc hg hl => hissue ((State.zwkIssued_read hd h70 hg hl).trans (State.refusedOr_none hc))⟩⟩
    by_cases hg : g.status = 0
    · exact (State.zwkIssued_read hd h70 hg (hl.resolve_left (not_not_intro hg))).trans (State.refusedOr_some hc)
    · exact (State.zwkIssued_unread hd h70 hg).trans (State.refusedOr_some hc)
  case drop => exact next_congr (frameDrop_unaccepted hup hin)
  case onward =>
    have hkind (kind : ℕ) (hother : ¬(x.hdr.dst = u.siteId ∧ x.hdr.lid = u.lid)) :
        (.next (s.parcel p kind).convSettle : Result) = .next (u.onward p x).convSettle :=
      next_convSettle_congr (State.parcel_notHere (State.arriveParcel_onward hr hx hother))
    simp only [List.forall_mem_cons]
    exact ⟨hkind 1, hkind 2, fun _ hi => absurd hi List.not_mem_nil⟩
  case parcel =>
    have hexec : ∀ r ∈ [(Instr.dataParcel p, 1), (.parityParcel p, 2)], exec r.1 s = .next (s.parcel p r.2).convSettle := by
      simp only [List.forall_mem_cons]
      exact ⟨rfl, rfl, fun _ hr => absurd hr List.not_mem_nil⟩
    refine fun r hr hkind => ⟨fun v hk => ?_, fun v n w k c hk hi => ?_⟩ <;> refine (hexec r hr).trans (next_convSettle_congr ?_)
    · exact State.parcel_unopened ha hkind (State.openParcel_noKey hk)
    · exact State.parcel_keyed hk hi ha hkind
  case messages =>
    have hmsg {act : ParcelHdr → State → State} {t v : State} (hf : t = (s.ctrl p act).convSettle) (hv : act h u = v) :
        (.next t : Result) = .next v.convSettle := by
      rw [hf, State.ctrl_taken ht, hv]
    refine ⟨fun g m hb => hmsg (zwkNak_eq hb) rfl, fun hb => hmsg (complete_eq hb) rfl, fun r hb => hmsg (missing_eq hb) rfl,
      fun r hb => hmsg (finalMsg_eq hb) rfl, fun hb => hmsg (ping_eq hb) rfl, fun hidle i hi => ?_, fun hc hcopy => ?_⟩
    · refine (exec_conv s _ i hi).imp_left fun ⟨act, hact⟩ => ?_
      exact hact.trans (next_congr (State.convCtrl_idle ht hidle))
    · intro v
      have hconv {act : ParcelHdr → State → State} {t w : State} (hf : t = s.convCtrl p act) (hw : act h v = w) :
          (.next t : Result) = .next w.convSettle := by
        rw [hf, State.convCtrl_taken ht hc hcopy, hw]
      refine ⟨fun r held jump hb => hconv (haveMsg_eq hb) rfl,
        fun d hb hd hf => hconv (zwkDecide_eq hb) (State.takeDecision_fits hd hf), fun r d hb hd hr => ?_,
        fun r d hb hd => hconv (zwkCommit_eq hb) (State.takeCommit_held hd), fun e m st r f hb => ?_,
        fun e m base hb => ⟨fun hm hnew h3 hsrc => hconv (newepoch_eq hb) (State.epochIn_adopts hm hnew h3 hsrc),
          fun hno => hconv (newepoch_eq hb) (State.epochIn_ignored hno)⟩,
        fun f r n hb hd => ⟨fun h3 => hconv (ledger_eq hb) (State.takeLedger_rejoining hd h3),
          fun h2 => hconv (ledger_eq hb) (State.takeLedger_isolated hd h2)⟩,
        fun x hb => ⟨fun hd => hconv (zwkJoin_eq hb) (State.takeJoin_forwarded hd),
          fun hd h1 => hconv (zwkJoin_eq hb) (State.takeJoin_refused hd h1),
          fun hd h1 hm ho => hconv (zwkJoin_eq hb) (State.takeJoin_observed hd h1 hm ho)⟩,
        fun x r hb => ⟨fun hd => hconv (ready_eq hb) (State.takeReady_forwarded hd), fun hd h1 ho hr hdraft => ?_⟩⟩
      · exact hconv (dack_eq hb) (hr ▸ State.takeDack_open hd)
      · exact ⟨fun hq => hconv (beat_eq hb) (State.takeBeat_noted hq), fun _ _ _ _ _ => hconv (beat_eq hb) rfl,
          fun h3 ho => hconv (beat_eq hb) (State.takeBeat_rejoining h3 ho)⟩
      · exact hconv (ready_eq hb) (hr ▸ State.takeReady_joins hd h1 ho hdraft)
  case stream =>
    exact ⟨fun hg hdata hps hfin => next_congr (nakTimeout_short hon hx hg hdata hps hfin),
      fun ht hw => next_congr (missingTime_untold hon hx ht hw)⟩
  case final => exact next_congr (finalTime_running h hx)
  case snapshot => exact next_congr (snapTimeout_running h hq hop hp)
  case ping => exact next_congr (pingTimer_sends hon hc)
  case convener =>
    exact ⟨fun h0 => next_congr (haveTime_sends hon hc h0), fun hst ho => next_congr (roundClose_open hon hc hst ho),
      fun d hd => next_congr (zwkDecideResend_draft hon hc hd), next_congr (beatTimer_sends hon hc),
      fun site hs he h0 => next_congr (unreachable_loses hon hc hs he h0),
      fun site h2 he hm hb => next_congr (rejoinHold_outside hon hc h2 he hm hb),
      fun h3 => next_congr (rejoinTimeout_rejoining hon hc h3),
      fun h0 hj => ⟨fun hr => next_congr (joinRetry_join hon hc h0 hj hr), fun r hr => next_congr (joinRetry_ready hon hc h0 hj hr)⟩⟩
  case site =>
    intro u hon
    have hheard {v : State} (hv : u.hearSite m = v) : exec (.convenerMsg m) s = .next v :=
      next_congr ((convenerMsg_taken hop hcls hcons hkind hturn hon).trans hv)
    refine ⟨fun hc => hheard (State.hearSite_convener hc), fun hc hsrc => ⟨fun d hb => hheard ?_,
      fun e mm en st f o hb => hheard ?_, fun r hb => hheard ?_⟩⟩ <;> rw [State.hearSite_module hc hsrc, hb] <;> rfl
end

section
/-! SUPPORT. A block of flash that the module did not write last but that carries its HMAC and its write counter takes the
place of the replay-protected block at BS04 (R480). -/

namespace Sys2Proof.Machine

variable (s : State)

/-! ### Steps of a start that leave the replay-protected block alone -/

@[simp] theorem State.journal_rpb (boot step state reason detail : ℕ) :
    (s.journal boot step state reason detail).rpb = s.rpb := by
  unfold State.journal State.draw
  rfl

@[simp] theorem State.stepBegin_rpb (k detail : ℕ) : (s.stepBegin k detail).rpb = s.rpb := by
  unfold State.stepBegin
  simp

@[simp] theorem State.stepDone_rpb (k : ℕ) (alt : Bool) (detail : ℕ) : (s.stepDone k alt detail).rpb = s.rpb := by
  simp [State.stepDone]

@[simp] theorem State.stepFail_rpb (k reason detail : ℕ) : (s.stepFail k reason detail).rpb = s.rpb := by
  unfold State.stepFail
  dsimp only
  split <;> simp

theorem State.mayFail_rpb (k : ℕ) (alt : Bool) (why : Option (ℕ × ℕ)) :
    (s.mayFail k alt why).1.rpb = s.rpb ∧ (s.mayFail k alt why).2 = true := by
  cases why <;> simp [State.mayFail]

@[simp] theorem State.setP_rpb (n : ℕ) : (s.setP n).rpb = s.rpb := by
  unfold State.setP
  split <;> simp

@[simp] theorem State.pwrUpdate_rpb : s.pwrUpdate.rpb = s.rpb := by
  unfold State.pwrUpdate
  split_ifs <;> simp

theorem bs02_rpb : (bs02 s).1.rpb = s.rpb ∧ (bs02 s).2 = true := by
  unfold bs02
  dsimp only
  split
  · obtain ⟨hrpb, hgo⟩ := State.mayFail_rpb _ 2 false (some (0, 0))
    exact ⟨hrpb.trans (by simp [State.applyStraps]), hgo⟩
  · obtain ⟨hrpb, hgo⟩ := State.mayFail_rpb _ 2 false none
    exact ⟨hrpb.trans (by simp [State.applyStraps]), hgo⟩

@[simp] theorem State.writeHung_rpb : s.writeHung.rpb = s.rpb := by
  unfold State.writeHung
  generalize List.range 14 = l
  dsimp only
  generalize s.bootNum - 1 = n
  induction l generalizing s with
  | nil => rfl
  | cons k l ih =>
    rw [List.foldl_cons, ih]
    split <;> simp

@[simp] theorem State.modReset_rpb (internal : Bool) : (s.modReset internal).rpb = s.rpb := by
  unfold State.modReset
  dsimp only
  generalize List.range 32 = l
  have hfold : ∀ (f : State → ℕ → State), (∀ t n, (f t n).rpb = t.rpb) → ∀ t : State, (l.foldl f t).rpb = t.rpb := by
    intro f hf
    induction l with
    | nil => exact fun _ => rfl
    | cons n l ih => exact fun t => (ih _).trans (hf t n)
  rw [hfold _ fun t n => by simp]
  rfl

/-! ### BS04 with another block -/

/-- A step that does not run past its timeout and lets the start go on. -/
theorem runSteps_goes {b : BootIn} {k : ℕ} {f : State → State × Bool} {l : List (ℕ × (State → State × Bool))} (hk : b.hang ≠ k)
    (hf : (f (s.stepBegin k (if k = 9 ∧ b.hang = 9 then b.hangDie else 0))).2 = true) :
    runSteps b ((k, f) :: l) s = runSteps b l (f (s.stepBegin k (if k = 9 ∧ b.hang = 9 then b.hangDie else 0))).1 := by
  rw [runSteps]
  dsimp only
  rw [if_neg hk, if_pos hf]

/-- A start that runs past the timeout of BS05 has the block that BS04 took. -/
theorem runSteps_takes_block {b : BootIn} {x : Rpb} (hrail : b.rail = none) (hpll : b.pll = none) (hsecret : b.secretOk = true)
    (hblock : b.block = some (x, rpbMac x)) (hhang : b.hang = 5) (hw : s.rpb.writes ≤ x.writes) :
    (runSteps b (bootSteps b false) s).rpb = x := by
  have hne : ∀ k, k ≠ 5 → b.hang ≠ k := fun k hk => by rw [hhang]; exact hk.symm
  have h1 (t : State) : bs01 b t = (t.stepDone 1 false 0, true) := by unfold bs01; rw [hrail, hpll]
  have h3 (t : State) : t.mustPass 3 b.secretOk = (t.stepDone 3 false 0, true) := by rw [hsecret]; rfl
  have h4 (t : State) (ht : t.rpb = s.rpb) : bs04 b t = (({ t with rpb := x } : State).stepDone 4 false 0, true) := by
    unfold bs04
    rw [hblock]
    dsimp only
    rw [ht, beq_self_eq_true, Bool.true_and, decide_eq_true hw]
    rfl
  unfold bootSteps
  simp only [Bool.false_eq_true, if_false, List.cons_append, List.nil_append]
  rw [runSteps_goes _ (hne 1 (by decide)) (by rw [h1]), h1, runSteps_goes _ (hne 2 (by decide)) (bs02_rpb _).2,
    runSteps_goes _ (hne 3 (by decide)) (by rw [h3]), h3,
    runSteps_goes _ (hne 4 (by decide)) (by rw [h4]; simp [bs02_rpb]), h4 _ (by simp [bs02_rpb]), runSteps]
  dsimp only
  rw [if_pos hhang]
  rfl

theorem start_takes_block {b : BootIn} {x : Rpb} (hrail : b.rail = none) (hpll : b.pll = none) (hsecret : b.secretOk = true)
    (hblock : b.block = some (x, rpbMac x)) (hhang : b.hang = 5) (hw : s.rpb.writes ≤ x.writes) :
    (s.start b false).rpb = x := by
  unfold State.start
  dsimp only
  exact runSteps_takes_block _ hrail hpll hsecret hblock hhang (by simpa using hw)

theorem watchdog_takes_block {b : BootIn} {x : Rpb} (hp : s.powered = true) (hr : s.boot.resetLow = false)
    (hwait : s.boot.waitSample = false) (hl : s.boot.loading = false) (hf : s.boot.fault = false) (hrail : b.rail = none)
    (hpll : b.pll = none) (hsecret : b.secretOk = true) (hblock : b.block = some (x, rpbMac x)) (hhang : b.hang = 5)
    (hw : s.rpb.writes ≤ x.writes) : (watchdog b s).rpb = x := by
  unfold watchdog
  rw [if_neg (by simp [hp, hr, hwait, hl, hf])]
  exact start_takes_block _ hrail hpll hsecret hblock hhang (by simpa using hw)

/-- The command at the front of the queue runs. -/
theorem step_pending {s : State} {c : Instr} {cs : List Instr} (h : s.pending = c :: cs) :
    step s = exec c { s with pending := cs } := by
  unfold step
  rw [h]

/-- The state with a queue. -/
def State.queued (s : State) (cs : List Instr) : State := { s with pending := cs }

theorem step_watchdog (b : BootIn) : step (s.queued [.watchdog b]) = .next (watchdog b (s.queued [])) := by
  rw [step_pending (s := s.queued [.watchdog b]) rfl]
  rfl

/-- A start whose flash gives a block with its HMAC, and that runs past the timeout of BS05. -/
def otherBlock (x : Rpb) : BootIn where
  rail := none
  pll := none
  hang := 5
  hangDie := 0
  secretOk := true
  block := some (x, rpbMac x)
  primary := []
  secondary := []
  config := []
  identityOk := true
  keysOk := true
  dies := []
  hbms := []
  saf := []
  ports := []
  sites := []
  hostOk := true
  readyOk := true

/-- The module out of reset, with SVN_FW at 1. -/
def svnRaised : State :=
  { State.reset with
    rpb := { State.reset.rpb with fwSvn := 1 }
    boot := { State.reset.boot with resetLow := false } }

theorem svnRaised_powered : svnRaised.powered = true := by decide

end Sys2Proof.Machine
end

section
open Sys2Proof Sys2Proof.Machine

/-- Refutes O5: at BS04 of the start after a watchdog, flash gives an older block with its HMAC and an equal write counter,
and SVN_FW falls from 1 to 0. -/
theorem not_rollbackProtectionHolds : ¬ Obligations.RollbackProtectionHolds := by
  unfold Obligations.RollbackProtectionHolds
  intro h
  obtain ⟨_, hfw, _⟩ := h _ _ ⟨by decide, fun _ => rfl, by decide⟩ (step_watchdog svnRaised (otherBlock State.reset.rpb))
  have ht : (watchdog (otherBlock State.reset.rpb) (svnRaised.queued [])).rpb = State.reset.rpb :=
    watchdog_takes_block _ svnRaised_powered rfl rfl rfl rfl rfl rfl rfl rfl rfl (Nat.le_refl 0)
  rw [ht] at hfw
  exact absurd hfw (by decide)

/-- Settles O1: a step on a queue that is not empty. -/
theorem stepRunsFrontCommand : Obligations.StepRunsFrontCommand := by
  unfold Obligations.StepRunsFrontCommand
  exact fun s c cs h => step_pending h

/-- Settles O40: the keystream is the same both ways (`gcmCtr_twice`), and the tag is formed over the ciphertext. -/
theorem decryptUndoesEncrypt : Obligations.DecryptUndoesEncrypt := by
  unfold Obligations.DecryptUndoesEncrypt
  exact fun key iv aad pt h => ⟨gcmOpen_gcmSeal key iv aad pt h, gcmSeal_length key iv aad pt h, by simp [gcmSeal, gcmTag, beBytes]⟩

end

section
/-! SUPPORT. The power manager: the effective limit and its LIMITER (R519), D_open (R521), and what the duty, the throttle
bits and the ramp become (R516, R522, R523). -/

namespace Sys2Proof.Machine

variable (s : State)

/-! ### The terms of the limit (R519) -/

theorem State.classW_le : s.classW ≤ 3600 := Nat.sub_le _ _

theorem State.mem_limits_iff (x : ℕ × ℕ) : x ∈ s.limits ↔
    x = (1, s.classW) ∨ (s.fget pPwr F.PWR_CAP_WATTS ≠ 0 ∧ x = (2, s.clampW (s.fget pPwr F.PWR_CAP_WATTS)))
      ∨ (s.throttled = true ∧ x = (3, s.floorW)) ∨ (s.pwr.ioHot = true ∧ x = (4, 1800))
      ∨ (s.pwr.vLimit = true ∧ x = (5, 1800)) := by
  have hif (b : Bool) (y : ℕ × ℕ) : x ∈ (if b = true then [y] else []) ↔ b = true ∧ x = y := by cases b <;> simp
  unfold State.limits
  simp only [List.mem_append, List.mem_singleton, hif, or_assoc]
  rw [bne_iff_ne]

/-- The terms stand in the order of their numbers. -/
theorem State.limits_rising : s.limits.Pairwise fun x y => x.1 < y.1 := by
  have hif (b : Bool) (n w : ℕ) : (if b = true then [(n, w)] else []) = ([(n, w)] : List (ℕ × ℕ)).filter fun _ => b := by
    cases b <;> rfl
  unfold State.limits
  simp only [hif]
  have hall : ([(1, s.classW), (2, s.clampW (s.fget pPwr F.PWR_CAP_WATTS)), (3, s.floorW), (4, 1800), (5, 1800)] :
      List (ℕ × ℕ)).Pairwise fun x y => x.1 < y.1 := by simp
  refine hall.sublist ?_
  exact ((((List.Sublist.refl [(1, s.classW)]).append List.filter_sublist).append List.filter_sublist).append
    List.filter_sublist).append List.filter_sublist

theorem foldl_min_le (l : List ℕ) (a : ℕ) : l.foldl min a ≤ a ∧ ∀ x ∈ l, l.foldl min a ≤ x := by
  induction l generalizing a with
  | nil => simp
  | cons y l ih =>
    obtain ⟨ha, hl⟩ := ih (min a y)
    refine ⟨ha.trans (Nat.min_le_left _ _), ?_⟩
    simp only [List.forall_mem_cons]
    exact ⟨ha.trans (Nat.min_le_right _ _), hl⟩

theorem foldl_min_mem (l : List ℕ) (a : ℕ) : l.foldl min a = a ∨ l.foldl min a ∈ l := by
  induction l generalizing a with
  | nil => exact .inl rfl
  | cons y l ih =>
    rw [List.foldl_cons]
    obtain h | h := ih (min a y)
    · rw [h]
      exact (min_choice a y).imp id fun e => by rw [e]; exact List.mem_cons_self
    · exact .inr (List.mem_cons_of_mem _ h)

theorem State.limitW_le {x : ℕ × ℕ} (h : x ∈ s.limits) : s.limitW ≤ x.2 :=
  (foldl_min_le _ _).2 _ (List.mem_map_of_mem h)

/-- The limit is one of its terms: the strapped class is at most 3,600 W. -/
theorem State.exists_limits : ∃ x ∈ s.limits, x.2 = s.limitW := by
  obtain h | h := foldl_min_mem (s.limits.map (·.2)) 3600
  · refine ⟨(1, s.classW), (s.mem_limits_iff _).2 (.inl rfl), ?_⟩
    have hle : s.limitW ≤ s.classW := s.limitW_le ((s.mem_limits_iff (1, s.classW)).2 (.inl rfl))
    have h3600 : s.limitW = 3600 := h
    have := s.classW_le
    omega
  · obtain ⟨x, hx, he⟩ := List.mem_map.1 h
    exact ⟨x, hx, he⟩

theorem State.limiter_mem (h : s.limitW ≠ 3600) :
    (s.limiter, s.limitW) ∈ s.limits ∧ ∀ x ∈ s.limits, x.2 = s.limitW → s.limiter ≤ x.1 := by
  obtain ⟨x, hx, hxe⟩ := s.exists_limits
  obtain ⟨y, hy⟩ : ∃ y, s.limits.find? (fun x => x.2 == s.limitW) = some y := by
    rw [← Option.isSome_iff_exists, List.find?_isSome]
    exact ⟨x, hx, beq_iff_eq.2 hxe⟩
  have hlim : s.limiter = y.1 := by
    unfold State.limiter
    dsimp only
    rw [if_neg h, hy]
    rfl
  obtain ⟨hye, as, bs, hsplit, has⟩ := List.find?_eq_some_iff_append.1 hy
  rw [hlim, show (y.1, s.limitW) = y from Prod.ext rfl (beq_iff_eq.1 hye).symm]
  refine ⟨List.mem_of_find?_eq_some hy, fun z hz hze => ?_⟩
  have hrise := s.limits_rising
  rw [hsplit] at hz hrise
  rcases List.mem_append.1 hz with hz | hz
  · exact absurd hze (by simpa using has z hz)
  · obtain rfl | hz := List.mem_cons.1 hz
    · exact le_rfl
    · exact (List.rel_of_pairwise_cons (List.pairwise_append.1 hrise).2.1 hz).le

/-! ### D_open (R521) -/

theorem dOpen_le (p : ℕ) : dOpen p ≤ 64 := Nat.min_le_left _ _

theorem dOpen_fits {p : ℕ} (h : 895 ≤ p) : 5440000 + 245000 * dOpen p ≤ 6080 * p := by
  have := Nat.div_mul_le_self (95 * p * 64 - 5440000) 245000
  unfold dOpen
  omega

theorem le_dOpen {p d : ℕ} (hd : d ≤ 64) (h : 5440000 + 245000 * d ≤ 6080 * p) : d ≤ dOpen p :=
  le_min hd ((Nat.le_div_iff_mul_le (by norm_num)).2 (by omega))

/-! ### Fields that changes of the power state and of the duty leave alone -/

theorem State.fget_event (p : ℕ) (g f : FRef) (h : 0x040 ≤ f.off) : (s.event p g).fget p f = s.fget p f :=
  congrArg (bits · f.hi f.lo) (s.reg_event_ne g (.inr (Nat.add_le_add_left h p)))

theorem State.regsOk_setP {s : State} (h : s.regsOk) (n : ℕ) : (s.setP n).regsOk := by
  unfold State.setP
  split
  · exact h
  · exact State.regsOk_event (State.regsOk_fset h _ _ _) _ _

theorem State.fget_setP {s : State} (h : s.regsOk) (n : ℕ) {f : FRef} (hf : 0x040 ≤ f.off) (hd : f.off ≠ 0x044 ∨ 2 < f.lo) :
    (s.setP n).fget pPwr f = s.fget pPwr f := by
  unfold State.setP
  split
  · rfl
  · exact (State.fget_event _ _ _ _ hf).trans (State.fget_fset_ne _ _ _ _ _ h rfl (hd.imp id .inr))

theorem State.pState_setP {s : State} (h : s.regsOk) {n : ℕ} (hn : n < 8) : (s.setP n).pState = n := by
  unfold State.setP
  split
  · assumption
  · exact (State.fget_event _ _ _ _ (by decide)).trans ((State.fget_fset _ _ _ _ h rfl).trans (Nat.mod_eq_of_lt hn))

@[simp] theorem State.setP_pwr (n : ℕ) : (s.setP n).pwr = s.pwr := by
  unfold State.setP
  split <;> simp

/-- The rows of R516 between P0 and P1 change STAT.STATE or nothing. -/
theorem State.pwrUpdate_eq : s.pwrUpdate = s ∨ s.pwrUpdate = s.setP 1 ∨ s.pwrUpdate = s.setP 0 := by
  unfold State.pwrUpdate
  split_ifs <;> simp

theorem State.regsOk_pwrUpdate {s : State} (h : s.regsOk) : s.pwrUpdate.regsOk := by
  obtain e | e | e := s.pwrUpdate_eq <;> rw [e]
  · exact h
  · exact State.regsOk_setP h 1
  · exact State.regsOk_setP h 0

theorem State.fget_pwrUpdate {s : State} (h : s.regsOk) {f : FRef} (hf : 0x040 ≤ f.off) (hd : f.off ≠ 0x044 ∨ 2 < f.lo) :
    s.pwrUpdate.fget pPwr f = s.fget pPwr f := by
  obtain e | e | e := s.pwrUpdate_eq <;> rw [e]
  · exact State.fget_setP h 1 hf hd
  · exact State.fget_setP h 0 hf hd

@[simp] theorem State.pwrUpdate_pwr : s.pwrUpdate.pwr = s.pwr := by
  obtain e | e | e := s.pwrUpdate_eq <;> rw [e] <;> simp

theorem State.throttled_pwrUpdate {s : State} (h : s.regsOk) : s.pwrUpdate.throttled = s.throttled :=
  congrArg (· == 1) (State.fget_pwrUpdate h (by decide) (.inr (by decide)))

theorem State.duty_pwrUpdate {s : State} (h : s.regsOk) : s.pwrUpdate.duty = s.duty :=
  State.fget_pwrUpdate h (by decide) (.inl (by decide))

/-- Under the throttle a module in P0 or P1 is in P1. -/
theorem State.pState_pwrUpdate {s : State} (h : s.regsOk) (hp : s.pState ≤ 1) (ht : s.throttled = true) :
    s.pwrUpdate.pState = 1 := by
  unfold State.pwrUpdate
  by_cases h0 : s.pState = 0
  · rw [if_pos h0, if_pos (.inr ht)]
    exact State.pState_setP h (by decide)
  · have h1 : s.pState = 1 := by omega
    rw [if_neg h0, if_pos h1, if_neg (by unfold State.runState; rw [if_pos (.inr (.inl ht))]; decide)]
    exact h1

/-! ### The duty -/

/-- D set, and LIMIT where it falls below 64. -/
def State.dutySet (s : State) (d : ℕ) : State :=
  if s.duty = 64 ∧ d < 64 then (s.fset pPwr F.PWR_P1_STAT_DUTY d).event pPwr F.PWR_PG_EVT_LIMIT
  else s.fset pPwr F.PWR_P1_STAT_DUTY d

theorem State.setDuty_eq (d : ℕ) : s.setDuty d = (s.dutySet d).pwrUpdate := rfl

section
variable {s} (h : s.regsOk)
include h

theorem State.regsOk_dutySet (d : ℕ) : (s.dutySet d).regsOk := by
  unfold State.dutySet
  split
  · exact State.regsOk_event (State.regsOk_fset h _ _ _) _ _
  · exact State.regsOk_fset h _ _ _

omit h in
theorem State.fget_dutySet (d : ℕ) {f : FRef} (hf : 0x040 ≤ f.off) :
    (s.dutySet d).fget pPwr f = (s.fset pPwr F.PWR_P1_STAT_DUTY d).fget pPwr f := by
  unfold State.dutySet
  split
  · exact State.fget_event _ _ _ _ hf
  · rfl

theorem State.duty_setDuty {d : ℕ} (hd : d < 128) : (s.setDuty d).duty = d := by
  rw [State.setDuty_eq, State.duty_pwrUpdate (State.regsOk_dutySet h d)]
  exact (State.fget_dutySet d (by decide)).trans ((State.fget_fset _ _ _ _ h rfl).trans (Nat.mod_eq_of_lt hd))

theorem State.fget_setDuty (d : ℕ) {f : FRef} (hf : 0x040 ≤ f.off) (hs : f.off ≠ 0x044 ∨ 2 < f.lo) (hd : f.off ≠ 0x058) :
    (s.setDuty d).fget pPwr f = s.fget pPwr f := by
  rw [State.setDuty_eq, State.fget_pwrUpdate (State.regsOk_dutySet h d) hf hs, State.fget_dutySet d hf]
  exact State.fget_fset_ne _ _ _ _ _ h rfl (.inl hd)

omit h in
@[simp] theorem State.setDuty_pwr (d : ℕ) : (s.setDuty d).pwr = s.pwr := by
  rw [State.setDuty_eq, State.pwrUpdate_pwr]
  unfold State.dutySet
  split <;> simp

omit h in
@[simp] theorem State.cutDuty_pwr (d : ℕ) : (s.cutDuty d).pwr = s.pwr := by
  unfold State.cutDuty
  split <;> simp

theorem State.duty_cutDuty {d : ℕ} (hd : d < 128) : (s.cutDuty d).duty = min s.duty d := by
  unfold State.cutDuty
  split
  · rw [State.duty_setDuty h hd]
    omega
  · rw [State.duty_pwrUpdate h]
    omega

theorem State.fget_cutDuty (d : ℕ) {f : FRef} (hf : 0x040 ≤ f.off) (hs : f.off ≠ 0x044 ∨ 2 < f.lo) (hd : f.off ≠ 0x058) :
    (s.cutDuty d).fget pPwr f = s.fget pPwr f := by
  unfold State.cutDuty
  split
  · exact State.fget_setDuty h d hf hs hd
  · exact State.fget_pwrUpdate h hf hs

theorem State.regsOk_cutDuty (d : ℕ) : (s.cutDuty d).regsOk := by
  unfold State.cutDuty
  split
  · exact State.regsOk_pwrUpdate (State.regsOk_dutySet h d)
  · exact State.regsOk_pwrUpdate h

/-- Under the throttle a cut of the duty leaves a module in P0 or P1 in P1. -/
theorem State.pState_cutDuty (d : ℕ) (hp : s.pState ≤ 1) (ht : s.throttled = true) : (s.cutDuty d).pState = 1 := by
  unfold State.cutDuty
  split
  · have hset {f : FRef} (hf : 0x040 ≤ f.off) (hne : f.off ≠ 0x058) : (s.dutySet d).fget pPwr f = s.fget pPwr f :=
      (State.fget_dutySet d hf).trans (State.fget_fset_ne _ _ _ _ _ h rfl (.inl hne))
    rw [State.setDuty_eq]
    exact State.pState_pwrUpdate (State.regsOk_dutySet h d) ((hset (f := F.PWR_STAT_STATE) (by decide) (by decide)).trans_le hp)
      ((congrArg (· == 1) (hset (f := F.PWR_STAT_THR) (by decide) (by decide))).trans ht)
  · exact State.pState_pwrUpdate h hp ht

end

/-! ### The limit after changes of other fields -/

/-- The limit is read off the class, CAP, FLOOR, the throttle and what the power manager holds. -/
theorem State.limitW_congr {s t : State} (hclass : t.fget pPwr F.PWR_STAT_CLASS = s.fget pPwr F.PWR_STAT_CLASS)
    (hcap : t.fget pPwr F.PWR_CAP_WATTS = s.fget pPwr F.PWR_CAP_WATTS)
    (hfloor : t.fget pPwr F.PWR_THR_CFG_FLOOR = s.fget pPwr F.PWR_THR_CFG_FLOOR)
    (hthr : t.fget pPwr F.PWR_STAT_THR = s.fget pPwr F.PWR_STAT_THR) (hpwr : t.pwr = s.pwr) : t.limitW = s.limitW := by
  unfold State.limitW State.limits State.floorW State.clampW State.classW State.throttled
  rw [hclass, hcap, hfloor, hthr, hpwr]

theorem State.floorW_congr {s t : State} (hclass : t.fget pPwr F.PWR_STAT_CLASS = s.fget pPwr F.PWR_STAT_CLASS)
    (hfloor : t.fget pPwr F.PWR_THR_CFG_FLOOR = s.fget pPwr F.PWR_THR_CFG_FLOOR) : t.floorW = s.floorW := by
  unfold State.floorW State.clampW State.classW
  rw [hclass, hfloor]

/-! ### Power ticks (R522) -/

/-- The averages and the energy of a tick. -/
def State.measured (s : State) (peak avg mj : ℕ) : State :=
  ((s.fset pPwr F.PWR_IN_P_PEAK_W (min peak 65535)).fset pPwr F.PWR_IN_P_AVG_W (min avg 65535)).inc64 pPwr F.PWR_ENERGY_LO_MJ mj

section
variable {s} (h : s.regsOk) (peak avg mj : ℕ)
include h

theorem State.regsOk_measured : (s.measured peak avg mj).regsOk :=
  State.regsOk_inc64 (State.regsOk_fset (State.regsOk_fset h _ _ _) _ _ _) _ _ _

omit h in
theorem State.fget_measured_energy {f : FRef} (hf : f.off < 0x074) : (s.measured peak avg mj).fget pPwr f
    = ((s.fset pPwr F.PWR_IN_P_PEAK_W (min peak 65535)).fset pPwr F.PWR_IN_P_AVG_W (min avg 65535)).fget pPwr f := by
  have hlo : F.PWR_ENERGY_LO_MJ.off = 0x074 := rfl
  exact congrArg (bits · f.hi f.lo) (State.reg_inc64_ne _ _ _ _ (by omega) (by omega))

theorem State.peakW_measured : (s.measured peak avg mj).peakW = min peak 65535 := by
  refine (State.fget_measured_energy peak avg mj (by decide)).trans
    ((State.fget_fset_ne _ _ _ _ _ (State.regsOk_fset h _ _ _) rfl (by decide)).trans ((State.fget_fset _ _ _ _ h rfl).trans ?_))
  exact Nat.mod_eq_of_lt (Nat.lt_of_le_of_lt (Nat.min_le_right _ _) (by decide))

theorem State.avgW_measured : (s.measured peak avg mj).avgW = min avg 65535 := by
  refine (State.fget_measured_energy peak avg mj (by decide)).trans
    ((State.fget_fset _ _ _ _ (State.regsOk_fset h _ _ _) rfl).trans ?_)
  exact Nat.mod_eq_of_lt (Nat.lt_of_le_of_lt (Nat.min_le_right _ _) (by decide))

theorem State.fget_measured {f : FRef} (hf : f.off < 0x064) : (s.measured peak avg mj).fget pPwr f = s.fget pPwr f := by
  have hpeak : F.PWR_IN_P_PEAK_W.off = 0x064 := rfl
  have havg : F.PWR_IN_P_AVG_W.off = 0x064 := rfl
  exact (State.fget_measured_energy peak avg mj (by omega)).trans
    ((State.fget_fset_ne _ _ _ _ _ (State.regsOk_fset h _ _ _) rfl (by omega)).trans
      (State.fget_fset_ne _ _ _ _ _ h rfl (by omega)))

theorem State.limitW_measured : (s.measured peak avg mj).limitW = s.limitW :=
  State.limitW_congr (State.fget_measured h peak avg mj (by decide)) (State.fget_measured h peak avg mj (by decide))
    (State.fget_measured h peak avg mj (by decide)) (State.fget_measured h peak avg mj (by decide)) rfl

omit h in
/-- A tick's averages and duty do not depend on the ramp. -/
theorem State.measures_withPwr (x : PwrSt) : ({ s with pwr := x } : State).peakW = s.peakW
    ∧ ({ s with pwr := x } : State).avgW = s.avgW ∧ ({ s with pwr := x } : State).duty = s.duty := ⟨rfl, rfl, rfl⟩

/-- The first rule of R522: above the limit the duty falls to D_open of it at once. -/
theorem powerTick_duty (hp : s.powered = true) :
    (powerTick peak avg mj s).peakW = min peak 65535 ∧ (powerTick peak avg mj s).avgW = min avg 65535
      ∧ (powerTick peak avg mj s).duty = (if s.limitW < min peak 65535 then min s.duty (dOpen s.limitW) else s.duty) := by
  have hr := State.regsOk_measured h peak avg mj
  have hlim := State.limitW_measured h peak avg mj
  have hpeak := State.peakW_measured h peak avg mj
  have hduty : (s.measured peak avg mj).duty = s.duty := State.fget_measured h peak avg mj (by decide)
  have htick : powerTick peak avg mj s = if s.limitW < min peak 65535 then
      (if decide (dOpen s.limitW < s.duty) = true then
        { (s.measured peak avg mj).cutDuty (dOpen s.limitW) with
          pwr := { ((s.measured peak avg mj).cutDuty (dOpen s.limitW)).pwr with ramp := false } }
      else (s.measured peak avg mj).cutDuty (dOpen s.limitW)) else s.measured peak avg mj := by
    rw [← hlim, ← hpeak, ← hduty]
    unfold powerTick
    rw [if_neg (by simp [hp])]
    rfl
  rw [htick]
  split
  · have hcut : ((s.measured peak avg mj).cutDuty (dOpen s.limitW)).peakW = min peak 65535
        ∧ ((s.measured peak avg mj).cutDuty (dOpen s.limitW)).avgW = min avg 65535
        ∧ ((s.measured peak avg mj).cutDuty (dOpen s.limitW)).duty = min s.duty (dOpen s.limitW) := by
      refine ⟨(State.fget_cutDuty hr _ (by decide) (.inl (by decide)) (by decide)).trans hpeak,
        (State.fget_cutDuty hr _ (by decide) (.inl (by decide)) (by decide)).trans (State.avgW_measured h peak avg mj), ?_⟩
      rw [State.duty_cutDuty hr ((dOpen_le _).trans_lt (by decide)), hduty]
    split
    · obtain ⟨hp, ha, hd⟩ := State.measures_withPwr (s := (s.measured peak avg mj).cutDuty (dOpen s.limitW))
        { ((s.measured peak avg mj).cutDuty (dOpen s.limitW)).pwr with ramp := false }
      rw [hp, ha, hd]
      exact hcut
    · exact hcut
  · exact ⟨hpeak, State.avgW_measured h peak avg mj, hduty⟩

/-- The second rule of R522. -/
theorem dutyStep_duty (hp : s.powered = true) (ht : s.throttled = false) (hramp : s.pwr.ramp = false)
    (hpeak : s.peakW ≤ s.limitW) : (dutyStep s).duty = (if 97 * s.limitW < 100 * s.avgW then s.duty - 1
      else if 100 * s.avgW < 95 * s.limitW ∧ s.duty < 64 then s.duty + 1 else s.duty) := by
  have hlt : s.duty < 128 := s.fget_lt pPwr F.PWR_P1_STAT_DUTY
  unfold dutyStep
  rw [if_neg (by simp [hp, ht, hramp]; exact hpeak)]
  split
  · exact State.duty_setDuty h (by omega)
  · split
    · exact State.duty_setDuty h (by omega)
    · rfl

end

theorem State.regsOk_withPwr {s : State} (h : s.regsOk) (x : PwrSt) : ({ s with pwr := x } : State).regsOk := h

/-! ### The throttle (R523) -/

section
variable {s} (h : s.regsOk)
include h

theorem throttleAssert_duty (ht : s.throttled = false) (hps : s.pState ≤ 1) (hphase : 2 ≤ s.fget pSumac F.SUMAC_PHASE_PHASE) :
    (throttleAssert s).throttled = true ∧ (throttleAssert s).duty = min s.duty (dOpen s.floorW)
      ∧ (throttleAssert s).pState = 1 := by
  let u : State := { s.fset pPwr F.PWR_STAT_THR 1 with pwr := { (s.fset pPwr F.PWR_STAT_THR 1).pwr with ramp := false } }
  have hu : u.regsOk := State.regsOk_fset h _ _ _
  have hkeep {f : FRef} (hd : f.off ≠ 0x044 ∨ f.hi < 12) : u.fget pPwr f = s.fget pPwr f :=
    State.fget_fset_ne s pPwr F.PWR_STAT_THR f 1 h rfl (hd.imp id .inl)
  have huthr : u.throttled = true := by
    refine beq_iff_eq.2 ?_
    exact (State.fget_fset s pPwr F.PWR_STAT_THR 1 h rfl).trans rfl
  have hups : u.pState = s.pState := hkeep (f := F.PWR_STAT_STATE) (by decide)
  have huduty : u.duty = s.duty := hkeep (f := F.PWR_P1_STAT_DUTY) (by decide)
  have hufloor : u.floorW = s.floorW := State.floorW_congr (hkeep (by decide)) (hkeep (by decide))
  have hev {f : FRef} (hf : 0x040 ≤ f.off) :
      ((u.cutDuty (dOpen u.floorW)).event pPwr F.PWR_PG_EVT_THR).fget pPwr f = (u.cutDuty (dOpen u.floorW)).fget pPwr f :=
    State.fget_event _ _ _ _ hf
  have hps' : ((u.cutDuty (dOpen u.floorW)).event pPwr F.PWR_PG_EVT_THR).pState = 1 :=
    (hev (by decide)).trans (State.pState_cutDuty hu _ (hups.trans_le hps) huthr)
  have hres : throttleAssert s = (u.cutDuty (dOpen u.floorW)).event pPwr F.PWR_PG_EVT_THR := by
    unfold throttleAssert
    rw [if_neg (by simp only [ht, Bool.false_eq_true, false_or, not_or]; omega)]
    dsimp only
    have h3 : ¬ (s.fset pPwr F.PWR_STAT_THR 1).pState = 3 := by
      show ¬ u.pState = 3
      omega
    rw [if_neg h3, if_neg]
    show ¬ ((u.cutDuty (dOpen u.floorW)).event pPwr F.PWR_PG_EVT_THR).pState = 2
    omega
  rw [hres]
  refine ⟨?_, ?_, hps'⟩
  · refine (congrArg (· == 1) ((hev (f := F.PWR_STAT_THR) (by decide)).trans
      (State.fget_cutDuty hu _ (by decide) (.inr (by decide)) (by decide)))).trans huthr
  · rw [show State.duty _ = _ from hev (f := F.PWR_P1_STAT_DUTY) (by decide)]
    exact (State.duty_cutDuty hu ((dOpen_le _).trans_lt (by decide))).trans (by rw [huduty, hufloor])

theorem throttleCheck_duty (hp : s.powered = true) (ht : s.throttled = true) (hack : s.fget pPwr F.PWR_STAT_ACK ≠ 0) :
    (throttleCheck s).duty = (if 100 * s.peakW ≤ 98 * s.floorW then min 64 (s.duty + 1)
      else if s.floorW < s.peakW then min s.duty (dOpen s.floorW) else s.duty) := by
  unfold throttleCheck
  rw [if_neg (by simp [hp, ht, hack])]
  split
  · exact State.duty_setDuty h (by omega)
  · split
    · exact State.duty_cutDuty h ((dOpen_le _).trans_lt (by decide))
    · rfl

theorem throttleRelease_ramp (hp : s.powered = true) (ht : s.throttled = true) :
    (throttleRelease s).throttled = false ∧ (throttleRelease s).fget pPwr F.PWR_STAT_ACK = 0
      ∧ (throttleRelease s).pwr.ramp = decide (s.duty < 64) ∧ (throttleRelease s).duty = s.duty := by
  let u : State := (s.fset pPwr F.PWR_STAT_THR 0).setAck 0
  have h1 : (s.fset pPwr F.PWR_STAT_THR 0).regsOk := State.regsOk_fset h _ _ _
  have hu : u.regsOk := State.regsOk_fset h1 _ _ _
  have hkeep {f : FRef} (hd : f.off ≠ 0x044 ∨ f.hi < 12) : u.fget pPwr f = s.fget pPwr f :=
    (State.fget_fset_ne _ pPwr F.PWR_STAT_ACK f 0 h1 rfl (hd.imp id fun hlt => .inl (Nat.lt_succ_of_lt hlt))).trans
      (State.fget_fset_ne s pPwr F.PWR_STAT_THR f 0 h rfl (hd.imp id .inl))
  have hthr : u.fget pPwr F.PWR_STAT_THR = 0 :=
    (State.fget_fset_ne _ pPwr F.PWR_STAT_ACK F.PWR_STAT_THR 0 h1 rfl (by decide)).trans
      (State.fget_fset s pPwr F.PWR_STAT_THR 0 h rfl)
  have hack : u.fget pPwr F.PWR_STAT_ACK = 0 := State.fget_fset _ pPwr F.PWR_STAT_ACK 0 h1 rfl
  have hduty : u.duty = s.duty := hkeep (f := F.PWR_P1_STAT_DUTY) (by decide)
  have hpow : u.powered = true := by
    refine Eq.trans ?_ hp
    exact congrArg (fun n => decide (n ≤ 2)) (hkeep (f := F.PWR_STAT_STATE) (by decide))
  let v : State := { u with pwr := { u.pwr with ramp := decide (u.duty < 64) && u.powered, thrLong := false } }
  have hv : v.regsOk := hu
  have hp4 : s.pState ≠ 4 := by
    have : s.pState ≤ 2 := of_decide_eq_true hp
    omega
  have hres : throttleRelease s = v.pwrUpdate := by
    unfold throttleRelease
    rw [if_neg (by simp [ht, hp4])]
  rw [hres]
  refine ⟨(State.throttled_pwrUpdate hv).trans ?_, (State.fget_pwrUpdate hv (by decide) (.inr (by decide))).trans hack, ?_,
    (State.duty_pwrUpdate hv).trans hduty⟩
  · exact (congrArg (· == 1) hthr).trans rfl
  · rw [State.pwrUpdate_pwr]
    show (decide (u.duty < 64) && u.powered) = _
    rw [hduty, hpow, Bool.and_true]

theorem throttleRamp_duty (hp : s.powered = true) (hramp : s.pwr.ramp = true) :
    (throttleRamp s).duty = min 64 (s.duty + 1) ∧ (throttleRamp s).pwr.ramp = decide (s.duty + 1 < 64) := by
  unfold throttleRamp
  rw [if_neg (by simp [hp, hramp])]
  dsimp only
  have hd : min 64 (s.duty + 1) < 128 := Nat.lt_of_le_of_lt (Nat.min_le_left _ _) (by decide)
  refine ⟨State.duty_setDuty (State.regsOk_withPwr h _) hd, ?_⟩
  rw [State.setDuty_pwr]
  exact decide_eq_decide.2 (by omega)

omit h in
theorem throttleAck_rises (hp : s.powered = true) (ht : s.throttled = true) (hack : s.fget pPwr F.PWR_STAT_ACK = 0)
    (hpeak : s.peakW ≤ s.floorW) : throttleAck s = s.fset pPwr F.PWR_STAT_ACK 1 := if_pos ⟨hp, ht, hack, hpeak⟩

omit h in
theorem thrLong_event (hp : s.powered = true) (ht : s.throttled = true) (hl : s.fget pPwr F.PWR_THR_CFG_LONG_S ≠ 0)
    (hthr : s.pwr.thrLong = false) :
    thrLong s = ({ s with pwr := { s.pwr with thrLong := true } } : State).event pPwr F.PWR_PG_EVT_THR_LONG :=
  if_pos ⟨ht, hp, hl, by simp [hthr]⟩

end

end Sys2Proof.Machine
end

section
open Sys2Proof Sys2Proof.Machine

/-- Settles O42: the limit is the least of its terms, which stand in the order of their numbers, and D_open is a quotient. -/
theorem effectiveLimit : Obligations.EffectiveLimit := by
  unfold Obligations.EffectiveLimit
  refine ⟨fun s => ?_, by decide, fun p hp => ⟨dOpen_le p, dOpen_fits hp, fun d hd => le_dOpen hd⟩⟩
  have hle {x : ℕ × ℕ} (hx : x ∈ s.limits) := s.limitW_le hx
  simp only [State.mem_limits_iff] at hle
  refine ⟨hle (x := (1, s.classW)) (.inl rfl), fun hc => hle (x := (2, s.clampW _)) (.inr (.inl ⟨hc, rfl⟩)),
    fun ht => hle (x := (3, s.floorW)) (.inr (.inr (.inl ⟨ht, rfl⟩))), fun h18 => ?_, ?_, fun h => if_pos h,
    fun h => s.limiter_mem h⟩
  · obtain hio | hv := h18
    · exact hle (x := (4, 1800)) (.inr (.inr (.inr (.inl ⟨hio, rfl⟩))))
    · exact hle (x := (5, 1800)) (.inr (.inr (.inr (.inr ⟨hv, rfl⟩))))
  · obtain ⟨x, hx, hxe⟩ := s.exists_limits
    rw [← hxe]
    obtain rfl | ⟨hc, rfl⟩ | ⟨ht, rfl⟩ | ⟨hio, rfl⟩ | ⟨hv, rfl⟩ := (s.mem_limits_iff x).1 hx
    · exact .inl rfl
    · exact .inr (.inl ⟨hc, rfl⟩)
    · exact .inr (.inr (.inl ⟨ht, rfl⟩))
    · exact .inr (.inr (.inr ⟨.inl hio, rfl⟩))
    · exact .inr (.inr (.inr ⟨.inr hv, rfl⟩))

/-- Settles O43: each command by the branch that its hypotheses take, and the fields that it does not write. -/
theorem dutyAndThrottle : Obligations.DutyAndThrottle := by
  unfold Obligations.DutyAndThrottle
  intro s h hp
  exact ⟨fun peak avg mj => ⟨_, rfl, powerTick_duty h peak avg mj hp⟩,
    fun ht hramp hpeak => ⟨_, rfl, dutyStep_duty h hp ht hramp hpeak⟩,
    fun ht hps hphase => ⟨_, rfl, throttleAssert_duty h ht hps hphase⟩,
    fun ht hack hpeak => congrArg Host.Outcome.next (throttleAck_rises hp ht hack hpeak),
    fun ht hack => ⟨_, rfl, throttleCheck_duty h hp ht hack⟩, fun ht => ⟨_, rfl, throttleRelease_ramp h hp ht⟩,
    fun hramp => ⟨_, rfl, throttleRamp_duty h hp hramp⟩,
    fun ht hl hthr => congrArg Host.Outcome.next (thrLong_event hp ht hl hthr)⟩

end

section
/-! SUPPORT. The time unit: its count and its other register pairs, idle cycles, pulses and slots (R526 to R530). -/

namespace Sys2Proof.Machine

variable (s : State)

/-! ### Register pairs -/

theorem State.regsOk_setPair64 {s : State} (h : s.regsOk) (a v : ℕ) : (s.setPair64 a v).regsOk :=
  State.regsOk_setReg (State.regsOk_setReg h _ _) _ _

theorem State.reg_setPair64_ne (a v : ℕ) {b : ℕ} (h : b ≠ a) (h4 : b ≠ a + 4) : (s.setPair64 a v).reg b = s.reg b :=
  (State.reg_setReg_ne _ h4 _).trans (State.reg_setReg_ne _ h _)

theorem State.fget_setPair64 (a v p : ℕ) {f : FRef} (h : p + f.off ≠ a) (h4 : p + f.off ≠ a + 4) :
    (s.setPair64 a v).fget p f = s.fget p f := congrArg (bits · f.hi f.lo) (s.reg_setPair64_ne a v h h4)

theorem State.pair64_setPair64 {s : State} (h : s.regsOk) (a : ℕ) {v : ℕ} (hv : v < 2 ^ 64) :
    (s.setPair64 a v).pair64 a = v := by
  have hlo : (s.setPair64 a v).reg a = BitVec.ofNat 32 v :=
    (State.reg_setReg_ne _ (by omega) _).trans (State.reg_setReg _ _ _ h)
  have hhi : (s.setPair64 a v).reg (a + 4) = BitVec.ofNat 32 (v / 2 ^ 32) :=
    State.reg_setReg _ _ _ (State.regsOk_setReg h _ _)
  unfold State.pair64
  rw [hlo, hhi, BitVec.toNat_ofNat, BitVec.toNat_ofNat, Nat.mod_eq_of_lt (a := v / 2 ^ 32) (by omega)]
  exact Nat.mod_add_div v (2 ^ 32)

theorem State.pair64_lt (a : ℕ) : s.pair64 a < 2 ^ 64 := by
  have hlo := (s.reg a).isLt
  have hhi := (s.reg (a + 4)).isLt
  unfold State.pair64
  omega

theorem State.pair64_congr {s t : State} {a : ℕ} (hlo : t.reg a = s.reg a) (hhi : t.reg (a + 4) = s.reg (a + 4)) :
    t.pair64 a = s.pair64 a := by
  unfold State.pair64
  rw [hlo, hhi]

theorem State.pair64_setPair64_ne (a v : ℕ) {b : ℕ} (h : b + 4 < a ∨ a + 4 < b) : (s.setPair64 a v).pair64 b = s.pair64 b :=
  State.pair64_congr (s.reg_setPair64_ne a v (by omega) (by omega)) (s.reg_setPair64_ne a v (by omega) (by omega))

theorem State.pair64_setReg_ne (a : ℕ) (w : Word) {b : ℕ} (h : b ≠ a) (h4 : b + 4 ≠ a) :
    (s.setReg a w).pair64 b = s.pair64 b := State.pair64_congr (s.reg_setReg_ne h w) (s.reg_setReg_ne h4 w)

theorem State.pair64_fset_ne (p : ℕ) (f : FRef) (v : ℕ) {b : ℕ} (h : b ≠ p + f.off) (h4 : b + 4 ≠ p + f.off) :
    (s.fset p f v).pair64 b = s.pair64 b := s.pair64_setReg_ne _ _ h h4

theorem State.pair64_event (p : ℕ) (f : FRef) {b : ℕ} (h : b + 4 < p ∨ p + 0x040 ≤ b) : (s.event p f).pair64 b = s.pair64 b :=
  State.pair64_congr (s.reg_event_ne f (by omega)) (s.reg_event_ne f (by omega))

theorem State.now_eq_pair64 : s.now = s.pair64 aNow := rfl

theorem State.withTime_pair64 (x : TimeSt) (a : ℕ) : ({ s with time := x } : State).pair64 a = s.pair64 a := rfl

theorem State.withTime_fget (x : TimeSt) (p : ℕ) (f : FRef) : ({ s with time := x } : State).fget p f = s.fget p f := rfl

theorem State.withTime_reg (x : TimeSt) (a : ℕ) : ({ s with time := x } : State).reg a = s.reg a := rfl

theorem State.regsOk_withTime {s : State} (h : s.regsOk) (x : TimeSt) : ({ s with time := x } : State).regsOk := h

theorem State.regsOk_finc {s : State} (h : s.regsOk) (p : ℕ) (f : FRef) (n : ℕ) : (s.finc p f n).regsOk :=
  State.regsOk_fset h _ _ _

theorem State.fget_finc_ne {s : State} (h : s.regsOk) (p : ℕ) {f g : FRef} (n : ℕ) (hf : f.ok = true)
    (hd : g.off ≠ f.off ∨ g.hi < f.lo ∨ f.hi < g.lo) : (s.finc p f n).fget p g = s.fget p g :=
  s.fget_fset_ne p f g _ h hf hd

theorem State.reg_finc_ne (p : ℕ) (f : FRef) (n : ℕ) {a : ℕ} (h : a ≠ p + f.off) : (s.finc p f n).reg a = s.reg a :=
  s.reg_fset_ne p f _ h

/-! ### TRIM -/

theorem sint_ofSint_32 {v : ℤ} (hlo : -2 ^ 31 ≤ v) (hhi : v < 2 ^ 31) : sint 32 (ofSint 32 v) = v := by
  unfold sint ofSint
  norm_num at *
  split <;> omega

/-- A trim in the range of a word that was written reads back. -/
theorem State.trim_of_reg {v : ℤ} (hlo : -2 ^ 31 ≤ v) (hhi : v < 2 ^ 31) (h : s.reg aTrim = BitVec.ofNat 32 (ofSint 32 v)) :
    s.trim = v := by
  have hlt : ofSint 32 v < 2 ^ 32 := by
    unfold ofSint
    omega
  unfold State.trim
  rw [h, BitVec.toNat_ofNat, Nat.mod_eq_of_lt hlt, sint_ofSint_32 hlo hhi]

theorem clampTrim_bounds (v : ℤ) : -2 ^ 31 ≤ clampTrim v ∧ clampTrim v < 2 ^ 31 := by
  unfold clampTrim
  omega

/-! ### Idle cycles (R526, R529) -/

/-- The step of a slew is -1, 0 or 1 ns. -/
theorem TimeSt.slewStep_bounds (t : TimeSt) : -1 ≤ t.slewStep.2 ∧ t.slewStep.2 ≤ 1 := by
  unfold TimeSt.slewStep
  dsimp only
  split_ifs <;> simp

theorem TimeSt.slewStep_none {t : TimeSt} (h : t.span = 0) : t.slewStep = (t, 0) := if_pos h

theorem TimeSt.trimStep_none {t : TimeSt} (h : t.trimAcc < 1000000000) : t.trimStep 0 = (t, 0) := by
  unfold TimeSt.trimStep
  simp [Nat.not_le.2 h]

/-- The ns that a cycle adds to the count. -/
def State.cycleStep (s : State) : ℕ :=
  let b := s.time.slewStep.1.trimStep s.trim
  let want := b.1.deferred + b.2
  (1 + s.time.slewStep.2 + (if s.time.slewStep.2 ≠ 0 then 0 else if 0 < want then 1 else if want < 0 then -1 else 0)).toNat

theorem State.cycleStep_le : s.cycleStep ≤ 2 := by
  obtain ⟨hlo, hhi⟩ := s.time.slewStep_bounds
  unfold State.cycleStep
  dsimp only
  split_ifs <;> omega

theorem State.cycleStep_steady (hspan : s.time.span = 0) (htrim : s.trim = 0) (hacc : s.time.trimAcc < 1000000000)
    (hdef : s.time.deferred = 0) : s.cycleStep = 1 := by
  unfold State.cycleStep
  rw [TimeSt.slewStep_none hspan, htrim]
  dsimp only
  rw [TimeSt.trimStep_none hacc, hdef]
  simp

theorem State.now_tick {s : State} (h : s.regsOk) (hp : s.powered = true) : s.tick.now = (s.now + s.cycleStep) % 2 ^ 64 := by
  have hps : s.pState ≤ 2 := of_decide_eq_true hp
  unfold State.tick
  rw [if_neg (by omega), if_neg (by omega)]
  exact State.pair64_setPair64 (State.regsOk_withTime h _) aNow (Nat.mod_lt _ (by decide))

theorem State.now_setP (n : ℕ) : (s.setP n).now = s.now := by
  unfold State.setP
  split
  · rfl
  · exact (State.pair64_event _ pPwr F.PWR_PG_EVT_STATE (b := aNow) (by decide)).trans
      (State.pair64_fset_ne _ _ _ _ (b := aNow) (by decide) (by decide))

theorem State.now_idle {s : State} (h : s.regsOk) (hp : s.powered = true) (hreset : s.boot.resetLow = false) :
    s.idle.now = (s.now + s.cycleStep) % 2 ^ 64 := by
  rw [← State.now_tick h hp]
  unfold State.idle State.enterP2
  rw [if_neg (by simp [hreset])]
  dsimp only
  split_ifs
  · exact State.now_setP _ _
  · rfl
  · rfl

/-! ### Pulses (R527 to R529) -/

/-- The unit locks, with TRIM and EDGE given and the rest of the time unit changed. -/
def State.lockedAt (s : State) (w : Word) (x : ℕ) (f : TimeSt → TimeSt) : State :=
  (({ (s.setReg aTrim w).setPair64 aEdge x with time := f ((s.setReg aTrim w).setPair64 aEdge x).time } : State).setTimeState 2).event pTime F.TIME_PG_EVT_LOCK

section
variable {s} (h : s.regsOk) (hp : s.powered = true)
include h hp

/-- A pulse after ARM. -/
theorem ppsPulse_arm {high : ℕ} (hh : 50 ≤ high) (harm : s.fget pTime F.TIME_CTRL_ARM = 1) :
    (ppsPulse high s).now = s.pair64 aNext ∧ (ppsPulse high s).timeState = 1
      ∧ (ppsPulse high s).fget pTime F.TIME_CTRL_ARM = 0 := by
  unfold ppsPulse
  rw [if_neg (by simp [hp, hh])]
  dsimp only
  rw [if_pos harm]
  have h1 : ((s.setPair64 aNow (s.pair64 aNext)).setPair64 aEdge (s.pair64 aNext)).regsOk :=
    State.regsOk_setPair64 (State.regsOk_setPair64 h _ _) _ _
  have h2 := State.regsOk_fset h1 pTime F.TIME_CTRL_ARM 0
  have h3 := State.regsOk_fset h2 pTime F.TIME_STAT_REJ_RUN 0
  refine ⟨?_, ?_, ?_⟩
  · rw [State.now_eq_pair64, State.pair64_event _ _ _ (by decide), State.setTimeState, State.pair64_fset_ne _ _ _ _ (by decide) (by decide),
      State.withTime_pair64, State.pair64_fset_ne _ _ _ _ (by decide) (by decide),
      State.pair64_fset_ne _ _ _ _ (by decide) (by decide), State.pair64_setPair64_ne _ _ _ (by decide)]
    exact State.pair64_setPair64 h _ (s.pair64_lt _)
  · rw [State.timeState, State.fget_event _ _ _ _ (by decide)]
    exact State.fget_fset _ _ _ _ (State.regsOk_withTime h3 _) rfl
  · rw [State.fget_event _ _ _ _ (by decide), State.setTimeState,
      State.fget_fset_ne _ _ _ _ _ (State.regsOk_withTime h3 _) rfl (by decide), State.withTime_fget,
      State.fget_fset_ne _ _ _ _ _ h2 rfl (by decide)]
    exact State.fget_fset _ _ _ _ h1 rfl

omit hp in
/-- The unit locks: TRIM, EDGE and the slot are those of the pulse, and the count goes on. -/
theorem State.lockedAt_fields (w : Word) (x : ℕ) (f : TimeSt → TimeSt) :
    (s.lockedAt w x f).timeState = 2 ∧ (s.lockedAt w x f).reg aTrim = w ∧ (s.lockedAt w x f).now = s.now := by
  unfold State.lockedAt
  have h1 := State.regsOk_setReg h aTrim w
  have h2 := State.regsOk_setPair64 h1 aEdge x
  refine ⟨?_, ?_, ?_⟩
  · rw [State.timeState, State.fget_event _ _ _ _ (by decide)]
    exact State.fget_fset _ _ _ _ (State.regsOk_withTime h2 _) rfl
  · rw [State.reg_event_ne _ _ (by decide), State.setTimeState, State.reg_fset_ne _ _ _ _ (by decide), State.withTime_reg,
      State.reg_setPair64_ne _ _ _ (by decide) (by decide)]
    exact State.reg_setReg _ _ _ h
  · rw [State.now_eq_pair64, State.pair64_event _ _ _ (by decide), State.setTimeState,
      State.pair64_fset_ne _ _ _ _ (by decide) (by decide), State.withTime_pair64, State.pair64_setPair64_ne _ _ _ (by decide),
      State.pair64_setReg_ne _ _ _ (by decide) (by decide)]
    rfl

/-- A pulse in ACQUIRE that is within the window locks. -/
theorem ppsPulse_locks {high : ℕ} (hh : 50 ≤ high) (harm : s.fget pTime F.TIME_CTRL_ARM = 0) (hst : s.timeState = 1)
    (hlo : s.pair64 aEdge + 999500000 ≤ s.now) (hhi : s.now ≤ s.pair64 aEdge + 1000500000) :
    (ppsPulse high s).timeState = 2 ∧ (ppsPulse high s).trim = 1000000000 - ((s.now : ℤ) - s.pair64 aEdge)
      ∧ (ppsPulse high s).now = s.now := by
  unfold ppsPulse
  rw [if_neg (by simp [hp, hh])]
  dsimp only
  rw [if_neg (by omega), if_pos hst, if_pos (by omega)]
  have hcast : -(((s.now - s.pair64 aEdge : ℕ) : ℤ) - 1000000000) = 1000000000 - ((s.now : ℤ) - s.pair64 aEdge) := by omega
  rw [hcast]
  have hlocked := State.lockedAt_fields h (BitVec.ofNat 32 (ofSint 32 (1000000000 - ((s.now : ℤ) - s.pair64 aEdge))))
    (s.pair64 aEdge + 1000000000) fun t => { t with
      slew := ((s.now - s.pair64 aEdge : ℕ) : ℤ) - 1000000000, span := 500000000, total := 500000000, slewAcc := 0
      expect := s.pair64 aEdge + 2000000000 }
  unfold State.lockedAt at hlocked
  unfold State.startSlew
  dsimp only at hlocked ⊢
  obtain ⟨hstate, hreg, hnow⟩ := hlocked
  exact ⟨hstate, State.trim_of_reg _ (by omega) (by omega) hreg, hnow⟩

omit hp in
/-- What an accepted pulse of a slot leaves. -/
theorem State.discipline_fields (t e0 : ℕ) : (s.discipline t e0).timeState = s.timeState
    ∧ (s.discipline t e0).trim = clampTrim (s.trim - ((t : ℤ) - e0).tdiv 4)
    ∧ (s.discipline t e0).time.expect = e0 + 1000000000 ∧ (s.discipline t e0).fget pTime F.TIME_STAT_REJ_RUN = 0 := by
  unfold State.discipline
  dsimp only
  have h1 := State.regsOk_setPair64 h aEdge e0
  have htrim : (s.setPair64 aEdge e0).trim = s.trim :=
    congrArg (fun w : Word => sint 32 w.toNat) (s.reg_setPair64_ne aEdge e0 (by decide) (by decide))
  rw [htrim]
  have h2 := State.regsOk_setReg h1 aTrim (BitVec.ofNat 32 (ofSint 32 (clampTrim (s.trim - ((t : ℤ) - e0).tdiv 4))))
  have h3 := State.regsOk_setReg h2 (pTime + 0x060) (BitVec.ofNat 32 (ofSint 32 ((t : ℤ) - e0)))
  have h4 := State.regsOk_finc h3 pTime F.TIME_CNT_ACCEPTED 1
  refine ⟨?_, State.trim_of_reg _ (clampTrim_bounds _).1 (clampTrim_bounds _).2 ?_, rfl, ?_⟩
  · rw [State.timeState, State.withTime_fget, State.startSlew, State.withTime_fget,
      State.fget_fset_ne _ _ _ _ _ h4 rfl (by decide), State.fget_finc_ne h3 _ _ rfl (by decide),
      State.fget_setReg_ne _ _ _ _ _ (by decide), State.fget_setReg_ne _ _ _ _ _ (by decide)]
    exact s.fget_setPair64 _ _ _ (by decide) (by decide)
  · rw [State.withTime_reg, State.startSlew, State.withTime_reg, State.reg_fset_ne _ _ _ _ (by decide), State.reg_finc_ne _ _ _ _ (by decide),
      State.reg_setReg_ne _ (by decide)]
    exact State.reg_setReg _ _ _ h1
  · rw [State.withTime_fget, State.startSlew, State.withTime_fget]
    exact State.fget_fset _ _ _ _ h4 rfl

omit h in
theorem ppsPulse_accepted {high : ℕ} (hh : 50 ≤ high) (harm : s.fget pTime F.TIME_CTRL_ARM = 0) (hst : s.timeState = 2)
    (hlo : s.time.expect ≤ s.now + 2000) (hhi : s.now ≤ s.time.expect + 2000) :
    ppsPulse high s = s.discipline s.now s.time.expect := by
  unfold ppsPulse
  rw [if_neg (by simp [hp, hh])]
  dsimp only
  rw [if_neg (by omega), if_neg (by omega), if_pos (.inl hst), if_pos ⟨hlo, hhi⟩, if_neg (by omega)]

/-! ### Slots (R527, R528) -/

/-- A slot of a LOCKED unit that ends without a pulse. -/
theorem slotEnd_locked (hst : s.timeState = 2) : (slotEnd s).time.expect = s.time.expect + 1000000000
    ∧ (slotEnd s).timeState = (if s.fget pTime F.TIME_STAT_REJ_RUN < 2 then 2 else 3)
    ∧ (slotEnd s).fget pTime F.TIME_STAT_REJ_RUN = min 3 (s.fget pTime F.TIME_STAT_REJ_RUN + 1) := by
  have hlt : s.fget pTime F.TIME_STAT_REJ_RUN < 4 := s.fget_lt pTime F.TIME_STAT_REJ_RUN
  let u : State := { s with time := { s.time with expect := s.time.expect + 1000000000 } }
  have hu : u.regsOk := h
  have h1 : (u.finc pTime F.TIME_CNT_REJECTED).regsOk := State.regsOk_finc hu _ _ _
  have hrun : (u.finc pTime F.TIME_CNT_REJECTED).fget pTime F.TIME_STAT_REJ_RUN = s.fget pTime F.TIME_STAT_REJ_RUN :=
    State.fget_finc_ne hu _ _ rfl (by decide)
  have hsame : (u.finc pTime F.TIME_CNT_REJECTED).fget pTime F.TIME_STAT_STATE = s.timeState :=
    State.fget_finc_ne hu _ _ rfl (by decide)
  unfold slotEnd
  dsimp only
  rw [if_neg (by simp [hp, hst]), if_neg (by omega), hrun]
  split
  · refine ⟨by rw [State.event_time]; rfl, ?_, ?_⟩
    · rw [State.timeState, State.fget_event _ _ _ _ (by decide), State.fget_fset_ne _ _ _ _ _ h1 rfl (by decide)]
      exact hsame.trans hst
    · rw [State.fget_event _ _ _ _ (by decide), State.fget_fset _ _ _ _ h1 rfl, show F.TIME_STAT_REJ_RUN.hi = 9 from rfl,
        show F.TIME_STAT_REJ_RUN.lo = 8 from rfl]
      omega
  · have h2 := State.regsOk_fset h1 pTime F.TIME_STAT_REJ_RUN 3
    refine ⟨by rw [State.event_time]; rfl, ?_, ?_⟩
    · rw [State.timeState, State.fget_event _ _ _ _ (by decide)]
      exact State.fget_fset _ _ _ _ h2 rfl
    · rw [State.fget_event _ _ _ _ (by decide), State.setTimeState, State.fget_fset_ne _ _ _ _ _ h2 rfl (by decide),
        State.fget_fset _ _ _ _ h1 rfl, show F.TIME_STAT_REJ_RUN.hi = 9 from rfl, show F.TIME_STAT_REJ_RUN.lo = 8 from rfl]
      omega

end

end Sys2Proof.Machine
end

section
open Sys2Proof Sys2Proof.Machine

/-- Settles O46: a cycle adds `State.cycleStep`, and each pulse and each end of a slot is the branch that its hypotheses
take, with the registers that it writes. -/
theorem timeCommands : Obligations.TimeCommands := by
  unfold Obligations.TimeCommands
  intro s h hp
  refine ⟨fun hq hreset => ⟨s.idle, ?_, ⟨s.cycleStep, s.cycleStep_le, State.now_idle h hp hreset⟩, fun hspan htrim hacc hdef => ?_⟩,
    fun high hh harm => ⟨_, rfl, ppsPulse_arm h hp hh harm⟩,
    fun high hh harm hst hlo hhi => ⟨_, rfl, ppsPulse_locks h hp hh harm hst hlo hhi⟩,
    fun high hh harm hst hlo hhi => ⟨_, rfl, ?_⟩, fun hst => ⟨_, rfl, slotEnd_locked h hp hst⟩,
    fun hst => congrArg Host.Outcome.next (if_pos ⟨hp, hst⟩), fun hst => congrArg Host.Outcome.next (if_pos ⟨hp, hst⟩)⟩
  · unfold step
    rw [hq]
  · rw [State.now_idle h hp hreset, s.cycleStep_steady hspan htrim hacc hdef]
  · rw [ppsPulse_accepted hp hh harm hst hlo hhi]
    obtain ⟨hs, htrim, hexp, hrun⟩ := State.discipline_fields h s.now s.time.expect
    exact ⟨hs.trans hst, htrim, hexp, hrun⟩

end


section
/-! SUPPORT. The part of the state that the upkeep commands leave as it is (obligation O6). -/
namespace Sys2Proof.Machine

/-- From s to t, what the upkeep commands leave alone is as it was: memory, cores, transaction slots, key slots, the
replay-protected block, held accesses, the Zwikai exchange, the queue and the fabric engines that stalled. -/
structure State.SamePayload (s t : State) : Prop where
  mem : t.mem = s.mem
  cores : t.cores = s.cores
  slots : t.slots = s.slots
  keys : t.sec.keys = s.sec.keys
  rpb : t.rpb = s.rpb
  held : t.held = s.held
  zwk : t.zwk = s.zwk
  pending : t.pending = s.pending
  stalled : t.fab.stalled = s.fab.stalled

namespace State.SamePayload

theorem refl (s : State) : s.SamePayload s := ⟨rfl, rfl, rfl, rfl, rfl, rfl, rfl, rfl, rfl⟩

variable {s t u : State}

theorem trans (h : s.SamePayload t) (g : t.SamePayload u) : s.SamePayload u :=
  ⟨g.mem.trans h.mem, g.cores.trans h.cores, g.slots.trans h.slots, g.keys.trans h.keys, g.rpb.trans h.rpb,
    g.held.trans h.held, g.zwk.trans h.zwk, g.pending.trans h.pending, g.stalled.trans h.stalled⟩

theorem ite {c : Prop} [Decidable c] (ht : s.SamePayload t) (hu : s.SamePayload u) :
    s.SamePayload (if c then t else u) := by
  split
  · exact ht
  · exact hu

/-- Nothing that waits for a lock shows outside this part of the state. -/
theorem quiet (h : s.SamePayload t) (hs : s.quiet) : t.quiet := by
  unfold State.quiet
  rw [h.held, h.stalled, h.cores]
  exact hs

/-! ### State operations -/

section
variable (h : s.SamePayload t)
include h

theorem withPwr {x : PwrSt} : s.SamePayload { t with pwr := x } := h.trans ⟨rfl, rfl, rfl, rfl, rfl, rfl, rfl, rfl, rfl⟩
theorem withTime {x : TimeSt} : s.SamePayload { t with time := x } :=
  h.trans ⟨rfl, rfl, rfl, rfl, rfl, rfl, rfl, rfl, rfl⟩
theorem withBoot {x : BootSt} : s.SamePayload { t with boot := x } :=
  h.trans ⟨rfl, rfl, rfl, rfl, rfl, rfl, rfl, rfl, rfl⟩
theorem withLogs {x : Logs} : s.SamePayload { t with logs := x } :=
  h.trans ⟨rfl, rfl, rfl, rfl, rfl, rfl, rfl, rfl, rfl⟩
theorem withMctp {x : MctpSt} : s.SamePayload { t with mctp := x } :=
  h.trans ⟨rfl, rfl, rfl, rfl, rfl, rfl, rfl, rfl, rfl⟩
theorem drawBytes {n : ℕ} : s.SamePayload (t.drawBytes n).2 := h.trans ⟨rfl, rfl, rfl, rfl, rfl, rfl, rfl, rfl, rfl⟩
theorem setReg {a : ℕ} {v : Word} : s.SamePayload (t.setReg a v) :=
  h.trans ⟨rfl, rfl, rfl, rfl, rfl, rfl, rfl, rfl, rfl⟩
theorem send {o : Out} : s.SamePayload (t.send o) := h.trans ⟨rfl, rfl, rfl, rfl, rfl, rfl, rfl, rfl, rfl⟩
theorem setHbmc {n : ℕ} {x : HbmCtl} : s.SamePayload (t.setHbmc n x) :=
  h.trans ⟨rfl, rfl, rfl, rfl, rfl, rfl, rfl, rfl, rfl⟩
theorem setLink {n : ℕ} {l : LinkSt} : s.SamePayload (t.setLink n l) :=
  h.trans ⟨rfl, rfl, rfl, rfl, rfl, rfl, rfl, rfl, rfl⟩
theorem event {p : ℕ} {f : FRef} : s.SamePayload (t.event p f) := h.trans (by constructor <;> simp)
theorem logEvent {b i v c d : ℕ} : s.SamePayload (t.logEvent b i v c d) := h.trans (by constructor <;> simp)
theorem modHbmc {n : ℕ} {f : HbmCtl → HbmCtl} : s.SamePayload (t.modHbmc n f) := h.setHbmc
theorem fset {p : ℕ} {f : FRef} {v : ℕ} : s.SamePayload (t.fset p f v) := h.setReg
theorem finc {p : ℕ} {f : FRef} {n : ℕ} : s.SamePayload (t.finc p f n) := h.fset
theorem inc64 {p : ℕ} {f : FRef} {n : ℕ} : s.SamePayload (t.inc64 p f n) := h.setReg.setReg
theorem setPair64 {a v : ℕ} : s.SamePayload (t.setPair64 a v) := h.setReg.setReg
theorem logRepair {b i v c d : ℕ} : s.SamePayload (t.logRepair b i v c d) := .ite h.withLogs h.event.fset
theorem refreshDeg : s.SamePayload t.refreshDeg := .ite h h.fset.fset.event

theorem foldl {β : Type} {f : State → β → State} {l : List β} (hf : ∀ u x, s.SamePayload u → s.SamePayload (f u x)) :
    s.SamePayload (l.foldl f t) := by
  induction l generalizing t with
  | nil => exact h
  | cons x l ih => exact ih (hf t x h)

/-! ### Operations that several commands share -/

theorem setP {n : ℕ} : s.SamePayload (t.setP n) := .ite h h.fset.event
theorem pwrUpdate : s.SamePayload t.pwrUpdate := .ite (.ite h.setP h) (.ite (.ite h.setP h) h)
theorem setDuty {d : ℕ} : s.SamePayload (t.setDuty d) := .pwrUpdate (.ite h.fset.event h.fset)
theorem cutDuty {d : ℕ} : s.SamePayload (t.cutDuty d) := .ite h.setDuty h.pwrUpdate
theorem setAck {n : ℕ} : s.SamePayload (t.setAck n) := h.fset
theorem enterP2 : s.SamePayload t.enterP2 := .ite h.setP h
theorem setTimeState {n : ℕ} : s.SamePayload (t.setTimeState n) := h.fset
theorem startSlew {e : ℤ} {n : ℕ} : s.SamePayload (t.startSlew e n) := h.withTime
theorem discipline {x e : ℕ} : s.SamePayload (t.discipline x e) := h.setPair64.setReg.setReg.finc.fset.startSlew.withTime
theorem pendPc {n pc : ℕ} : s.SamePayload (t.pendPc n pc) := h.setReg.event
theorem hbmFail {n old : ℕ} : s.SamePayload (t.hbmFail n old) := h.modHbmc.event.logEvent.refreshDeg
theorem trained {n : ℕ} {ok : Bool} : s.SamePayload (t.trained n ok) :=
  .ite h (.ite h.setHbmc (.ite h.hbmFail h.setHbmc))
theorem setFp {n st : ℕ} : s.SamePayload (t.setFp n st) := .ite h h.fset.event.refreshDeg
theorem fpFail {n good : ℕ} : s.SamePayload (t.fpFail n good) := h.setLink.logEvent.fset.fset.fset.setFp
theorem newFlit {n : ℕ} {x : Option Packet × List Byte} : s.SamePayload (t.newFlit n x) := by
  unfold State.newFlit
  cases x.1 <;> exact h.trans ⟨rfl, rfl, rfl, rfl, rfl, rfl, rfl, rfl, rfl⟩
theorem putFlit {n : ℕ} {f : Flit} : s.SamePayload (t.putFlit n f) := h.send
theorem pump {n : ℕ} : s.SamePayload (t.pump n) := .ite h (h.setLink.foldl fun _ _ h₁ => h₁.newFlit)
theorem replayFrom {n seq : ℕ} : s.SamePayload (t.replayFrom n seq) := h.foldl fun _ _ h₁ => h₁.putFlit
theorem replayAll {n : ℕ} : s.SamePayload (t.replayAll n) := (h.foldl fun _ _ h₁ => h₁.putFlit).pump
theorem fpTrained {n : ℕ} {r : TrainResult} : s.SamePayload (t.fpTrained n r) := by
  unfold State.fpTrained
  dsimp only
  split
  · exact h.fpFail
  · exact h.fset.fset.fset.setReg.setFp.replayAll
theorem flitTake {n : ℕ} {f : FlitRx} : s.SamePayload (t.flitTake n f) := by
  refine .ite h (.pump ?_)
  split
  · exact h.setLink.replayFrom
  · exact h.setLink
theorem setSite {n st rate : ℕ} : s.SamePayload (t.setSite n st rate) := .ite h.fset.fset h.fset.fset.event.refreshDeg
theorem setHostLink {p : HostPort} {l : HostLink} : s.SamePayload (t.setHostLink p l) := .ite h h.setReg.event.refreshDeg
theorem rxFrame {n : ℕ} {bs : List Byte} : s.SamePayload (t.rxFrame n bs).1 := by
  unfold State.rxFrame
  split
  · exact h
  · split <;> exact h.setReg
theorem setPhase {n : ℕ} : s.SamePayload (t.setPhase n) := .ite h h.fset.event
theorem mctpAnswer {i : Fin 32} {c cc : ℕ} {d : List Byte} : s.SamePayload (t.mctpAnswer i c cc d) := h.send
theorem telemetry {c cc : ℕ} {r : List Byte} : s.SamePayload (t.telemetry c cc r) := h.send
theorem record {c : ℕ} {b : Bool} {r : List Byte} : s.SamePayload (t.record c b r) :=
  .ite h (.ite h.telemetry h.telemetry)

end
end State.SamePayload

/-! ### The commands of power, time and the clock -/

section
open State (SamePayload)
variable (s : State)

theorem powerTick_samePayload (p a m : ℕ) : s.SamePayload (powerTick p a m s) :=
  have h := (SamePayload.refl s).fset.fset.inc64
  .ite (.refl s) (.ite (.ite h.cutDuty.withPwr h.cutDuty) h)

theorem dutyStep_samePayload : s.SamePayload (dutyStep s) :=
  have h := SamePayload.refl s
  .ite h (.ite h.setDuty (.ite h.setDuty h))

theorem throttleAssert_samePayload : s.SamePayload (throttleAssert s) :=
  have h := SamePayload.refl s
  .ite h (.ite h.fset.setAck (.ite h.fset.withPwr.cutDuty.event.setAck h.fset.withPwr.cutDuty.event))

theorem throttleAck_samePayload : s.SamePayload (throttleAck s) :=
  have h := SamePayload.refl s
  .ite h.setAck h

theorem throttleCheck_samePayload : s.SamePayload (throttleCheck s) :=
  have h := SamePayload.refl s
  .ite h (.ite h.setDuty (.ite h.cutDuty h))

theorem throttleRelease_samePayload : s.SamePayload (throttleRelease s) :=
  have h := SamePayload.refl s
  .ite h h.fset.setAck.withPwr.pwrUpdate

theorem throttleRamp_samePayload : s.SamePayload (throttleRamp s) :=
  have h := SamePayload.refl s
  .ite h h.withPwr.setDuty

theorem thrLong_samePayload : s.SamePayload (thrLong s) :=
  have h := SamePayload.refl s
  .ite h.withPwr.event h

theorem refclkWindow_samePayload (hz : ℕ) : s.SamePayload (refclkWindow hz s) :=
  have h := SamePayload.refl s
  .ite h (.ite h.fset.withPwr (.ite h.fset.finc.withPwr.event.logEvent.fset.event.refreshDeg h.fset.finc.withPwr))

theorem idleTimeout_samePayload : s.SamePayload (idleTimeout s) :=
  have h := SamePayload.refl s
  .ite h.enterP2 h

theorem ppsPulse_samePayload (high : ℕ) : s.SamePayload (ppsPulse high s) := by
  have h := SamePayload.refl s
  refine .ite h ?_
  refine .ite h.setPair64.setPair64.fset.fset.withTime.setTimeState.event ?_
  refine .ite (.ite h.setReg.setPair64.startSlew.withTime.setTimeState.event h.setTimeState.event) ?_
  exact .ite (.ite (.ite h.discipline.setTimeState.event h.discipline) h) h

theorem slotEnd_samePayload : s.SamePayload (slotEnd s) :=
  have h := SamePayload.refl s
  .ite h (.ite h.withTime.finc (.ite h.withTime.finc.fset.event h.withTime.finc.fset.setTimeState.event))

theorem acquireTimeout_samePayload : s.SamePayload (acquireTimeout s) :=
  have h := SamePayload.refl s
  .ite h.setTimeState.event h

theorem ppsEcho_samePayload : s.SamePayload (ppsEcho s) :=
  have h := SamePayload.refl s
  .ite h.send h

/-! ### The start and the log -/

theorem heartbeat_samePayload : s.SamePayload (heartbeat s) :=
  have h := SamePayload.refl s
  .ite h h.withBoot.send

theorem runPhase_samePayload : s.SamePayload (runPhase s) :=
  have h := SamePayload.refl s
  .ite h.setPhase h

theorem logCoalesceFlush_samePayload : s.SamePayload (logCoalesceFlush s) :=
  have h := SamePayload.refl s
  .ite h.withLogs h

/-! ### HBM -/

theorem hbmRefresh_samePayload (n : HbmId) : s.SamePayload (hbmRefresh n s) :=
  have h := SamePayload.refl s
  .ite h.modHbmc h

theorem hbmTempRead_samePayload (n : HbmId) (x : ℤ) : s.SamePayload (hbmTempRead n x s) := by
  have h := SamePayload.refl s
  refine .ite h (.ite ?_ h.setHbmc.fset.event)
  exact .ite (.ite h.setHbmc.fset.fset.event.event h.setHbmc.fset.fset.event) h.setHbmc.fset.fset

theorem softPpr_samePayload (n : HbmId) (spare : Bool) : s.SamePayload (softPpr n spare s) := by
  have h := SamePayload.refl s
  unfold softPpr
  dsimp only
  split
  · exact h
  · exact .ite h (.ite h.logRepair.setHbmc h.setHbmc.finc.event.pendPc)

theorem stackNoAnswer_samePayload (n : HbmId) : s.SamePayload (stackNoAnswer n s) :=
  have h := SamePayload.refl s
  .ite h.hbmFail h

theorem pcSelfRefresh_samePayload (n : HbmId) (pc : Fin 32) : s.SamePayload (pcSelfRefresh n pc s) :=
  have h := SamePayload.refl s
  .ite h.modHbmc h

/-! ### Links -/

theorem portTraining_samePayload (n : FpId) (r : TrainResult) : s.SamePayload (portTraining n r s) :=
  have h := SamePayload.refl s
  .ite h.fpTrained h

theorem trainingTimeout_samePayload (n : FpId) : s.SamePayload (trainingTimeout n s) :=
  have h := SamePayload.refl s
  .ite h.fpFail h

theorem laneFailure_samePayload (n : FpId) (l : Fin 9) : s.SamePayload (laneFailure n l s) :=
  have h := SamePayload.refl s
  .ite h h.logRepair.fset.fset.finc.setFp

theorem retrainDone_samePayload (n : FpId) (r : TrainResult) : s.SamePayload (retrainDone n r s) :=
  have h := SamePayload.refl s
  .ite h.fpTrained h

theorem retrainTimeout_samePayload (n : FpId) : s.SamePayload (retrainTimeout n s) :=
  have h := SamePayload.refl s
  .ite h.fpFail h

theorem flitReceive_samePayload (n : FpId) (f : FlitRx) : s.SamePayload (flitReceive n f s) := by
  have h := SamePayload.refl s
  have hc := SamePayload.ite (c := f.corrected = true) (h.finc (p := pFp n) (f := F.FP_LINK_CNT1_FEC_CORR) (n := 1)) h
  exact .ite h (.ite hc.flitTake (.ite hc.finc hc.finc.setLink.finc.send))

theorem siteLinkUp_samePayload (n : SiteId) (r : Fin 4) : s.SamePayload (siteLinkUp n r s) :=
  have h := SamePayload.refl s
  .ite h.setSite h

theorem siteLinkFailed_samePayload (n : SiteId) : s.SamePayload (siteLinkFailed n s) :=
  have h := SamePayload.refl s
  .ite h.setSite h

theorem hostLinkChange_samePayload (p : HostPort) (l : HostLink) : s.SamePayload (hostLinkChange p l s) :=
  have h := SamePayload.refl s
  .ite h h.setHostLink

theorem frameDrop_samePayload (f : FrameIn) : s.SamePayload (frameDrop f s) := by
  have h := SamePayload.refl s
  unfold frameDrop
  split
  next u heq =>
    have hu : (s.rxFrame f.site f.bytes).1 = u := congrArg Prod.fst heq
    exact hu ▸ h.rxFrame
  next => exact h

theorem configRetry_samePayload (c : ConfigIn) : s.SamePayload (configRetry c s) :=
  have h := SamePayload.refl s
  .ite (.ite h.send h.send) h

/-! ### The SMBus interface -/

theorem setEndpointId_samePayload (i : Fin 32) (op : Fin 4) (e : Byte) : s.SamePayload (setEndpointId i op e s) :=
  have h := SamePayload.refl s
  .ite h (.ite h.mctpAnswer h.withMctp.mctpAnswer)

theorem getEndpointId_samePayload (i : Fin 32) : s.SamePayload (getEndpointId i s) :=
  have h := SamePayload.refl s
  .ite h.mctpAnswer h

theorem getMctpVersionSupport_samePayload (i : Fin 32) (y : Byte) : s.SamePayload (getMctpVersionSupport i y s) :=
  have h := SamePayload.refl s
  .ite h (.ite h.drawBytes.mctpAnswer h.mctpAnswer)

theorem getMessageTypeSupport_samePayload (i : Fin 32) : s.SamePayload (getMessageTypeSupport i s) :=
  have h := SamePayload.refl s
  .ite h.mctpAnswer h

theorem getVendorDefinedMsgSupport_samePayload (i : Fin 32) (y : Byte) :
    s.SamePayload (getVendorDefinedMsgSupport i y s) :=
  have h := SamePayload.refl s
  .ite h (.ite h.mctpAnswer h.drawBytes.mctpAnswer)

theorem mctpStatus_samePayload (c : Byte) : s.SamePayload (mctpStatus c s) :=
  have h := SamePayload.refl s
  .ite h (.ite h.telemetry (.ite h h.telemetry))

theorem mctpLog_samePayload (i : BitVec 16) (x : Byte) : s.SamePayload (mctpLog i x s) := by
  have h := SamePayload.refl s
  unfold mctpLog
  dsimp only
  refine .ite h.record (.ite h.telemetry ?_)
  split
  · exact h.record
  · exact h.drawBytes.record

end
end Sys2Proof.Machine
end

section
open Sys2Proof Sys2Proof.Machine

/-- Settles O6: each of these commands is made of operations that keep this part of the state; after STACK_NO_ANSWER a
quiet machine is still quiet, so that nothing goes on. -/
theorem upkeepFrame : Obligations.UpkeepFrame := by
  unfold Obligations.UpkeepFrame
  intro s t c hc ht
  have of_same : ∀ u : State, s.SamePayload u → exec c s = .next u →
      t.mem = s.mem ∧ t.cores = s.cores ∧ t.slots = s.slots ∧ t.sec.keys = s.sec.keys ∧ t.rpb = s.rpb ∧ t.held = s.held
        ∧ t.zwk = s.zwk ∧ t.pending = s.pending := by
    intro u h hu
    cases hu.symm.trans ht
    exact ⟨h.mem, h.cores, h.slots, h.keys, h.rpb, h.held, h.zwk, h.pending⟩
  rcases hc with ⟨p, a, m, rfl⟩ | hc | ⟨x, rfl⟩ | ⟨x, rfl⟩ | ⟨n, rfl | ⟨rfl, hq⟩⟩ | ⟨n, x, rfl⟩ | ⟨n, b, rfl⟩ | ⟨n, p, rfl⟩
    | ⟨n, b, rfl⟩ | ⟨n, x, rfl | rfl⟩ | ⟨n, rfl | rfl⟩ | ⟨n, l, rfl⟩ | ⟨n, f, rfl⟩ | ⟨n, r, rfl | rfl⟩ | ⟨f, rfl⟩
    | ⟨p, l, rfl⟩ | ⟨x, rfl⟩ | ⟨b, rfl⟩ | ⟨i, x, rfl⟩ | ⟨i, o, e, rfl⟩ | ⟨i, rfl | rfl⟩ | ⟨i, y, rfl | rfl⟩
  · exact of_same _ (powerTick_samePayload s p a m) rfl
  · simp only [List.mem_cons, List.not_mem_nil, or_false] at hc
    rcases hc with rfl | rfl | rfl | rfl | rfl | rfl | rfl | rfl | rfl | rfl | rfl | rfl | rfl | rfl | rfl | rfl | rfl | rfl
    · exact of_same _ (dutyStep_samePayload s) rfl
    · exact of_same _ (throttleAssert_samePayload s) rfl
    · exact of_same _ (throttleAck_samePayload s) rfl
    · exact of_same _ (throttleCheck_samePayload s) rfl
    · exact of_same _ (throttleRelease_samePayload s) rfl
    · exact of_same _ (throttleRamp_samePayload s) rfl
    · exact of_same _ (thrLong_samePayload s) rfl
    · exact of_same _ (idleTimeout_samePayload s) rfl
    · exact of_same _ (slotEnd_samePayload s) rfl
    · exact of_same _ (acquireTimeout_samePayload s) rfl
    · exact of_same _ (ppsEcho_samePayload s) rfl
    · exact of_same _ (heartbeat_samePayload s) rfl
    · exact of_same _ (runPhase_samePayload s) rfl
    · exact of_same _ (logCoalesceFlush_samePayload s) rfl
    · exact of_same _ (State.SamePayload.refl s).record rfl
    · exact of_same _ (State.SamePayload.refl s).record rfl
    · exact of_same _ (State.SamePayload.refl s).record rfl
    · exact of_same _ (State.SamePayload.refl s) rfl
  · exact of_same _ (ppsPulse_samePayload s x) rfl
  · exact of_same _ (refclkWindow_samePayload s x) rfl
  · exact of_same _ (hbmRefresh_samePayload s n) rfl
  · have h := stackNoAnswer_samePayload s n
    exact of_same _ h (congrArg Host.Outcome.next (State.settle_quiet _ (h.quiet hq)))
  · exact of_same _ (hbmTempRead_samePayload s n x) rfl
  · exact of_same _ (softPpr_samePayload s n b) rfl
  · exact of_same _ (pcSelfRefresh_samePayload s n p) rfl
  · exact of_same _ (State.SamePayload.refl s).trained rfl
  · exact of_same _ (portTraining_samePayload s n x) rfl
  · exact of_same _ (retrainDone_samePayload s n x) rfl
  · exact of_same _ (trainingTimeout_samePayload s n) rfl
  · exact of_same _ (retrainTimeout_samePayload s n) rfl
  · exact of_same _ (laneFailure_samePayload s n l) rfl
  · exact of_same _ (flitReceive_samePayload s n f) rfl
  · exact of_same _ (siteLinkUp_samePayload s n r) rfl
  · exact of_same _ (siteLinkFailed_samePayload s n) rfl
  · exact of_same _ (frameDrop_samePayload s f) rfl
  · exact of_same _ (hostLinkChange_samePayload s p l) rfl
  · exact of_same _ (configRetry_samePayload s x) rfl
  · exact of_same _ (mctpStatus_samePayload s b) rfl
  · exact of_same _ (mctpLog_samePayload s i x) rfl
  · exact of_same _ (setEndpointId_samePayload s i o e) rfl
  · exact of_same _ (getEndpointId_samePayload s i) rfl
  · exact of_same _ (getMessageTypeSupport_samePayload s i) rfl
  · exact of_same _ (getMctpVersionSupport_samePayload s i y) rfl
  · exact of_same _ (getVendorDefinedMsgSupport_samePayload s i y) rfl
end


section
/-! SUPPORT. Page events and their interrupts (R464, R465). -/
namespace Sys2Proof.Machine

theorem bit_and (x y : Word) (i : ℕ) : bit (x &&& y) i = (bit x i && bit y i) := by
  unfold bit
  rw [BitVec.toNat_and, Nat.testBit_and]

theorem bit_or (x y : Word) (i : ℕ) : bit (x ||| y) i = (bit x i || bit y i) := by
  unfold bit
  rw [BitVec.toNat_or, Nat.testBit_or]

theorem bit_maskBits_self {b : ℕ} (hb : b < 32) (i : ℕ) : bit (maskBits b b) i = decide (i = b) := by
  unfold bit
  rw [testBit_maskBits b b i hb le_rfl]
  exact decide_eq_decide.mpr ⟨fun h => by omega, fun h => by omega⟩

theorem eq_zero_iff_bit (w : Word) : w = 0 ↔ ∀ i, bit w i = false := by
  constructor
  · rintro rfl i
    exact Nat.zero_testBit i
  · intro h
    exact BitVec.eq_of_toNat_eq (Nat.eq_of_testBit_eq fun i => (h i).trans (Nat.zero_testBit i).symm)

/-- Of a page's events and a single one more, something is enabled when something was or when that one is. -/
theorem and_ne_zero_of_or_maskBits (x e : Word) {b : ℕ} (hb : b < 32) :
    ((x ||| maskBits b b) &&& e != 0) = ((x &&& e != 0) || bit e b) := by
  rw [Bool.eq_iff_iff]
  simp only [bne_iff_ne, Bool.or_eq_true, ne_eq, eq_zero_iff_bit, bit_and, bit_or, bit_maskBits_self hb]
  constructor
  · intro h
    by_contra hn
    obtain ⟨hx, he⟩ := not_or.mp hn
    refine h fun i => ?_
    by_cases hi : i = b
    · rw [hi, Bool.not_eq_true _ |>.mp he, Bool.and_false]
    · rw [decide_eq_false hi, Bool.or_false, not_not.mp hx i]
  · rintro (hx | he) h
    · refine hx fun i => ?_
      have := h i
      cases hxi : bit x i <;> simp_all
    · simpa [he] using h b

namespace State
variable {s : State} {p b : ℕ}

/-- INT of a page once its event b is set. -/
theorem intOf_setEvt (h : s.regsOk) (hb : b < 32) :
    (s.setReg (p + 0x010) (s.reg (p + 0x010) ||| maskBits b b)).intOf p = (s.intOf p || bit (s.reg (p + 0x014)) b) := by
  unfold intOf
  rw [reg_setReg _ _ _ h, reg_setReg_ne _ (by omega)]
  exact and_ne_zero_of_or_maskBits _ _ hb

/-- The vector of a page, on the ports that its ROUTE names. -/
theorem sendInt_out : (s.sendInt p).out
    = s.out ++ (if s.fget p F.PG_CTRL_ROUTE % 2 = 1 then [Out.msix .a (s.fget p F.PG_CTRL_VEC)] else [])
        ++ (if s.fget p F.PG_CTRL_ROUTE / 2 = 1 then [Out.msix .b (s.fget p F.PG_CTRL_VEC)] else []) := by
  unfold sendInt
  dsimp only
  split <;> split <;> simp [send]

theorem countEvt_out : (s.countEvt p b).out = s.out := by
  unfold countEvt
  split <;> rfl

theorem reg_countEvt {a : ℕ} (hlo : a ≠ p + 0x030) (hhi : a ≠ p + 0x034) : (s.countEvt p b).reg a = s.reg a := by
  unfold countEvt
  split
  · exact reg_inc64_ne _ _ _ _ hlo hhi
  · rfl

theorem reg_raise_evt (h : s.regsOk) : (s.raise p b).reg (p + 0x010) = s.reg (p + 0x010) ||| maskBits b b :=
  (reg_countEvt (by omega) (by omega)).trans ((reg_of_regs (s.withInt_regs p _) _).trans (reg_setReg _ _ _ h))

theorem reg_raise_ne {a : ℕ} (hevt : a ≠ p + 0x010) (hlo : a ≠ p + 0x030) (hhi : a ≠ p + 0x034) :
    (s.raise p b).reg a = s.reg a :=
  (reg_countEvt hlo hhi).trans ((reg_of_regs (s.withInt_regs p _) _).trans (reg_setReg_ne _ hevt _))

/-- A raised event sends the vector of its page exactly when INT rises. -/
theorem raise_out (h : s.regsOk) (hb : b < 32) : (s.raise p b).out
    = if s.intOf p = false ∧ bit (s.reg (p + 0x014)) b = true then (s.sendInt p).out else s.out := by
  refine countEvt_out.trans ?_
  unfold withInt
  dsimp only
  rw [intOf_setEvt h hb]
  have hroute := s.fget_setReg_ne (p + 0x010) (s.reg (p + 0x010) ||| maskBits b b) p F.PG_CTRL_ROUTE
    (by simp [F.PG_CTRL_ROUTE])
  have hvec := s.fget_setReg_ne (p + 0x010) (s.reg (p + 0x010) ||| maskBits b b) p F.PG_CTRL_VEC
    (by simp [F.PG_CTRL_VEC])
  cases s.intOf p <;> cases bit (s.reg (p + 0x014)) b <;> simp [sendInt_out, hroute, hvec]
end State
end Sys2Proof.Machine
end

section
open Sys2Proof Sys2Proof.Machine

/-- Settles O28: PG_EVT takes the bit, the event counter is all else that may change, and the vector leaves when INT
rises. -/
theorem eventsSendVectors : Obligations.EventsSendVectors := by
  unfold Obligations.EventsSendVectors
  intro s p b hb hs
  refine ⟨fun i _ => ?_, fun a hevt hlo hhi => State.reg_raise_ne hevt hlo hhi, fun hno => ?_, fun hlow hen => ?_,
    s.raise_mem p b, s.raise_cores p b⟩
  · rw [State.reg_raise_evt hs, bit_or, bit_maskBits_self hb]
  · refine (State.raise_out hs hb).trans (if_neg ?_)
    rintro ⟨hlow, hen⟩
    rcases hno with h | h
    · exact Bool.noConfusion (h.symm.trans hlow)
    · exact Bool.noConfusion (h.symm.trans hen)
  · exact (State.raise_out hs hb).trans ((if_pos ⟨hlow, hen⟩).trans State.sendInt_out)
end


section
/-! SUPPORT. Served reads and writes of registers: what a read answers and clears, latches, and LOG_DATA (R451 to R457,
R554). -/
namespace Sys2Proof.Machine

namespace State
variable {s t : State}

/-! ### What admits an access -/

/-- What admits the accesses of a requester. -/
theorem rqLive_congr (hb : t.boot = s.boot) (hst : t.straps = s.straps) (hp : t.pState = s.pState) (rq : Requester) : t.rqLive rq = s.rqLive rq := by
  have hon : t.hostOn = s.hostOn := by unfold hostOn hostCfg; rw [hst]
  unfold rqLive live powered
  rw [hb, hp, hon]

theorem loadLive_congr (hb : t.boot = s.boot) (hst : t.straps = s.straps) (hp : t.pState = s.pState) (rq : Requester) :
    t.loadLive rq = s.loadLive rq := by
  have hon : t.hostOn = s.hostOn := by unfold hostOn hostCfg; rw [hst]
  unfold loadLive loadPort powered
  rw [hb, hp, hon]

theorem regHeld_congr (hs : t.slots = s.slots) (hu : t.units = s.units) (hw : t.wear = s.wear) (a : ℕ) :
    t.regHeld a = s.regHeld a := by
  unfold regHeld coreHeld
  rw [lockedReg_congr hs hu, hw]

theorem serves_congr (hb : t.boot = s.boot) (hs : t.slots = s.slots) (hu : t.units = s.units) (hw : t.wear = s.wear)
    (hi : t.idxAddr = s.idxAddr) (hst : t.straps = s.straps) (hp : t.pState = s.pState)
    (ho : t.fget pOgs F.OGS_CFG_REG_REMOTE = s.fget pOgs F.OGS_CFG_REG_REMOTE) (rq : Requester) (a : ℕ) :
    t.serves rq a ↔ s.serves rq a := by
  have htarget : t.regTarget rq a = s.regTarget rq a := by unfold regTarget idxOf; rw [hi]
  unfold serves
  rw [loadLive_congr hb hst hp, rqLive_congr hb hst hp, ho, htarget, regHeld_congr hs hu hw]

/-! ### Reads -/

/-- A read at which no latched value waits answers what the register reads as. -/
theorem readLoc_value {rq : Requester} {r : RegAt} (h : s.noLatch rq (r.page + r.off)) : (s.readLoc rq r).2
    = ({ s with freeCtr := s.freeCtr + 1 } : State).regValue r.blk r.num r.inst r.page r.off (Config.freeWord s.freeCtr) := by
  unfold noLatch at h
  simp only [readLoc, draw, h]

/-- A read of a register without a _HI word, at which no latched value waits, has the effects of its page alone. -/
theorem readLoc_state {rq : Requester} {r : RegAt} (h : s.noLatch rq (r.page + r.off)) (hlo : r.blk.los.contains r.off = false) :
    (s.readLoc rq r).1 = ({ s with freeCtr := s.freeCtr + 1 } : State).readEffect rq r := by
  unfold noLatch at h
  simp only [readLoc, draw, h, hlo, Option.isSome_none, Bool.false_eq_true, if_false]

/-- A read at which a latched value waits answers it. -/
theorem readLoc_latched {rq : Requester} {r : RegAt} {l : ℕ × ℕ × Word}
    (h : (s.latches.find? fun l => l.1 == rqNo rq && l.2.1 == r.page + r.off) = some l) : (s.readLoc rq r).2 = l.2.2 := by
  simp only [readLoc, draw, h]

/-- A served read of a core's register. -/
theorem readAcc_core {n : CoreId} {ph off : ℕ} {rq : Requester} (h : s.phys n.val = some ph) (ho : off < 0x400)
    (h4 : off % 4 = 0) (hs : s.serves rq (coreA n off)) : s.readAcc ⟨rq, coreA n off⟩
      = (s.readLoc rq (coreReg n ph off 0)).1.send (.regData rq (some (s.readLoc rq (coreReg n ph off 0)).2)) :=
  s.readAcc_loc rq _ _ hs (s.regLoc_core n ph off 0 h ho h4) fun k => isIdx_core n _ k

/-- The registers of a core beyond the common header read as they are kept, but for two status registers. -/
theorem regValue_core (n i p : ℕ) {off : ℕ} (free : Word) (ho : 0x040 ≤ off) (hsq : off ≠ 0x044) (hmx : off ≠ 0x144) :
    s.regValue .core n i p off free = s.reg (p + off) := by
  unfold regValue
  split
  case h_6 => exact (if_neg hsq).trans (if_neg hmx)
  all_goals omega

/-- A read of a core's register has no effect but its read-clear. -/
theorem readEffect_core (rq : Requester) (r : RegAt) (h : r.blk = .core) : s.readEffect rq r = s.clearRc r := by
  unfold readEffect
  rw [h]

theorem clearRc_none {r : RegAt} (h : accMask (r.blk.fieldsAt r.off) .rc = 0) : s.clearRc r = s := if_pos h

theorem clearRc_all {r : RegAt} (h : accMask (r.blk.fieldsAt r.off) .rc = 0xFFFFFFFF) :
    s.clearRc r = s.setReg (r.page + r.off) 0 := by
  unfold clearRc
  dsimp only
  rw [h, if_neg (by decide)]
  rw [show ~~~ (0xFFFFFFFF : Word) = 0#32 by decide]
  exact congrArg (s.setReg _) BitVec.and_zero

/-- What a read of a _LO register leaves: the _HI word is latched for the requester (R456). -/
def latched (s : State) (rq : Requester) (a : ℕ) (hi : Word) : State :=
  { s with freeCtr := s.freeCtr + 1,
           latches := s.latches.filter (fun l => !(l.1 == rqNo rq && l.2.1 == a)) ++ [(rqNo rq, a, hi)] }

theorem find_latched (rq : Requester) (a : ℕ) (hi : Word) :
    (s.latched rq a hi).latches.find? (fun l => l.1 == rqNo rq && l.2.1 == a) = some (rqNo rq, a, hi) := by
  unfold latched
  rw [List.find?_append, List.find?_filter, List.find?_eq_none.2, Option.none_or]
  · simp
  · intro l _
    cases l.1 == rqNo rq && l.2.1 == a <;> simp

theorem readLoc_lo {rq : Requester} {r : RegAt} (h : s.noLatch rq (r.page + r.off)) (hlo : r.blk.los.contains r.off = true) :
    (s.readLoc rq r).1 = (s.latched rq (r.page + r.off + 4) (({ s with freeCtr := s.freeCtr + 1 } : State).regValue r.blk
      r.num r.inst r.page (r.off + 4) (Config.freeWord s.freeCtr))).readEffect rq r := by
  unfold noLatch at h
  simp only [readLoc, draw, h, hlo, Option.isSome_none, Bool.false_eq_true, if_false, if_true]
  rfl

theorem clearRc_out (r : RegAt) : (s.clearRc r).out = s.out := by
  unfold clearRc
  dsimp only
  split <;> rfl

/-! ### Counters and _LO registers of a core -/

section
variable {n : CoreId} {ph off : ℕ} {rq : Requester} (h : s.phys n.val = some ph) (ho : off < 0x400) (h4 : off % 4 = 0)
  (hs : s.serves rq (coreA n off))
include h ho h4 hs

/-- A read of a counter of a core that reads clear. -/
theorem readAcc_counter (hl : s.noLatch rq (pCore ph + off)) (h40 : 0x040 ≤ off) (hsq : off ≠ 0x044) (hmx : off ≠ 0x144)
    (hlo : Block.core.los.contains off = false) (hrc : accMask (Block.core.fieldsAt off) .rc = 0xFFFFFFFF) :
    s.readAcc ⟨rq, coreA n off⟩ = (({ s with freeCtr := s.freeCtr + 1 } : State).setReg (pCore ph + off) 0).send
      (.regData rq (some (s.reg (pCore ph + off)))) := by
  rw [readAcc_core h ho h4 hs, readLoc_value hl, readLoc_state hl hlo, readEffect_core _ _ rfl, clearRc_all hrc]
  exact congrArg (fun v => send _ (.regData rq (some v))) (regValue_core _ _ _ _ h40 hsq hmx)

/-- A read of a _LO register of a core that does not read clear. -/
theorem readAcc_lo (hl : s.noLatch rq (pCore ph + off)) (h40 : 0x048 ≤ off) (hmx : off ≠ 0x144) (hmx4 : off ≠ 0x140)
    (hlo : Block.core.los.contains off = true) (hrc : accMask (Block.core.fieldsAt off) .rc = 0) :
    s.readAcc ⟨rq, coreA n off⟩ = (s.latched rq (pCore ph + off + 4) (s.reg (pCore ph + (off + 4)))).send
      (.regData rq (some (s.reg (pCore ph + off)))) := by
  rw [readAcc_core h ho h4 hs, readLoc_value hl, readLoc_lo hl hlo, readEffect_core _ _ rfl, clearRc_none hrc]
  have hv (o : ℕ) (h40 : 0x040 ≤ o) (hsq : o ≠ 0x044) (hm : o ≠ 0x144) :=
    regValue_core (s := { s with freeCtr := s.freeCtr + 1 }) n.val ph (pCore ph) (Config.freeWord s.freeCtr) h40 hsq hm
  unfold coreReg
  rw [hv off (by omega) (by omega) hmx, hv (off + 4) (by omega) (by omega) (by omega)]
  rfl

/-- A read of a register of a core at which a latched value waits answers it. -/
theorem readAcc_latched {l : ℕ × ℕ × Word}
    (hl : (s.latches.find? fun l => l.1 == rqNo rq && l.2.1 == pCore ph + off) = some l)
    (hrc : accMask (Block.core.fieldsAt off) .rc = 0) (hlo : Block.core.los.contains off = false) :
    (s.readAcc ⟨rq, coreA n off⟩).out = s.out ++ [.regData rq (some l.2.2)] := by
  rw [readAcc_core h ho h4 hs, readLoc_latched hl]
  refine congrArg (· ++ [Out.regData rq (some l.2.2)]) ?_
  unfold readLoc
  dsimp only
  rw [readEffect_core _ _ rfl, clearRc_none hrc, if_neg (by simp only [coreReg, hlo]; exact Bool.false_ne_true)]
  split <;> rfl

end

/-- The pages of the cores lie above every other page. -/
theorem le_pCore (ph : ℕ) : 0x2000000 ≤ pCore ph := Nat.le_add_right ..

/-- A register of a core admits no access and shuts none out. -/
theorem serves_setReg_core {ph : ℕ} (o : ℕ) (w : Word) (rq : Requester) (a : ℕ) :
    (s.setReg (pCore ph + o) w).serves rq a ↔ s.serves rq a := by
  have hle := le_pCore ph
  have hne (p : ℕ) (f : FRef) (hp : p + f.off < 0x2000000) : (s.setReg (pCore ph + o) w).fget p f = s.fget p f :=
    s.fget_setReg_ne _ w p f (by omega)
  exact serves_congr (s := s) (t := s.setReg (pCore ph + o) w) rfl rfl rfl rfl rfl (hne pSumac F.SUMAC_STRAPS_PINS (by decide))
    (hne pPwr F.PWR_STAT_STATE (by decide)) (hne pOgs F.OGS_CFG_REG_REMOTE (by decide)) rq a

theorem coreLos_plain : ∀ o ∈ [0x048, 0x05C, 0x150, 0x1B0], 0x048 ≤ o ∧ o + 4 < 0x400 ∧ o % 4 = 0 ∧ o ≠ 0x144 ∧ o ≠ 0x140
    ∧ Block.core.los.contains o = true ∧ accMask (Block.core.fieldsAt o) .rc = 0
    ∧ Block.core.los.contains (o + 4) = false ∧ accMask (Block.core.fieldsAt (o + 4)) .rc = 0 := by
  decide

theorem coreCounters_readClear : ∀ o ∈ [0x14C, 0x160, 0x170, 0x18C, 0x190, 0x194, 0x1A0, 0x1AC], 0x040 ≤ o ∧ o < 0x400
    ∧ o % 4 = 0 ∧ o ≠ 0x044 ∧ o ≠ 0x144 ∧ Block.core.los.contains o = false
    ∧ accMask (Block.core.fieldsAt o) .rc = 0xFFFFFFFF := by
  decide

/-- A served LO read: the state that it leaves, and what a read of the _HI word then answers. -/
theorem loRead_core {n : CoreId} {ph off : ℕ} {rq : Requester} (h : s.phys n.val = some ph)
    (ho : off ∈ [0x048, 0x05C, 0x150, 0x1B0]) (hs : s.serves rq (coreA n off)) (hs4 : s.serves rq (coreA n (off + 4)))
    (hl : s.noLatch rq (pCore ph + off)) : ∃ t, exec (.loRead ⟨rq, coreA n off⟩) s = .next t
      ∧ t.out = s.out ++ [.regData rq (some (s.reg (pCore ph + off)))] ∧ t.regs = s.regs ∧ t.mem = s.mem
      ∧ ∀ w, ∃ u, exec (.readClear ⟨rq, coreA n (off + 4)⟩) (t.setReg (pCore ph + off + 4) w) = .next u
        ∧ u.out = t.out ++ [.regData rq (some (s.reg (pCore ph + off + 4)))] := by
  obtain ⟨h48, h400, h4, hmx, hmx4, hlo, hrc, hlo4, hrc4⟩ := coreLos_plain off ho
  refine ⟨_, congrArg Host.Outcome.next (readAcc_lo h (by omega) h4 hs hl h48 hmx hmx4 hlo hrc), rfl, rfl, rfl,
    fun w => ⟨_, rfl, ?_⟩⟩
  generalize ht : (s.latched rq (pCore ph + off + 4) (s.reg (pCore ph + (off + 4)))).send
    (.regData rq (some (s.reg (pCore ph + off)))) = t
  have hserves : t.serves rq (coreA n (off + 4)) := by
    subst ht
    exact (serves_congr rfl rfl rfl rfl rfl rfl rfl rfl rq _).2 hs4
  have hphys : t.phys n.val = some ph := by
    subst ht
    exact h
  have hfind : t.latches.find? (fun l => l.1 == rqNo rq && l.2.1 == pCore ph + off + 4)
      = some (rqNo rq, pCore ph + off + 4, s.reg (pCore ph + (off + 4))) := by
    subst ht
    exact find_latched ..
  exact readAcc_latched (s := t.setReg (pCore ph + (off + 4)) w) hphys h400 (by omega)
    ((serves_setReg_core ..).2 hserves) hfind hrc4 hlo4

/-! ### LOG_DATA -/

/-- The register LOG_DATA. -/
def logDataReg : RegAt := ⟨.cdm, 0, 0, pCdm, 0x074, 0⟩

/-- The place of the next word of the log, its section's last word being number k. -/
def nextLogWord (s : State) (k : ℕ) : State :=
  if s.fget pCdm F.CDM_LOG_IDX_WORD < k then s.fset pCdm F.CDM_LOG_IDX_WORD (s.fget pCdm F.CDM_LOG_IDX_WORD + 1)
  else (s.fset pCdm F.CDM_LOG_IDX_WORD 0).fset pCdm F.CDM_LOG_IDX_ENTRY ((s.fget pCdm F.CDM_LOG_IDX_ENTRY + 1) % 8192)

theorem nextLogWord_within (hr : s.regsOk) {k : ℕ} (hk : k ≤ 7) (h : s.fget pCdm F.CDM_LOG_IDX_WORD < k) :
    (s.nextLogWord k).fget pCdm F.CDM_LOG_IDX_WORD = s.fget pCdm F.CDM_LOG_IDX_WORD + 1
      ∧ (s.nextLogWord k).fget pCdm F.CDM_LOG_IDX_ENTRY = s.fget pCdm F.CDM_LOG_IDX_ENTRY := by
  unfold nextLogWord
  rw [if_pos h, fget_fset _ _ _ _ hr (by decide), fget_fset_ne _ _ _ F.CDM_LOG_IDX_ENTRY _ hr (by decide) (by decide)]
  exact ⟨Nat.mod_eq_of_lt (show s.fget pCdm F.CDM_LOG_IDX_WORD + 1 < 8 by omega), rfl⟩

theorem nextLogWord_last (hr : s.regsOk) {k : ℕ} (h : k ≤ s.fget pCdm F.CDM_LOG_IDX_WORD) :
    (s.nextLogWord k).fget pCdm F.CDM_LOG_IDX_WORD = 0
      ∧ (s.nextLogWord k).fget pCdm F.CDM_LOG_IDX_ENTRY = (s.fget pCdm F.CDM_LOG_IDX_ENTRY + 1) % 8192 := by
  unfold nextLogWord
  have hw := regsOk_fset hr pCdm F.CDM_LOG_IDX_WORD 0
  rw [if_neg (by omega), fget_fset _ _ _ _ hw (by decide),
    fget_fset_ne _ _ _ F.CDM_LOG_IDX_WORD _ hw (by decide) (by decide), fget_fset _ _ _ _ hr (by decide)]
  exact ⟨rfl, Nat.mod_mod ..⟩

theorem nextLogWord_logs (k : ℕ) : (s.nextLogWord k).logs = s.logs := by
  unfold nextLogWord
  split <;> rfl

theorem nextLogWord_mem (k : ℕ) : (s.nextLogWord k).mem = s.mem := by
  unfold nextLogWord
  split <;> rfl

theorem nextLogWord_out (k : ℕ) : (s.nextLogWord k).out = s.out := by
  unfold nextLogWord
  split <;> rfl

theorem readEffect_logData (rq : Requester) : s.readEffect rq logDataReg
    = s.nextLogWord (if s.fget pCdm F.CDM_LOG_IDX_SECTION = 2 then 3 else 7) := by
  have hrc : s.clearRc logDataReg = s := clearRc_none (by decide)
  unfold readEffect
  rw [hrc]
  rfl

/-- A served read of LOG_DATA at an entry that was written. -/
theorem readAcc_logData {rq : Requester} {bs : List Byte} (hs : s.serves rq (pCdm + 0x074))
    (hl : s.noLatch rq (pCdm + 0x074))
    (he : s.logEntryAt (s.fget pCdm F.CDM_LOG_IDX_SECTION) (s.fget pCdm F.CDM_LOG_IDX_ENTRY) = some bs) :
    s.readAcc ⟨rq, pCdm + 0x074⟩ = (({ s with freeCtr := s.freeCtr + 1 } : State).nextLogWord
      (if s.fget pCdm F.CDM_LOG_IDX_SECTION = 2 then 3 else 7)).send
        (.regData rq (some (BitVec.ofNat 32 (field bs (4 * s.fget pCdm F.CDM_LOG_IDX_WORD) 4)))) := by
  have hloc : s.regLoc (pCdm + 0x074) = some logDataReg :=
    s.regLoc_page .cdm 0 0x074 0 (by decide) (by decide) (by decide) (by decide) (by decide)
  have hidx (k : ℕ) : isIdx (pCdm + 0x074) k = false := by
    unfold isIdx
    rw [show ((pCdm + 0x074) / 0x4000 == 0) = false by decide, Bool.false_and]
  have hword (free : Word) : ({ s with freeCtr := s.freeCtr + 1 } : State).regValue .cdm 0 0 pCdm 0x074 free
      = BitVec.ofNat 32 (field bs (4 * s.fget pCdm F.CDM_LOG_IDX_WORD) 4) := by
    show s.logWord free = _
    unfold logWord
    dsimp only
    rw [he]
  rw [s.readAcc_loc rq _ _ hs hloc hidx, readLoc_value hl, readLoc_state hl (by decide), readEffect_logData]
  exact congrArg (fun v => send _ (.regData rq (some v))) (hword _)

end State
end Sys2Proof.Machine
end

section
open Sys2Proof Sys2Proof.Machine

/-- Settles O25: a served read answers what the register reads as and has the effects of its page. -/
theorem readsClearAndLatch : Obligations.ReadsClearAndLatch := by
  unfold Obligations.ReadsClearAndLatch
  refine ⟨fun s n ph rq h hr => ⟨fun o ho hs hl => ?_, fun o ho hs hs4 hl => State.loRead_core h ho hs hs4 hl⟩,
    fun s rq bs hr hs hl => ?_⟩
  · obtain ⟨h40, h400, h4, hsq, hmx, hlo, hrc⟩ := State.coreCounters_readClear o ho
    refine ⟨_, congrArg Host.Outcome.next (State.readAcc_counter h h400 h4 hs hl h40 hsq hmx hlo hrc), ?_, rfl, ?_, rfl, rfl⟩
    · exact State.reg_setReg _ _ _ hr
    · exact fun b hb => State.reg_setReg_ne _ hb _
  · intro sect w e he
    refine ⟨_, congrArg Host.Outcome.next (State.readAcc_logData hs hl he), ?_, fun hw => ?_, fun hw => ?_, ?_, ?_⟩
    · exact congrArg (· ++ _) (State.nextLogWord_out ..)
    · exact State.nextLogWord_within (s := { s with freeCtr := s.freeCtr + 1 }) hr (by split <;> omega) hw
    · exact State.nextLogWord_last (s := { s with freeCtr := s.freeCtr + 1 }) hr hw
    · exact State.nextLogWord_logs ..
    · exact State.nextLogWord_mem ..
end


section
/-! SUPPORT. A served write of any register: what it does by the place that its address names (R451 to R454, R463). -/
namespace Sys2Proof.Machine.State
variable {s : State}

/-- Four registers of a core without W1C and RWS bits and without an effect of their own. -/
theorem coreWrite_rw (s : State) (n : CoreId) (ph : ℕ) (v : Fin 4) (m en : Word) :
    ∀ x ∈ [((0x068 : ℕ), (0xFFFFFF : Word)), (0x148, 0xFFF000), (0x180, 0xFFFFFF), (0x184, 0xFFF000)],
      s.coreWrite (coreReg n ph x.1 v) m en
        = s.setReg (pCore ph + x.1) (viewPut v.val (s.reg (pCore ph + x.1)) m x.2 en) := by
  intro x hx
  have hplain : s.coreWrite (coreReg n ph x.1 v) m en = s.plainWrite (coreReg n ph x.1 v) m en := by
    simp only [List.mem_cons, List.not_mem_nil, or_false] at hx
    rcases hx with rfl | rfl | rfl | rfl <;> rfl
  refine hplain.trans (s.plainWrite_core n ph v m en ?_)
  clear hplain
  revert x
  decide

section
variable {w : RegWr} (hs : s.serves w.rq w.addr)
include hs

/-- REGISTER_WRITE by what the write of the address does. -/
theorem exec_registerWrite : exec (.registerWrite w) s
    = .next (if (s.regWrite w.rq w.addr w.be w.val).2 then (s.regWrite w.rq w.addr w.be w.val).1
        else (s.regWrite w.rq w.addr w.be w.val).1.send (.regData w.rq none)).settle :=
  congrArg (fun t => Host.Outcome.next (settle t)) (s.writeAcc_serves w.rq w.addr w.be w.val hs)

theorem exec_registerWrite_of {t : State} (ht : s.regWrite w.rq w.addr w.be w.val = (t, true)) :
    exec (.registerWrite w) s = .next t.settle := by
  rw [exec_registerWrite hs, ht]
  rfl

end

theorem regWrite_direct (s : State) (rq : Requester) {a : ℕ} (be : BitVec 4) (v : Word) (ha : isIdx a aIdxAddr = false)
    (hd : isIdx a aIdxData = false) : s.regWrite rq a be v = s.regWrite1 rq a be v := by
  unfold regWrite
  rw [ha, hd]
  rfl

theorem regWrite1_none (rq : Requester) {a : ℕ} (be : BitVec 4) (v : Word) (hr : s.regLoc a = none) :
    s.regWrite1 rq a be v = (s, true) := by
  unfold regWrite1
  rw [hr]

theorem regWrite1_some (rq : Requester) {a : ℕ} (be : BitVec 4) (v : Word) {r : RegAt} (hr : s.regLoc a = some r) :
    s.regWrite1 rq a be v = if s.pageWritable r then s.writeLoc rq r a (v &&& beMask be) (beMask be) else (s, true) := by
  unfold regWrite1
  rw [hr]

theorem regWrite_idxAddr (s : State) (rq : Requester) {a : ℕ} (be : BitVec 4) (v : Word) (ha : isIdx a aIdxAddr = true) :
    s.regWrite rq a be v = (s.setIdx rq (viewPut (a / 0x1000 % 4) (BitVec.ofNat 32 (s.idxOf rq)) (v &&& beMask be)
      (maskBits 25 2) (beMask be)).toNat, true) := by
  unfold regWrite
  rw [ha]
  rfl

/-- IDX_DATA where IDX_ADDR names the pair itself. -/
theorem regWrite_idxPair (s : State) (rq : Requester) {a : ℕ} (be : BitVec 4) (v : Word) (ha : isIdx a aIdxAddr = false)
    (hd : isIdx a aIdxData = true) (ht : isIdx (s.idxOf rq) aIdxAddr = true ∨ isIdx (s.idxOf rq) aIdxData = true) :
    s.regWrite rq a be v = (s.setIdx rq (s.idxOf rq + 4), true) := by
  unfold regWrite
  rw [ha, hd, if_neg Bool.false_ne_true, if_pos rfl]
  dsimp only
  rw [if_pos (by simpa using ht)]

/-- IDX_DATA stands for the register that IDX_ADDR names. -/
theorem regWrite_idxData (s : State) (rq : Requester) {a : ℕ} (be : BitVec 4) (v : Word) (ha : isIdx a aIdxAddr = false)
    (hd : isIdx a aIdxData = true) (hta : isIdx (s.idxOf rq) aIdxAddr = false) (htd : isIdx (s.idxOf rq) aIdxData = false)
    {y : State × Bool} (hy : s.regWrite1 rq (s.idxOf rq / 0x4000 * 0x4000 + s.idxOf rq % 0x400) be v = y) :
    s.regWrite rq a be v = (if y.2 then y.1.setIdx rq (s.idxOf rq + 4) else y.1, y.2) := by
  unfold regWrite
  rw [ha, hd, if_neg Bool.false_ne_true, if_pos rfl]
  dsimp only
  rw [hta, htd, hy]
  rfl

/-- A register of a page without writes of its own changes by its fields. -/
theorem writeLoc_plain (rq : Requester) {r : RegAt} (a : ℕ) {m en : Word} (hh : s.headerWrite r m en = none)
    (hb : r.blk ∈ [Block.hp, .time, .clk, .sumac, .coll, .hbm]) : s.writeLoc rq r a m en = (s.plainWrite r m en, true) := by
  unfold writeLoc
  rw [hh]
  obtain ⟨b, n, i, p, o, v⟩ := r
  simp only [List.mem_cons, List.not_mem_nil, or_false] at hb
  rcases hb with rfl | rfl | rfl | rfl | rfl | rfl <;> rfl

end Sys2Proof.Machine.State
end

section
open Sys2Proof Sys2Proof.Machine

/-- Settles O24: the bits of a put by `viewPut_bit`, and a served write by the place that its address names. -/
theorem registerViews : Obligations.RegisterViews := by
  unfold Obligations.RegisterViews
  refine ⟨fun s n ph p h hr x hx hs => ?_, fun s w hs => ?_⟩
  · have hoff : 0x040 ≤ x.1 ∧ x.1 < 0x400 ∧ x.1 % 4 = 0 := by
      clear hs
      revert x
      decide
    obtain ⟨h40, h400, h4⟩ := hoff
    refine ⟨_, congrArg Host.Outcome.next (State.put_core h h40 h400 h4 hs), ?_⟩
    rw [State.coreWrite_rw s n ph p.view _ _ x hx]
    refine ⟨fun i hi => ?_, fun b hb => State.reg_setReg_ne _ hb _, rfl, rfl, rfl⟩
    rw [State.reg_setReg _ _ _ hr]
    exact viewPut_bit p.view.val _ p.val x.2 p.be i hi
  · intro m en
    refine ⟨fun ha hd => ⟨fun hn => ?_, fun r hr => ⟨fun hw => ?_, fun hw => ⟨fun hh hb => ?_, ?_⟩⟩⟩, fun ha => ?_,
      fun ha hd => ⟨fun ht => ?_, fun hta htd => ?_⟩, ?_⟩
    · exact State.exec_registerWrite_of hs ((s.regWrite_direct _ _ _ ha hd).trans (State.regWrite1_none _ _ _ hn))
    · refine State.exec_registerWrite_of hs ((s.regWrite_direct _ _ _ ha hd).trans ?_)
      rw [State.regWrite1_some _ _ _ hr, hw]
      rfl
    · refine State.exec_registerWrite_of hs ((s.regWrite_direct _ _ _ ha hd).trans ?_)
      rw [State.regWrite1_some _ _ _ hr, if_pos hw]
      exact State.writeLoc_plain _ _ hh hb
    · rw [State.exec_registerWrite hs, s.regWrite_direct _ _ _ ha hd, State.regWrite1_some _ _ _ hr, if_pos hw]
    · exact State.exec_registerWrite_of hs (s.regWrite_idxAddr _ _ _ ha)
    · exact State.exec_registerWrite_of hs (s.regWrite_idxPair _ _ _ ha hd ht)
    · intro y
      rw [State.exec_registerWrite hs, s.regWrite_idxData _ _ _ ha hd hta htd (y := y) rfl]
      clear_value y
      obtain ⟨t, _ | _⟩ := y <;> rfl
    · have hread := s.readAcc_serves w.rq w.addr hs
      exact ⟨congrArg Host.Outcome.next hread, congrArg Host.Outcome.next hread⟩
end


section
/-! SUPPORT. The common page header, update groups, semaphores, the compatibility pair, mailboxes and doorbells (R459 to
R472). -/
namespace Sys2Proof.Machine

namespace State
variable {s : State}

/-! ### The common header -/

theorem regLoc_off {a : ℕ} {r : RegAt} (h : s.regLoc a = some r) : r.off = a % 0x400 / 4 * 4 ∧ r.view = a / 0x1000 % 4 := by
  unfold regLoc at h
  dsimp only at h
  split at h
  · contradiction
  · split at h
    · obtain rfl := Option.some.inj h
      exact ⟨rfl, rfl⟩
    · contradiction
  · obtain rfl := Option.some.inj h
    exact ⟨rfl, rfl⟩

/-- A register with an offset below that of the compatibility pair is none of the pair. -/
theorem isIdx_low {a o : ℕ} (ha : a % 0x400 < aIdxAddr) (ho : o = aIdxAddr ∨ o = aIdxData) : isIdx a o = false := by
  unfold isIdx
  have hne : (a % 0x400 / 4 * 4 == o) = false := beq_eq_false_iff_ne.2 (by unfold aIdxAddr at *; unfold aIdxData at ho; omega)
  rw [hne, Bool.and_false]

/-- A served write that its page takes. -/
theorem put_done {t : State} {a : ℕ} {p : Put} {r : RegAt} (hs : s.serves p.rq (p.addr a)) (hr : s.regLoc (p.addr a) = some r)
    (hw : s.pageWritable r = true) (ha : a % 0x400 < aIdxAddr)
    (ht : s.writeLoc p.rq r (p.addr a) (p.val &&& beMask p.be) (beMask p.be) = (t, true)) : s.put a p = t.settle := by
  have hlow : p.addr a % 0x400 < aIdxAddr := by
    unfold Put.addr
    omega
  exact congrArg settle (writeAcc_done hs hr hw (isIdx_low hlow (.inl rfl)) (isIdx_low hlow (.inr rfl)) ht)

/-- A served read of a register below the compatibility pair. -/
theorem readAcc_done {a : ℕ} {rq : Requester} {r : RegAt} (hs : s.serves rq a) (hr : s.regLoc a = some r)
    (ha : a % 0x400 < aIdxAddr) :
    s.readAcc ⟨rq, a⟩ = (s.readLoc rq r).1.send (.regData rq (some (s.readLoc rq r).2)) := by
  have hread : s.regRead rq a = s.readLoc rq r := by
    unfold regRead regRead1
    rw [isIdx_low ha (.inl rfl), isIdx_low ha (.inr rfl), hr]
    rfl
  rw [s.readAcc_serves rq a hs, hread]

/-- A served read of a register that has no _HI word and at which no latched value waits. -/
theorem readAcc_fresh {a : ℕ} {rq : Requester} {r : RegAt} (hs : s.serves rq a) (hr : s.regLoc a = some r)
    (ha : a % 0x400 < aIdxAddr) (hl : s.noLatch rq (r.page + r.off)) (hlo : r.blk.los.contains r.off = false) :
    s.readAcc ⟨rq, a⟩ = (({ s with freeCtr := s.freeCtr + 1 } : State).readEffect rq r).send (.regData rq (some
      (({ s with freeCtr := s.freeCtr + 1 } : State).regValue r.blk r.num r.inst r.page r.off (Config.freeWord s.freeCtr)))) := by
  rw [readAcc_done hs hr ha, readLoc_value hl, readLoc_state hl hlo]

/-- A served write of a register of the common header with an effect of its own. -/
theorem put_header {t : State} {a : ℕ} {p : Put} {r : RegAt} (hs : s.serves p.rq (p.addr a))
    (hr : s.regLoc (p.addr a) = some r) (hw : s.pageWritable r = true) (ha : a % 0x400 < aIdxAddr)
    (ht : s.headerWrite r (p.val &&& beMask p.be) (beMask p.be) = some t) : s.put a p = t.settle := by
  refine put_done hs hr hw ha ?_
  unfold writeLoc
  rw [ht]

section
variable (r : RegAt) (m en : Word)

theorem headerWrite_evt (ho : r.off = 0x010) : s.headerWrite r m en = some
    (if (s.plainWrite r m en).intOf r.page then (s.plainWrite r m en).sendInt r.page else s.plainWrite r m en) := by
  unfold headerWrite
  rw [ho]
  rfl

theorem headerWrite_inj (ho : r.off = 0x018) (hv : r.view = 0) : s.headerWrite r m en = some ((List.range 32).foldl (fun s k =>
    if bit m k = true ∧ r.blk.evtMask.testBit k = true then s.raise r.page k else s) s) := by
  unfold headerWrite
  rw [ho]
  simp only [hv, Bool.and_eq_true]
  rfl

theorem headerWrite_cntSel (ho : r.off = 0x02C) : s.headerWrite r m en
    = some (((s.plainWrite r m en).setReg (r.page + 0x030) 0).setReg (r.page + 0x034) 0) := by
  unfold headerWrite
  rw [ho]
  rfl

end

section
variable {page : ℕ} {r : RegAt}

theorem off_of_header {p : Put} {o : ℕ} (ho : o < 0x400) (h4 : o % 4 = 0)
    (hr : s.regLoc (p.addr (page * 0x4000 + o)) = some r) : r.off = o := by
  rw [(regLoc_off hr).1, Put.addr]
  omega

theorem pgEvtWrite_served {p : Put} (hs : s.serves p.rq (p.addr (page * 0x4000 + 0x010)))
    (hr : s.regLoc (p.addr (page * 0x4000 + 0x010)) = some r) (hw : s.pageWritable r = true) {t : State}
    (ht : t = s.plainWrite r (p.val &&& beMask p.be) (beMask p.be)) :
    pgEvtWrite page p s = (if t.intOf r.page then t.sendInt r.page else t).settle := by
  subst ht
  exact put_header hs hr hw (by unfold aIdxAddr; omega) (headerWrite_evt r _ _ (off_of_header (by decide) (by decide) hr))

theorem pgCntSel_served {p : Put} (hs : s.serves p.rq (p.addr (page * 0x4000 + 0x02C)))
    (hr : s.regLoc (p.addr (page * 0x4000 + 0x02C)) = some r) (hw : s.pageWritable r = true) :
    pgCntSel page p s = (((s.plainWrite r (p.val &&& beMask p.be) (beMask p.be)).setReg (r.page + 0x030) 0).setReg
      (r.page + 0x034) 0).settle :=
  put_header hs hr hw (by unfold aIdxAddr; omega) (headerWrite_cntSel r _ _ (off_of_header (by decide) (by decide) hr))

theorem pgEvtInj_served {rq : Requester} {v : Word} (hs : s.serves rq (page * 0x4000 + 0x018))
    (hr : s.regLoc (page * 0x4000 + 0x018) = some r) (hw : s.pageWritable r = true) :
    pgEvtInj page rq v s = ((List.range 32).foldl (fun s k =>
      if bit v k = true ∧ r.blk.evtMask.testBit k = true then s.raise r.page k else s) s).settle := by
  unfold pgEvtInj
  have hr' : s.regLoc ((⟨rq, 0, 0xF, v⟩ : Put).addr (page * 0x4000 + 0x018)) = some r := by rwa [put_addr_normal]
  rw [putWord_eq_put]
  refine put_header (by rwa [put_addr_normal]) hr' hw (by unfold aIdxAddr; omega) ?_
  rw [headerWrite_inj r _ _ (off_of_header (by decide) (by decide) hr') (by rw [(regLoc_off hr).2]; omega)]
  rw [and_beMask_all]

end

/-! ### Update groups -/

theorem updStrobe_served {rq : Requester} {v : Word} (hs : s.serves rq (pGctl + 0x040)) :
    updStrobe rq v s = (s.strobe v).settle := by
  unfold updStrobe
  rw [putWord_eq_put]
  have hr : s.regLoc ((⟨rq, 0, 0xF, v⟩ : Put).addr (pGctl + 0x040)) = some ⟨.gctl, 0, 0, pGctl, 0x040, 0⟩ :=
    s.regLoc_page .gctl 0 0x040 0 (by decide) (by decide) (by decide) (by decide) (by decide)
  refine put_done (by rwa [put_addr_normal]) hr rfl (by decide) ?_
  rw [and_beMask_all]
  rfl

theorem contains_strobe (g : Word) {p : ℕ} (hp : p ∈ [pHp .a, pHp .b]) : (s.strobe g).shadows.strobed.contains p
    = (s.shadows.strobed.contains p || (s.written p && bit g (s.fget p F.PG_UGRP_GROUP))) := by
  unfold strobe
  rw [Bool.eq_iff_iff]
  simp only [List.contains_iff_mem, List.mem_append, List.mem_filter, hp, true_and, Bool.or_eq_true, Bool.and_eq_true,
    Bool.not_eq_true', ← Bool.not_eq_true]
  tauto

theorem updateApply_strobed {p : HostPort} (hl : s.live = true) (hs : s.shadows.strobed.contains (pHp p) = true) :
    updateApply p s = s.applyShadows (pHp p) := if_pos ⟨hl, hs⟩

/-- The one shadowed register of a host port's page takes the RWS bits of its shadow. -/
theorem applyShadows_cfg {p : HostPort} {w : Word} (h : s.shadows.words = [(pHp p + 0x044, w)]) :
    s.applyShadows (pHp p) = { s.setReg (pHp p + 0x044)
        ((s.reg (pHp p + 0x044) &&& ~~~ (0x31 : Word)) ||| (w &&& 0x31)) with
      shadows := ⟨[], s.shadows.strobed.filter (· != pHp p)⟩ } := by
  have hmask : accMask (Block.hp.fieldsAt 0x044) .rws = 0x31 := by decide
  unfold applyShadows
  dsimp only
  rw [h]
  have hpage : (pHp p + 0x044) / 0x4000 = pHp p / 0x4000 := by cases p <;> rfl
  have hblk : ∃ i, pageOf (pHp p + 0x044) = some (.hp, i) := by cases p <;> exact ⟨_, rfl⟩
  have hoff : (pHp p + 0x044) % 0x400 = 0x044 := by cases p <;> rfl
  obtain ⟨i, hi⟩ := hblk
  simp only [List.filter_cons, List.filter_nil, hpage, beq_self_eq_true, if_true, Bool.not_true, Bool.false_eq_true, if_false,
    List.foldl_cons, List.foldl_nil, hi, hoff, hmask, setReg_shadows, h]

/-! ### Semaphores -/

/-- The register of semaphore k, through a view. -/
def semReg (k : Fin 16) (v : Fin 4) : RegAt := ⟨.gctl, 0, 0, pGctl, 0x080 + 4 * k.val, v.val⟩

theorem regLoc_sem (k : Fin 16) (v : Fin 4) :
    s.regLoc (pGctl + 0x080 + 4 * k.val + v.val * 0x1000) = some (semReg k v) := by
  have hk := k.isLt
  have h := s.regLoc_page .gctl 0 (0x080 + 4 * k.val) v (by decide) (by decide) (by decide) (by omega) (by omega)
  rwa [← Nat.add_assoc] at h

/-- A semaphore reads as it is kept. -/
theorem regValue_sem (k : Fin 16) (free : Word) :
    s.regValue .gctl 0 0 pGctl (0x080 + 4 * k.val) free = s.reg (pGctl + 0x080 + 4 * k.val) := by
  fin_cases k <;> rfl

/-- The read of a semaphore takes it when it is free. -/
theorem readEffect_sem (k : Fin 16) (rq : Requester) : s.readEffect rq (semReg k 0)
    = if s.reg (pGctl + 0x080 + 4 * k.val) = 0 then s.setReg (pGctl + 0x080 + 4 * k.val) (BitVec.ofNat 32 (rqNo rq)) else s := by
  have hk := k.isLt
  have hrc : s.clearRc (semReg k 0) = s := clearRc_none (by revert k; decide)
  unfold readEffect
  rw [hrc]
  unfold semReg
  dsimp only
  rw [← Nat.add_assoc]
  exact if_congr ⟨fun h => h.2.2, fun h => ⟨by omega, by omega, h⟩⟩ rfl rfl

theorem readAcc_sem {k : Fin 16} {rq : Requester} (hs : s.serves rq (pGctl + 0x080 + 4 * k.val))
    (hl : s.noLatch rq (pGctl + 0x080 + 4 * k.val)) : s.readAcc ⟨rq, pGctl + 0x080 + 4 * k.val⟩
      = (({ s with freeCtr := s.freeCtr + 1 } : State).readEffect rq (semReg k 0)).send
          (.regData rq (some (s.reg (pGctl + 0x080 + 4 * k.val)))) := by
  have hk := k.isLt
  have hlow : (pGctl + 0x080 + 4 * k.val) % 0x400 < aIdxAddr := by
    rw [show pGctl = 0 from rfl, aIdxAddr]
    omega
  have hl' : s.noLatch rq (pGctl + (0x080 + 4 * k.val)) := by rwa [← Nat.add_assoc]
  have hlo (k : Fin 16) : Block.gctl.los.contains (0x080 + 4 * k.val) = false := by
    revert k
    decide
  refine (readAcc_fresh hs (s.regLoc_sem k 0) hlow hl' (hlo k)).trans ?_
  exact congrArg (fun w => send _ (.regData rq (some w))) (regValue_sem k _)

theorem hsemRead_served (hr : s.regsOk) {k : Fin 16} {rq : Requester} (hs : s.serves rq (pGctl + 0x080 + 4 * k.val))
    (hl : s.noLatch rq (pGctl + 0x080 + 4 * k.val)) : ∃ t, exec (.hsemRead k rq) s = .next t
      ∧ t.out = s.out ++ [.regData rq (some (s.reg (pGctl + 0x080 + 4 * k.val)))]
      ∧ t.reg (pGctl + 0x080 + 4 * k.val) = (if s.reg (pGctl + 0x080 + 4 * k.val) = 0 then BitVec.ofNat 32 (rqNo rq)
          else s.reg (pGctl + 0x080 + 4 * k.val))
      ∧ ∀ a, a ≠ pGctl + 0x080 + 4 * k.val → t.reg a = s.reg a := by
  refine ⟨_, congrArg Host.Outcome.next (readAcc_sem hs hl), ?_⟩
  rw [readEffect_sem]
  have hreg : ({ s with freeCtr := s.freeCtr + 1 } : State).reg (pGctl + 0x080 + 4 * k.val)
    = s.reg (pGctl + 0x080 + 4 * k.val) := rfl
  rw [hreg]
  split
  next => exact ⟨rfl, reg_setReg _ _ _ hr, fun a ha => reg_setReg_ne _ ha _⟩
  next => exact ⟨rfl, rfl, fun a _ => rfl⟩

theorem gctlWrite_sem (k : Fin 16) (v : Fin 4) (rq : Requester) (m en : Word) : s.gctlWrite rq (semReg k v) m en
    = if (v.val = 0 ∧ bit en 0 = true ∧ m &&& 3 = 0) ∧ (rq = .firmware ∨ s.fget pGctl ⟨0x080 + 4 * k.val, 1, 0⟩ = rqNo rq)
      then s.setReg (pGctl + 0x080 + 4 * k.val) 0 else s := by
  fin_cases k <;> rfl

/-- A write of a semaphore: its owner or module firmware frees it with a zero through the normal view. -/
theorem hsemWrite_served {k : Fin 16} {p : Put} (hs : s.serves p.rq (p.addr (pGctl + 0x080 + 4 * k.val))) :
    hsemWrite k p s = (if p.view.val = 0 ∧ p.be.getLsbD 0 = true ∧ p.val &&& beMask p.be &&& 3 = 0
        ∧ (p.rq = .firmware ∨ s.fget pGctl ⟨0x080 + 4 * k.val, 1, 0⟩ = rqNo p.rq)
      then s.setReg (pGctl + 0x080 + 4 * k.val) 0 else s).settle := by
  have hk := k.isLt
  have hlow : (pGctl + 0x080 + 4 * k.val) % 0x400 < aIdxAddr := by
    rw [show pGctl = 0 from rfl, aIdxAddr]
    omega
  refine put_done hs (s.regLoc_sem k p.view) rfl hlow ?_
  unfold writeLoc
  rw [s.headerWrite_none _ _ _ (by show 0x040 ≤ 0x080 + 4 * k.val; omega)]
  refine Prod.ext ((gctlWrite_sem k p.view p.rq _ _).trans (if_congr ?_ rfl rfl)) rfl
  rw [beMask_bit p.be 0 (by decide)]
  tauto

/-! ### The compatibility pair -/

theorem isIdx_data : isIdx (pGctl + aIdxData) aIdxAddr = false ∧ isIdx (pGctl + aIdxData) aIdxData = true := by decide

section
variable {rq : Requester} (hs : s.serves rq (pGctl + aIdxData)) (ha : isIdx (s.idxOf rq) aIdxAddr = false)
  (hd : isIdx (s.idxOf rq) aIdxData = false) {x : ℕ} (hx : x = s.idxOf rq / 0x4000 * 0x4000 + s.idxOf rq % 0x400)
include hs ha hd hx

theorem idxData_read : idxData rq none s = ((s.regRead1 rq x).1.setIdx rq (s.idxOf rq + 4)).send
    (.regData rq (some (s.regRead1 rq x).2)) := by
  subst hx
  obtain ⟨hna, hnd⟩ := isIdx_data
  have hread : s.regRead rq (pGctl + aIdxData) = ((s.regRead1 rq (s.idxOf rq / 0x4000 * 0x4000 + s.idxOf rq % 0x400)).1.setIdx
      rq (s.idxOf rq + 4), (s.regRead1 rq (s.idxOf rq / 0x4000 * 0x4000 + s.idxOf rq % 0x400)).2) := by
    unfold regRead
    rw [hna, hnd]
    dsimp only
    rw [ha, hd]
    rfl
  exact (s.readAcc_serves rq _ hs).trans (by rw [hread])

theorem idxData_write {v : Word} {y : State × Bool} (hy : s.regWrite1 rq x 0xF v = y) (hok : y.2 = true) :
    idxData rq (some v) s = (y.1.setIdx rq (s.idxOf rq + 4)).settle := by
  subst hx
  obtain ⟨hna, hnd⟩ := isIdx_data
  have hw := s.regWrite_idxData rq 0xF v hna hnd ha hd hy
  rw [hok, if_pos rfl] at hw
  refine congrArg settle ((s.writeAcc_serves rq _ 0xF v hs).trans ?_)
  rw [hw]
  rfl

end

/-! ### Mailboxes -/

/-- The register of a port's mailbox page at an offset and a view. -/
def mbxReg (p : HostPort) (off : ℕ) (v : Fin 4) : RegAt := ⟨.mbx, HostPort.ix p, HostPort.ix p, pMbx p, off, v.val⟩

theorem regLoc_mbx (s : State) (p : HostPort) {off : ℕ} (v : Fin 4) (ho : off < 0x400) (h4 : off % 4 = 0) :
    s.regLoc (pMbx p + off + v.val * 0x1000) = some (mbxReg p off v) := by
  cases p
  · exact s.regLoc_page .mbx 0 off v (by decide) (by decide) (by decide) ho h4
  · exact s.regLoc_page .mbx 1 off v (by decide) (by decide) (by decide) ho h4

theorem pageWritable_mbx (s : State) (p : HostPort) (off : ℕ) (v : Fin 4) : s.pageWritable (mbxReg p off v) = s.hostOn p := by
  cases p <;> rfl

theorem writeLoc_mbx (s : State) (rq : Requester) (p : HostPort) {off : ℕ} (v : Fin 4) (a : ℕ) (m en : Word)
    (h40 : 0x040 ≤ off) : s.writeLoc rq (mbxReg p off v) a m en = s.mbxWrite rq p (mbxReg p off v) a m en := by
  unfold writeLoc
  rw [s.headerWrite_none _ _ _ h40]
  cases p <;> rfl

/-- The mailbox words and the doorbells are whole words of plain RW bits. -/
theorem mbx_rw {off : ℕ} (h : (∃ k : Fin 16, off = 0x040 + 4 * k.val ∨ off = 0x080 + 4 * k.val) ∨ off = 0x0C8 ∨ off = 0x0D0) :
    accMask (Block.mbx.fieldsAt off) .rw = 0xFFFFFFFF ∧ accMask (Block.mbx.fieldsAt off) .w1c = 0
      ∧ accMask (Block.mbx.fieldsAt off) .rws = 0 ∧ accMask (Block.mbx.fieldsAt off) .rc = 0 := by
  rcases h with ⟨k, rfl | rfl⟩ | rfl | rfl
  · revert k
    decide
  · revert k
    decide
  · decide
  · decide


/-- A served write of a register of an enabled port's mailbox page. -/
theorem regWrite_mbx {rq : Requester} {p : HostPort} {off : ℕ} (v : Fin 4) (be : BitVec 4) (w : Word) (hon : s.hostOn p = true)
    (h40 : 0x040 ≤ off) (ho : off < aIdxAddr) (h4 : off % 4 = 0) : s.regWrite rq (pMbx p + off + v.val * 0x1000) be w
      = s.mbxWrite rq p (mbxReg p off v) (pMbx p + off + v.val * 0x1000) (w &&& beMask be) (beMask be) := by
  have hp : pMbx p % 0x400 = 0 := by cases p <;> rfl
  have hlow : (pMbx p + off + v.val * 0x1000) % 0x400 < aIdxAddr := by unfold aIdxAddr at *; omega
  rw [s.regWrite_direct _ _ _ (isIdx_low hlow (.inl rfl)) (isIdx_low hlow (.inr rfl)),
    regWrite1_some _ _ _ (s.regLoc_mbx p v (by unfold aIdxAddr at ho; omega) h4), pageWritable_mbx, if_pos hon,
    writeLoc_mbx _ _ _ _ _ _ _ h40]

theorem plainWrite_mbx (p : HostPort) {off : ℕ} (w : Word)
    (h : (∃ k : Fin 16, off = 0x040 + 4 * k.val ∨ off = 0x080 + 4 * k.val) ∨ off = 0x0C8 ∨ off = 0x0D0) :
    s.plainWrite (mbxReg p off 0) (w &&& beMask 0xF) (beMask 0xF) = s.setReg (pMbx p + off) w := by
  obtain ⟨hrw, hw1c, hrws, -⟩ := mbx_rw h
  refine (s.plainWrite_rw (mbxReg p off 0) _ _ _ hrw hw1c hrws).trans (congrArg (s.setReg _) ?_)
  rw [and_beMask_all, beMask_all, show (0xFFFFFFFF : Word) = BitVec.allOnes 32 by decide]
  have hall : w &&& BitVec.allOnes 32 = w := BitVec.and_allOnes
  show (_ &&& ~~~ (BitVec.allOnes 32 &&& BitVec.allOnes 32)) ||| (w &&& BitVec.allOnes 32) = w
  rw [hall, BitVec.and_allOnes, BitVec.not_allOnes, BitVec.and_zero, BitVec.zero_or]

/-- A ring is a write through the SET view. -/
theorem plainWrite_ring (p : HostPort) {off : ℕ} (w : Word) (h : off = 0x0C8 ∨ off = 0x0D0) :
    s.plainWrite (mbxReg p off 1) (w &&& beMask 0xF) (beMask 0xF) = s.setReg (pMbx p + off) (s.reg (pMbx p + off) ||| w) := by
  obtain ⟨hrw, hw1c, hrws, -⟩ := mbx_rw (.inr h)
  refine (s.plainWrite_rw (mbxReg p off 1) _ _ _ hrw hw1c hrws).trans (congrArg (s.setReg _) ?_)
  rw [and_beMask_all]
  exact congrArg (s.reg (pMbx p + off) ||| ·) BitVec.and_allOnes

theorem rqHp_portRq (q : HostPort) : rqHp (portRq q) = some (pHp q) := by cases q <;> rfl
theorem rqPort_portRq (q : HostPort) : rqPort (portRq q) = some q := by cases q <;> rfl

/-- Number k of the words of the mailbox page that r belongs to: the bit of its full flag. -/
def wordNo (r : RegAt) : ℕ := r.off % 0x40 / 4

section
variable (q p : HostPort) {r : RegAt} (a : ℕ) (m en : Word)

/-- A write of an empty H2F word by host software (R469). -/
theorem mbxWrite_h2f_empty (h40 : 0x040 ≤ r.off) (h80 : r.off < 0x080) (hb : bit (s.reg (r.page + 0x0C0)) (wordNo r) = false) :
    s.mbxWrite (portRq q) p r a m en = ((s.plainWrite r m en).setReg (r.page + 0x0C0)
      (s.reg (r.page + 0x0C0) ||| maskBits (wordNo r) (wordNo r)), true) := by
  unfold wordNo at hb
  unfold mbxWrite
  dsimp only
  rw [if_pos ⟨h40, h80⟩, rqHp_portRq, hb]
  rfl

/-- A write of a full H2F word is turned away (R469). -/
theorem mbxWrite_h2f_full (h40 : 0x040 ≤ r.off) (h80 : r.off < 0x080) (hb : bit (s.reg (r.page + 0x0C0)) (wordNo r) = true) :
    s.mbxWrite (portRq q) p r a m en = ((((s.finc (pHp q) F.HP_ERR_CNT0_MBX_REJ).event (pHp q) F.HP_PG_EVT_MBX_REJ).capture r
      a (rqNo (portRq q)) 2 true).send (.aer q true), true) := by
  unfold wordNo at hb
  unfold mbxWrite
  dsimp only
  rw [if_pos ⟨h40, h80⟩, rqHp_portRq, rqPort_portRq, hb]
  rfl

/-- A write of an empty F2H word by module firmware (R470). -/
theorem mbxWrite_f2h_empty (h80 : 0x080 ≤ r.off) (hC0 : r.off < 0x0C0) (hb : bit (s.reg (r.page + 0x0C4)) (wordNo r) = false) :
    s.mbxWrite .firmware p r a m en = (((s.plainWrite r m en).setReg (r.page + 0x0C4)
      (s.reg (r.page + 0x0C4) ||| maskBits (wordNo r) (wordNo r))).event r.page F.MBX_PG_EVT_F2H_WORD, true) := by
  unfold wordNo at hb
  unfold mbxWrite
  dsimp only
  rw [if_neg (by omega), if_pos ⟨h80, hC0⟩, if_neg (by simp), hb]
  rfl

/-- A write of a full F2H word meets an error response (R470). -/
theorem mbxWrite_f2h_full (h80 : 0x080 ≤ r.off) (hC0 : r.off < 0x0C0) (hb : bit (s.reg (r.page + 0x0C4)) (wordNo r) = true) :
    s.mbxWrite .firmware p r a m en = (s.capture r a 3 2 true, false) := by
  unfold wordNo at hb
  unfold mbxWrite
  dsimp only
  rw [if_neg (by omega), if_pos ⟨h80, hC0⟩, if_neg (by simp), hb]
  rfl

/-- A write of a doorbell register rings what rises unmasked (R472). -/
theorem mbxWrite_f2hDb (rq : Requester) (ho : r.off = 0x0D0) : s.mbxWrite rq p r a m en
    = ((s.plainWrite r m en).f2hRing p (s.reg (r.page + 0x0D0)) (s.reg (r.page + 0x0D4)), true) := by
  unfold mbxWrite
  dsimp only
  rw [if_neg (by omega), if_neg (by omega), if_neg (by omega), if_pos (.inl ho)]

theorem mbxWrite_h2fDb (rq : Requester) (ho : r.off = 0x0C8) : s.mbxWrite rq p r a m en
    = ((s.plainWrite r m en).h2fRing p (s.reg (r.page + 0x0C8)) (s.reg (r.page + 0x0CC)), true) := by
  unfold mbxWrite
  dsimp only
  rw [if_neg (by omega), if_neg (by omega), if_pos (.inl ho)]

end

/-- The write of a whole word of a mailbox page, once served. -/
theorem putWord_mbx {rq : Requester} {p : HostPort} {off a : ℕ} (v : Fin 4) (ha : a = pMbx p + off + v.val * 0x1000) {w : Word}
    {t : State} (hon : s.hostOn p = true) (h40 : 0x040 ≤ off) (ho : off < aIdxAddr) (h4 : off % 4 = 0)
    (hs : s.serves rq a) {ok : Bool}
    (hy : s.mbxWrite rq p (mbxReg p off v) a (w &&& beMask 0xF) (beMask 0xF) = (t, ok)) :
    s.putWord a rq w = (if ok then t else t.send (.regData rq none)).settle := by
  subst ha
  refine congrArg settle ((s.writeAcc_serves rq _ 0xF w hs).trans ?_)
  rw [regWrite_mbx v 0xF w hon h40 ho h4, hy]

theorem reg_capture_ne (r : RegAt) (a rq kind : ℕ) (wr : Bool) {b : ℕ} (ha : b ≠ r.page + 0x024) (hi : b ≠ r.page + 0x028) :
    (s.capture r a rq kind wr).reg b = s.reg b := by
  unfold capture
  split
  · rfl
  · exact (reg_setReg_ne _ hi _).trans (reg_setReg_ne _ ha _)

theorem wordNo_h2f (p : HostPort) (k : Fin 16) (v : Fin 4) : wordNo (mbxReg p (0x040 + 4 * k.val) v) = k.val := by
  show (0x040 + 4 * k.val) % 0x40 / 4 = k.val
  omega

theorem wordNo_f2h (p : HostPort) (k : Fin 16) (v : Fin 4) : wordNo (mbxReg p (0x080 + 4 * k.val) v) = k.val := by
  show (0x080 + 4 * k.val) % 0x40 / 4 = k.val
  omega

/-- The pages of the ports and of their mailboxes. -/
theorem portPages (p q : HostPort) : pHp q < 0xC000 ∧ 0x10000 ≤ pMbx p ∧ pMbx p % 0x4000 = 0 := by
  cases p <;> cases q <;> decide

section
variable {p q : HostPort} {k : Fin 16} {v : Word} (hon : s.hostOn p = true)
include hon

theorem h2fWrite_empty (hs : s.serves (portRq q) (pMbx p + 0x040 + 4 * k.val)) (hb : bit (s.reg (pMbx p + 0x0C0)) k.val = false) :
    h2fWrite p k q v s = (s.setReg (pMbx p + 0x040 + 4 * k.val) v).putReg (pMbx p + 0x0C0)
      (s.reg (pMbx p + 0x0C0) ||| maskBits k.val k.val) := by
  unfold h2fWrite
  rw [Nat.add_assoc] at hs ⊢
  have hw := s.mbxWrite_h2f_empty q p (r := mbxReg p (0x040 + 4 * k.val) 0) (pMbx p + (0x040 + 4 * k.val)) (v &&& beMask 0xF)
    (beMask 0xF) (by show 0x040 ≤ 0x040 + 4 * k.val; omega) (by show 0x040 + 4 * k.val < 0x080; omega) (by rwa [wordNo_h2f])
  rw [wordNo_h2f, plainWrite_mbx p v (.inl ⟨k, .inl rfl⟩)] at hw
  rw [putWord_mbx 0 (by simp) hon (by omega) (by unfold aIdxAddr; omega) (by omega) hs hw]
  rfl

theorem h2fWrite_full (hs : s.serves (portRq q) (pMbx p + 0x040 + 4 * k.val)) (hb : bit (s.reg (pMbx p + 0x0C0)) k.val = true) :
    ∃ t : State, h2fWrite p k q v s = (t.send (.aer q true)).settle
      ∧ ∀ a, pMbx p + 0x028 < a → t.reg a = s.reg a := by
  unfold h2fWrite
  rw [Nat.add_assoc] at hs ⊢
  have hw := s.mbxWrite_h2f_full q p (r := mbxReg p (0x040 + 4 * k.val) 0) (pMbx p + (0x040 + 4 * k.val)) (v &&& beMask 0xF)
    (beMask 0xF) (by show 0x040 ≤ 0x040 + 4 * k.val; omega) (by show 0x040 + 4 * k.val < 0x080; omega) (by rwa [wordNo_h2f])
  rw [putWord_mbx 0 (by simp) hon (by omega) (by unfold aIdxAddr; omega) (by omega) hs hw]
  refine ⟨_, rfl, fun a ha => ?_⟩
  obtain ⟨hq, hp, -⟩ := portPages p q
  rw [reg_capture_ne _ _ _ _ _ (by show a ≠ pMbx p + 0x024; omega) (by show a ≠ pMbx p + 0x028; omega),
    reg_event_ne _ _ (by omega)]
  exact reg_finc_ne _ _ _ _ (by show a ≠ pHp q + F.HP_ERR_CNT0_MBX_REJ.off; unfold F.HP_ERR_CNT0_MBX_REJ; dsimp only; omega)

theorem f2hWrite_empty (hs : s.serves .firmware (pMbx p + 0x080 + 4 * k.val)) (hb : bit (s.reg (pMbx p + 0x0C4)) k.val = false) :
    f2hWrite p k v s = (((s.setReg (pMbx p + 0x080 + 4 * k.val) v).setReg (pMbx p + 0x0C4)
      (s.reg (pMbx p + 0x0C4) ||| maskBits k.val k.val)).event (pMbx p) F.MBX_PG_EVT_F2H_WORD).settle := by
  unfold f2hWrite
  rw [Nat.add_assoc] at hs ⊢
  have hw := s.mbxWrite_f2h_empty p (r := mbxReg p (0x080 + 4 * k.val) 0) (pMbx p + (0x080 + 4 * k.val)) (v &&& beMask 0xF)
    (beMask 0xF) (by show 0x080 ≤ 0x080 + 4 * k.val; omega) (by show 0x080 + 4 * k.val < 0x0C0; omega) (by rwa [wordNo_f2h])
  rw [wordNo_f2h, plainWrite_mbx p v (.inl ⟨k, .inr rfl⟩)] at hw
  rw [putWord_mbx 0 (by simp) hon (by omega) (by unfold aIdxAddr; omega) (by omega) hs hw]
  rfl

theorem f2hWrite_full (hs : s.serves .firmware (pMbx p + 0x080 + 4 * k.val)) (hb : bit (s.reg (pMbx p + 0x0C4)) k.val = true) :
    ∃ t : State, f2hWrite p k v s = (t.send (.regData .firmware none)).settle
      ∧ t.reg (pMbx p + 0x080 + 4 * k.val) = s.reg (pMbx p + 0x080 + 4 * k.val) := by
  unfold f2hWrite
  rw [Nat.add_assoc] at hs ⊢
  have hw := s.mbxWrite_f2h_full p (r := mbxReg p (0x080 + 4 * k.val) 0) (pMbx p + (0x080 + 4 * k.val)) (v &&& beMask 0xF)
    (beMask 0xF) (by show 0x080 ≤ 0x080 + 4 * k.val; omega) (by show 0x080 + 4 * k.val < 0x0C0; omega) (by rwa [wordNo_f2h])
  rw [putWord_mbx 0 (by simp) hon (by omega) (by unfold aIdxAddr; omega) (by omega) hs hw]
  exact ⟨_, rfl, reg_capture_ne _ _ _ _ _ (by show _ ≠ pMbx p + 0x024; omega) (by show _ ≠ pMbx p + 0x028; omega)⟩

/-- A ring of F2H_DB through its SET view. -/
theorem doorbellRing_toHost {rq : Requester} (hs : s.serves rq (pMbx p + 0x10D0)) : doorbellRing p true rq v s
    = ((s.setReg (pMbx p + 0x0D0) (s.reg (pMbx p + 0x0D0) ||| v)).f2hRing p (s.reg (pMbx p + 0x0D0))
        (s.reg (pMbx p + 0x0D4))).settle := by
  have hw := s.mbxWrite_f2hDb p (r := mbxReg p 0x0D0 1) (pMbx p + 0x10D0) (v &&& beMask 0xF) (beMask 0xF) rq rfl
  rw [plainWrite_ring p v (.inr rfl)] at hw
  exact (putWord_mbx 1 rfl hon (by decide) (by decide) (by decide) hs hw).trans rfl

/-- A ring of H2F_DB through its SET view. -/
theorem doorbellRing_toModule {rq : Requester} (hs : s.serves rq (pMbx p + 0x10C8)) : doorbellRing p false rq v s
    = ((s.setReg (pMbx p + 0x0C8) (s.reg (pMbx p + 0x0C8) ||| v)).h2fRing p (s.reg (pMbx p + 0x0C8))
        (s.reg (pMbx p + 0x0CC))).settle := by
  have hw := s.mbxWrite_h2fDb p (r := mbxReg p 0x0C8 1) (pMbx p + 0x10C8) (v &&& beMask 0xF) (beMask 0xF) rq rfl
  rw [plainWrite_ring p v (.inl rfl)] at hw
  exact (putWord_mbx 1 rfl hon (by decide) (by decide) (by decide) hs hw).trans rfl

end

theorem regValue_mbx (n i p : ℕ) {off : ℕ} (free : Word) (ho : 0x040 ≤ off) :
    s.regValue .mbx n i p off free = s.reg (p + off) := by
  unfold regValue
  split
  case h_6 => rfl
  all_goals omega

/-- A served read of a mailbox word. -/
theorem readAcc_mbx {p : HostPort} {rq : Requester} {off : ℕ} (h : ∃ k : Fin 16, off = 0x040 + 4 * k.val ∨ off = 0x080 + 4 * k.val)
    (hs : s.serves rq (pMbx p + off)) (hl : s.noLatch rq (pMbx p + off)) : s.readAcc ⟨rq, pMbx p + off⟩
      = (({ s with freeCtr := s.freeCtr + 1 } : State).readEffect rq (mbxReg p off 0)).send
          (.regData rq (some (s.reg (pMbx p + off)))) := by
  have hoff : 0x040 ≤ off ∧ off < 0x0C0 ∧ off % 4 = 0 ∧ Block.mbx.los.contains off = false := by
    clear hs hl
    obtain ⟨k, rfl | rfl⟩ := h
    · revert k
      decide
    · revert k
      decide
  obtain ⟨h40, hC0, h4, hlo⟩ := hoff
  obtain ⟨-, -, hp⟩ := portPages p p
  refine (readAcc_fresh hs (s.regLoc_mbx p 0 (by omega) h4) (by unfold aIdxAddr; omega) hl hlo).trans ?_
  exact congrArg (fun w => send _ (.regData rq (some w))) (regValue_mbx _ _ _ _ h40)

theorem clearRc_mbx {p : HostPort} {off : ℕ} (h : ∃ k : Fin 16, off = 0x040 + 4 * k.val ∨ off = 0x080 + 4 * k.val) :
    s.clearRc (mbxReg p off 0) = s := clearRc_none (mbx_rw (.inl h)).2.2.2

/-- Module firmware's read of an H2F word empties it (R469). -/
theorem readEffect_h2f (p : HostPort) (k : Fin 16) : s.readEffect .firmware (mbxReg p (0x040 + 4 * k.val) 0)
    = s.setReg (pMbx p + 0x0C0) (setBits (s.reg (pMbx p + 0x0C0)) k.val k.val 0) := by
  have hk := k.isLt
  have hkey : (0x040 + 4 * k.val) % 0x40 / 4 = k.val := wordNo_h2f p k 0
  unfold readEffect
  rw [clearRc_mbx ⟨k, .inl rfl⟩]
  unfold mbxReg
  dsimp only
  rw [if_pos ⟨by omega, by omega, rfl⟩, hkey]

/-- A host's read of an F2H word empties it (R470). -/
theorem readEffect_f2h (p q : HostPort) (k : Fin 16) : s.readEffect (portRq q) (mbxReg p (0x080 + 4 * k.val) 0)
    = s.setReg (pMbx p + 0x0C4) (setBits (s.reg (pMbx p + 0x0C4)) k.val k.val 0) := by
  have hk := k.isLt
  have hkey : (0x080 + 4 * k.val) % 0x40 / 4 = k.val := wordNo_f2h p k 0
  unfold readEffect
  rw [clearRc_mbx ⟨k, .inr rfl⟩]
  unfold mbxReg
  dsimp only
  rw [if_neg (by omega), if_pos ⟨by omega, by omega, by rw [rqPort_portRq]; rfl⟩, hkey]

theorem h2fRead_served {p : HostPort} {k : Fin 16} (hs : s.serves .firmware (pMbx p + 0x040 + 4 * k.val))
    (hl : s.noLatch .firmware (pMbx p + 0x040 + 4 * k.val)) : h2fRead p k s
      = (({ s with freeCtr := s.freeCtr + 1 } : State).setReg (pMbx p + 0x0C0)
          (setBits (s.reg (pMbx p + 0x0C0)) k.val k.val 0)).send
            (.regData .firmware (some (s.reg (pMbx p + 0x040 + 4 * k.val)))) := by
  unfold h2fRead
  rw [Nat.add_assoc] at hs hl ⊢
  rw [readAcc_mbx ⟨k, .inl rfl⟩ hs hl, readEffect_h2f]
  rfl

theorem f2hRead_served {p q : HostPort} {k : Fin 16} (hs : s.serves (portRq q) (pMbx p + 0x080 + 4 * k.val))
    (hl : s.noLatch (portRq q) (pMbx p + 0x080 + 4 * k.val)) : f2hRead p k q s
      = (({ s with freeCtr := s.freeCtr + 1 } : State).setReg (pMbx p + 0x0C4)
          (setBits (s.reg (pMbx p + 0x0C4)) k.val k.val 0)).send
            (.regData (portRq q) (some (s.reg (pMbx p + 0x080 + 4 * k.val)))) := by
  unfold f2hRead
  rw [Nat.add_assoc] at hs hl ⊢
  rw [readAcc_mbx ⟨k, .inr rfl⟩ hs hl, readEffect_f2h]
  rfl

end State
end Sys2Proof.Machine
end

section
open Sys2Proof Sys2Proof.Machine

/-- Settles O27: the served writes and reads of these pages, register by register. -/
theorem pageCommands : Obligations.PageCommands := by
  unfold Obligations.PageCommands
  refine ⟨fun s page r => ⟨fun p hs hr hw => ?_, fun rq v hs hr hw => ?_, fun p hs hr hw => ?_⟩,
    fun s => ⟨fun rq v hs => ?_, fun g p hp => State.contains_strobe g hp, fun p hl hc => ?_, fun p w hr hw => ?_⟩,
    fun s => ⟨fun k rq hs hl hr => State.hsemRead_served hr hs hl, fun k p hs => ?_, fun rq hs => ?_⟩,
    fun s p q k v hon => ?_⟩
  · exact congrArg Host.Outcome.next (State.pgEvtWrite_served hs hr hw rfl)
  · exact congrArg Host.Outcome.next (State.pgEvtInj_served hs hr hw)
  · exact congrArg Host.Outcome.next (State.pgCntSel_served hs hr hw)
  · exact congrArg Host.Outcome.next (State.updStrobe_served hs)
  · exact congrArg Host.Outcome.next (State.updateApply_strobed hl hc)
  · rw [State.applyShadows_cfg hw]
    refine ⟨State.reg_setReg _ _ _ hr, rfl, ?_⟩
    simp [List.contains_eq_mem]
  · intro frees
    exact ⟨fun h => congrArg Host.Outcome.next ((State.hsemWrite_served hs).trans (congrArg State.settle (if_pos h))),
      fun h => congrArg Host.Outcome.next ((State.hsemWrite_served hs).trans (congrArg State.settle (if_neg h)))⟩
  · intro t at_ ha hd
    exact ⟨congrArg Host.Outcome.next (State.idxData_read hs ha hd rfl),
      fun v hok => congrArg Host.Outcome.next (State.idxData_write hs ha hd rfl rfl hok)⟩
  · intro m h f
    refine ⟨fun hs hb => ?_, fun hs hb => ?_, fun hs hl => ?_, fun hs hb => ?_, fun hs hb => ?_, fun hs hl => ?_,
      fun rq hs => ?_, fun rq hs => ?_⟩
    · exact congrArg Host.Outcome.next (State.h2fWrite_empty hon hs hb)
    · obtain ⟨t, ht, hreg⟩ := State.h2fWrite_full (v := v) hon hs hb
      exact ⟨t, congrArg Host.Outcome.next ht, hreg _ (by omega), hreg _ (by omega)⟩
    · exact congrArg Host.Outcome.next (State.h2fRead_served hs hl)
    · exact congrArg Host.Outcome.next (State.f2hWrite_empty hon hs hb)
    · obtain ⟨t, ht, hreg⟩ := State.f2hWrite_full (v := v) hon hs hb
      exact ⟨t, congrArg Host.Outcome.next ht, hreg⟩
    · exact congrArg Host.Outcome.next (State.f2hRead_served hs hl)
    · exact congrArg Host.Outcome.next (State.doorbellRing_toHost hon hs)
    · exact congrArg Host.Outcome.next (State.doorbellRing_toModule hon hs)
end


section
/-! SUPPORT. BAR2 accesses of 32 aligned bytes of the local scratchpad (R442, R443). -/
namespace Sys2Proof.Machine

/-! ### Scratchpad accesses without errors -/

theorem Mem.faulty_of_spClean {m : Mem} (h : m.spClean = true) {a : ℕ} (ha : isSp a = true) (n : ℕ) : m.faulty a n = [] := by
  have hbase : spBase ≤ a := of_decide_eq_true ha
  unfold Mem.faulty
  split
  · rfl
  · rw [List.filter_eq_nil_iff]
    intro k hk
    obtain ⟨u, hu, rfl⟩ := List.mem_map.1 hk
    obtain ⟨i, -, rfl⟩ := List.mem_map.1 hu
    have hsp : isSp ((i + a / codeSize a) * codeSize a) = true := by
      unfold codeSize isSp at *
      rw [if_pos ha]
      unfold spBase at *
      exact decide_eq_true (by omega)
    rw [m.wrong_of_spClean _ h hsp]
    decide

namespace State
variable {s : State}

theorem isSp_spKey (ph x : ℕ) : isSp (spKey ph x) = true := by
  unfold isSp spKey
  exact decide_eq_true (by omega)

theorem spRead_clean (s : State) (ph x n : ℕ) (h : s.mem.spClean = true) :
    s.spRead ph x n = ⟨s, 0, 0, s.mem.read (spKey ph x) n⟩ := by
  unfold spRead Mem.failing Mem.corrected
  dsimp only
  rw [Mem.faulty_of_spClean h (isSp_spKey ph x)]
  rfl

section
variable {off ph x : ℕ} (h : s.mem.spClean = true) (hp : s.place off 32 = .sp ph x) (hoff : off % 32 = 0)
include h hp hoff

theorem memRead_sp : s.memRead off 32 = ⟨s, 0, 0, s.mem.read (spKey ph x) 32⟩ := by
  rw [s.memRead_one (by decide) (by omega)]
  unfold memRead1
  rw [hp]
  exact spRead_clean s ph x 32 h

theorem memWrite_sp {bs : List Byte} (hl : bs.length = 32) :
    s.memWrite off bs = ⟨{ s with mem := s.mem.put (spKey ph x) bs }, 0, 0, []⟩ := by
  unfold memWrite
  rw [hl, cuts256_one (by decide) (by omega), List.foldl_cons, List.foldl_nil]
  dsimp only
  rw [Nat.sub_self, List.drop_zero, List.take_of_length_le (by omega)]
  unfold memWrite1
  rw [hl, hp]
  dsimp only
  rw [spWrite_clean s ph x bs h]
  rfl

end

/-- The place of scratchpad bytes lies in the scratchpad window. -/
theorem place_sp {off n ph x : ℕ} (h : s.place off n = .sp ph x) : spBase ≤ off ∧ off < spBase + 0x400000000 := by
  unfold place at h
  split at h
  · split at h <;> contradiction
  · split at h
    · assumption
    · split at h <;> contradiction

/-! ### The list of accesses -/

/-- The state with one BAR2 access under way. -/
def withB2 (s : State) (x : Bar2Acc) : State := { s with bar2 := [x] }

/-- The accesses under way are no part of the map. -/
theorem sameMap_withB2 (s : State) (x : Bar2Acc) : s.SameMap (s.withB2 x) :=
  ⟨rfl, rfl, rfl, fun _ => rfl, fun _ => rfl, fun _ => rfl, fun _ => rfl⟩

theorem endHeld_withB2 (s : State) (x : Bar2Acc) (off n : ℕ) : (s.withB2 x).endHeld off n = s.endHeld off n := by
  unfold endHeld
  rw [(s.sameMap_withB2 x).memHeld, regHeld_congr (s := s) (t := s.withB2 x) rfl rfl rfl,
    show (s.withB2 x).regTarget = s.regTarget from rfl]

theorem getB2_withB2 (x : Bar2Acc) : (s.withB2 x).getB2 x.id = some x := by
  unfold getB2 withB2
  simp

theorem modB2_withB2 (x : Bar2Acc) (f : Bar2Acc → Bar2Acc) : (s.withB2 x).modB2 x.id f = s.withB2 (f x) := by
  unfold modB2 withB2 modFirst
  simp

theorem cutAt_one {g off : ℕ} (hg : 0 < g) {bs : List Byte} (hl : 0 < bs.length) (h : off % g + bs.length ≤ g) (f : ℕ) :
    cutAt g (f + 2) off bs = [(off, bs)] := by
  have hne : bs.isEmpty = false := by cases bs <;> simp_all
  have hmod := Nat.mod_lt off hg
  unfold cutAt
  rw [hne, if_neg Bool.false_ne_true]
  dsimp only
  rw [List.take_of_length_le (by omega), List.drop_eq_nil_of_le (by omega)]
  rfl

/-- 32 aligned bytes of the scratchpad window are one local access. -/
theorem b2Cut_sp {off : ℕ} (hoff : off % 32 = 0) (hw : spBase ≤ off ∧ off < spBase + 0x400000000) {bs : List Byte}
    (hl : bs.length = 32) : b2Cut off bs = [(off, bs)] := by
  unfold spBase at hw
  have hmod : off % 2 ^ 44 = off := Nat.mod_eq_of_lt (by omega)
  have hsize : fabricSize off 32 = true := by
    unfold fabricSize
    simp
    omega
  have hregs : inRegs off = false := by
    unfold inRegs regBase
    exact decide_eq_false (by omega)
  unfold b2Cut
  rw [hl, cutAt_one (by decide) (by omega) (by omega) 31, List.flatMap_singleton]
  dsimp only
  rw [hmod, hl, hsize, hregs]
  rfl

theorem enabledRuns_all (i : ℕ) {data : List Byte} (h : data ≠ []) :
    enabledRuns i data (List.replicate data.length true) = [(i, data)] := by
  induction data generalizing i with
  | nil => contradiction
  | cons b bs ih =>
    rw [List.length_cons, List.replicate_succ, enabledRuns]
    cases bs with
    | nil => rfl
    | cons c cs =>
      rw [ih (i + 1) (by simp)]
      simp

theorem b2Place_here {p : HostPort} (hogs : s.b2Ogs p = false) (o : ℕ) :
    s.b2Place p o = .here (s.b2Base p % 2 ^ 44 + o) := by
  unfold b2Place
  rw [hogs]
  rfl

/-- The one local access that is due, when nothing holds it and it goes well. -/
theorem b2Go_one {y : Bar2Acc} {w : ℕ × ℕ × List Byte} (hy : y.todo = [w]) (hf : y.failed = false)
    (hh : s.endHeld w.2.1 w.2.2.length = false) {t : State} {data : List Byte}
    (hr : (s.withB2 { y with todo := [] }).b2Local { y with todo := [] } w.2.1 w.2.2 = ⟨t, 0, 0, data⟩) :
    (s.withB2 y).b2Go y.id
      = t.modB2 y.id fun x => { x with got := if x.isWrite then x.got else x.got ++ [(w.1, data)] } := by
  have hget := getB2_withB2 (s := s) { y with todo := [] }
  have hh' := (endHeld_withB2 s { y with todo := [] } w.2.1 w.2.2.length).trans hh
  unfold b2Go
  rw [getB2_withB2]
  dsimp only at hget ⊢
  rw [modB2_withB2, hy, List.foldl_cons, List.foldl_nil, hget]
  dsimp only
  rw [if_neg (ne_true_of_eq_false hf), if_neg (ne_true_of_eq_false hh'), hr]
  rfl

/-! ### A read of 32 aligned bytes -/

/-- The blocks of 256 bytes that a BAR2 read touches. -/
def b2Cuts (a len : ℕ) : List (ℕ × ℕ) :=
  (List.range (cdiv (a % 256 + len) 256)).filterMap fun i =>
    let lo := max a (a / 256 * 256 + 256 * i)
    let hi := min (a + len) (a / 256 * 256 + 256 * (i + 1))
    if lo < hi then some (lo, hi - lo) else none

/-- What a read lists of one of its blocks in this module. -/
def b2List (x : Bar2Acc) (c : ℕ × ℕ) (off : ℕ) (s : State) : State :=
  (b2Cut off (List.replicate c.2 0)).foldl (fun s w =>
    s.modB2 x.id fun y => { y with todo := y.todo ++ [(c.1 - x.addr + (w.1 - off) + 4, w.1, w.2)] }) s

/-- A read that lies in one block of this module. -/
theorem b2Read_here {y : Bar2Acc} {c : ℕ × ℕ} {off : ℕ} (hc : b2Cuts y.addr y.len = [c])
    (hp : (s.modB2 y.id fun y => { y with started := true }).b2Place y.port c.1 = .here off) :
    s.b2Read y = (s.modB2 y.id fun y => { y with started := true }).b2List y c off := by
  unfold b2Cuts at hc
  unfold b2Read
  dsimp only at hc ⊢
  rw [hc, List.foldl_cons, List.foldl_nil, hp]
  rfl

/-- A read of 32 aligned bytes lies in one block of 256. -/
theorem b2Cuts_one {o : ℕ} (ho : o % 32 = 0) : b2Cuts o 32 = [(o, 32)] := by
  have hc : cdiv (o % 256 + 32) 256 = 1 := by
    unfold cdiv
    omega
  have hlo : max o (o / 256 * 256 + 256 * 0) = o := by omega
  have hhi : min (o + 32) (o / 256 * 256 + 256 * (0 + 1)) = o + 32 := by omega
  unfold b2Cuts
  rw [hc]
  simp only [List.range_one, List.filterMap_cons, List.filterMap_nil, hlo, hhi]
  rw [if_pos (by omega)]
  simp

/-- A read of 32 bytes as it is taken in. -/
def b2New (p : HostPort) (o : ℕ) : Bar2Acc := ⟨0, p, false, o, 32, false, [], 0, false, []⟩
/-- A read of 32 bytes whose access is due. -/
def b2Due (p : HostPort) (o off : ℕ) : Bar2Acc := ⟨0, p, false, o, 32, true, [(4, off, List.replicate 32 0)], 0, false, []⟩
/-- A read of 32 bytes that has them. -/
def b2Got (p : HostPort) (o : ℕ) (bs : List Byte) : Bar2Acc := ⟨0, p, false, o, 32, true, [], 0, false, [(4, bs)]⟩

section
variable {p : HostPort} {o off ph x : ℕ} (ho : o % 32 = 0) (hplace : ∀ y, (s.withB2 y).b2Place p o = .here off)
  (hoff : off % 32 = 0) (hclean : s.mem.spClean = true) (hp : s.place off 32 = .sp ph x) (hheld : s.endHeld off 32 = false)

include hp in
theorem inRegs_sp : inRegs off = false := by
  have hw := place_sp hp
  unfold spBase at hw
  unfold inRegs regBase
  exact decide_eq_false (by omega)

include ho hplace hoff hp in
theorem b2Read_sp : (s.withB2 (b2New p o)).b2Read (b2New p o) = s.withB2 (b2Due p o off) := by
  have hcut := b2Cut_sp (bs := List.replicate 32 0) hoff (place_sp hp) (by simp)
  have hmod := modB2_withB2 (s := s) (b2New p o) fun y => { y with started := true }
  rw [b2Read_here (c := (o, 32)) (off := off) (b2Cuts_one ho) (by rw [hmod]; exact hplace _), hmod]
  unfold b2List
  rw [hcut, List.foldl_cons, List.foldl_nil]
  refine (modB2_withB2 (s := s) { b2New p o with started := true } _).trans ?_
  simp [b2New, b2Due]

include hoff hclean hp hheld in
/-- The access that is due reads memory. -/
theorem b2Go_read : (s.withB2 (b2Due p o off)).b2Go 0 = s.withB2 (b2Got p o (s.mem.read (spKey ph x) 32)) := by
  have hread := memRead_sp (s := s.withB2 { b2Due p o off with todo := [] }) hclean
    (((sameMap_withB2 s _).place off 32).trans hp) hoff
  have hlocal : (s.withB2 { b2Due p o off with todo := [] }).b2Local { b2Due p o off with todo := [] } off
      (List.replicate 32 0) = ⟨s.withB2 { b2Due p o off with todo := [] }, 0, 0, s.mem.read (spKey ph x) 32⟩ := by
    unfold b2Local
    rw [inRegs_sp hp, if_neg Bool.false_ne_true, List.length_replicate]
    exact hread
  refine (b2Go_one (y := b2Due p o off) rfl rfl (by rw [List.length_replicate]; exact hheld) hlocal).trans ?_
  exact modB2_withB2 (s := s) { b2Due p o off with todo := [] } _

/-- The bytes of a read, from the one piece that came in. -/
theorem b2Bytes_one {bs : List Byte} (h : bs.length = 32) : (List.range 32).map (b2Byte [(4, bs)]) = bs := by
  refine List.ext_getElem (by simp [h]) fun i hi hi' => ?_
  have hlt : i < 32 := by simpa using hi
  have hin : i + 4 < 36 := by omega
  simp [b2Byte, h, hin, List.getElem?_eq_getElem hi']

theorem b2End_got (p : HostPort) (o : ℕ) {bs : List Byte} (h : bs.length = 32) :
    (s.withB2 (b2Got p o bs)).b2End (b2Got p o bs) = ({ s with bar2 := [] } : State).send (.bar2Data p (some bs)) := by
  have hbytes : (List.range 32).map (b2Byte [(4, bs)]) = bs := b2Bytes_one h
  show ({ s.withB2 (b2Got p o bs) with bar2 := [b2Got p o bs].filter fun y => y.id != 0 } : State).send
    (.bar2Data p (some ((List.range 32).map (b2Byte [(4, bs)])))) = _
  rw [hbytes]
  rfl

include ho hplace hoff hclean hp hheld in
theorem b2Step_read : (s.withB2 (b2New p o)).b2Step 0
    = ({ s with bar2 := [] } : State).send (.bar2Data p (some (s.mem.read (spKey ph x) 32))) := by
  have hgo : ((s.withB2 (b2New p o)).b2Read (b2New p o)).b2Go 0 = s.withB2 (b2Got p o (s.mem.read (spKey ph x) 32)) := by
    rw [b2Read_sp ho hplace hoff hp, b2Go_read hoff hclean hp hheld]
  have hget : (s.withB2 (b2New p o)).getB2 0 = some (b2New p o) := getB2_withB2 (s := s) (b2New p o)
  have hget' : (s.withB2 (b2Got p o (s.mem.read (spKey ph x) 32))).getB2 0 = some (b2Got p o (s.mem.read (spKey ph x) 32)) :=
    getB2_withB2 (s := s) (b2Got p o _)
  have hfirst : (s.withB2 (b2New p o)).b2Behind (b2New p o) = false := rfl
  unfold b2Step
  rw [hget]
  dsimp only
  rw [hfirst, show (b2New p o).isWrite = false from rfl, show (b2New p o).started = false from rfl]
  simp only [Bool.not_false, Bool.and_self, if_true]
  rw [hgo, hget']
  exact b2End_got p o (Mem.read_length _ _ _)
end

/-! ### A write of 32 aligned bytes -/

/-- A write of 32 bytes without a local access that is due, and with one. -/
def b2Write (p : HostPort) (o : ℕ) (todo : List (ℕ × ℕ × List Byte)) : Bar2Acc := ⟨0, p, true, o, 32, true, todo, 0, false, []⟩

section
variable {p : HostPort} {o off ph x : ℕ} {data : List Byte} (ho : o % 32 = 0)
  (hplace : ∀ y, (s.withB2 y).b2Place p o = .here off) (hoff : off % 32 = 0) (hclean : s.mem.spClean = true)
  (hp : s.place off 32 = .sp ph x) (hheld : s.endHeld off 32 = false) (hl : data.length = 32)

include hoff hclean hp hheld hl in
/-- The access that is due writes memory. -/
theorem b2Go_write : (s.withB2 (b2Write p o [(0, off, data)])).b2Go 0
    = ({ s with mem := s.mem.put (spKey ph x) data } : State).withB2 (b2Write p o []) := by
  have hwrite := memWrite_sp (s := s.withB2 (b2Write p o [])) hclean (((sameMap_withB2 s _).place off 32).trans hp) hoff hl
  have hlocal : (s.withB2 (b2Write p o [])).b2Local (b2Write p o []) off data
      = ⟨({ s with mem := s.mem.put (spKey ph x) data } : State).withB2 (b2Write p o []), 0, 0, []⟩ := by
    unfold b2Local
    rw [inRegs_sp hp, if_neg Bool.false_ne_true]
    exact hwrite
  refine (b2Go_one (y := b2Write p o [(0, off, data)]) rfl rfl (by rw [hl]; exact hheld) hlocal).trans ?_
  exact modB2_withB2 (b2Write p o []) _

include ho hplace hoff hclean hp hheld hl in
theorem b2Run_sp : (s.withB2 (b2Write p o [])).b2Run 0 p o data
    = ({ s with mem := s.mem.put (spKey ph x) data } : State).withB2 (b2Write p o []) := by
  have hget : (s.withB2 (b2Write p o [])).getB2 0 = some (b2Write p o []) := getB2_withB2 (s := s) (b2Write p o [])
  unfold b2Run
  rw [hl, cutAt_one (by decide) (by omega) (by omega) 31, List.foldl_cons, List.foldl_nil, hget]
  dsimp only
  rw [if_neg (show ¬(b2Write p o []).failed = true from Bool.false_ne_true), hplace]
  dsimp only
  rw [b2Cut_sp hoff (place_sp hp) hl, List.foldl_cons, List.foldl_nil,
    show (s.withB2 (b2Write p o [])).modB2 0 _ = _ from modB2_withB2 (s := s) (b2Write p o []) _]
  exact b2Go_write hoff hclean hp hheld hl

end

theorem b2Step_write (p : HostPort) (o : ℕ) : (s.withB2 (b2Write p o [])).b2Step 0 = { s with bar2 := [] } := by
  have hget : (s.withB2 (b2Write p o [])).getB2 0 = some (b2Write p o []) := getB2_withB2 (s := s) (b2Write p o [])
  unfold b2Step
  rw [hget]
  dsimp only
  rw [show (b2Write p o []).isWrite = true from rfl]
  simp only [Bool.not_true, Bool.false_and, Bool.false_eq_true, if_false]
  rw [hget]
  rfl

/-! ### The commands -/

section
variable {p : HostPort} {o ph x : ℕ} {data : List Byte} (hload : s.loadLive (portRq p) = false)
  (hlive : s.rqLive (portRq p) = true) (hbar : s.bar2 = []) (hogs : s.b2Ogs p = false) (ho : o % 32 = 0)
  (hb : s.b2Base p % 32 = 0) (hclean : s.mem.spClean = true) (hp : s.place (s.b2Base p % 2 ^ 44 + o) 32 = .sp ph x)
  (hheld : s.endHeld (s.b2Base p % 2 ^ 44 + o) 32 = false)
include hload hlive hbar hogs ho hb hclean hp hheld

theorem bar2Read_sp : bar2Read p o 32 s
    = ({ s with bar2 := [] } : State).send (.bar2Data p (some (s.mem.read (spKey ph x) 32))) := by
  have hplace (y : Bar2Acc) : (s.withB2 y).b2Place p o = .here (s.b2Base p % 2 ^ 44 + o) :=
    b2Place_here (s := s.withB2 y) hogs o
  unfold bar2Read nextB2
  rw [if_neg (ne_true_of_eq_false hload), hlive, hbar]
  exact b2Step_read ho hplace (by omega) hclean hp hheld

theorem bar2Write_sp (hl : data.length = 32) : bar2Write p o data (List.replicate 32 true) s
    = { s with mem := s.mem.put (spKey ph x) data, bar2 := [] } := by
  have hplace (y : Bar2Acc) : (s.withB2 y).b2Place p o = .here (s.b2Base p % 2 ^ 44 + o) :=
    b2Place_here (s := s.withB2 y) hogs o
  have hruns : enabledRuns 0 data (List.replicate 32 true) = [(0, data)] := by
    rw [← hl]
    exact enabledRuns_all 0 (by rintro rfl; simp at hl)
  have hrun := b2Run_sp ho hplace (by omega) hclean hp hheld hl
  unfold bar2Write nextB2
  rw [if_neg (ne_true_of_eq_false hload), hlive, hbar]
  dsimp only
  rw [hruns, hl, List.foldl_cons, List.foldl_nil]
  refine (congrArg b2Settle hrun).trans ?_
  exact b2Step_write p o

end

end State
end Sys2Proof.Machine
end

section
open Sys2Proof Sys2Proof.Machine

/-- Settles O53: such an access is one local access of the scratchpad, which completes at once. -/
theorem bar2ReachesMemory : Obligations.Bar2ReachesMemory := by
  unfold Obligations.Bar2ReachesMemory
  intro s p o data hload hlive hm hbar hogs ho hb hclean ph x hp hheld
  refine ⟨⟨_, congrArg Host.Outcome.next (State.bar2Read_sp hload hlive hbar hogs ho hb hclean hp hheld), rfl, rfl, rfl⟩,
    fun hl => ⟨_, congrArg Host.Outcome.next (State.bar2Write_sp hload hlive hbar hogs ho hb hclean hp hheld hl), ?_, ?_, rfl,
      rfl⟩⟩
  · rw [← hl]
    exact Mem.read_put _ _ _ hm
  · exact fun a ha => Mem.byte_put_out _ _ _ _ (by rwa [hl])
end


section
/-! SUPPORT. The commands of a host port: its resets, and register accesses that time out (R440 to R449, R462). -/
namespace Sys2Proof.Machine

namespace State
variable {s : State}

/-! ### The discarding of a port's accesses, and the reset of its pages -/

/-- The semaphores of a requester released. -/
def freeSems (s : State) (rq : Requester) : State :=
  (List.range 16).foldl (fun s k =>
    if s.fget pGctl ⟨0x080 + 4 * k, 1, 0⟩ = rqNo rq then s.setReg (pGctl + 0x080 + 4 * k) 0 else s) s

theorem freeSems_keeps {α : Type} {part : State → α} (h : ∀ (s : State) a w, part (s.setReg a w) = part s) (s : State)
    (rq : Requester) : part (s.freeSems rq) = part s := by
  refine foldl_keeps part (fun t k => ?_) _ s
  split
  · exact h t _ _
  · rfl

theorem reg_freeSems {a : ℕ} (ha : 0x0C0 ≤ a) (s : State) (rq : Requester) : (s.freeSems rq).reg a = s.reg a := by
  refine foldl_keeps_mem (reg · a) (fun t k hk => ?_) s
  have hk16 : k < 16 := List.mem_range.1 hk
  split
  · exact reg_setReg_ne _ (by rw [show pGctl = 0 from rfl]; omega) _
  · rfl

theorem regsOk_freeSems (h : s.regsOk) (rq : Requester) : (s.freeSems rq).regsOk := by
  unfold freeSems
  generalize List.range 16 = l
  induction l generalizing s with
  | nil => exact h
  | cons k l ih =>
    refine ih ?_
    dsimp only
    split
    · exact regsOk_setReg h _ _
    · exact h

/-- What is left once the accesses of a port are discarded: its semaphores are then released. -/
theorem dropPort_eq (s : State) (p : HostPort) : ∃ u : State, s.dropPort p = u.freeSems (portRq p) ∧ u.regs = s.regs
    ∧ u.mem = s.mem ∧ u.boot = s.boot ∧ u.bar2 = s.bar2.filter (fun x => x.port != p) :=
  ⟨_, rfl, rfl, rfl, rfl, rfl⟩

theorem dropPort_mem (s : State) (p : HostPort) : (s.dropPort p).mem = s.mem := by
  obtain ⟨u, hu, -, hm, -, -⟩ := s.dropPort_eq p
  rw [hu, freeSems_keeps (part := State.mem) (fun _ _ _ => rfl), hm]

theorem dropPort_boot (s : State) (p : HostPort) : (s.dropPort p).boot = s.boot := by
  obtain ⟨u, hu, -, -, hb, -⟩ := s.dropPort_eq p
  rw [hu, freeSems_keeps (part := State.boot) (fun _ _ _ => rfl), hb]

theorem dropPort_bar2 (s : State) (p : HostPort) : (s.dropPort p).bar2 = s.bar2.filter (fun x => x.port != p) := by
  obtain ⟨u, hu, -, -, -, hx⟩ := s.dropPort_eq p
  rw [hu, freeSems_keeps (part := State.bar2) (fun _ _ _ => rfl), hx]

theorem reg_dropPort {a : ℕ} (ha : 0x0C0 ≤ a) (s : State) (p : HostPort) : (s.dropPort p).reg a = s.reg a := by
  obtain ⟨u, hu, hr, -, -, -⟩ := s.dropPort_eq p
  rw [hu, reg_freeSems ha, reg_of_regs hr]

theorem regsOk_dropPort (h : s.regsOk) (p : HostPort) : (s.dropPort p).regsOk := by
  obtain ⟨u, hu, hr, -, -, -⟩ := s.dropPort_eq p
  rw [hu]
  exact regsOk_freeSems (by unfold regsOk; rw [hr]; exact h) _

@[simp] theorem resetPage_mem (page : ℕ) (keep : ℕ → Bool) : (s.resetPage page keep).mem = s.mem := rfl
@[simp] theorem resetPage_bar2 (page : ℕ) (keep : ℕ → Bool) : (s.resetPage page keep).bar2 = s.bar2 := rfl
@[simp] theorem resetPage_boot (page : ℕ) (keep : ℕ → Bool) : (s.resetPage page keep).boot = s.boot := rfl

theorem regsOk_resetPage (h : s.regsOk) (page : ℕ) (keep : ℕ → Bool) : (s.resetPage page keep).regsOk :=
  Tab.rising_filter h _

/-- A register that a page's reset keeps, or of another page. -/
theorem reg_resetPage (s : State) {page a : ℕ} {keep : ℕ → Bool}
    (ha : (!(a / 0x4000 == page / 0x4000) || keep (a % 0x4000)) = true) : (s.resetPage page keep).reg a = s.reg a :=
  (Tab.get_filter_key (regRst a) (fun k => !(k / 0x4000 == page / 0x4000) || keep (k % 0x4000)) a s.regs).trans (if_pos ha)

theorem all_dropped (l : List Bar2Acc) (p : HostPort) : (l.filter fun x => x.port != p).all (fun x => x.port != p) = true := by
  rw [List.all_eq_true]
  exact fun x hx => (List.mem_filter.1 hx).2

/-! ### Function Level Reset and PERST_n -/

theorem flr_served {p : HostPort} (hl : s.rqLive (portRq p) = true) :
    (flr p s).bar2.all (fun x => x.port != p) = true ∧ (flr p s).mem = s.mem
      ∧ (flr p s).reg (pHp p + 0x040) = s.reg (pHp p + 0x040) := by
  have heq : flr p s = (((s.dropPort p).resetPage (pHp p) fun o => o == 0x040 || o == 0x054).resetPage (pMbx p)
      fun _ => false).event (pHp p) F.HP_PG_EVT_PERST := by
    unfold flr
    rw [hl]
    rfl
  obtain ⟨hlo, hhi⟩ : 0x0C0 ≤ pHp p + 0x040 ∧ (pHp p + 0x040) / 0x4000 ≠ pMbx p / 0x4000 := by cases p <;> decide
  have hkeep : (pHp p + 0x040) % 0x4000 = 0x040 := by cases p <;> decide
  rw [heq]
  refine ⟨?_, ?_, ?_⟩
  · rw [event_bar2, resetPage_bar2, resetPage_bar2, dropPort_bar2]
    exact all_dropped _ p
  · rw [event_mem, resetPage_mem, resetPage_mem, dropPort_mem]
  · refine (reg_raise_ne (by omega) (by omega) (by omega)).trans ?_
    rw [reg_resetPage _ (by simp [hhi]), reg_resetPage _ (by simp [hkeep]), reg_dropPort hlo]

theorem setHostLink_boot (p : HostPort) (l : HostLink) : (s.setHostLink p l).boot = s.boot := by
  rw [setHostLink_eq]
  split
  · rfl
  · rw [refreshDeg_keeps (part := State.boot) fun _ _ _ => by simp]
    simp

theorem setHostLink_bar2 (p : HostPort) (l : HostLink) : (s.setHostLink p l).bar2 = s.bar2 := by
  rw [setHostLink_eq]
  split
  · rfl
  · rw [refreshDeg_keeps (part := State.bar2) fun _ _ _ => by simp]
    simp

/-- Port p is held in reset. -/
def withPerst (s : State) (p : HostPort) : State := { s with boot := { s.boot with perst := s.boot.perst ||| 2 ^ HostPort.ix p } }

theorem perstAssert_eq {p : HostPort} (hon : s.hostOn p = true) (hp : s.pState ≠ 4) (hl : s.live = true) :
    perstAssert p s = (((((((s.withPerst p).dropPort p).setHostLink p ⟨false, 0, 0⟩).resetPage (pHp p) fun _ => false).resetPage
      (pMbx p) fun _ => false).finc (pHp p) F.HP_ERR_CNT1_PERSTS).refreshDeg) := by
  have hlive : (s.withPerst p).live = true := hl
  unfold withPerst at *
  unfold perstAssert
  rw [if_neg (by simp [hon, hp])]
  dsimp only
  rw [hlive, if_neg (by simp)]

theorem perstAssert_served {p : HostPort} (hon : s.hostOn p = true) (hp : s.pState ≠ 4) (hl : s.live = true) :
    (perstAssert p s).boot.perst.testBit (HostPort.ix p) = true
      ∧ (perstAssert p s).bar2.all (fun x => x.port != p) = true ∧ (perstAssert p s).mem = s.mem := by
  rw [perstAssert_eq hon hp hl]
  refine ⟨?_, ?_, ?_⟩
  · rw [refreshDeg_keeps (part := State.boot) (fun _ _ _ => by simp), finc_boot, resetPage_boot, resetPage_boot,
      setHostLink_boot, dropPort_boot]
    show (s.boot.perst ||| 2 ^ HostPort.ix p).testBit (HostPort.ix p) = true
    rw [Nat.testBit_or, Nat.testBit_two_pow_self, Bool.or_true]
  · rw [refreshDeg_keeps (part := State.bar2) (fun _ _ _ => by simp), finc_bar2, resetPage_bar2, resetPage_bar2,
      setHostLink_bar2, dropPort_bar2]
    exact all_dropped _ p
  · rw [refreshDeg_mem, finc_mem, resetPage_mem, resetPage_mem, (setHostLink_rest _ _).1, dropPort_mem]
    rfl

/-- A bit that is cleared. -/
theorem testBit_putBit_false (m n : ℕ) : (putBit m n false).testBit n = false := by
  unfold putBit
  rw [if_neg Bool.false_ne_true, Nat.and_two_pow]
  cases h : m.testBit n with
  | false => rwa [Bool.toNat_false, Nat.zero_mul, Nat.sub_zero]
  | true =>
    rw [Nat.testBit_eq_decide_div_mod_eq] at h ⊢
    rw [Bool.toNat_true, Nat.mul_comm, Nat.sub_mul_div]
    have hodd := of_decide_eq_true h
    exact decide_eq_false (by omega)

theorem perstRelease_served {p : HostPort} (hon : s.hostOn p = true) (hp : s.boot.perst.testBit (HostPort.ix p) = true) :
    (perstRelease p s).boot.perst.testBit (HostPort.ix p) = false
      ∧ (s.pState = 3 → (perstRelease p s).boot.wake = true) := by
  have hbit := testBit_putBit_false s.boot.perst (HostPort.ix p)
  unfold perstRelease
  rw [if_neg (by simp [hon, hp])]
  dsimp only
  split
  next => exact ⟨hbit, fun _ => rfl⟩
  next h3 =>
    have h3' : s.pState ≠ 3 := h3
    split
    · exact ⟨by rw [event_boot]; exact hbit, fun h => absurd h h3'⟩
    · exact ⟨hbit, fun h => absurd h h3'⟩

/-! ### Register accesses that time out -/

/-- The pages lie at multiples of 16 KiB. -/
theorem regLoc_page_aligned {a : ℕ} {r : RegAt} (h : s.regLoc a = some r) : r.page % 0x4000 = 0 := by
  have hpage (b : Block) (i : ℕ) : b.page i % 0x4000 = 0 := by
    have hbase : b.info.1 % 0x4000 = 0 := by cases b <;> decide
    unfold Block.page
    omega
  unfold regLoc at h
  dsimp only at h
  split at h
  · contradiction
  · split at h
    · obtain rfl := Option.some.inj h
      exact hpage _ _
    · contradiction
  · obtain rfl := Option.some.inj h
    exact hpage _ _

/-- A capture writes two registers of the common header of a page. -/
theorem capture_eq (r : RegAt) (a rq kind : ℕ) (wr : Bool) :
    ∃ rs, s.capture r a rq kind wr = { s with regs := rs } := by
  unfold capture
  split
  · exact ⟨s.regs, rfl⟩
  · exact ⟨_, rfl⟩

theorem captureTmo_eq (a : ℕ) (rq : Requester) (wr : Bool) : ∃ rs, s.captureTmo a rq wr = { s with regs := rs } := by
  unfold captureTmo
  split
  · exact capture_eq _ _ _ _ _
  · exact ⟨s.regs, rfl⟩

theorem reg_captureTmo {a b : ℕ} (rq : Requester) (wr : Bool) (hb : b % 0x4000 ≠ 0x024 ∧ b % 0x4000 ≠ 0x028) :
    (s.captureTmo a rq wr).reg b = s.reg b := by
  unfold captureTmo
  split
  next l hl =>
    have hpage := regLoc_page_aligned hl
    exact reg_capture_ne _ _ _ _ _ (by omega) (by omega)
  next => rfl

theorem regsOk_captureTmo (h : s.regsOk) (a : ℕ) (rq : Requester) (wr : Bool) : (s.captureTmo a rq wr).regsOk := by
  unfold captureTmo capture
  split
  · split
    · exact h
    · exact regsOk_setReg (regsOk_setReg h _ _) _ _
  · exact h

/-- An access of a host port that ends with an error response. -/
theorem regError_port (p : HostPort) : s.regError (portRq p)
    = (((s.finc (pHp p) F.HP_ERR_CNT0_REG_TMO).event (pHp p) F.HP_PG_EVT_REG_TMO).send (.aer p true)).send
        (.regData (portRq p) none) := by
  unfold regError
  rw [rqPort_portRq]

/-- What an access of a host port that ends with an error response leaves. -/
theorem regError_served (hr : s.regsOk) (p : HostPort) :
    (s.regError (portRq p)).out.drop ((s.regError (portRq p)).out.length - 2) = [.aer p true, .regData (portRq p) none]
      ∧ (s.regError (portRq p)).mem = s.mem ∧ (s.regError (portRq p)).cores = s.cores
      ∧ (s.regError (portRq p)).fget (pHp p) F.HP_ERR_CNT0_REG_TMO
          = sat 16 (s.fget (pHp p) F.HP_ERR_CNT0_REG_TMO + 1) := by
  rw [regError_port]
  refine ⟨?_, ?_, ?_, ?_⟩
  · simp [send]
  · simp
  · simp
  · have hcount : ((s.finc (pHp p) F.HP_ERR_CNT0_REG_TMO).event (pHp p) F.HP_PG_EVT_REG_TMO).fget (pHp p)
        F.HP_ERR_CNT0_REG_TMO = (s.finc (pHp p) F.HP_ERR_CNT0_REG_TMO).fget (pHp p) F.HP_ERR_CNT0_REG_TMO :=
      fget_event _ _ _ _ (by decide)
    refine hcount.trans ?_
    unfold finc
    rw [fget_fset _ _ _ _ hr (by decide)]
    exact Nat.mod_eq_of_lt (lt_of_le_of_lt (Nat.min_le_right _ _) (by decide))

/-- Without BAR2 accesses under way, an access of a host port that timed out is one of its own. -/
theorem accTmo_port (h : HeldAcc) {p : HostPort} (a : ℕ) (wr : Bool) (hb : s.bar2 = []) :
    ∃ hs, s.accTmo h (portRq p) a wr = ({ s.captureTmo a (portRq p) wr with held := hs } : State).regError (portRq p) := by
  obtain ⟨rs, hrs⟩ := s.captureTmo_eq a (portRq p) wr
  have hb2 : (s.captureTmo a (portRq p) wr).b2AtReg (portRq p) a wr = none := by
    unfold b2AtReg
    rw [hrs]
    dsimp only
    rw [hb]
    rfl
  unfold accTmo
  dsimp only
  split
  · exact ⟨_, rfl⟩
  · rw [hb2]
    exact ⟨(s.captureTmo a (portRq p) wr).held, by cases p <;> rfl⟩

/-- What a register access of a host port that timed out leaves. -/
theorem accTmo_served (hr : s.regsOk) (hb : s.bar2 = []) (h : HeldAcc) (p : HostPort) (a : ℕ) (wr : Bool) {t : State}
    (ht : t = s.accTmo h (portRq p) a wr) :
    t.out.drop (t.out.length - 2) = [.aer p true, .regData (portRq p) none] ∧ t.mem = s.mem ∧ t.cores = s.cores
      ∧ t.fget (pHp p) F.HP_ERR_CNT0_REG_TMO = sat 16 (s.fget (pHp p) F.HP_ERR_CNT0_REG_TMO + 1) := by
  obtain ⟨hs, heq⟩ := accTmo_port h (p := p) a wr hb
  obtain ⟨rs, hrs⟩ := s.captureTmo_eq a (portRq p) wr
  have hoff : (pHp p + 0x050) % 0x4000 = 0x050 := by cases p <;> decide
  have hreg : (s.captureTmo a (portRq p) wr).fget (pHp p) F.HP_ERR_CNT0_REG_TMO = s.fget (pHp p) F.HP_ERR_CNT0_REG_TMO :=
    congrArg (bits · 15 0) (reg_captureTmo (portRq p) wr (b := pHp p + 0x050) (by omega))
  obtain ⟨hout, hmem, hcores, hcount⟩ := regError_served (s := { s.captureTmo a (portRq p) wr with held := hs })
    (regsOk_captureTmo hr a (portRq p) wr) p
  rw [ht, heq]
  refine ⟨hout, hmem.trans ?_, hcores.trans ?_, hcount.trans (congrArg (fun v => sat 16 (v + 1)) hreg)⟩
  · show (s.captureTmo a (portRq p) wr).mem = s.mem
    rw [hrs]
  · show (s.captureTmo a (portRq p) wr).cores = s.cores
    rw [hrs]

end State
end Sys2Proof.Machine
end

section
open Sys2Proof Sys2Proof.Machine

/-- Settles O52: each command of a host port by its rule, and a timed-out access by the page that counts it. -/
theorem hostPortCommands : Obligations.HostPortCommands := by
  unfold Obligations.HostPortCommands
  refine ⟨fun s p hr hon => ⟨fun w hpow hreset hperst => ?_, fun hload => ⟨fun o len => ?_, fun o data be => ?_⟩,
    fun hload hlive => ⟨fun o len => ?_, fun o data be => ?_, ?_, ?_⟩, fun h4 hl => ?_, fun hperst => ?_⟩,
    fun s p a v be hr hl hb => ⟨fun rq => ⟨?_, ?_⟩, fun k hk hc => ?_, ?_, ?_⟩⟩
  · refine congrArg Host.Outcome.next ((if_pos ⟨hpow, by simp [hreset], hon, by simp [hperst]⟩).trans ?_)
    dsimp only
    split <;> rfl
  · exact congrArg Host.Outcome.next (if_pos hload)
  · exact congrArg Host.Outcome.next (if_pos hload)
  · exact congrArg Host.Outcome.next ((if_neg (ne_true_of_eq_false hload)).trans (if_neg (by simp [hlive])))
  · exact congrArg Host.Outcome.next ((if_neg (ne_true_of_eq_false hload)).trans (if_neg (by simp [hlive])))
  · exact congrArg Host.Outcome.next (if_neg (by simp [hlive]))
  · exact ⟨_, rfl, State.flr_served hlive⟩
  · exact ⟨_, rfl, State.perstAssert_served hon h4 hl⟩
  · exact ⟨_, rfl, State.perstRelease_served hon hperst⟩
  · exact congrArg Host.Outcome.next (if_neg (by simp [hl]))
  · exact congrArg Host.Outcome.next (if_neg (by simp [hl]))
  · exact congrArg Host.Outcome.next ((if_neg (by simp [hl])).trans (if_neg (by simp [hk, hc])))
  · exact ⟨_, congrArg Host.Outcome.next (if_neg (by simp [hl])), State.accTmo_served hr hb _ p a false rfl⟩
  · exact ⟨_, congrArg Host.Outcome.next (if_neg (by simp [hl])), State.accTmo_served hr hb _ p a true rfl⟩
end


section
/-! SUPPORT. Signed objects and the writes of the SEC page (R483, R485, R492, R499 to R503). -/
namespace Sys2Proof.Machine

/-! ### The checks of an object -/

/-- A check that fails gives its reason; the object passes when it passes this check and the rest. -/
theorem ite_reason_eq_zero {c : Prop} [Decidable c] {k r : ℕ} (hk : k ≠ 0) : (if c then k else r) = 0 ↔ ¬c ∧ r = 0 := by
  split
  next h => exact ⟨fun h0 => absurd h0 hk, fun ⟨hn, _⟩ => absurd h hn⟩
  next h => exact ⟨fun h0 => ⟨h, h0⟩, And.right⟩

/-- The part of the checks that follows once the keys of the signer are known (R483). -/
def State.keyedReason (s : State) (h : List Byte) (e : Envelope) (body sigs : List Byte) (rsa : ℕ) (slh : List Byte) : ℕ :=
  if !pssVerify rsa h (sigs.take 384) then 0x85
  else if !Config.slhVerify slh h ((sigs.drop 384).take 16224) then 0x86
  else if sha384 body != e.hash || !s.bodyOk e body then 0x87
  else if (e.kind == 3 || e.kind == 4) && s.sec.dbg == 2 then 0x88
  else if s.p3Begun then 0x89
  else 0

theorem State.keyedReason_eq_zero (s : State) (h : List Byte) (e : Envelope) (body sigs : List Byte) (rsa : ℕ)
    (slh : List Byte) : s.keyedReason h e body sigs rsa slh = 0 ↔
      pssVerify rsa h (sigs.take 384) = true ∧ Config.slhVerify slh h ((sigs.drop 384).take 16224) = true
      ∧ (sha384 body = e.hash ∧ s.bodyOk e body = true) ∧ ((e.kind = 3 ∨ e.kind = 4) → s.sec.dbg ≠ 2) ∧ s.p3Begun = false := by
  unfold State.keyedReason
  rw [ite_reason_eq_zero (by decide), ite_reason_eq_zero (by decide), ite_reason_eq_zero (by decide),
    ite_reason_eq_zero (by decide), ite_reason_eq_zero (by decide)]
  simp

/-- The reason once the keys of the signer have been looked up. -/
theorem State.objectReason_eq_zero (s : State) (h body sigs : List Byte) (e : Envelope) : s.objectReason h e body sigs = 0 ↔
    (e.target = deviceId ∨ (e.kind ≠ 3 ∧ e.kind ≠ 4 ∧ ∀ b ∈ e.target, b = 0))
    ∧ ((e.kind = 3 ∨ e.kind = 4) → e.nonce = s.nonceBytes) ∧ signerOf s.rpb.lc e.kind = some e.signer
    ∧ ¬((e.kind = 1 ∧ e.svn < s.rpb.fwSvn) ∨ (e.kind = 2 ∧ e.svn < s.rpb.cfgSvn))
    ∧ ∃ rsa slh, s.signerKeys e.signer = some (rsa, slh) ∧ s.keyedReason h e body sigs rsa slh = 0 := by
  unfold State.objectReason
  dsimp only
  rw [ite_reason_eq_zero (by decide), ite_reason_eq_zero (by decide), ite_reason_eq_zero (by decide),
    ite_reason_eq_zero (by decide)]
  refine and_congr ?_ (and_congr ?_ (and_congr ?_ (and_congr Iff.rfl ?_)))
  · simp [or_iff_not_imp_left]
  · simp
  · simp
  · cases hk : s.signerKeys e.signer with
    | none => simp
    | some k =>
      obtain ⟨rsa, slh⟩ := k
      exact ⟨fun hr => ⟨rsa, slh, rfl, hr⟩, fun ⟨_, _, hk', hr⟩ => by obtain ⟨⟩ := hk'; exact hr⟩

/-! ### Whole words written to a page -/

/-- A whole word written, through the normal view, to a register beyond the common header. -/
theorem State.putWord_page {s t : State} {b : Block} {i off : ℕ} {rq : Requester} {w : Word} (hb : b ∈ Block.all)
    (hc : b ≠ .core) (hg : 0x4000 ≤ b.page i) (hi : i < b.info.2.2) (ho : off < 0x400) (h4 : off % 4 = 0)
    (hw : s.pageWritable ⟨b, i, i, b.page i, off, 0⟩ = true) (hs : s.serves rq (b.page i + off))
    (ht : s.writeLoc rq ⟨b, i, i, b.page i, off, 0⟩ (b.page i + off) w 0xFFFFFFFF = (t, true)) :
    s.putWord (b.page i + off) rq w = t.settle := by
  rw [State.putWord_eq_put]
  refine State.put_page (p := ⟨rq, 0, 0xF, w⟩) hb hc hg hi ho h4 hw ?_ ?_
  · rwa [put_addr_normal]
  · rw [put_addr_normal, and_beMask_all, beMask_all]
    exact ht

/-- A word written to the security unit's page does what the page says. -/
theorem State.putWord_sec {s : State} {off : ℕ} {rq : Requester} {w : Word} (ho : 0x040 ≤ off) (ho' : off < 0x400)
    (h4 : off % 4 = 0) (hs : s.serves rq (pSec + off)) :
    s.putWord (pSec + off) rq w = (s.secWrite rq ⟨.sec, 0, 0, pSec, off, 0⟩ w 0xFFFFFFFF).settle := by
  refine State.putWord_page (b := .sec) (i := 0) (by decide) (by decide) (by decide) (by decide) ho' h4 rfl hs ?_
  unfold State.writeLoc
  rw [State.headerWrite_none _ _ _ _ ho]
  rfl

/-! ### SEC.CTRL -/

/-- D1 as a write of SEC.CTRL leaves it is bit 0 of what was written. -/
theorem d1_written (b : ℕ) (w : Word) : bits (viewPut 0 (BitVec.ofNat 32 b) w 1 0xFFFFFFFF) 0 0 = bits w 0 0 := by
  rw [bits_zero, bits_zero]
  congr 1
  rw [bit_eq_getLsbD, bit_eq_getLsbD]
  simp [viewPut]

/-- Bit 0 of what is written with the pulse of one bit i set is bit 0 of the word. -/
theorem bits_zero_setBits (w : Word) {i : ℕ} (hi : 0 < i) (hi' : i < 32) : bits (setBits w i i 1) 0 0 = bits w 0 0 :=
  bits_setBits_ne w i i 1 0 0 hi' le_rfl (.inl hi)

/-- A word written to SEC.CTRL sets D1 and then does what its pulses ask. -/
theorem State.putWord_secCtrl {s : State} {rq : Requester} {w : Word} (hs : s.serves rq (pSec + 0x050)) :
    s.putWord (pSec + 0x050) rq w = ((s.writeD1 rq (bits w 0 0)).secPulses w).settle := by
  rw [State.putWord_sec (by decide) (by decide) (by decide) hs]
  unfold State.secWrite
  dsimp only
  rw [d1_written]
  rfl

/-! ### Key slots, D2 and untrusted entries -/

theorem State.eraseSlots_key (s : State) (p : ℕ → Bool) (n : ℕ) :
    (s.eraseSlots p).key n = if p n = true then KeySlot.init else s.key n := by
  unfold State.eraseSlots State.key
  dsimp only
  rw [State.event_sec]
  dsimp only
  rw [Tab.get_filter_key KeySlot.init (fun k => !p k) n]
  cases p n <;> simp

theorem State.eraseSlots_rpb (s : State) (p : ℕ → Bool) : (s.eraseSlots p).rpb = s.rpb := by
  unfold State.eraseSlots
  exact State.event_rpb _ _ _

theorem State.enterD2_key (s : State) (n : ℕ) : s.enterD2.key n = KeySlot.init := by
  have hkey : (s.eraseSlots fun _ => true).key n = KeySlot.init := s.eraseSlots_key _ n
  unfold State.enterD2 State.key
  dsimp only
  rw [State.event_sec]
  split <;> exact hkey

theorem State.enterD2_dbg (s : State) : s.enterD2.sec.dbg = 2 := by
  unfold State.enterD2
  dsimp only
  rw [State.event_sec]

theorem State.enterD2_rpb (s : State) : s.enterD2.rpb =
    if s.rpb.lc = 2 then { s.rpb with d2History := min 255 (s.rpb.d2History + 1), writes := s.rpb.writes + 1 } else s.rpb := by
  have hrpb : (s.eraseSlots fun _ => true).rpb = s.rpb := s.eraseSlots_rpb _
  unfold State.enterD2 State.writeRpb
  dsimp only
  rw [State.event_rpb, hrpb]
  split
  · rfl
  · exact hrpb

theorem State.enterD2_d2History (s : State) : s.enterD2.rpb.d2History =
    if s.rpb.lc = 2 then min 255 (s.rpb.d2History + 1) else s.rpb.d2History := by
  rw [State.enterD2_rpb]
  split <;> rfl

theorem State.enterD2_writes (s : State) : s.enterD2.rpb.writes = s.rpb.writes + if s.rpb.lc = 2 then 1 else 0 := by
  rw [State.enterD2_rpb]
  split <;> rfl

theorem State.exitD2_dbg (s : State) : s.exitD2.sec.dbg = if s.sec.dbg = 2 then 0 else s.sec.dbg := by
  unfold State.exitD2
  split <;> rfl

theorem State.untrFree_untr (s : State) (e : ℕ) : ((s.untrFree e).sec.untr.any fun x => x.1 == e) = false := by
  unfold State.untrFree
  simp

end Sys2Proof.Machine
end

section
open Sys2Proof Sys2Proof.Machine

/-- Settles O37: each check of R483 in turn is passed, and the order of the checks does not matter to acceptance. -/
theorem acceptedObjectsPassEveryCheck : Obligations.AcceptedObjectsPassEveryCheck := by
  unfold Obligations.AcceptedObjectsPassEveryCheck
  intro s h body sigs e
  rw [State.objectReason_eq_zero]
  simp only [State.keyedReason_eq_zero]
  constructor
  · rintro ⟨htgt, hnonce, hsigner, hsvn, rsa, slh, hkeys, hpss, hslh, ⟨hhash, hbody⟩, hdbg, hp3⟩
    exact ⟨htgt, fun hk => ⟨hnonce hk, hdbg hk⟩, hsigner, fun hk => Nat.le_of_not_lt fun hlt => hsvn (.inl ⟨hk, hlt⟩),
      fun hk => Nat.le_of_not_lt fun hlt => hsvn (.inr ⟨hk, hlt⟩), ⟨rsa, slh, hkeys, hpss, hslh⟩, hhash, hbody, hp3⟩
  · rintro ⟨htgt, hspecial, hsigner, hfw, hcfg, ⟨rsa, slh, hkeys, hpss, hslh⟩, hhash, hbody, hp3⟩
    refine ⟨htgt, fun hk => (hspecial hk).1, hsigner, ?_, rsa, slh, hkeys, hpss, hslh, ⟨hhash, hbody⟩,
      fun hk => (hspecial hk).2, hp3⟩
    rintro (⟨hk, hlt⟩ | ⟨hk, hlt⟩)
    · exact Nat.not_lt.mpr (hfw hk) hlt
    · exact Nat.not_lt.mpr (hcfg hk) hlt

/-- Settles O36: a write of the SEC page, bit by bit, and what the operations behind it leave of slots and counters. -/
theorem securityWrites : Obligations.SecurityWrites := by
  unfold Obligations.SecurityWrites
  refine ⟨fun s rq v => ⟨fun hs => ⟨?_, ?_, ?_, ?_⟩, fun hs => ?_, fun hs => ?_⟩, fun s p => ?_⟩
  · exact congrArg Host.Outcome.next (s.putWord_secCtrl hs)
  · exact congrArg Host.Outcome.next (s.putWord_secCtrl hs)
  · refine congrArg Host.Outcome.next ((s.putWord_secCtrl hs).trans ?_)
    rw [bits_zero_setBits v (by decide) (by decide)]
    unfold State.secPulses
    dsimp only
    rw [bit_setBits_ne v 3 3 1 2 (by decide) le_rfl (by decide), bit_setBits v 3 3 1 3 (by decide) le_rfl]
    rfl
  · refine congrArg Host.Outcome.next ((s.putWord_secCtrl hs).trans ?_)
    rw [bits_zero_setBits v (by decide) (by decide)]
    unfold State.secPulses
    dsimp only
    rw [bit_setBits_ne v 2 2 1 3 (by decide) le_rfl (by decide), bit_setBits v 2 2 1 2 (by decide) le_rfl]
    rfl
  · exact congrArg Host.Outcome.next (State.putWord_sec (by decide) (by decide) (by decide) hs)
  · exact congrArg Host.Outcome.next (State.putWord_sec (by decide) (by decide) (by decide) hs)
  · refine ⟨s.eraseSlots_key p, s.enterD2_key, s.enterD2_dbg, s.enterD2_d2History, s.exitD2_dbg, s.enterD2_writes, rfl,
      le_max_left _ _, le_max_left _ _, s.untrFree_untr, fun _ => rfl⟩
end


section
/-! SUPPORT. The operations of the security unit: VERIFY, ATTEST, NONCE_NEW and OP_DONE (R483 to R489, R505, R506). -/
namespace Sys2Proof.Machine

/-- An operation that is due, on bytes that nothing holds, does not wait. -/
theorem State.op_ready {s : State} {k : ℕ} (hd : s.opDue k = true) (hh : s.opHeld = false) :
    ¬(!s.opDue k || s.opHeld) = true := by
  rw [hd, hh]
  decide

/-! ### VERIFY -/

section
variable {s : State} (hd : s.opDue 1 = true) (hh : s.opHeld = false)
include hd hh

theorem verify_short (hl : s.opLen < 256) : verify s = s.opResult 4 0x80 none := by
  unfold verify
  rw [if_neg (State.op_ready hd hh), if_pos hl]

variable {rh : Res} (hl : 256 ≤ s.opLen) (hr : s.hbmOnlyRead s.opAddr 256 = rh)
include hl hr

theorem verify_headerUnread (hst : rh.status ≠ 0) : verify s = rh.st.opResult rh.status rh.detail none := by
  unfold verify
  rw [if_neg (State.op_ready hd hh), if_neg (Nat.not_lt.mpr hl), hr]
  exact if_pos hst

/-- What a header must not be for its object to be read. -/
def State.badHeader (s : State) (e : Envelope) : Prop :=
  e.magic ≠ 0xCA795E0D ∨ e.format ≠ 1 ∨ e.kind = 0 ∨ 7 < e.kind ∨ 67108864 < e.bodyLen ∨ s.opLen < e.size

theorem verify_badHeader (hst : rh.status = 0) (hbad : rh.st.badHeader (envelopeOf rh.data)) :
    verify s = rh.st.opResult 4 0x80 (some (envelopeOf rh.data).kind) := by
  unfold verify
  rw [if_neg (State.op_ready hd hh), if_neg (Nat.not_lt.mpr hl), hr]
  exact (if_neg (not_not.mpr hst)).trans (if_pos hbad)

variable {rb : Res} (hst : rh.status = 0) (hok : ¬rh.st.badHeader (envelopeOf rh.data))
  (hb : rh.st.hbmOnlyRead (rh.st.opAddr + 256) ((envelopeOf rh.data).size - 256) = rb)
include hst hok hb

theorem verify_bodyUnread (hbst : rb.status ≠ 0) :
    verify s = rb.st.opResult rb.status rb.detail (some (envelopeOf rh.data).kind) := by
  unfold verify
  rw [if_neg (State.op_ready hd hh), if_neg (Nat.not_lt.mpr hl), hr]
  refine (if_neg (not_not.mpr hst)).trans ((if_neg hok).trans ?_)
  rw [hb]
  exact if_pos hbst

/-- The checks of R483 have been made: the object takes effect, or its first failure is the result. -/
theorem verify_checked (hbst : rb.status = 0) {e : Envelope} (he : envelopeOf rh.data = e) {why : ℕ}
    (hwhy : rb.st.objectReason rh.data e (rb.data.take e.bodyLen) (rb.data.drop (16 * cdiv e.bodyLen 16)) = why) :
    verify s =
      if why = 0 then
        (if e.kind = 3 ∨ e.kind = 4 then (rb.st.accept e.kind (rb.data.take e.bodyLen)).newNonce
          else rb.st.accept e.kind (rb.data.take e.bodyLen)).opResult 0 0 (some e.kind)
      else if why = 0x89 then (if e.kind = 3 ∨ e.kind = 4 then rb.st.newNonce else rb.st).opResult 4 why (some e.kind)
      else rb.st.opResult 4 why (some e.kind) := by
  subst he
  unfold verify
  rw [if_neg (State.op_ready hd hh), if_neg (Nat.not_lt.mpr hl), hr]
  refine (if_neg (not_not.mpr hst)).trans ((if_neg hok).trans ?_)
  rw [hb]
  refine (if_neg (not_not.mpr hbst)).trans ?_
  dsimp only
  rw [hwhy]
  simp only [Bool.or_eq_true, Bool.and_eq_true, beq_iff_eq]
  by_cases h89 : why = 0x89
  · simp only [h89, and_true, if_true]
  · simp only [h89, and_false, if_false]

end

/-! ### ATTEST -/

section
variable {s : State} (hd : s.opDue 2 = true) (hh : s.opHeld = false)
include hd hh

theorem attest_noIdentity (hid : s.sec.identityOk = false) : attest s = s.opResult 4 0x87 none := by
  unfold attest
  rw [if_neg (State.op_ready hd hh), hid]
  rfl

variable (hid : s.sec.identityOk = true)
include hid

theorem attest_short (hl : s.opLen < 34384) : attest s = s.opResult 0x0C 0 none := by
  unfold attest
  rw [if_neg (State.op_ready hd hh), hid, if_neg (by decide), if_pos hl]

/-- The header of the attestation of a state, for the nonce that its caller gave. -/
def State.attestHeader (s : State) (nonce : List Byte) : List Byte :=
  (Envelope.mk 0xCA795E0D 5 1 2 s.rpb.fwSvn 192 deviceId nonce (sha384 s.attestBody)).bytes

/-- The attestation and its certificate are written; the first failure of the two writes is the result. -/
theorem attest_written {r w c : Res} {g : List Byte × State} (hl : 34384 ≤ s.opLen) (hr : s.hbmOnlyRead s.opAddr 32 = r)
    (hst : r.status = 0) (hg : r.st.signBytes (r.st.attestHeader r.data) 16608 = g)
    (hw : g.2.memWrite g.2.opAddr (r.st.attestHeader r.data ++ r.st.attestBody ++ g.1) = w)
    (hc : w.st.memWrite (g.2.opAddr + 17088) ((List.range 17296).map fun i => Config.certificate.getD i 0) = c) :
    attest s = c.st.opResult (if w.status ≠ 0 then w.status else c.status)
      (if w.status ≠ 0 then w.detail else c.detail) none := by
  obtain ⟨sig, u⟩ := g
  rw [State.attestHeader] at hg hw
  unfold attest
  rw [if_neg (State.op_ready hd hh), hid, if_neg (by decide), if_neg (Nat.not_lt.mpr hl), hr]
  refine (if_neg (not_not.mpr hst)).trans ?_
  dsimp only
  rw [hg]
  dsimp only
  rw [hw, hc, apply_ite Res.status, apply_ite Res.detail]

end

/-! ### OP_DONE -/

theorem opDone_result {s : State} {o : SecOp} {st why : ℕ} (ho : s.sec.op = some o) (hr : o.result = some (st, why)) :
    opDone s = (({ s with sec := { s.sec with op := none } } : State).setReg (pSec + 0x064)
      (BitVec.ofNat 32 (st % 256 * 2 ^ 16 + why % 256 * 2 ^ 8 + o.kind % 256))).event pSec F.SEC_PG_EVT_OP_DONE := by
  obtain ⟨op, result, kind⟩ := o
  obtain rfl : result = some (st, why) := hr
  unfold opDone
  rw [ho]

end Sys2Proof.Machine
end

section
open Sys2Proof Sys2Proof.Machine

/-- Settles O38: each operation, along the order of its checks. -/
theorem securityOperations : Obligations.SecurityOperations := by
  unfold Obligations.SecurityOperations
  intro s
  refine ⟨fun hd hh => ⟨fun hl => ?_, fun rh hl hr hst => ?_, fun rh rb hl hr hst => ⟨fun hbad => ?_, fun hok hb hbst => ?_,
    fun hok hb hbst => ?_⟩⟩, fun hd hh => ⟨fun hid => ?_, fun hid hl => ?_, fun r hid hl hr hst => ?_⟩, fun hd => ?_,
    fun o st why ho hr => ?_⟩
  · exact congrArg Host.Outcome.next (verify_short hd hh hl)
  · exact congrArg Host.Outcome.next (verify_headerUnread hd hh hl hr hst)
  · exact congrArg Host.Outcome.next (verify_badHeader hd hh hl hr hst hbad)
  · exact congrArg Host.Outcome.next (verify_bodyUnread hd hh hl hr hst hok hb hbst)
  · exact congrArg Host.Outcome.next (verify_checked hd hh hl hr hst hok hb hbst rfl rfl)
  · exact congrArg Host.Outcome.next (attest_noIdentity hd hh hid)
  · exact congrArg Host.Outcome.next (attest_short hd hh hid hl)
  · intro h g w c
    exact congrArg Host.Outcome.next (attest_written hd hh hid hl hr hst (g := g) (w := w) (c := c) rfl rfl rfl)
  · exact congrArg Host.Outcome.next (if_pos hd)
  · exact congrArg Host.Outcome.next (opDone_result ho hr)
end


section
/-! SUPPORT. The Saffron engines: their ring tail, their jobs and their health (R493 to R500, R507). -/
namespace Sys2Proof.Machine

/-! ### The tail of a ring -/

theorem pSaf_page (n : SafId) : 0x4000 ≤ pSaf n.val := by
  revert n
  decide

/-- The tail of an engine's ring takes the word that is written. -/
theorem State.put_jrTail {s : State} {n : SafId} {p : Put} (hs : s.serves p.rq (p.addr (pSaf n.val + 0x050))) :
    s.put (pSaf n.val + 0x050) p = s.putReg (pSaf n.val + 0x050) (p.word (s.reg (pSaf n.val + 0x050)) 0xFFFFFFFF) := by
  refine State.put_page (b := .saf) (i := n.val) (by decide) (by decide) (pSaf_page n) n.isLt (by decide) (by decide) rfl hs ?_
  unfold State.writeLoc
  rw [State.headerWrite_none _ _ _ _ (show 0x040 ≤ 0x050 by decide)]
  obtain ⟨hrw, hw1c, hrws⟩ : accMask (Block.saf.fieldsAt 0x050) .rw = 0xFFFFFFFF ∧ accMask (Block.saf.fieldsAt 0x050) .w1c = 0
      ∧ accMask (Block.saf.fieldsAt 0x050) .rws = 0 := by decide
  exact congrArg (·, true) (State.plainWrite_rw s _ _ _ 0xFFFFFFFF hrw hw1c hrws)

/-! ### Jobs -/

section
variable {s : State} {n : SafId} {r : Res} (hj : s.headJob n.val = some r)
include hj

theorem encrypt_unread (hst : r.status ≠ 0) : encrypt n s = (r.st.takeJob n.val []).modJob n.val fun j =>
    { j with result := some (r.status, r.detail), formed := true } := by
  unfold encrypt
  rw [hj]
  exact if_pos hst

theorem encrypt_runs (hst : r.status = 0) (hop : jobDecrypt (wordsOf 16 r.data) = false) :
    encrypt n s = r.st.runJob n.val (wordsOf 16 r.data) := by
  unfold encrypt
  rw [hj]
  exact (if_neg (not_not.mpr hst)).trans (if_neg (ne_true_of_eq_false hop))

theorem decrypt_runs (hst : r.status = 0) (hop : jobDecrypt (wordsOf 16 r.data) = true) :
    decrypt n s = r.st.runJob n.val (wordsOf 16 r.data) := by
  unfold decrypt
  rw [hj]
  exact if_pos ⟨hst, hop⟩

end

section
variable {s : State} {n : SafId} {j : SafJob} (hj : (s.safSt n.val).job = some j) (hh : s.recHeld n.val j = false)
include hj hh

theorem safStallTimeout_ends (hs : (s.safSt n.val).stalled = true) :
    safStallTimeout n s = s.jobEnd n.val j (j.result.getD (9, 0)).1 (j.result.getD (9, 0)).2 := by
  unfold safStallTimeout
  dsimp only
  rw [hj]
  exact if_pos ⟨hs, by rw [hh]; rfl⟩

theorem safJobComplete_ends (hs : (s.safSt n.val).stalled = false)
    (hd : j.erased = true ∨ (j.formed = true ∧ j.writes = 0 ∧ j.reads = 0)) :
    safJobComplete n s = s.jobEnd n.val j (j.result.getD (0, 0)).1 (j.result.getD (0, 0)).2 := by
  have hready : ¬((s.safSt n.val).stalled = true ∨ s.recHeld n.val j = true) := by
    rw [hs, hh]
    decide
  unfold safJobComplete
  dsimp only
  rw [hj]
  exact (if_neg hready).trans (if_pos hd)

end

/-! ### Health -/

/-- A change made to every engine of a list. -/
def State.mapSaf (f : SafSt → SafSt) (l : List ℕ) (s : State) : State := l.foldl (fun s n => s.setSaf n (f (s.safSt n))) s

theorem State.safSt_mapSaf (f : SafSt → SafSt) (k : ℕ) {l : List ℕ} (hl : l.Nodup) :
    ∀ {s : State}, Tab.rising s.sec.saf = true → (s.mapSaf f l).safSt k = if k ∈ l then f (s.safSt k) else s.safSt k := by
  induction l with
  | nil => exact fun _ => rfl
  | cons n l ih =>
    intro s hr
    obtain ⟨hn, hl⟩ := List.nodup_cons.mp hl
    have hstep := ih hl (s := s.setSaf n (f (s.safSt n))) (Tab.rising_set _ _ _ _ hr)
    refine hstep.trans ?_
    by_cases hk : k = n
    · subst hk
      rw [if_neg hn, if_pos List.mem_cons_self]
      exact Tab.get_set_self _ _ _ _ hr
    · have hsame : (s.setSaf n (f (s.safSt n))).safSt k = s.safSt k := Tab.get_set_ne _ _ hk _ _
      rw [hsame]
      simp [hk]

theorem State.mapSaf_rest (f : SafSt → SafSt) (l : List ℕ) (s : State) :
    (s.mapSaf f l).mem = s.mem ∧ (s.mapSaf f l).cores = s.cores ∧ (s.mapSaf f l).regs = s.regs :=
  by
  unfold State.mapSaf
  exact ⟨foldl_keeps State.mem (by intros; rfl) _ _, foldl_keeps State.cores (by intros; rfl) _ _,
    foldl_keeps State.regs (by intros; rfl) _ _⟩

/-- Every engine stalls, or none does. -/
def stalledAs (b : Bool) (x : SafSt) : SafSt := { x with stalled := b }

theorem rngFail_eq (s : State) : rngFail s = (s.mapSaf (stalledAs true) (List.range 5)).event pSec F.SEC_PG_EVT_RNG_FAIL := rfl

theorem randomnessReturn_eq (s : State) : randomnessReturn s = s.mapSaf (stalledAs false) (List.range 5) := rfl

theorem State.safSt_stalled {s : State} (hr : Tab.rising s.sec.saf = true) (b : Bool) {k : ℕ} (hk : k < 5) :
    (s.mapSaf (stalledAs b) (List.range 5)).safSt k = stalledAs b (s.safSt k) := by
  rw [State.safSt_mapSaf _ _ List.nodup_range hr, if_pos (List.mem_range.mpr hk)]

theorem State.safSt_event (s : State) (p : ℕ) (f : FRef) (k : ℕ) : (s.event p f).safSt k = s.safSt k := by
  unfold State.safSt
  rw [State.event_sec]

theorem selfTest_fails {s : State} {n : SafId} (hr : (s.safSt n.val).retired = false) {t : State}
    (ht : (match (s.safSt n.val).job with
      | some j => (s.event (pSaf n.val) F.SAF_PG_EVT_SELFTEST_FAIL).jobEnd n.val j 2 0
      | none => s.event (pSaf n.val) F.SAF_PG_EVT_SELFTEST_FAIL) = t) :
    selfTest n true s = (State.abortGiven (sub32 (t.jrTail n.val) (t.jrHead n.val)) t n.val).retireSaf n.val := by
  subst ht
  unfold selfTest
  exact if_neg (by rw [hr]; decide)

end Sys2Proof.Machine
end

section
open Sys2Proof Sys2Proof.Machine

/-- Settles O39: a job by the state it is in, and the engines' health by the one change made to each of them. -/
theorem saffronCommands : Obligations.SaffronCommands := by
  unfold Obligations.SaffronCommands
  refine ⟨fun s n => ⟨fun p hs => ?_, fun r hj => ⟨fun hst => ?_, fun hst hop => ?_, fun hst hop => ?_⟩, fun j hj =>
    ⟨fun hs hh => ?_, fun hs hh hd => ?_⟩⟩, fun s n htabs => ⟨?_, ?_, rfl, fun hr => ?_⟩⟩
  · exact congrArg Host.Outcome.next (State.put_jrTail hs)
  · exact congrArg Host.Outcome.next (encrypt_unread hj hst)
  · exact congrArg Host.Outcome.next (encrypt_runs hj hst hop)
  · exact congrArg Host.Outcome.next (decrypt_runs hj hst hop)
  · exact congrArg Host.Outcome.next (safStallTimeout_ends hj hh hs)
  · exact congrArg Host.Outcome.next (safJobComplete_ends hj hh hs hd)
  · obtain ⟨_, _, hsaf⟩ := htabs
    obtain ⟨hmem, hcores, _⟩ := s.mapSaf_rest (stalledAs true) (List.range 5)
    refine ⟨_, congrArg Host.Outcome.next (rngFail_eq s), fun k hk => ?_, ?_, ?_⟩
    · rw [State.safSt_event, State.safSt_stalled hsaf true hk]
      exact ⟨rfl, rfl, rfl⟩
    · rw [State.event_mem, hmem]
    · rw [State.event_cores, hcores]
  · obtain ⟨_, _, hsaf⟩ := htabs
    obtain ⟨hmem, _, hregs⟩ := s.mapSaf_rest (stalledAs false) (List.range 5)
    refine ⟨_, congrArg Host.Outcome.next (randomnessReturn_eq s), fun k hk => ?_, hregs, hmem⟩
    rw [State.safSt_stalled hsaf false hk]
    exact ⟨rfl, rfl⟩
  · exact congrArg Host.Outcome.next (selfTest_fails hr rfl)
end


section
/-! SUPPORT. Run-time sparing: SPARE_OP, the end of each operation, and the move of a scratchpad (R544, R547 to R549). -/
namespace Sys2Proof.Machine

/-! ### The answers of SPARE_OP -/

theorem State.spareResult_wear (s : State) (op status reason : ℕ) : (s.spareResult op status reason).wear = s.wear :=
  State.event_wear _ _ _

theorem State.spareResult_mem (s : State) (op status reason : ℕ) : (s.spareResult op status reason).mem = s.mem :=
  State.event_mem _ _ _

theorem State.spareResult_units (s : State) (op status reason : ℕ) : (s.spareResult op status reason).units = s.units :=
  State.event_units _ _ _

theorem State.reg_spareResult {s : State} (h : s.regsOk) (op status reason : ℕ) :
    (s.spareResult op status reason).reg (pCdm + 0x064) = BitVec.ofNat 32 (status * 2 ^ 16 + reason * 2 ^ 8 + op % 16) :=
  (State.reg_event_ne _ _ (.inr (by decide))).trans (s.reg_setReg _ _ h)

/-- The registers of a core are in other pages than the answer. -/
theorem State.fget_spareResult (s : State) (op status reason ph : ℕ) (f : FRef) :
    (s.spareResult op status reason).fget (pCore ph) f = s.fget (pCore ph) f := by
  have hcore : pCore ph = 0x2000000 + ph * 0x4000 := rfl
  have hcdm : pCdm = 0x20000 := rfl
  have hreg : (s.spareResult op status reason).reg (pCore ph + f.off) = s.reg (pCore ph + f.off) :=
    (State.reg_event_ne _ _ (.inr (by omega))).trans (s.reg_setReg_ne (by omega) _)
  exact congrArg (bits · f.hi f.lo) hreg

/-- A write of SPARE_OP. -/
theorem State.putWord_spareOp {s : State} {rq : Requester} (hs : s.serves rq (pCdm + 0x060)) (v : Word) :
    s.putWord (pCdm + 0x060) rq v = (s.writeSpareOp v).settle := by
  refine State.putWord_page (b := .cdm) (i := 0) (off := 0x060) (by decide) (by decide) (by decide) (by decide) (by decide) (by decide) rfl hs ?_
  unfold State.writeLoc
  rw [State.headerWrite_none _ _ _ _ (show 0x040 ≤ 0x060 by decide)]
  rfl

/-! ### A CORE operation that is asked for -/

/-- The word of a CORE operation. -/
def coreOpWord (n : ℕ) : Word := BitVec.ofNat 32 (2 ^ 28 + n * 65536)

theorem bits_coreOpWord {n : ℕ} (hn : n < 1024) : bits (coreOpWord n) 31 28 = 1 ∧ bits (coreOpWord n) 25 16 = n := by
  have hval : (coreOpWord n).toNat = 2 ^ 28 + n * 65536 := Nat.mod_eq_of_lt (by omega)
  unfold bits nbits
  rw [hval, Nat.shiftRight_eq_div_pow, Nat.shiftRight_eq_div_pow]
  omega

/-- A CORE operation that starts. -/
def State.coreStarts (s : State) (n ph sp : ℕ) : State :=
  let t := s.logRepair 0x0013 n 2 0x0030 (ph + 2 ^ 32 * sp)
  ({ t with wear := { t.wear with
      running := some ⟨1, n, 0, ph / 136, sp, decide (s.logs.repairs.length < 2048)⟩ } } : State).setReg (pCdm + 0x064)
    (BitVec.ofNat 32 (2 ^ 31 + 1))

/-- What a CORE operation on a named core does. -/
def State.coreAsked (s : State) (n ph : ℕ) : State :=
  if !s.spareReady ph then s.spareResult 1 4 0x90
  else match s.findSpare (ph / 136) with
    | none => s.spareResult 1 4 0x91
    | some sp => s.coreStarts n ph sp

section
variable {s : State} {n : ℕ} (hn : n < 1024)
include hn

theorem State.spareOp_noCore (hp : s.phys n = none) : s.spareOp (coreOpWord n) = s.spareResult 1 4 0x92 := by
  obtain ⟨hop, hcore⟩ := bits_coreOpWord hn
  unfold State.spareOp
  dsimp only
  rw [hop, hcore, hp]
  rfl

theorem State.spareOp_core {ph : ℕ} (hp : s.phys n = some ph) : s.spareOp (coreOpWord n) = s.coreAsked n ph := by
  obtain ⟨hop, hcore⟩ := bits_coreOpWord hn
  unfold State.spareOp
  dsimp only
  rw [hop, hcore, hp]
  rfl

end

section
variable {s : State} {n : ℕ}

theorem State.coreAsked_notReady {ph : ℕ} (h : s.halted ph = false ∨ (s.mx ph).st ≠ .idle) :
    s.coreAsked n ph = s.spareResult 1 4 0x90 := by
  refine if_pos ?_
  unfold State.spareReady
  rcases h with h | h <;> simp [h]

theorem State.coreAsked_ready {ph : ℕ} (hh : s.halted ph = true) (hm : (s.mx ph).st = .idle) :
    s.coreAsked n ph = match s.findSpare (ph / 136) with
      | none => s.spareResult 1 4 0x91
      | some sp => s.coreStarts n ph sp := by
  refine if_neg ?_
  simp [State.spareReady, hh, hm]

end

theorem State.findSpare_die {s : State} {d sp : ℕ} (h : s.findSpare d = some sp) : sp / 136 = d ∧ 128 ≤ sp % 136 := by
  obtain ⟨i, hi, rfl⟩ := List.mem_map.mp (List.mem_of_find?_eq_some h)
  have : i < 8 := List.mem_range.mp hi
  omega

section
variable {s : State} (n ph sp : ℕ) (hfree : s.logs.repairs.length < 2048)
include hfree

theorem State.coreStarts_running : (s.coreStarts n ph sp).wear.running = some ⟨1, n, 0, ph / 136, sp, true⟩ := by
  show some _ = _
  rw [decide_eq_true hfree]

theorem State.coreStarts_logs :
    (s.coreStarts n ph sp).logs.repairs = s.logs.repairs ++ [s.logRec 0x0013 n 2 0x0030 (ph + 2 ^ 32 * sp)] := by
  show (s.logRepair 0x0013 n 2 0x0030 (ph + 2 ^ 32 * sp)).logs.repairs = _
  unfold State.logRepair
  rw [if_pos hfree]

end

theorem State.reg_coreStarts {s : State} (h : s.regsOk) (n ph sp : ℕ) :
    (s.coreStarts n ph sp).reg (pCdm + 0x064) = 0x80000001 :=
  State.reg_setReg _ _ _ (State.regsOk_logRepair h 0x0013 n 2 0x0030 (ph + 2 ^ 32 * sp))

/-! ### The end of an operation -/

/-- What the end of an operation does for its kind. -/
def State.spareEffect (s : State) (o : SpareOp) : State :=
  match o.op with
  | 1 => s.coreReplaced o
  | 2 => s.bankReplaced o
  | _ => if o.spare = 0 then s.rebuildMap o.die else s

/-- No operation runs any more. -/
def State.noOperation (s : State) : State := { s with wear := { s.wear with running := none } }

/-- An operation that can end. -/
theorem State.spareEnd_running {s : State} {o : SpareOp} (hr : s.wear.running = some o)
    (h3 : o.op = 3 → o.spare ≠ 0 ∨ s.dieHalted o.die = true) :
    s.spareEnd = (s.spareEffect o).noOperation.spareResult o.op 0 0 := by
  unfold State.spareEnd
  rw [hr]
  refine (if_neg ?_).trans rfl
  rintro ⟨hop, hsp, hdie⟩
  rcases h3 hop with h | h
  · exact h hsp
  · rw [h] at hdie
    exact absurd hdie (by decide)

theorem State.regsOk_refreshDeg {s : State} (h : s.regsOk) : s.refreshDeg.regsOk := by
  unfold State.refreshDeg
  dsimp only
  split
  · exact h
  · exact State.regsOk_event (State.regsOk_fset (State.regsOk_fset h _ _ _) _ _ _) _ _

theorem State.regsOk_rebuildMap {s : State} (h : s.regsOk) (d : ℕ) : (s.rebuildMap d).regsOk := by
  have hstacks : ((dieStackNos d).foldl State.retireStack s).regsOk :=
    List.foldlRecOn _ _ h fun t ht n _ => State.regsOk_retireStack ht n
  rw [State.rebuildMap_eq]
  exact State.regsOk_refreshDeg (List.foldlRecOn _ _ (show State.regsOk (State.wipeDie _ d) from hstacks)
    fun t ht n _ => State.regsOk_event ht _ _)

theorem State.bankReplaced_core {s : State} {o : SpareOp} {ph : ℕ} (hp : s.phys o.core = some ph) :
    s.bankReplaced o = { s.fset (pCore ph) F.SP_BANKMAP_RETIRED o.bank with wear := (s.bankReplaced o).wear } := by
  unfold State.bankReplaced
  rw [hp]

theorem State.regsOk_bankReplaced {s : State} (h : s.regsOk) (o : SpareOp) : (s.bankReplaced o).regsOk := by
  cases hp : s.phys o.core with
  | none =>
    unfold State.bankReplaced
    rw [hp]
    exact h
  | some ph =>
    rw [State.bankReplaced_core hp]
    exact State.regsOk_fset h _ _ _

theorem State.spareEffect_bank {s : State} {o : SpareOp} (ho : o.op = 2) : s.spareEffect o = s.bankReplaced o := by
  unfold State.spareEffect
  rw [ho]
  rfl

theorem State.spareEffect_rebuild {s : State} {o : SpareOp} (ho : o.op = 3) :
    s.spareEffect o = if o.spare = 0 then s.rebuildMap o.die else s := by
  unfold State.spareEffect
  rw [ho]
  rfl

theorem State.regsOk_spareEffect {s : State} (h : s.regsOk) {o : SpareOp} (ho : o.op = 2 ∨ o.op = 3) :
    (s.spareEffect o).regsOk := by
  rcases ho with ho | ho
  · rw [State.spareEffect_bank ho]
    exact State.regsOk_bankReplaced h o
  · rw [State.spareEffect_rebuild ho]
    split
    · exact State.regsOk_rebuildMap h o.die
    · exact h

/-- What the end of a BANK operation leaves. -/
theorem State.bankReplaced_serves {s : State} (h : s.regsOk) {o : SpareOp} {ph : ℕ} (hp : s.phys o.core = some ph)
    (hb : o.bank < 8) : (s.bankReplaced o).fget (pCore ph) F.SP_BANKMAP_RETIRED = o.bank ∧ (s.bankReplaced o).mem = s.mem := by
  rw [State.bankReplaced_core hp]
  refine ⟨?_, rfl⟩
  refine (s.fget_fset (pCore ph) F.SP_BANKMAP_RETIRED o.bank h (by decide)).trans ?_
  exact Nat.mod_eq_of_lt (Nat.lt_of_lt_of_le hb (by decide))

theorem logCoalesceFlush_powered {s : State} (h : s.powered = true) :
    logCoalesceFlush s = { s with logs := { s.logs with unflushed := false } } := if_pos h

end Sys2Proof.Machine
end

section
open Sys2Proof Sys2Proof.Machine

/-- Settles O48: a write of SPARE_OP, the checks of a CORE operation in their order, and the end of the other two. -/
theorem sparingCommands : Obligations.SparingCommands := by
  unfold Obligations.SparingCommands
  refine ⟨fun s rq hs => ⟨fun n => ?_, fun n b => ?_, fun d => ?_, fun hp => ?_⟩, fun s n hr => ⟨fun hp => ?_,
    fun ph hp _ => ⟨fun hbusy => ?_, fun hh hm => ⟨fun hf => ?_, fun sp hf hfree => ?_⟩⟩⟩, fun s o hr ho hop h3 => ?_⟩
  · exact congrArg Host.Outcome.next (State.putWord_spareOp hs _)
  · exact congrArg Host.Outcome.next (State.putWord_spareOp hs _)
  · exact congrArg Host.Outcome.next (State.putWord_spareOp hs _)
  · exact congrArg Host.Outcome.next (logCoalesceFlush_powered hp)
  · exact State.spareOp_noCore n.isLt hp
  · exact (State.spareOp_core n.isLt hp).trans (State.coreAsked_notReady hbusy)
  · refine ((State.spareOp_core n.isLt hp).trans (State.coreAsked_ready hh hm)).trans ?_
    rw [hf]
  · have ht : s.spareOp (coreOpWord n.val) = s.coreStarts n.val ph sp := by
      refine ((State.spareOp_core n.isLt hp).trans (State.coreAsked_ready hh hm)).trans ?_
      rw [hf]
    obtain ⟨hdie, hspare⟩ := State.findSpare_die hf
    have hgoal := And.intro (State.coreStarts_running n.val ph sp hfree) (And.intro
      (State.coreStarts_logs n.val ph sp hfree) (State.reg_coreStarts hr n.val ph sp))
    rw [← ht] at hgoal
    obtain ⟨hrun, hlog, hstat⟩ := hgoal
    exact ⟨hdie, hspare, hrun, ⟨_, hlog, rfl, rfl⟩, hstat⟩
  · have hend := congrArg State.settle (State.spareEnd_running ho h3)
    have hlow : 0 * 2 ^ 16 + 0 * 2 ^ 8 + o.op % 16 = o.op := by omega
    refine ⟨_, congrArg Host.Outcome.next hend, ?_, ?_, fun ph h2 hp hb => ?_⟩
    · rw [State.spareResult_wear]
      rfl
    · rw [State.reg_spareResult (s := (s.spareEffect o).noOperation) (State.regsOk_spareEffect hr hop), hlow]
    · obtain ⟨hbank, hmem⟩ := State.bankReplaced_serves hr hp hb
      rw [← State.spareEffect_bank h2] at hbank hmem
      exact ⟨(State.fget_spareResult _ _ _ _ _ _).trans hbank, (State.spareResult_mem _ _ _ _).trans hmem⟩
end


section
/-! SUPPORT. A CORE replacement: the spare's position, its scratchpad and its registers (R547, R548). -/
namespace Sys2Proof.Machine

/-! ### Table entries moved to other numbers -/

/-- A table written, entry by entry, into another one under new numbers. -/
def Tab.setAll {β : Type} [DecidableEq β] (d : β) (g : ℕ → ℕ) (l t : Tab β) : Tab β :=
  l.foldl (fun t c => Tab.set d (g c.1) c.2 t) t

section
variable {β : Type} [DecidableEq β] (d : β) (g : ℕ → ℕ)

theorem Tab.get_setAll_ne {a : ℕ} (l : Tab β) (t : Tab β) (h : ∀ c ∈ l, a ≠ g c.1) :
    Tab.get d a (Tab.setAll d g l t) = Tab.get d a t :=
  foldl_keeps_mem (fun t => Tab.get d a t) (fun t c hc => Tab.get_set_ne d d (h c hc) c.2 t) t

theorem Tab.get_setAll {x : ℕ} (l : Tab β) (hl : Tab.rising l = true) (hg : ∀ c ∈ l, c.1 ≠ x → g x ≠ g c.1) :
    ∀ {t : Tab β}, Tab.rising t = true → Tab.get d (g x) t = d → Tab.get d (g x) (Tab.setAll d g l t) = Tab.get d x l := by
  induction l with
  | nil => exact fun _ h => h
  | cons c l ih =>
    obtain ⟨j, v⟩ := c
    intro t ht h0
    obtain ⟨habove, hrest⟩ := (Tab.rising_cons j v l).mp hl
    have hg' : ∀ c ∈ l, c.1 ≠ x → g x ≠ g c.1 := fun c hc => hg c (List.mem_cons_of_mem _ hc)
    by_cases hj : j = x
    · subst hj
      have hlater : ∀ c ∈ l, g j ≠ g c.1 := fun c hc => hg' c hc (Nat.ne_of_gt (habove c hc))
      refine (Tab.get_setAll_ne d g l (Tab.set d (g j) v t) hlater).trans ?_
      rw [Tab.get_set_self d (g j) v t ht]
      exact (if_pos rfl).symm
    · have hne : g x ≠ g j := hg (j, v) List.mem_cons_self hj
      have hcons : Tab.get d x ((j, v) :: l) = Tab.get d x l := if_neg hj
      rw [hcons]
      exact ih hrest hg' (Tab.rising_set d (g j) v t ht) ((Tab.get_set_ne d d hne v t).trans h0)

end

/-! ### The scratchpad -/

/-- Is a key one of a core's scratchpad? -/
def ofSp (ph a : ℕ) : Bool := decide (spKey ph 0 ≤ a ∧ a < spKey ph 0 + spSize)

theorem ofSp_spKey (ph : ℕ) {k : ℕ} (hk : k < spSize) : ofSp ph (spKey ph k) = true :=
  decide_eq_true ⟨by unfold spKey; omega, by unfold spKey; omega⟩

theorem ofSp_iff (ph a : ℕ) : ofSp ph a = true ↔ ∃ k < spSize, a = spKey ph k := by
  constructor
  · intro h
    obtain ⟨hlo, hhi⟩ := of_decide_eq_true h
    exact ⟨a - spKey ph 0, by omega, by unfold spKey at *; omega⟩
  · rintro ⟨k, hk, rfl⟩
    exact ofSp_spKey ph hk

/-- Two cores' scratchpads share no key. -/
theorem ofSp_ne {p q a : ℕ} (h : p ≠ q) (ha : ofSp p a = true) : ofSp q a = false := by
  obtain ⟨hlo, hhi⟩ := of_decide_eq_true ha
  refine decide_eq_false ?_
  rintro ⟨hlo', hhi'⟩
  unfold spKey spSize at *
  omega

theorem spKey_inj {p j k : ℕ} (h : spKey p k = spKey p j) (q : ℕ) : spKey q j = spKey q k :=
  congrArg (spKey q) (Nat.add_left_cancel h).symm

/-- The key in the spare's scratchpad of a key in the core's. -/
def movedKey (src dst a : ℕ) : ℕ := a - spKey src 0 + spKey dst 0

theorem movedKey_spKey (src dst k : ℕ) : movedKey src dst (spKey src k) = spKey dst k := by
  unfold movedKey spKey
  omega

theorem ofSp_movedKey {src dst a : ℕ} (h : ofSp src a = true) : ofSp dst (movedKey src dst a) = true := by
  obtain ⟨k, hk, rfl⟩ := (ofSp_iff src a).mp h
  rw [movedKey_spKey]
  exact ofSp_spKey dst hk

theorem Mem.moveSp_cells (m : Mem) (src dst : ℕ) : (m.moveSp src dst).cells =
    Tab.setAll Mem.blank (movedKey src dst) (m.cells.filter fun c => ofSp src c.1)
      (m.cells.filter fun c => !ofSp src c.1 && !ofSp dst c.1) := rfl

section
variable {m : Mem} (hm : m.wf = true) (src dst : ℕ)

/-- A key outside the spare's scratchpad: blank in the replaced core's, and as it was anywhere else. -/
theorem Mem.byte_moveSp_of_not {a : ℕ} (hd : ofSp dst a = false) :
    (m.moveSp src dst).byte a = if ofSp src a = true then Mem.blank else m.byte a := by
  unfold Mem.byte
  rw [Mem.moveSp_cells, Tab.get_setAll_ne _ _ _ _ ?_, Tab.get_filter_key Mem.blank (fun k => !ofSp src k && !ofSp dst k), hd]
  · cases ofSp src a <;> simp
  · rintro c hc rfl
    rw [ofSp_movedKey (List.mem_filter.mp hc).2] at hd
    exact absurd hd (by decide)

include hm

theorem Mem.byte_moveSp {k : ℕ} (hk : k < spSize) : (m.moveSp src dst).byte (spKey dst k) = m.byte (spKey src k) := by
  have hcells : Tab.rising m.cells = true := ((Mem.wf_iff m).mp hm).1
  have hinj : ∀ c ∈ m.cells.filter (fun c => ofSp src c.1), c.1 ≠ spKey src k →
      movedKey src dst (spKey src k) ≠ movedKey src dst c.1 := by
    intro c hc hne
    obtain ⟨j, _, hj⟩ := (ofSp_iff src c.1).mp (List.mem_filter.mp hc).2
    rw [hj] at hne ⊢
    rw [movedKey_spKey, movedKey_spKey]
    exact fun h => hne (spKey_inj h src)
  have hempty : Tab.get Mem.blank (movedKey src dst (spKey src k))
      (m.cells.filter fun c => !ofSp src c.1 && !ofSp dst c.1) = Mem.blank := by
    rw [Tab.get_filter_key Mem.blank (fun k => !ofSp src k && !ofSp dst k), movedKey_spKey, ofSp_spKey dst hk]
    simp
  unfold Mem.byte
  rw [Mem.moveSp_cells, ← movedKey_spKey src dst k, Tab.get_setAll _ _ _ (Tab.rising_filter hcells _) hinj
    (Tab.rising_filter hcells _) hempty, Tab.get_filter_key Mem.blank (fun k => ofSp src k), if_pos (ofSp_spKey src hk)]

end

/-! ### The replaced core -/

theorem Units.physAt_replace (u : Units) (pos spare : ℕ) : (u.replace pos spare).physAt pos = spare := by
  have hnone : (u.replaced.filter fun r => r.1 != pos).find? (fun r => r.1 == pos) = none := by simp
  unfold Units.physAt Units.replace
  rw [List.find?_append, hnone]
  simp

theorem Units.posOf_replace (u : Units) (pos spare n : ℕ) : (u.replace pos spare).posOf n = u.posOf n := by
  have haux : ∀ (l : List ℕ) (n : ℕ), (u.replace pos spare).posOfAux n l = u.posOfAux n l := by
    intro l
    induction l with
    | nil => exact fun _ => rfl
    | cons d l ih =>
      intro n
      unfold Units.posOfAux
      dsimp only
      rw [ih]
      rfl
  exact haux _ n

theorem State.copyCoreRegs_keeps {α : Type} {part : State → α} (h : ∀ (s : State) a w, part (s.setReg a w) = part s)
    (s : State) (src dst : ℕ) : part (s.copyCoreRegs src dst) = part s :=
  foldl_keeps part (fun s _ => h s _ _) _ s

theorem State.regsOk_copyCoreRegs {s : State} (h : s.regsOk) (src dst : ℕ) : (s.copyCoreRegs src dst).regsOk :=
  List.foldlRecOn _ _ h fun _ ht _ _ => State.regsOk_setReg ht _ _

/-- The scratchpad moved and the registers copied. -/
def State.movedCore (s : State) (src dst : ℕ) : State := ({ s with mem := s.mem.moveSp src dst } : State).copyCoreRegs src dst

theorem State.movedCore_keeps {α : Type} {part : State → α} (h : ∀ (s : State) a w, part (s.setReg a w) = part s)
    (hmem : ∀ (s : State) m, part { s with mem := m } = part s) (s : State) (src dst : ℕ) : part (s.movedCore src dst) = part s :=
  (State.copyCoreRegs_keeps h _ src dst).trans (hmem s _)

theorem State.movedCore_mem (s : State) (src dst : ℕ) : (s.movedCore src dst).mem = s.mem.moveSp src dst :=
  State.copyCoreRegs_keeps (part := State.mem) (fun s a w => s.setReg_mem a w) _ src dst

theorem State.movedCore_units (s : State) (src dst : ℕ) : (s.movedCore src dst).units = s.units :=
  State.movedCore_keeps (part := State.units) (fun s a w => s.setReg_units a w) (fun _ _ => rfl) s src dst

theorem State.regsOk_movedCore {s : State} (h : s.regsOk) (src dst : ℕ) : (s.movedCore src dst).regsOk := by
  have hmoved : ({ s with mem := s.mem.moveSp src dst } : State).regsOk := h
  unfold State.movedCore
  exact State.regsOk_copyCoreRegs hmoved src dst

/-- The spare, HALTED, takes the place of the core. -/
def State.spareServes (s : State) (o : SpareOp) (old pos : ℕ) : State :=
  let t := s.fset (pCore o.spare) F.SQ_CTRL_HALT 1
  let c := t.core old
  let t := t.setCore o.spare { CoreSt.init with anchors := c.anchors, attach := c.attach, fails := c.fails,
                                                fetchNext := (t.reg (pCore old + 0x054)).toNat }
  let t := t.setCore old CoreSt.init
  { t with units := t.units.replace pos o.spare, wear := t.wear.retire old (some o.spare) o.kept }

theorem State.spareServes_regs (s : State) (o : SpareOp) (old pos : ℕ) :
    (s.spareServes o old pos).regs = (s.fset (pCore o.spare) F.SQ_CTRL_HALT 1).regs := rfl

theorem State.spareServes_mem (s : State) (o : SpareOp) (old pos : ℕ) : (s.spareServes o old pos).mem = s.mem := rfl

theorem State.spareServes_units (s : State) (o : SpareOp) (old pos : ℕ) :
    (s.spareServes o old pos).units = s.units.replace pos o.spare := rfl

section
variable {s : State} {o : SpareOp} {old pos : ℕ} (hp : s.phys o.core = some old) (hpos : s.units.posOf o.core = some pos)
include hp hpos

theorem State.coreReplaced_eq : s.coreReplaced o = (s.movedCore old o.spare).spareServes o old pos := by
  unfold State.coreReplaced
  rw [hp, hpos]
  rfl

theorem State.coreReplaced_mem : (s.coreReplaced o).mem = s.mem.moveSp old o.spare := by
  rw [State.coreReplaced_eq hp hpos, State.spareServes_mem, State.movedCore_mem]

theorem State.coreReplaced_units : (s.coreReplaced o).units = s.units.replace pos o.spare := by
  rw [State.coreReplaced_eq hp hpos, State.spareServes_units, State.movedCore_units]

theorem State.regsOk_coreReplaced (h : s.regsOk) : (s.coreReplaced o).regsOk := by
  rw [State.coreReplaced_eq hp hpos]
  exact State.regsOk_of_regs (State.spareServes_regs _ o old pos) (State.regsOk_fset (State.regsOk_movedCore h _ _) _ _ _)

theorem State.coreReplaced_phys : (s.coreReplaced o).phys o.core = some o.spare := by
  unfold State.phys
  rw [State.coreReplaced_units hp hpos, Units.posOf_replace, hpos]
  exact congrArg some (Units.physAt_replace _ _ _)

theorem State.coreReplaced_halted (h : s.regsOk) : (s.coreReplaced o).fget (pCore o.spare) F.SQ_CTRL_HALT = 1 := by
  rw [State.coreReplaced_eq hp hpos]
  refine Eq.trans ?_ (State.fget_fset _ (pCore o.spare) F.SQ_CTRL_HALT 1 (State.regsOk_movedCore h old o.spare) (by decide))
  exact congrArg (bits · 0 0) (State.reg_of_regs (State.spareServes_regs _ o old pos) _)

end

theorem State.spareEffect_coreOp {s : State} {o : SpareOp} (ho : o.op = 1) : s.spareEffect o = s.coreReplaced o := by
  unfold State.spareEffect
  rw [ho]
  rfl

end Sys2Proof.Machine
end

section
open Sys2Proof Sys2Proof.Machine

/-- Settles O49: the replacement leaves the spare at the core's position, with its bytes moved and nothing else. -/
theorem spareTakesOver : Obligations.SpareTakesOver := by
  unfold Obligations.SpareTakesOver
  intro s o old pos hm hr _ hrun hop hp hpos hne
  have hend : s.spareEnd = (s.coreReplaced o).noOperation.spareResult o.op 0 0 := by
    rw [State.spareEnd_running hrun (fun h3 => absurd (hop.symm.trans h3) (by decide)), State.spareEffect_coreOp hop]
  have htmem : ((s.coreReplaced o).noOperation.spareResult o.op 0 0).mem = s.mem.moveSp old o.spare :=
    (State.spareResult_mem _ _ _ _).trans (State.coreReplaced_mem hp hpos)
  have htunits : ((s.coreReplaced o).noOperation.spareResult o.op 0 0).units = (s.coreReplaced o).units :=
    State.spareResult_units _ _ _ _
  refine ⟨_, congrArg Host.Outcome.next (congrArg State.settle hend), ?_, ?_, fun k hk => ?_, fun a ha => ?_, ?_, ?_⟩
  · unfold State.phys
    rw [htunits]
    exact State.coreReplaced_phys hp hpos
  · rw [State.spareResult_wear]
    rfl
  · rw [htmem, Mem.byte_moveSp hm old o.spare hk, Mem.byte_moveSp_of_not old o.spare (ofSp_ne hne (ofSp_spKey old hk)),
      if_pos (ofSp_spKey old hk)]
    exact ⟨rfl, rfl⟩
  · have hold : ofSp old a = false := eq_false_of_ne_true fun h => by
      obtain ⟨k, hk, rfl⟩ := (ofSp_iff old a).mp h
      exact (ha k hk).2 rfl
    have hspare : ofSp o.spare a = false := eq_false_of_ne_true fun h => by
      obtain ⟨k, hk, rfl⟩ := (ofSp_iff o.spare a).mp h
      exact (ha k hk).1 rfl
    rw [htmem, Mem.byte_moveSp_of_not old o.spare hspare, hold]
    rfl
  · exact (State.fget_spareResult _ _ _ _ _ _).trans (State.coreReplaced_halted hp hpos hr)
  · rw [State.reg_spareResult (s := (s.coreReplaced o).noOperation) (State.regsOk_coreReplaced hp hpos hr), hop]
    rfl
end


section
/-! SUPPORT. Requests for power states, P2 and P3 entry, the refusal of P3 and P3 exit (R515 to R518, R541). -/
namespace Sys2Proof.Machine

/-! ### Requests -/

/-- The low bits of a word that a write through the normal view leaves in its RW bits. -/
theorem bit_viewPut_normal (old w rw : Word) {i : ℕ} (hi : i < 32) :
    bit (viewPut 0 old w rw 0xFFFFFFFF) i = if bit rw i = true then bit w i else bit old i := by
  have hone : (0xFFFFFFFF : Word).getLsbD i = true := by
    revert hi i
    decide
  rw [bit_eq_getLsbD, bit_eq_getLsbD, bit_eq_getLsbD, bit_eq_getLsbD]
  change ((old &&& ~~~(rw &&& 0xFFFFFFFF)) ||| (w &&& rw)).getLsbD i = _
  rw [BitVec.getLsbD_or, BitVec.getLsbD_and, BitVec.getLsbD_not, BitVec.getLsbD_and, BitVec.getLsbD_and, hone]
  cases rw.getLsbD i <;> simp [hi]

/-- REQ as a write of a request leaves it. -/
theorem bits_reqWord (old : Word) (auto : Bool) {r : ℕ} (hr : r < 5) :
    bits (viewPut 0 old (reqWord r auto) 0x107 0xFFFFFFFF) 2 0 = r := by
  have hbits : ∀ r < 5, ∀ auto, ∀ j < 3, bit (reqWord r auto) j = r.testBit j := by decide
  have hrw : ∀ j < 3, bit (0x107 : Word) j = true := by decide
  refine Nat.eq_of_testBit_eq fun j => ?_
  rw [testBit_bits, Nat.zero_add]
  by_cases hj : j < 3
  · rw [bit_viewPut_normal _ _ _ (by omega), if_pos (hrw j hj), hbits r hr auto j hj]
    simp [hj]
  · have hlarge : r.testBit j = false :=
      Nat.testBit_lt_two_pow (Nat.lt_of_lt_of_le hr (Nat.le_trans (by decide : 5 ≤ 2 ^ 3) (Nat.pow_le_pow_right (by decide) (by omega))))
    rw [hlarge]
    simp [hj]

/-- PWR.CTRL with a request written. -/
def State.requested (s : State) (r : ℕ) (auto : Bool) : State :=
  s.setReg (pPwr + 0x040) (viewPut 0 (s.reg (pPwr + 0x040)) (reqWord r auto) 0x107 0xFFFFFFFF)

/-- The register of the requests. -/
def pwrCtrlAt : RegAt := ⟨.pwr, 0, 0, pPwr, 0x040, 0⟩

theorem State.plainWrite_request (s : State) (r : ℕ) (auto : Bool) :
    s.plainWrite pwrCtrlAt (reqWord r auto) 0xFFFFFFFF = s.requested r auto := by
  obtain ⟨hrw, hw1c, hrws⟩ : accMask (Block.pwr.fieldsAt 0x040) .rw = 0x107 ∧ accMask (Block.pwr.fieldsAt 0x040) .w1c = 0
      ∧ accMask (Block.pwr.fieldsAt 0x040) .rws = 0 := by decide
  exact State.plainWrite_rw s pwrCtrlAt (reqWord r auto) 0xFFFFFFFF 0x107 hrw hw1c hrws

section
variable {s : State} (h : s.regsOk) {r : ℕ} (hr : r < 5) (hr1 : r ≠ 1) (auto : Bool)
include h hr

theorem State.fget_requested : (s.requested r auto).fget pPwr F.PWR_CTRL_REQ = r :=
  (congrArg (bits · 2 0) (s.reg_setReg _ _ h)).trans (bits_reqWord _ auto hr)

include hr1

theorem State.pwrCtrl_request :
    s.pwrCtrl pwrCtrlAt (reqWord r auto) 0xFFFFFFFF = (s.requested r auto).reqWritten r := by
  unfold State.pwrCtrl
  dsimp only
  rw [State.plainWrite_request, State.fget_requested h hr auto, if_neg (by omega)]
  refine if_neg ?_
  rintro (hen | ⟨hview, -⟩)
  · exact absurd hen (by decide)
  · exact hview rfl

theorem State.putWord_request {rq : Requester} (hs : s.serves rq (pPwr + 0x040)) :
    s.putWord (pPwr + 0x040) rq (reqWord r auto) = ((s.requested r auto).reqWritten r).settle := by
  refine State.putWord_page (b := .pwr) (i := 0) (off := 0x040) (by decide) (by decide) (by decide) (by decide) (by decide)
    (by decide) rfl hs ?_
  unfold State.writeLoc
  rw [State.headerWrite_none _ _ _ _ (show 0x040 ≤ 0x040 from le_rfl)]
  exact congrArg (·, true) ((if_pos rfl).trans (State.pwrCtrl_request h hr hr1 auto))

end

/-! ### P3 -/

/-- A step for each stack that changes the stack's controller alone. -/
def ChangesStack (f : HbmCtl → HbmCtl) (g : State → ℕ → State) : Prop :=
  ∀ (s : State) (n : ℕ), Tab.rising s.hbm = true →
    Tab.rising (g s n).hbm = true ∧ ∀ k, (g s n).hbmc k = if k = n then f (s.hbmc n) else s.hbmc k

theorem ChangesStack.foldl {f : HbmCtl → HbmCtl} {g : State → ℕ → State} (hg : ChangesStack f g) (k : ℕ) {l : List ℕ}
    (hl : l.Nodup) : ∀ {s : State}, Tab.rising s.hbm = true →
      (l.foldl g s).hbmc k = if k ∈ l then f (s.hbmc k) else s.hbmc k := by
  induction l with
  | nil => exact fun _ => rfl
  | cons n l ih =>
    intro s hr
    obtain ⟨hn, hl⟩ := List.nodup_cons.mp hl
    obtain ⟨hrn, hstep⟩ := hg s n hr
    rw [List.foldl_cons, ih hl hrn, hstep]
    by_cases hk : k = n
    · subst hk
      simp [hn]
    · simp [hk]

theorem ChangesStack.stacks {f : HbmCtl → HbmCtl} {g : State → ℕ → State} (hg : ChangesStack f g) {s : State}
    (hr : Tab.rising s.hbm = true) {k : ℕ} (hk : k < 32) : ((List.range 32).foldl g s).hbmc k = f (s.hbmc k) := by
  rw [hg.foldl k List.nodup_range hr, if_pos (List.mem_range.mpr hk)]

theorem changesStack_setHbmc (f : HbmCtl → HbmCtl) : ChangesStack f fun s n => s.setHbmc n (f (s.hbmc n)) := fun _ n hr =>
  ⟨Tab.rising_set _ _ _ _ hr, fun k => State.hbmc_setHbmc hr n k _⟩

/-! #### Entry -/

/-- What P3 keeps of a controller. -/
def selfRefreshed (h : HbmCtl) : HbmCtl :=
  if h.st = .active then { HbmCtl.init with st := .selfRefresh, inMap := h.inMap, keep := true, scrub := h.scrub }
  else { HbmCtl.init with st := h.st, inMap := h.inMap }

/-- Are key slots kept over P3? -/
def State.keepsKeys (s : State) : Bool := s.sec.dbg == 0 && s.fget pSec F.SEC_POLICY_RETAIN_KEYS == 1

/-- The key slots erased, unless they are kept. -/
def State.p3Keys (s : State) : State := if s.keepsKeys then s else s.eraseSlots fun _ => true

/-- The scratchpads lost and the stacks in self-refresh. -/
def State.p3Stacks (s : State) : State :=
  (List.range 32).foldl (fun s n => s.setHbmc n (selfRefreshed (s.hbmc n))) { s with mem := s.mem.loseSp }

/-- The rails off: whether time is held, and the debug level, as given. -/
def State.railsOff (s : State) (held : Bool) (dbg : ℕ) : State :=
  let s := s.loseVolatile aonReg
  { s with sec := { s.sec with dbg := dbg },
           pwr := { PwrSt.init with retained := true, timeHeld := held },
           time := { TimeSt.init with expect := s.time.expect },
           boot := { s.boot with running := false, ready := false, hostReady := 0, heartbeat := false, status := 0 } }

/-- The module without its rails. -/
def State.p3Off (s : State) : State :=
  s.p3Stacks.railsOff (s.fget pTime F.TIME_STAT_STATE == 2 || s.fget pTime F.TIME_STAT_STATE == 3)
    (if s.sec.dbg = 2 then 0 else s.sec.dbg)

/-- The state P3 shown, with the throttle input and the strapped class. -/
def State.p3Shown (s : State) (thr : Bool) (cls : ℕ) : State :=
  let s := (s.fset pPwr F.PWR_STAT_STATE 3).fset pPwr F.PWR_STAT_CLASS cls
  let s := if thr then (s.fset pPwr F.PWR_STAT_THR 1).setAck 1 else s
  s.finc pPwr F.PWR_AON_STAT_P3_COUNT

theorem p3Entry_met {s : State} (hf : s.pwr.p3From.isSome = true) (hu : s.p3Unmet = 0) (hp : s.powered = true) :
    p3Entry s = s.p3Keys.p3Off.p3Shown s.p3Keys.throttled (s.p3Keys.fget pPwr F.PWR_STAT_CLASS) := by
  have hready : ¬(s.pwr.p3From.isNone = true ∨ s.p3Unmet ≠ 0 ∨ (!s.powered) = true) := by
    rw [hu, hp, ← Option.not_isSome, hf]
    decide
  unfold p3Entry
  exact (if_neg hready).trans rfl

section
variable (s : State)

theorem State.p3Shown_keeps {α : Type} {part : State → α} (h : ∀ (s : State) a w, part (s.setReg a w) = part s)
    (thr : Bool) (cls : ℕ) : part (s.p3Shown thr cls) = part s := by
  unfold State.p3Shown
  refine (h _ _ _).trans ?_
  cases thr
  · exact (h _ _ _).trans (h _ _ _)
  · exact (h _ _ _).trans ((h _ _ _).trans ((h _ _ _).trans (h _ _ _)))

theorem State.p3Keys_keeps {α : Type} {part : State → α} (h : ∀ p, part (s.eraseSlots p) = part s) :
    part s.p3Keys = part s := by
  unfold State.p3Keys
  split
  · rfl
  · exact h _

theorem State.reg_eraseSlots (p : ℕ → Bool) {a : ℕ} (ha : a < pSec ∨ pSec + 0x040 ≤ a) : (s.eraseSlots p).reg a = s.reg a := by
  unfold State.eraseSlots
  exact State.reg_event_ne _ _ ha

theorem State.regsOk_eraseSlots (h : s.regsOk) (p : ℕ → Bool) : (s.eraseSlots p).regsOk := by
  unfold State.eraseSlots
  refine State.regsOk_event ?_ _ _
  exact h

theorem State.eraseSlots_mem (p : ℕ → Bool) : (s.eraseSlots p).mem = s.mem := by
  unfold State.eraseSlots
  exact State.event_mem _ _ _

theorem State.eraseSlots_hbm (p : ℕ → Bool) : (s.eraseSlots p).hbm = s.hbm := by
  unfold State.eraseSlots
  exact State.event_hbm _ _ _

theorem State.p3Stacks_mem : s.p3Stacks.mem = s.mem.loseSp := by
  unfold State.p3Stacks
  exact foldl_keeps State.mem (by intros; rfl) _ _

theorem State.p3Stacks_regs : s.p3Stacks.regs = s.regs := by
  unfold State.p3Stacks
  exact foldl_keeps State.regs (by intros; rfl) _ _

theorem State.p3Stacks_sec : s.p3Stacks.sec = s.sec := by
  unfold State.p3Stacks
  exact foldl_keeps State.sec (by intros; rfl) _ _

/-- What the loss of the rails leaves. -/
theorem State.railsOff_parts (held : Bool) (dbg : ℕ) : (s.railsOff held dbg).mem = s.mem
    ∧ (s.railsOff held dbg).hbm = s.hbm ∧ (s.railsOff held dbg).sec.keys = s.sec.keys
    ∧ (s.railsOff held dbg).sec.dbg = dbg ∧ (s.railsOff held dbg).boot.running = false := ⟨rfl, rfl, rfl, rfl, rfl⟩

theorem State.reg_railsOff (held : Bool) (dbg a : ℕ) :
    (s.railsOff held dbg).reg a = if aonReg a = true then s.reg a else regRst a := s.reg_loseVolatile aonReg a

theorem State.reg_p3Off {a : ℕ} (ha : aonReg a = true) : s.p3Off.reg a = s.reg a := by
  unfold State.p3Off
  rw [State.reg_railsOff, if_pos ha]
  exact State.reg_of_regs s.p3Stacks_regs a

theorem State.p3Off_mem : s.p3Off.mem = s.mem.loseSp := by
  unfold State.p3Off
  obtain ⟨hmem, -⟩ := s.p3Stacks.railsOff_parts (s.fget pTime F.TIME_STAT_STATE == 2 || s.fget pTime F.TIME_STAT_STATE == 3)
    (if s.sec.dbg = 2 then 0 else s.sec.dbg)
  rw [hmem, s.p3Stacks_mem]

theorem State.p3Off_sec : s.p3Off.sec.keys = s.sec.keys ∧ s.p3Off.sec.dbg ≠ 2 := by
  unfold State.p3Off
  obtain ⟨-, -, hkeys, hdbg, -⟩ := s.p3Stacks.railsOff_parts
    (s.fget pTime F.TIME_STAT_STATE == 2 || s.fget pTime F.TIME_STAT_STATE == 3) (if s.sec.dbg = 2 then 0 else s.sec.dbg)
  rw [hkeys, hdbg, s.p3Stacks_sec]
  refine ⟨rfl, ?_⟩
  split
  · decide
  · assumption

theorem State.p3Off_running : s.p3Off.boot.running = false := by
  unfold State.p3Off
  obtain ⟨-, -, -, -, hrun⟩ := s.p3Stacks.railsOff_parts
    (s.fget pTime F.TIME_STAT_STATE == 2 || s.fget pTime F.TIME_STAT_STATE == 3) (if s.sec.dbg = 2 then 0 else s.sec.dbg)
  exact hrun

end

theorem State.regsOk_railsOff {s : State} (h : s.regsOk) (held : Bool) (dbg : ℕ) : (s.railsOff held dbg).regsOk :=
  State.regsOk_loseVolatile h aonReg

theorem State.regsOk_p3Off {s : State} (h : s.regsOk) : s.p3Off.regsOk := by
  unfold State.p3Off
  exact State.regsOk_railsOff (State.regsOk_of_regs s.p3Stacks_regs h) _ _

theorem State.hbmc_p3Off {s : State} (h : Tab.rising s.hbm = true) {n : ℕ} (hn : n < 32) :
    s.p3Off.hbmc n = selfRefreshed (s.hbmc n) := by
  have hstacks : s.p3Stacks.hbmc n = selfRefreshed (s.hbmc n) := by
    unfold State.p3Stacks
    exact (changesStack_setHbmc selfRefreshed).stacks (s := { s with mem := s.mem.loseSp }) h hn
  unfold State.p3Off
  obtain ⟨-, hhbm, -⟩ := s.p3Stacks.railsOff_parts (s.fget pTime F.TIME_STAT_STATE == 2 || s.fget pTime F.TIME_STAT_STATE == 3)
    (if s.sec.dbg = 2 then 0 else s.sec.dbg)
  exact (State.hbmc_of_hbm hhbm n).trans hstacks

theorem Mem.byte_loseSp (m : Mem) {a : ℕ} (ha : a < spBase) : m.loseSp.byte a = m.byte a := by
  unfold Mem.byte Mem.loseSp
  dsimp only
  rw [Tab.get_filter_key Mem.blank (fun a => decide (a < spBase)), if_pos (decide_eq_true ha)]

section
variable {s : State} (h : s.regsOk) (thr : Bool) {cls : ℕ}
include h

/-- The fields of STAT after it has been shown. -/
theorem State.fget_p3Shown (hc : cls < 4) :
    (s.p3Shown thr cls).pState = 3 ∧ (s.p3Shown thr cls).fget pPwr F.PWR_STAT_CLASS = cls := by
  have h1 := State.regsOk_fset h pPwr F.PWR_STAT_STATE 3
  have h2 := State.regsOk_fset h1 pPwr F.PWR_STAT_CLASS cls
  have h3 := State.regsOk_fset h2 pPwr F.PWR_STAT_THR 1
  have hstate : ((s.fset pPwr F.PWR_STAT_STATE 3).fset pPwr F.PWR_STAT_CLASS cls).fget pPwr F.PWR_STAT_STATE = 3 := by
    rw [State.fget_fset_ne _ _ _ _ _ h1 (by decide) (by decide), State.fget_fset _ _ _ _ h (by decide)]
    rfl
  have hclass : ((s.fset pPwr F.PWR_STAT_STATE 3).fset pPwr F.PWR_STAT_CLASS cls).fget pPwr F.PWR_STAT_CLASS = cls := by
    rw [State.fget_fset _ _ _ _ h1 (by decide)]
    exact Nat.mod_eq_of_lt hc
  unfold State.p3Shown State.pState
  dsimp only
  cases thr
  · rw [if_neg (by decide), State.fget_finc_ne h2 _ _ (by decide) (by decide), State.fget_finc_ne h2 _ _ (by decide) (by decide)]
    exact ⟨hstate, hclass⟩
  · have h4 := State.regsOk_fset h3 pPwr F.PWR_STAT_ACK 1
    unfold State.setAck
    rw [if_pos rfl, State.fget_finc_ne h4 _ _ (by decide) (by decide), State.fget_finc_ne h4 _ _ (by decide) (by decide),
      State.fget_fset_ne _ _ _ _ _ h3 (by decide) (by decide), State.fget_fset_ne _ _ _ _ _ h3 (by decide) (by decide),
      State.fget_fset_ne _ _ _ _ _ h2 (by decide) (by decide), State.fget_fset_ne _ _ _ _ _ h2 (by decide) (by decide)]
    exact ⟨hstate, hclass⟩

end

/-- No register but STAT and the counters of the always-on domain is shown. -/
theorem State.reg_p3Shown (s : State) (thr : Bool) (cls : ℕ) {a : ℕ} (h44 : a ≠ pPwr + 0x044) (h80 : a ≠ pPwr + 0x080) :
    (s.p3Shown thr cls).reg a = s.reg a := by
  unfold State.p3Shown State.setAck
  dsimp only
  rw [State.reg_finc_ne _ _ _ _ h80]
  cases thr
  · rw [if_neg (by decide), State.reg_fset_ne _ _ _ _ h44, State.reg_fset_ne _ _ _ _ h44]
  · rw [if_pos rfl, State.reg_fset_ne _ _ _ _ h44, State.reg_fset_ne _ _ _ _ h44, State.reg_fset_ne _ _ _ _ h44,
      State.reg_fset_ne _ _ _ _ h44]

theorem selfRefreshed_active {h : HbmCtl} (ha : h.st = .active) : (selfRefreshed h).st = .selfRefresh := by
  unfold selfRefreshed
  rw [if_pos ha]

/-- The security page's header holds no register of the always-on domain, nor STAT. -/
theorem aonReg_sec {a : ℕ} (h : aonReg a = true) : a < pSec ∨ pSec + 0x040 ≤ a := by
  have hsec : pSec = 0x30000 := rfl
  have hcdm : pCdm = 0x20000 := rfl
  have hhbm : pHbm 0 = 0x100000 := rfl
  have hpwr : pPwr = 0x44000 := rfl
  have htime : pTime = 0x40000 := rfl
  have hsumac : pSumac = 0x4C000 := rfl
  unfold aonReg flashReg pendReg at h
  simp only [Bool.or_eq_true, Bool.and_eq_true, beq_iff_eq, decide_eq_true_eq] at h
  omega

/-- STAT of the power manager goes with the rails. -/
theorem aonReg_stat : aonReg (pPwr + 0x044) = false := by decide

/-- Entry leaves the always-on registers but its own counter. -/
theorem State.reg_p3Keys (s : State) {a : ℕ} (ha : a < pSec ∨ pSec + 0x040 ≤ a) : s.p3Keys.reg a = s.reg a :=
  s.p3Keys_keeps (part := fun t => t.reg a) fun p => s.reg_eraseSlots p ha

theorem State.regsOk_p3Keys {s : State} (h : s.regsOk) : s.p3Keys.regsOk := by
  unfold State.p3Keys
  split
  · exact h
  · exact s.regsOk_eraseSlots h _

theorem State.p3Keys_kept {s : State} (hd : s.sec.dbg = 0) (hr : s.fget pSec F.SEC_POLICY_RETAIN_KEYS = 1) : s.p3Keys = s := by
  refine if_pos ?_
  unfold State.keepsKeys
  rw [hd, hr]
  rfl

/-! #### Refusal and exit -/

theorem State.reg_newNonce (s : State) {a : ℕ} (ha : a < pSec + 0x080 ∨ pSec + 0x0A0 ≤ a) : s.newNonce.reg a = s.reg a := by
  unfold State.newNonce
  refine foldl_keeps_mem (fun t : State => t.reg a) (fun t i hi => ?_) _
  have hlt : i < 8 := List.mem_range.mp hi
  exact State.reg_setReg_ne t (by omega) _

theorem State.newNonce_pwr (s : State) : s.newNonce.pwr = s.pwr := by
  unfold State.newNonce
  exact foldl_keeps State.pwr (by intros; rfl) _ _

/-- The REFUSE field shown with a reason. -/
def State.refused (s : State) (why : ℕ) : State :=
  { s.fset pPwr F.PWR_AON_STAT_REFUSE why with pwr := { s.pwr with p3From := none } }

theorem State.refused_regs (s : State) (why : ℕ) : (s.refused why).regs = (s.fset pPwr F.PWR_AON_STAT_REFUSE why).regs := rfl

theorem p3Timeout_unmet {s : State} (hf : s.pwr.p3From.isSome = true) (hu : s.p3Unmet ≠ 0) :
    p3Timeout s = (s.refused s.p3Unmet).newNonce.event pPwr F.PWR_PG_EVT_P3_REFUSED := by
  have hwaits : ¬(s.pwr.p3From.isNone = true ∨ s.p3Unmet = 0) := by
    rw [← Option.not_isSome, hf]
    simpa using hu
  unfold p3Timeout
  exact (if_neg hwaits).trans rfl

theorem State.p3Unmet_lt (s : State) : s.p3Unmet < 16 := by
  unfold State.p3Unmet
  split
  · decide
  · split
    · decide
    · split <;> decide

/-- The refusal writes no field of the power manager but REFUSE. -/
theorem State.fget_refusal (s : State) (why : ℕ) (f : FRef) (hf : 0x040 ≤ f.off) :
    ((s.refused why).newNonce.event pPwr F.PWR_PG_EVT_P3_REFUSED).fget pPwr f
      = (s.fset pPwr F.PWR_AON_STAT_REFUSE why).fget pPwr f := by
  have hpwr : pPwr = 0x44000 := rfl
  have hsec : pSec = 0x30000 := rfl
  have hnonce : (s.refused why).newNonce.reg (pPwr + f.off) = (s.refused why).reg (pPwr + f.off) :=
    State.reg_newNonce _ (by omega)
  refine (State.fget_event _ _ _ _ hf).trans (congrArg (bits · f.hi f.lo) (hnonce.trans ?_))
  exact State.reg_of_regs (s.refused_regs why) _

/-- A stack in self-refresh trains again. -/
def retrained (h : HbmCtl) : HbmCtl := if h.st = .selfRefresh then { h with st := .training } else h

/-- The step of a P3 exit for one stack. -/
def State.retrain (s : State) (n : ℕ) : State :=
  if (s.hbmc n).st = .selfRefresh then s.modHbmc n fun h => { h with st := .training } else s

theorem changesStack_retrain : ChangesStack retrained State.retrain := by
  intro s n hr
  by_cases hst : (s.hbmc n).st = .selfRefresh
  · have hstep : s.retrain n = s.setHbmc n (retrained (s.hbmc n)) := by
      unfold State.retrain State.modHbmc retrained
      rw [if_pos hst, if_pos hst]
    rw [hstep]
    exact changesStack_setHbmc retrained s n hr
  · have hstep : s.retrain n = s := if_neg hst
    have hsame : retrained (s.hbmc n) = s.hbmc n := if_neg hst
    rw [hstep, hsame]
    refine ⟨hr, fun k => ?_⟩
    split
    next hk => rw [hk]
    next => rfl

section
variable (s : State) (n : ℕ)

theorem State.retrain_pwr : (s.retrain n).pwr = s.pwr := by
  unfold State.retrain
  split <;> rfl

theorem State.retrain_boot : (s.retrain n).boot = s.boot := by
  unfold State.retrain
  split <;> rfl

theorem State.retrain_mem : (s.retrain n).mem = s.mem := by
  unfold State.retrain
  split <;> rfl

end

/-- The module awake, its time unit running. -/
def State.awake (s : State) : State :=
  { s.resumeTime with boot := { s.resumeTime.boot with wake := false }, pwr := { s.resumeTime.pwr with retained := false } }

theorem State.resumeTime_rest (s : State) : s.resumeTime.mem = s.mem ∧ s.resumeTime.hbm = s.hbm := by
  unfold State.resumeTime
  split <;> exact ⟨rfl, rfl⟩

theorem p3Exit_awake {s : State} (b : BootIn) (hp : s.pState = 3) (hw : s.boot.wake = true) :
    p3Exit b s = ((List.range 32).foldl State.retrain s.awake).start b true := by
  have hexit : ¬(s.pState ≠ 3 ∨ (!s.boot.wake) = true) := by
    rw [hp, hw]
    decide
  unfold p3Exit
  exact (if_neg hexit).trans rfl

/-- The stacks that train again. -/
theorem State.hbmc_retrain {s : State} (h : Tab.rising s.hbm = true) {n : ℕ} (hn : n < 32) :
    ((List.range 32).foldl State.retrain s.awake).hbmc n = retrained (s.hbmc n) := by
  obtain ⟨-, hhbm⟩ := s.resumeTime_rest
  have hawake : s.awake.hbm = s.hbm := hhbm
  rw [changesStack_retrain.stacks (by rw [hawake]; exact h) hn, State.hbmc_of_hbm hawake]

theorem State.enterP2_halted {s : State} (hp : s.pState ≤ 1) (hh : s.allHalted = true) : s.enterP2 = s.setP 2 :=
  if_pos ⟨hp, hh⟩

end Sys2Proof.Machine
end

section
open Sys2Proof Sys2Proof.Machine

/-- Settles O41: a request is a write of PWR.CTRL and its effect; P3 entry step by step, its refusal and its end. -/
theorem powerStates : Obligations.PowerStates := by
  unfold Obligations.PowerStates
  refine ⟨fun s rq auto hr hs => ⟨?_, ?_, fun hb => ⟨?_, ?_⟩, fun hb => ⟨?_, ?_⟩⟩, fun s hm hr ht =>
    ⟨fun ha hp hh => ?_, fun hf hu hp => ?_, fun hf hu => ?_, fun b hp hw => ?_⟩⟩
  · exact congrArg Host.Outcome.next (State.putWord_request hr (by decide) (by decide) auto hs)
  · exact congrArg Host.Outcome.next (State.putWord_request hr (by decide) (by decide) auto hs)
  · refine congrArg Host.Outcome.next ((State.putWord_request hr (r := 3) (by decide) (by decide) auto hs).trans ?_)
    exact congrArg State.settle (if_pos hb)
  · refine congrArg Host.Outcome.next ((State.putWord_request hr (r := 4) (by decide) (by decide) auto hs).trans ?_)
    exact congrArg State.settle (if_pos hb)
  · refine congrArg Host.Outcome.next ((State.putWord_request hr (r := 3) (by decide) (by decide) auto hs).trans ?_)
    exact congrArg State.settle (if_neg (ne_true_of_eq_false hb))
  · refine congrArg Host.Outcome.next ((State.putWord_request hr (r := 4) (by decide) (by decide) auto hs).trans ?_)
    exact congrArg State.settle (if_neg (ne_true_of_eq_false hb))
  · exact congrArg Host.Outcome.next ((if_pos ha).trans (State.enterP2_halted hp hh))
  · obtain ⟨hhbm, -, -⟩ := ht
    have hoff := State.regsOk_p3Off (State.regsOk_p3Keys hr)
    have hclass : s.p3Keys.fget pPwr F.PWR_STAT_CLASS = s.fget pPwr F.PWR_STAT_CLASS :=
      congrArg (bits · 9 8) (s.reg_p3Keys (.inr (by decide)))
    obtain ⟨hstate, hcls⟩ := State.fget_p3Shown hoff s.p3Keys.throttled (cls := s.p3Keys.fget pPwr F.PWR_STAT_CLASS)
      (bits_lt _ 9 8)
    obtain ⟨hkeys, hdbg⟩ := s.p3Keys.p3Off_sec
    have hkeep {α : Type} (part : State → α) (h : ∀ (s : State) a w, part (s.setReg a w) = part s) :=
      s.p3Keys.p3Off.p3Shown_keeps h s.p3Keys.throttled (s.p3Keys.fget pPwr F.PWR_STAT_CLASS)
    refine ⟨_, congrArg Host.Outcome.next (p3Entry_met hf hu hp), hstate, fun a ha => ?_, fun n hn hact => ?_,
      fun a ha hne => ?_, hcls.trans hclass, fun hd hret => ?_, ?_, ?_⟩
    · rw [hkeep State.mem (fun s a w => s.setReg_mem a w), State.p3Off_mem,
        s.p3Keys_keeps (part := State.mem) s.eraseSlots_mem, Mem.byte_loseSp _ ha]
    · have hkept : s.p3Keys.hbm = s.hbm := s.p3Keys_keeps (part := State.hbm) s.eraseSlots_hbm
      rw [State.hbmc_of_hbm (hkeep State.hbm fun s a w => s.setReg_hbm a w), State.hbmc_p3Off (by rw [hkept]; exact hhbm) hn,
        State.hbmc_of_hbm hkept, selfRefreshed_active hact]
    · have h44 : a ≠ pPwr + 0x044 := fun e => by
        rw [e, aonReg_stat] at ha
        contradiction
      rw [State.reg_p3Shown _ _ _ h44 hne, State.reg_p3Off _ ha, State.reg_p3Keys _ (aonReg_sec ha)]
    · rw [hkeep (fun t => t.sec.keys) (fun _ _ _ => rfl), hkeys, State.p3Keys_kept hd hret]
    · rw [hkeep (fun t => t.sec.dbg) (fun _ _ _ => rfl)]
      exact hdbg
    · rw [hkeep (fun t => t.boot.running) (fun _ _ _ => rfl), State.p3Off_running]
  · refine ⟨_, congrArg Host.Outcome.next (p3Timeout_unmet hf hu), ?_, ?_, ?_⟩
    · rw [State.fget_refusal _ _ _ (by decide), State.fget_fset _ _ _ _ hr (by decide)]
      exact Nat.mod_eq_of_lt s.p3Unmet_lt
    · rw [State.event_pwr, State.newNonce_pwr]
      rfl
    · exact (State.fget_refusal _ _ _ (by decide)).trans
        (s.fget_fset_ne pPwr F.PWR_AON_STAT_REFUSE F.PWR_STAT_STATE _ hr (by decide) (by decide))
  · obtain ⟨hhbm, -, -⟩ := ht
    obtain ⟨hmem, -⟩ := s.resumeTime_rest
    refine ⟨(List.range 32).foldl State.retrain s.awake, ?_, ?_, ?_, fun n hn => ?_,
      congrArg Host.Outcome.next (p3Exit_awake b hp hw)⟩
    · rw [foldl_keeps State.pwr State.retrain_pwr]
      rfl
    · rw [foldl_keeps State.boot State.retrain_boot]
      rfl
    · rw [foldl_keeps State.mem State.retrain_mem]
      exact hmem
    · rw [State.hbmc_retrain hhbm hn]
      unfold retrained
      split <;> rfl
end


section
/-! SUPPORT. Straps, the start, load mode and the SMBus interface (R534 to R540, R552, R553). -/
namespace Sys2Proof.Machine

/-! ### Straps, phases and the watchdog -/

theorem strapSample_low {s : State} (pins : BitVec 12) (b : BootIn) (hp : s.boot.pwrOk = true) (hr : s.boot.resetLow = true)
    (hw : s.boot.waitSample = false) : strapSample pins b s
      = { s with boot := { s.boot with samples := (pins.toNat :: s.boot.samples).take 3 } } := by
  have hsampled : ¬((!s.boot.pwrOk) = true ∨ (!(s.boot.resetLow || s.boot.waitSample)) = true) := by
    simp [hp, hr]
  unfold strapSample
  refine (if_neg hsampled).trans (if_neg ?_)
  exact fun h => absurd (h.1.symm.trans hw) (by decide)

theorem State.setPhase_boot (s : State) (n : ℕ) : (s.setPhase n).boot = s.boot := by
  unfold State.setPhase
  split
  · rfl
  · exact State.event_boot _ _ _

theorem modResetRelease_sampled {s : State} (b : BootIn) (hp : s.boot.pwrOk = true) (hr : s.boot.resetLow = true)
    (hl : 3 ≤ s.boot.samples.length) : modResetRelease b s
      = (({ s with boot := { s.boot with resetLow := false } } : State).setPhase 1).startFull b := by
  have hlow : ¬((!s.boot.pwrOk) = true ∨ (!s.boot.resetLow) = true) := by
    rw [hp, hr]
    decide
  unfold modResetRelease
  refine (if_neg hlow).trans (if_neg ?_)
  rw [State.setPhase_boot]
  exact Nat.not_lt.mpr hl

theorem runPhase_due {s : State} (hp : s.powered = true) (hr : s.boot.resetLow = false)
    (h1 : s.fget pSumac F.SUMAC_PHASE_PHASE = 1) : runPhase s = s.setPhase 2 :=
  if_pos ⟨hp, by rw [hr]; rfl, h1⟩

theorem watchdog_runs {s : State} (b : BootIn) (hp : s.powered = true) (hr : s.boot.resetLow = false)
    (hw : s.boot.waitSample = false) (hl : s.boot.loading = false) (hf : s.boot.fault = false) :
    watchdog b s = (s.modReset true).start b false := by
  unfold watchdog
  rw [hp, hr, hw, hl, hf]
  rfl

theorem heartbeat_runs {s : State} (hp : s.powered = true) (hr : s.boot.resetLow = false) (hf : s.boot.fault = false)
    (h2 : 2 ≤ s.fget pSumac F.SUMAC_PHASE_PHASE) : heartbeat s
      = ({ s with boot := { s.boot with heartbeat := !s.boot.heartbeat } } : State).send (.pin 5 (!s.boot.heartbeat)) := by
  unfold heartbeat
  rw [hp, hr, hf]
  refine if_neg ?_
  simpa using Nat.lt_of_succ_le h2

/-! ### Load mode -/

/-- The state in which the boot ROM checks the image of load mode: its doorbell and its word are taken. -/
def State.imageTaken (s : State) : State :=
  let d := s.setReg (pMbx s.loadPort + 0x0C8) (setBits (s.reg (pMbx s.loadPort + 0x0C8)) 0 0 0)
  d.setReg (pMbx s.loadPort + 0x0C0) (setBits (d.reg (pMbx s.loadPort + 0x0C0)) 0 0 0)

/-- A write of F2H word 0 by the boot ROM changes registers and raises an event at most. -/
theorem State.regWrite_f2h_keeps {α : Type} {part : State → α} (hset : ∀ (s : State) a w, part (s.setReg a w) = part s)
    (hev : ∀ (s : State) p f, part (s.event p f) = part s) (s : State) (p : HostPort) (w : Word) :
    part (s.regWrite .firmware (pMbx p + 0x080) 0xF w).1 = part s := by
  cases hon : s.hostOn p with
  | false =>
    have hlow : (pMbx p + 0x080) % 0x400 < aIdxAddr := by cases p <;> decide
    have hreg : s.regLoc (pMbx p + 0x080) = some (mbxReg p 0x080 0) := s.regLoc_mbx p (off := 0x080) 0 (by decide) (by decide)
    rw [s.regWrite_direct _ _ _ (State.isIdx_low hlow (.inl rfl)) (State.isIdx_low hlow (.inr rfl)),
      State.regWrite1_some _ _ _ hreg, State.pageWritable_mbx, hon]
    rfl
  | true =>
    have hw : s.regWrite .firmware (pMbx p + 0x080) 0xF w
        = s.mbxWrite .firmware p (mbxReg p 0x080 0) (pMbx p + 0x080) (w &&& beMask 0xF) (beMask 0xF) :=
      s.regWrite_mbx 0 0xF w hon (show 0x040 ≤ 0x080 by decide) (by decide) (by decide)
    rw [hw]
    cases hb : bit (s.reg ((mbxReg p 0x080 0).page + 0x0C4)) (wordNo (mbxReg p 0x080 0)) with
    | false =>
      have hplain : s.plainWrite (mbxReg p 0x080 0) (w &&& beMask 0xF) (beMask 0xF) = s.setReg (pMbx p + 0x080) w :=
        State.plainWrite_mbx p w (.inl ⟨0, .inr rfl⟩)
      rw [s.mbxWrite_f2h_empty p _ _ _ (show 0x080 ≤ 0x080 by decide) (show 0x080 < 0x0C0 by decide) hb,
        hplain]
      exact (hev _ _ _).trans ((hset _ _ _).trans (hset _ _ _))
    | true =>
      rw [s.mbxWrite_f2h_full p _ _ _ (show 0x080 ≤ 0x080 by decide) (show 0x080 < 0x0C0 by decide) hb]
      unfold State.capture
      split
      · rfl
      · exact (hset _ _ _).trans (hset _ _ _)

theorem loadModeImage_rung {s : State} (b : BootIn) (hl : s.boot.loading = true) (hp : s.powered = true)
    (hd : bit (s.reg (pMbx s.loadPort + 0x0C8)) 0 = true) :
    loadModeImage b s =
      let img := s.imageTaken.bufferBytes 0 (min (s.reg (pMbx s.loadPort + 0x040)).toNat 0x4000000)
      let src := if s.imageTaken.bootSrc = 3 then 3 else 2
      let u := (s.imageTaken.acceptImage img src).fset pCdm F.CDM_BOOT_STAT_LOAD_WAIT 0
      let v := ({ u with boot := { u.boot with loading := false, hostReady := 0, buffer := [] } } : State).stepDone 5 false src
      if s.imageTaken.imageReason img 1 ≠ 0 then
        (s.imageTaken.regWrite .firmware (pMbx s.loadPort + 0x080) 0xF (BitVec.ofNat 32 (s.imageTaken.imageReason img 1))).1
      else runSteps b ((bootSteps b (v.fget pCdm F.CDM_BOOT_STAT_RESUME == 1)).filter fun x => 6 ≤ x.1) v := by
  have hready : ¬((!s.boot.loading) = true ∨ (!s.powered) = true ∨ (!bit (s.reg (pMbx s.loadPort + 0x0C8)) 0) = true) := by
    rw [hl, hp, hd]
    decide
  unfold loadModeImage
  exact (if_neg hready).trans rfl

/-! ### The SMBus interface -/

/-- The STATUS record (R553). -/
def State.statusRecord (s : State) : List Byte :=
  leBytes 1 s.pState ++ leBytes 1 (s.rpb.lc % 4 * 64 + s.sec.dbg % 4 * 16 + s.statusPins) ++ leBytes 2 (s.fget pCdm F.CDM_DEG_BITS)
    ++ leBytes 4 (s.reg (pCdm + 0x040)).toNat ++ leBytes 2 s.alertSrc ++ leBytes 1 (b2n s.boot.fault) ++ leBytes 1 s.timeState
    ++ leBytes 4 s.bootNum

theorem State.statusRecord_length (s : State) : s.statusRecord.length = 16 := by
  unfold State.statusRecord
  simp [leBytes_length]

section
variable {s : State} (hl : s.mctpLive = true)
include hl

theorem State.powered_of_mctpLive : s.powered = true := by
  unfold State.mctpLive at hl
  exact (Bool.and_eq_true_iff.mp hl).1

theorem setEndpointId_live (inst : Fin 32) (op : Fin 4) (eid : Byte) : setEndpointId inst op eid s =
    if 2 ≤ op.val ∨ eid = 0 ∨ eid = 255 then s.mctpAnswer inst 1 2 []
    else ({ s with mctp := ⟨eid.toNat⟩ } : State).mctpAnswer inst 1 0 [0, eid, 0] := by
  unfold setEndpointId
  rw [hl]
  rfl

theorem getMctpVersionSupport_live (inst : Fin 32) (type : Byte) : getMctpVersionSupport inst type s =
    if type = 0xFF ∨ type = 0 ∨ type = 0x7F then
      ({ s with freeCtr := s.freeCtr + 4 } : State).mctpAnswer inst 4 0 (1 :: (s.drawBytes 4).1)
    else s.mctpAnswer inst 4 0x80 [] := by
  unfold getMctpVersionSupport
  rw [hl]
  rfl

theorem getVendorDefinedMsgSupport_live (inst : Fin 32) (sel : Byte) : getVendorDefinedMsgSupport inst sel s =
    if sel ≠ 0 then s.mctpAnswer inst 6 2 []
    else ({ s with freeCtr := s.freeCtr + 2 } : State).mctpAnswer inst 6 0
      ([0xFF, 0] ++ beBytes 2 Config.vendorId.toNat ++ (s.drawBytes 2).1) := by
  unfold getVendorDefinedMsgSupport
  rw [hl]
  rfl

variable (hp : s.boot.pwrOk = true) (hr : s.boot.resetLow = false)
include hp hr

theorem State.aonLive_of_mctpLive : s.aonLive = true := by
  have hstate : s.pState ≤ 2 := of_decide_eq_true (State.powered_of_mctpLive hl)
  have h4 : (s.pState != 4) = true := by
    rw [bne_iff_ne]
    omega
  unfold State.aonLive
  rw [h4, hp, hr]
  rfl

/-- A record is served once the start has completed. -/
theorem State.record_live (cmd : ℕ) (inP3 : Bool) (r : List Byte) : s.record cmd inP3 r = s.telemetry cmd 0 r := by
  unfold State.record
  rw [State.aonLive_of_mctpLive hl hp hr, hl]
  rfl

theorem mctpStatus_unsupported {cmd : Byte} (hc : cmd = 0 ∨ 5 < cmd.toNat) : mctpStatus cmd s = s.telemetry cmd.toNat 1 [] := by
  unfold mctpStatus
  rw [State.aonLive_of_mctpLive hl hp hr]
  exact (if_neg (by decide)).trans (if_pos hc)

theorem mctpStatus_record : ∃ r : List Byte, r.length = 16 ∧ mctpStatus 1 s = s.telemetry 1 0 r := by
  have hrecord : mctpStatus 1 s = s.telemetry 1 0 s.statusRecord := by
    unfold mctpStatus
    rw [State.aonLive_of_mctpLive hl hp hr]
    exact (if_neg (by decide)).trans ((if_neg (by decide)).trans (if_neg (by decide)))
  exact ⟨_, s.statusRecord_length, hrecord⟩

theorem mctpPower_record : ∃ r : List Byte, r.length = 16 ∧ mctpPower s = s.telemetry 2 0 r :=
  ⟨_, by simp [leBytes_length], State.record_live hl hp hr 2 true _⟩

theorem mctpThermal_record : ∃ r : List Byte, r.length = 16 ∧ mctpThermal s = s.telemetry 3 0 r :=
  ⟨_, by simp [List.length_flatMap, leBytes_length], State.record_live hl hp hr 3 false _⟩

theorem mctpHealth_record : ∃ r : List Byte, r.length = 16 ∧ mctpHealth s = s.telemetry 4 0 r :=
  ⟨_, by simp [leBytes_length], State.record_live hl hp hr 4 false _⟩

end

/-- The entries of a section. -/
def sectSize (sect : Byte) : ℕ := match sect.toNat with | 0 => 8192 | 1 => 2048 | 2 => 512 | _ => 0

theorem mctpLog_beyond {s : State} (hl : s.mctpLive = true) {i : BitVec 16} {sect : Byte} (hi : sectSize sect ≤ i.toNat) :
    mctpLog i sect s = s.telemetry 5 3 [] := by
  unfold mctpLog
  rw [hl]
  exact (if_neg (by decide)).trans (if_pos hi)

theorem mctpLog_entry {s : State} (hl : s.mctpLive = true) {i : BitVec 16} {sect : Byte} (hi : i.toNat < sectSize sect)
    {bs : List Byte} (he : s.logEntryAt sect.toNat i.toNat = some bs) : mctpLog i sect s = s.record 5 false bs := by
  unfold mctpLog
  rw [hl, he]
  exact (if_neg (by decide)).trans (if_neg (Nat.not_le.mpr hi))

theorem sectSize_none {sect : Byte} (h : 3 ≤ sect.toNat) : sectSize sect = 0 := by
  unfold sectSize
  split
  · omega
  · omega
  · omega
  · rfl

end Sys2Proof.Machine
end

section
open Sys2Proof Sys2Proof.Machine

/-- Settles O54: the start's events, load mode and the MCTP commands, each by the branch of the model that it takes. -/
theorem startAndTelemetry : Obligations.StartAndTelemetry := by
  unfold Obligations.StartAndTelemetry
  refine ⟨⟨fun s pins b hp hr hw => ?_, fun s b hp hr hl => ?_, fun x y z l => rfl, fun s hp hr h1 => ?_,
    fun s b hp hr hw hl hf => ?_, fun s hp hr hf h2 => ?_, fun s b hl hp hd => ?_⟩,
    fun s hl => ⟨fun inst op eid => ?_, fun inst => ?_, fun inst type => ?_, fun inst => ?_, fun inst sel => ?_,
      fun hp hr => ⟨?_, fun cmd hc => ?_, ?_, ?_, ?_, fun i sect h3 => ?_, fun i sect bs hi he => ?_⟩, rfl⟩⟩
  · exact congrArg Host.Outcome.next (strapSample_low pins b hp hr hw)
  · exact congrArg Host.Outcome.next (modResetRelease_sampled b hp hr hl)
  · exact congrArg Host.Outcome.next (runPhase_due hp hr h1)
  · exact congrArg Host.Outcome.next (watchdog_runs b hp hr hw hl hf)
  · exact congrArg Host.Outcome.next (heartbeat_runs hp hr hf h2)
  · have hrun := loadModeImage_rung b hl hp hd
    intro p d t img why src u v
    refine ⟨congrArg Host.Outcome.next hrun, fun hwhy => ?_⟩
    refine ⟨_, congrArg Host.Outcome.next (hrun.trans (if_pos hwhy)), ?_, ?_⟩
    · rw [State.regWrite_f2h_keeps (part := State.boot) (fun s a w => s.setReg_boot a w) (fun s p f => s.event_boot p f)]
      exact hl
    · exact State.regWrite_f2h_keeps (part := State.sec) (fun s a w => s.setReg_sec a w) (fun s p f => s.event_sec p f) _ _ _
  · exact congrArg Host.Outcome.next (setEndpointId_live hl inst op eid)
  · exact congrArg Host.Outcome.next (if_pos hl)
  · exact ⟨_, _, congrArg Host.Outcome.next (getMctpVersionSupport_live hl inst type)⟩
  · exact congrArg Host.Outcome.next (if_pos hl)
  · exact ⟨_, _, congrArg Host.Outcome.next (getVendorDefinedMsgSupport_live hl inst sel)⟩
  · obtain ⟨r, hlen, hrec⟩ := mctpStatus_record hl hp hr
    exact ⟨r, hlen, congrArg Host.Outcome.next hrec⟩
  · exact congrArg Host.Outcome.next (mctpStatus_unsupported hl hp hr hc)
  · obtain ⟨r, hlen, hrec⟩ := mctpPower_record hl hp hr
    exact ⟨r, hlen, congrArg Host.Outcome.next hrec⟩
  · obtain ⟨r, hlen, hrec⟩ := mctpThermal_record hl hp hr
    exact ⟨r, hlen, congrArg Host.Outcome.next hrec⟩
  · obtain ⟨r, hlen, hrec⟩ := mctpHealth_record hl hp hr
    exact ⟨r, hlen, congrArg Host.Outcome.next hrec⟩
  · have hnone : sectSize sect ≤ i.toNat := by rw [sectSize_none h3]; exact Nat.zero_le _
    exact congrArg Host.Outcome.next (mctpLog_beyond hl hnone)
  · exact congrArg Host.Outcome.next ((mctpLog_entry hl hi he).trans (State.record_live hl hp hr 5 false bs))
end
